-- ==== Sys2Proof/Word.lean ====
section
/-! DEFINITION. The byte: the smallest thing a host or a wire can see. -/
namespace Sys2Proof

/-- One byte of a message, of a DOMAIN or of memory. -/
abbrev Byte := BitVec 8

end Sys2Proof
end

