-- ==== Sys2Proof/Syntax.lean ====
section
/-! DEFINITION. The commands that reach the block and what they carry. The opcode table gives its
rows no operand fields, so the operands are the model's (log entry 2): what arrives on a wire, or
what a part of the device observes or measures and the spec leaves to the physical world. -/
namespace Sys2Proof

/-- Where a WDP datagram arrived: on a management port or in-band on a NET port, with the sender's
IPv4 address, or in a PCIe mailbox channel (R73, R88). -/
inductive Transport where
  | mgt (g : Nat) (ip : Nat)
  | inband (port : Nat) (ip : Nat)
  | pcie (ch : Nat)
  deriving DecidableEq, Repr

/-- A WDP datagram: header, payload and tag as they arrive, and the UDP port it is sent to, of no meaning in a mailbox
channel. -/
structure Datagram where
  bytes : List Byte
  port : Nat := 4870
  deriving DecidableEq, Repr

/-- Who writes a command object: a session number (0x0100 + node-ID for CANopen, 0x0200 for NMOS)
and the code of its access level. -/
structure Requester where
  sess : Nat
  level : Nat
  deriving DecidableEq, Repr

/-- A dictionary object. -/
structure ObjKey where
  idx : Nat
  sub : Nat
  deriving DecidableEq, Repr

/-- A composition target: an output, or the graphics layer that a job list draws. -/
inductive Target where
  | output (o : Nat)
  | layer (l : Nat)
  deriving DecidableEq, Repr

/-- What the shelf's own checks and its fetches observe while it computes one band: a shelf fault
(0 none, 1 parity, 2 sequencer mismatch) with its leaf (R18), the regions whose fetch found another
stamp sequence (R165) and those whose fetch met poison (R312). -/
structure BandObs where
  fault : Nat
  leaf : Nat
  stampMismatch : List Nat
  poisoned : List Nat
  deriving DecidableEq, Repr

/-- A run of samples of one row in an ST 2110-20 packet (one sample row data header). -/
structure RowData where
  row : Nat
  off : Nat
  samples : List Nat
  deriving DecidableEq, Repr

/-- The payload of a packet on a NET port. -/
inductive Body where
  /-- ST 2110-20 video: the sample rows it carries, one for each row data header, and whether its field bit or second
  field marks it as interlaced. -/
  | video (rows : List RowData) (interlaced : Bool)
  /-- Coded video of transports 2 to 5; `auEnd`: the last packet of its access unit; `ccGap`: a continuity counter gap on
  the video PID before its data (transport 5). -/
  | coded (data : List Byte) (auEnd ccGap : Bool)
  /-- An ST 2110-40 packet: DID, SDID and user data words. -/
  | anc (did sdid : Nat) (words : List Nat)
  /-- Any other unicast packet, neither WDP nor PTP. -/
  | unicast
  deriving DecidableEq, Repr

/-- A packet on a NET port, as its headers read. -/
structure Packet where
  port : Nat
  dst : List Byte
  src : List Byte
  udp : Nat
  seq : Nat
  ts : Nat
  marker : Bool
  pt : Nat
  len : Nat
  body : Body
  deriving DecidableEq, Repr

/-- An SDP transport file as the curator parses it: the values it maps to subs of the source object
(Table 4.6), and whether it names a feature that Table 4.2 excludes. -/
structure Sdp where
  vals : List (Nat × List Byte)
  unsupported : Bool
  deriving DecidableEq, Repr

/-- NMT commands of CiA 301 (R87). -/
inductive NmtCmd where
  | start | stop | preOperational | resetNode | resetCommunication
  deriving DecidableEq, Repr

/-- What an access unit is to a decoder session (R125). -/
inductive UnitKind where
  /-- Parameter sets only. -/
  | params
  /-- A random access point. -/
  | random
  /-- A picture with a recovery point SEI of this recovery count. -/
  | recovery (count : Nat)
  /-- Any other picture. -/
  | picture
  deriving DecidableEq, Repr

/-- A feature of a stream that Table 5.1 lists as not supported by some codec: field pictures, MBAFF or
frame_mbs_only_flag 0; FMO; ASO; redundant slices; a 4:4:4 profile; monochrome; field_seq_flag 1; a range-extension
profile other than Main 4:2:2 10; an SCC or a multi-layer profile; slice mode of JPEG XS. -/
inductive Feature where
  | interlaced | fmo | aso | redundantSlices | profile444 | monochrome | fieldSeq | rangeExtension | screenContent
  | multiLayer | sliceMode
  deriving DecidableEq, Repr

/-- An access unit as the decoder parses it: the stream parameters it names (profile_idc, for JPEG XS the high byte of
the profile code, and level_idc), its picture's number in decoding order and its place in the output order of the whole
stream, the pictures it refers to and those it keeps, the unsupported features it uses, and what parsing and decoding it
find (R117, R118, R120, R125, R126). `rasl`: the random access picture whose RASL picture it is. `flushes`: every
picture decoded before it is output before it (IDR, BLA). -/
structure AccessUnit where
  kind : UnitKind
  pic : Nat
  order : Nat
  flushes : Bool
  rasl : Option Nat
  refs : List Nat
  keep : List Nat
  profile : Nat
  level : Nat
  chroma : Nat
  depth : Nat
  width : Nat
  height : Nat
  reorder : Nat
  refsNeeded : Nat
  features : List Feature
  syntaxError : Bool
  errorInHeader : Bool
  hashWrong : Bool
  discardedNals : Nat
  deriving DecidableEq, Repr

/-- A decoded picture as it is output: its number and its three component planes in raster order, each of the size
that the stream's chroma format gives it: Y, Cb, Cr, or R, G, B. -/
structure PictureOut where
  pic : Nat
  y : List Nat
  cb : List Nat
  cr : List Nat
  deriving DecidableEq, Repr

/-- What a sink's DPCD and EDID say (R197): the bytes read, and what they mean: highest link rate
code and lane count, MST, and the DSC slice counts and depths it decodes. -/
structure SinkCaps where
  dpcd : List Byte
  edid : List Byte
  rate : Nat
  lanes : Nat
  mst : Bool
  dscSlices : List Nat
  dscDepths : List Nat
  deriving DecidableEq, Repr

/-- What happens to a row in its engine beside its coding: the first CTU that a fault makes it end at its deadline (R226),
and whether its shadow engine found a fault and in which leaf (R19). -/
structure SliceObs where
  late : Option Nat
  fault : Nat
  leaf : Nat
  deriving DecidableEq, Repr

/-- One row of a row record set (Table 10.3). -/
structure RowRec where
  row : Nat
  flags : Nat
  qp : Nat
  budget : Nat
  actual : Nat
  complexity : Nat
  firstFloor : Nat
  header : Nat
  map : List Nat
  deriving DecidableEq, Repr

/-- Row records of a picture as the partner sends them, with the picture's header (Table 10.3) and,
at its last row, the partner's rate-control state (Table 10.4): κ and newest settled position. -/
structure RowRecordSet where
  count : Nat
  tick : Nat
  start : Nat
  kappa : Nat
  rows : List RowRec
  stateKappa : Nat
  stateLead : Nat
  stateEnd : Nat
  deriving DecidableEq, Repr

/-- An Announce message: its domain, the identity and port of its sender, the data set that
best-master selection compares, its flags, time source and synchronisation metadata TLV (R257,
R258). Clock identities are 8 bytes. -/
structure Announce where
  domain : Nat
  sender : List Byte
  senderPort : Nat
  p1 : Nat
  cls : Nat
  accuracy : Nat
  variance : Nat
  p2 : Nat
  gm : List Byte
  steps : Nat
  timeSource : Nat
  flags : Nat
  tlv : List Byte
  deriving DecidableEq, Repr

/-- The PTP message whose interval expires (R258). -/
inductive PtpMsg where
  | sync | announce | delayReq
  deriving DecidableEq, Repr

/-- A Sync exchange at a PTP port, in ps: the MAC's timestamp of the Sync on the time base, the measured latency of its
RS-FEC codeword alignment, and the master's instant of it: origin timestamp and correction fields of the Sync and, of a
two-step one, its Follow_Up (R257, R259). -/
structure PtpSync where
  mac : Int
  fec : Nat
  origin : Int
  deriving DecidableEq, Repr

/-- An ST 2110-30 or AES67 packet of a receive stream: its leg, RTP sequence number and timestamp,
and payload (R285). -/
structure AudioPacket where
  leg : Nat
  seq : Nat
  ts : Nat
  payload : List Byte
  deriving DecidableEq, Repr

/-- An audio PES of a transport stream: its source and PID, its PTS, the arrival of its first packet, its channel
count, whether it is SMPTE 302M at 48 kHz and 24 bits, and its samples, interleaved (R286). -/
structure AudioPes where
  source : Nat
  pid : Nat
  pts : Nat
  arrival : Nat
  channels : Nat
  is302m : Bool
  samples : List Nat
  deriving DecidableEq, Repr

/-- A fabric request (R324, R325): requester class and instance of Table 15.1, the mode of a curator core
(0 U, 1 S, 3 M), 0 read, 1 write or 2 execute, its address, its length of 1 to 256 bytes, and the bytes
of a write. -/
structure Access where
  cls : Nat
  inst : Nat
  mode : Nat
  op : Nat
  addr : Nat
  len : Nat
  data : List Byte
  deriving DecidableEq, Repr

/-- What the HBM controllers meet while they serve an access: for each word that it reads, 0 good, 1
corrected or 2 uncorrectable (R311, R312); and for each 256-byte block, the activates of its row
(R317). -/
structure MemObs where
  errs : List Nat
  acts : List Nat
  deriving DecidableEq, Repr

/-- A region as a compare record names it (R359). `incomplete`: its graphics slot copy was incomplete at
selection. -/
structure CmpRegion where
  layer : Nat
  source : Nat
  seq : Nat
  crc : Nat
  state : Nat
  conds : Nat
  incomplete : Bool
  capture : Nat
  deriving DecidableEq, Repr

/-- A compare record (R359): of an output's ledger entry, of a picture record (flag bits 5 and 6 of
Table 9.5), or of a published source frame. -/
inductive CompareRec where
  | output (o k tick batch : Nat) (underrun : Bool) (regions : List CmpRegion)
      (crc marking read : Nat)
  | picture (c count inCrc outCrc : Nat) (late imported : Bool)
  | source (n seq : Nat) (complete : Bool) (crc : Nat)
  deriving DecidableEq, Repr

/-- An object and the bytes written to it. -/
structure Wr where
  idx : Nat
  sub : Nat
  data : List Byte
  deriving DecidableEq, Repr

/-- A batch as the partner sends it: its number, session, reference wing, tick and records (R44, R90). -/
structure MirrorBatch where
  num : Nat
  sess : Nat
  wing : Nat
  tick : Nat
  recs : List Wr
  deriving DecidableEq, Repr

/-- What the active sends at T+0 of N − 2 ms (R354): the swap tick, its latest applied batch number, and
the numbers of the batches pending on it. -/
structure SwapState where
  tick : Nat
  applied : Nat
  pending : List Nat
  deriving DecidableEq, Repr

/-- What is answered to it: a confirmation, a decline, or the active's cancellation, with the reason of
SWAP_FAILED (R354). -/
inductive SwapAnswer where
  | confirm
  | decline (reason : Nat)
  | cancel (tick reason : Nat)
  deriving DecidableEq, Repr

/-- A graphics slot's content, copied from the active (Table 16.6). -/
structure SlotCopy where
  layer : Nat
  slot : Nat
  state : Nat
  data : List Byte
  deriving DecidableEq, Repr

/-- What a resynchronisation phase has brought when it ends (Table 16.6): in phase 1 the active's applied
objects, pending batches and slots, its latest applied batch number and its signed-off W0 tick; in
phase 2 the sources of which the active has no published frame. -/
inductive ResyncObs where
  | configuration (objs : List Wr) (pending : List MirrorBatch) (slots : List SlotCopy) (applied : Nat)
  | sources (without : List Nat)
  | encoders
  | outputs
  deriving DecidableEq, Repr

/-- A receive lane under the alignment search (R373): the 2,048 raw bits of one cycle of its counter, the
bit at position 0 most significant; whether the next 4 alignment words stand at bit 0; and its arrival
in bits after the earliest lane's. -/
structure LaneObs where
  raw : Nat
  verify : Bool
  skew : Nat
  deriving DecidableEq, Repr

/-- What the payload of a ring frame says, where no command of its own brings it (Table 17.3): the
partner's readiness, timed operations, the request for a resynchronisation, maintenance. The parts of a
shared source frame (class 5) act by the payload itself. -/
inductive RingMsg where
  | other
  | readiness (pair serial : Nat) (takesPart : Bool)
  | slotTable (ring : Nat) (table : List Byte) (tick : Nat)
  | shared (entries : List Byte) (tick : Nat)
  | snapshot (time : Nat)
  | resync
  | maintenance (version delay : Nat) (order : List Nat)
  deriving DecidableEq, Repr

/-- A received ring frame: the fields of Table 17.2, whether its two checks pass, by how many ns it begins
off its expected time, whether a change of lane count cut it (R377, R380), and its payload, of the length in
its header. -/
structure RingFrame where
  cls : Nat
  sender : Nat
  hops : Nat
  version : Nat
  tick : Nat
  slot : Nat
  flow : Nat
  seq : Nat
  flags : Nat
  receiver : Nat
  checksOk : Bool
  off : Int
  cut : Bool
  msg : RingMsg
  payload : List Byte
  deriving DecidableEq, Repr

/-- The two runs of a calibration instance (R416). -/
structure CalRun where
  item : Nat
  inst : Nat
  run1 : List Int
  run2 : List Int
  deriving DecidableEq, Repr

/-- What a wake step finds: the retention banks whose check fails (8 the core bank), and the
pseudo-channels that fail their tap check with whether their retraining succeeds (R322, R434). -/
structure WakeObs where
  lost : List Nat
  taps : List (Nat × Bool)
  deriving DecidableEq, Repr

/-- What a boot step finds (Table 21.5): the flash record copies that fail their check word, the
pseudo-channels that fail training, and the runs of start-up calibration. -/
structure BootObs where
  badCopies : List Nat
  failedPcs : List Nat
  runs : List CalRun
  deriving DecidableEq, Repr

/-- An instruction of the TAP (R456, R457). -/
inductive JtagIr where
  | bypass | idcode | sample | extest | challenge | token | driving
  deriving DecidableEq, Repr

/-- The commands of the block: one constructor for each row of spec/opcode_table.json. Every one
carries the instant `t`, in ns of the device time base, at which it comes about (log entry 1). -/
inductive Instr where
  /-- WING_TICK (R31): T+0 of a wing tick: earlier events take effect, mirrored writes and SLOT launches act, staged batches apply, selections are made and jobs are released to the bays. -/
  | wingTick (t : Nat) (w : Nat) (lost : List Nat)
  /-- RACING_SELECTION (R157): A Racing composition selects its frames and takes its loans at its lead before the first active line. -/
  | racingSelection (t : Nat) (o : Nat)
  /-- BAND_RELEASE (R158): A Racing band is released to its shelf at its deadline minus the lead. -/
  | bandRelease (t : Nat) (o : Nat) (band : Nat)
  /-- BAND_WRITTEN (R16): A shelf finishes computing and writing one 16-row band of a job. -/
  | bandWritten (t : Nat) (target : Target) (band : Nat) (obs : BandObs)
  /-- MEDIA_PACKET (R108): A media packet arrives on a NET port and is timestamped, merged, policed and written into its frame. -/
  | mediaPacket (t : Nat) (p : Packet)
  /-- FRAME_COMPLETION_TIMEOUT (R108): The completion timeout of a frame expires and the frame ends, impaired if packets are missing. -/
  | frameCompletionTimeout (t : Nat) (src : Nat)
  /-- FRAME_PUBLISHED (R109): The intake stamps and publishes an ended frame, or holds it back under HOLD, and updates the source state. -/
  | framePublished (t : Nat) (src : Nat)
  /-- LEG_LOST (R478): A leg receives no packet for 100 ms and becomes lost. -/
  | legLost (t : Nat) (src : Nat) (leg : Nat)
  /-- SOURCE_SILENCE (R478): No packet arrives on any enabled leg for 100 ms and the source enters SILENT. -/
  | sourceSilence (t : Nat) (src : Nat)
  /-- NET_LINK_DOWN (R98): A network port loses its link. -/
  | netLinkDown (t : Nat) (port : Nat)
  /-- NET_LINK_UP (R95): A network port completes link bring-up in its lane-plan mode. -/
  | netLinkUp (t : Nat) (port : Nat)
  /-- ARP_REQUEST (R96): An ARP request for a position or service address is answered. -/
  | arpRequest (t : Nat) (port : Nat) (addr : Nat)
  /-- NEIGHBOUR_SOLICITATION (R96): An IPv6 neighbour solicitation for a port address is answered. -/
  | neighbourSolicitation (t : Nat) (port : Nat) (addr : List Byte)
  /-- ICMP_ECHO_REQUEST (R96): An ICMP echo request to a port address is answered. -/
  | icmpEchoRequest (t : Nat) (port : Nat) (addr : List Byte) (payload : List Byte)
  /-- MEMBERSHIP_QUERY (R103): An IGMPv3 or MLDv2 query is answered for the joined groups. -/
  | membershipQuery (t : Nat) (port : Nat) (v6 : Bool) (group : List Byte) (sources : List (List Byte))
  /-- JOIN_REPORT_REPEAT (R103): The second unsolicited join or leave report is sent 1 s after the first. -/
  | joinReportRepeat (t : Nat) (port : Nat) (group : List Byte) (addr : List Byte)
  /-- IS05_ACTIVATION (R104): An NMOS IS-05 activation is parsed, mapped to source objects and committed as a batch. -/
  | is05Activation (t : Nat) (src : Nat) (sdp : Sdp) (at_ : Option Nat)
  /-- ACCESS_UNIT (R126): A decoder session takes a complete access unit and parses, checks and decodes it according to its state. -/
  | accessUnit (t : Nat) (sess : Nat) (au : AccessUnit)
  /-- DECODED_PICTURE_OUTPUT (R120): A decoded picture is output in output order, converted into a pool buffer and published. -/
  | decodedPictureOutput (t : Nat) (sess : Nat) (pic : PictureOut)
  /-- DECODER_REARM (R127): A re-arm write restarts a STOPPED decoder session into WAITING. -/
  | decoderRearm (t : Nat) (by_ : Requester) (sess : Nat)
  /-- RASTER_FRAME_START (R192): A raster frame of an output begins on its grid, with its marking list merged and a kind 0 encoder input taken. -/
  | rasterFrameStart (t : Nat) (o : Nat) (listFault : Bool)
  /-- RASTER_LINE (R199): Scan-out reaches a raster line, prefetches it and handles missing pixels as an underrun. -/
  | rasterLine (t : Nat) (o : Nat) (line : Nat) (missingFrom : Option Nat)
  /-- START_OF_BLANKING (R193): The first front-porch line of an output begins. -/
  | startOfBlanking (t : Nat) (o : Nat)
  /-- LINE_MATCH (R193): The configured raster line of an output begins. -/
  | lineMatch (t : Nat) (o : Nat)
  /-- HEAD_FRAME_DONE (R193): The last active pixel or packet of a raster frame leaves. -/
  | headFrameDone (t : Nat) (o : Nat)
  /-- LEDGER_ENTRY (R186): The guardian pair writes the ledger entry of a raster frame after its frame-done. -/
  | ledgerEntry (t : Nat) (o : Nat)
  /-- IP_PACKET_LAUNCH (R209): An ST 2110-20 packet of an IP output launches at its scheduled time. -/
  | ipPacketLaunch (t : Nat) (o : Nat) (j : Nat) (missing : Bool)
  /-- DP_HPD_HIGH (R197): HPD rises: the port reads DPCD and EDID and trains. -/
  | dpHpdHigh (t : Nat) (p : Nat) (caps : SinkCaps)
  /-- DP_UNPLUG (R197): HPD stays low for 2 ms and the sink is taken as unplugged. -/
  | dpUnplug (t : Nat) (p : Nat)
  /-- DP_IRQ_HPD (R197): An IRQ_HPD makes the port read link status and retrain if lock is lost. -/
  | dpIrqHpd (t : Nat) (p : Nat) (lockLost : Bool) (errors : List Nat)
  /-- DP_TRAINING_DONE (R197): Link training of a port completes, succeeds or fails. -/
  | dpTrainingDone (t : Nat) (p : Nat) (ok : Bool) (params : List Byte)
  /-- DP_TRAINING_RETRY (R197): The 1 s retry timer after a failed training expires and training restarts. -/
  | dpTrainingRetry (t : Nat) (p : Nat)
  /-- DP_RETRAIN (R205): A write to the retrain object forces training at the configured settings. -/
  | dpRetrain (t : Nat) (by_ : Requester) (p : Nat)
  /-- ENCODER_SELECTION (R216): At its selection instant a kind 1 or 2 channel takes its input loans and builds its marking list. -/
  | encoderSelection (t : Nat) (c : Nat) (listFault : Bool)
  /-- ROW_DECISION (R246): The last input line of a CTU row has entered and rate control fixes the row budget and QP. -/
  | rowDecision (t : Nat) (c : Nat) (row : Nat)
  /-- SLICE_RELEASE (R239): A coded row slice is released into the constant-rate stream at its release instant. -/
  | sliceRelease (t : Nat) (c : Nat) (row : Nat) (obs : SliceObs)
  /-- ENCODER_PACKET_SEND (R231): An RTP or TS packet of an encoder channel leaves on the constant-rate schedule. -/
  | encoderPacketSend (t : Nat) (c : Nat)
  /-- PICTURE_RECORD (R237): The encoder writes a picture record after the last row of the picture has left. -/
  | pictureRecord (t : Nat) (c : Nat)
  /-- ROW_RECORD_RECEIVED (R253): A following channel receives an imported row record set from the active partner. -/
  | rowRecordReceived (t : Nat) (c : Nat) (set : RowRecordSet)
  /-- FOLLOW_LOST (R254): A row record does not arrive within 2 periods and following ends. -/
  | followLost (t : Nat) (c : Nat)
  /-- HELLO (R75): A WDP HELLO opens a session attempt and is answered with a CHALLENGE or a refusal. -/
  | hello (t : Nat) (via : Transport) (d : Datagram)
  /-- AUTH (R75): A WDP AUTH completes session opening, or is dropped as a failed authentication. -/
  | auth (t : Nat) (via : Transport) (d : Datagram)
  /-- CHALLENGE_TIMEOUT (R75): A CHALLENGE not completed within 2 s frees its session number. -/
  | challengeTimeout (t : Nat) (sess : Nat)
  /-- WDP_BLOCK_EXPIRY (R75): The 60 s block of an address ends. -/
  | wdpBlockExpiry (t : Nat) (addr : Nat)
  /-- SESSION_TIMEOUT (R76): A session without a valid message for its timeout is closed. -/
  | sessionTimeout (t : Nat) (sess : Nat)
  /-- CLOSE (R66): A CLOSE ends a session and empties its stage. -/
  | close (t : Nat) (via : Transport) (d : Datagram)
  /-- ECHO (R78): An ECHO keeps a session alive and is answered. -/
  | echo (t : Nat) (via : Transport) (d : Datagram)
  /-- READ (R68): A READ returns applied or staged object values. -/
  | read (t : Nat) (via : Transport) (d : Datagram)
  /-- WRITE (R79): A WRITE applies I-class and P-class records in order, or mirrors them in Duplex. -/
  | write (t : Nat) (via : Transport) (d : Datagram)
  /-- STAGE (R64): A STAGE adds checked T-class records to the session's stage. -/
  | stage (t : Nat) (via : Transport) (d : Datagram)
  /-- COMMIT_AT_TICK (R65): COMMIT-AT-TICK submits the stage as one batch for admission at a named tick. -/
  | commitAtTick (t : Nat) (via : Transport) (d : Datagram)
  /-- DISCARD (R66): DISCARD empties the session's stage. -/
  | discard (t : Nat) (via : Transport) (d : Datagram)
  /-- CANCEL (R67): CANCEL withdraws an accepted batch that has not applied, after re-admitting later batches. -/
  | cancel (t : Nat) (via : Transport) (d : Datagram)
  /-- SUBSCRIBE (R80): SUBSCRIBE sets up or cancels a cyclic delivery. -/
  | subscribe (t : Nat) (via : Transport) (d : Datagram)
  /-- NOTIFY_ACKNOWLEDGE (R82): The host acknowledges a NOTIFY by its notify sequence. -/
  | notifyAcknowledge (t : Nat) (via : Transport) (d : Datagram)
  /-- NOTIFY_RESEND (R82): An unacknowledged NOTIFY is resent every 100 ms, at most 4 times, then counted as lost. -/
  | notifyResend (t : Nat) (sess : Nat) (nseq : Nat)
  /-- LEVEL_KEY_WRITE (R76): Writing a level key closes every other session at that level. -/
  | levelKeyWrite (t : Nat) (by_ : Requester) (level : Nat) (key : List Byte)
  /-- SAVE_ALL (R70): Writing the save signature starts a persistent save long operation. -/
  | saveAll (t : Nat) (by_ : Requester) (sig : Nat)
  /-- SAVE_DONE (R70): A persistent save finishes writing and verifying its flash record. -/
  | saveDone (t : Nat) (result : Nat)
  /-- LOAD_DEFAULTS (R72): Writing the load signature sets every P-class object to its default. -/
  | loadDefaults (t : Nat) (by_ : Requester) (sig : Nat)
  /-- LONG_OP_ABORT (R58): Abort is written to a running long-operation slot. -/
  | longOpAbort (t : Nat) (by_ : Requester) (slot : Nat)
  /-- LONG_OP_ABORTED (R58): An aborted operation reaches its next abort point and enters aborted. -/
  | longOpAborted (t : Nat) (slot : Nat)
  /-- LONG_OP_CLEAR (R58): Clear returns a done, failed or aborted slot to idle. -/
  | longOpClear (t : Nat) (by_ : Requester) (slot : Nat)
  /-- USDO_READ (R83): A CANopen USDO read accesses a dictionary object. -/
  | usdoRead (t : Nat) (index : Nat) (sub : Nat)
  /-- USDO_WRITE (R83): A CANopen USDO write writes an object or adds to the CANopen stage. -/
  | usdoWrite (t : Nat) (index : Nat) (sub : Nat) (data : List Byte) (last : Bool)
  /-- CANOPEN_COMMIT_TICK (R84): Writing a tick to 0x2043:06 commits the CANopen stage as a batch. -/
  | canopenCommitTick (t : Nat) (tick : Nat)
  /-- RPDO_RECEIVED (R85): An RPDO writes its mapped I-class objects. -/
  | rpdoReceived (t : Nat) (n : Nat) (data : List Byte)
  /-- NMT_COMMAND (R87): An NMT command changes the CANopen interface state only. -/
  | nmtCommand (t : Nat) (cmd : NmtCmd)
  /-- MAILBOX_DOORBELL (R88): A write to REQ_LEN submits a WDP message in a PCIe mailbox channel. -/
  | mailboxDoorbell (t : Nat) (ch : Nat) (d : Datagram) (rspRead : Bool)
  /-- PCIE_WINDOW_WRITE (R89): A host write through a BAR2 window enters the fabric as class PCIE or is discarded. -/
  | pcieWindowWrite (t : Nat) (win : Nat) (off : Nat) (data : List Byte)
  /-- MDIO_READ (R93): A Supervisor MDIO read request reads a Clause 22 PHY register. -/
  | mdioRead (t : Nat) (by_ : Requester) (phy : Nat) (reg : Nat) (value : Nat)
  /-- MDIO_WRITE (R93): A Supervisor MDIO write request writes a Clause 22 PHY register. -/
  | mdioWrite (t : Nat) (by_ : Requester) (phy : Nat) (reg : Nat) (value : Nat)
  /-- PHY_POLL (R93): Every 100 ms the device reads the link state of each SGMII PHY. -/
  | phyPoll (t : Nat) (port : Nat) (up : Bool)
  /-- LAYER_CLAIM (R162): A claim makes an IDLE graphics slot CLAIMED, or is refused. -/
  | layerClaim (t : Nat) (by_ : Requester) (layer : Nat) (slot : Nat)
  /-- LEGEND_SET_LOAD (R183): A legend set is written and its signature verified by the guardian pair. -/
  | legendSetLoad (t : Nat) (by_ : Requester) (set : List Byte)
  /-- FABRIC_ACCESS (R329): A requester's access is checked page by page against guards, rules and default map and forwarded or refused. -/
  | fabricAccess (t : Nat) (a : Access) (m : MemObs)
  /-- ACCESS_RETIRE (R337): An access retires, and the old-set count of its partition drains. -/
  | accessRetire (t : Nat) (part : Nat)
  /-- CURATOR_SWAP_POINT (R335): A curator core's trap entry or return after the set change is its swap point. -/
  | curatorSwapPoint (t : Nat) (core : Nat)
  /-- SWAP_LATE (R335): A core has not reached its swap point 1 ms after the T+0. -/
  | swapLate (t : Nat) (core : Nat)
  /-- VIOLATION_CLEAR (R338): A write to 0x2504:03 clears the violation records of the named partitions. -/
  | violationClear (t : Nat) (by_ : Requester) (mask : Nat)
  /-- WRITE_QUEUE_DRAIN (R306): A controller drains its write queue when full, aged or without reads. -/
  | writeQueueDrain (t : Nat) (pc : Nat)
  /-- REFRESH (R308): A per-bank refresh falls due at its interval. -/
  | refresh (t : Nat) (pc : Nat) (bank : Nat)
  /-- HBM_PARITY_ERROR (R309): The HBM device reports a command-address parity error and the controller replays commands. -/
  | hbmParityError (t : Nat) (pc : Nat) (cmdId : Nat)
  /-- PC_RECOVERED (R310): Recovery of a pseudo-channel finishes poisoning and returns it to service. -/
  | pcRecovered (t : Nat) (pc : Nat) (ok : Bool)
  /-- HBM_TEMPERATURE (R308): The HBM device reports its temperature crossing 85 °C and the refresh interval changes. -/
  | hbmTemperature (t : Nat) (m : Nat) (degC : Int)
  /-- ROW_DISTURBANCE_WINDOW (R318): A 32 ms activate window ends and throttles may be lifted. -/
  | rowDisturbanceWindow (t : Nat) (pc : Nat) (bank : Nat)
  /-- MAINTENANCE_WINDOW (R49): A time-windowed maintenance slot of an HBM device opens for calibration, retraining, recovery or repair. -/
  | maintenanceWindow (t : Nat) (m : Nat) (trainOk : Bool)
  /-- MEM_SCRUB (R315): Command 1 starts a scrub pass of one device. -/
  | memScrub (t : Nat) (by_ : Requester) (m : Nat)
  /-- SCRUB_DONE (R315): A scrub pass finishes. -/
  | scrubDone (t : Nat) (m : Nat)
  /-- MEM_TEST (R316): Command 2 starts a memory test of unallocated memory. -/
  | memTest (t : Nat) (by_ : Requester) (m : Nat)
  /-- MEMORY_TEST_CHUNK (R316): A 64 MiB test chunk finishes its passes, and the test ends after the last chunk. -/
  | memoryTestChunk (t : Nat) (m : Nat) (failed : List Nat)
  /-- MEM_LIVE_REPAIR (R320): Command 3 starts live repair on a standby device. -/
  | memLiveRepair (t : Nat) (by_ : Requester) (m : Nat)
  /-- MEM_RECORD_CANDIDATES (R321): Command 4 appends the candidates to the repair record in flash. -/
  | memRecordCandidates (t : Nat) (by_ : Requester) (m : Nat)
  /-- MEM_CLEAR_CANDIDATES (R323): Command 5 clears the candidate table. -/
  | memClearCandidates (t : Nat) (by_ : Requester) (m : Nat)
  /-- MEM_RECOVER_PC (R310): Command 6 starts recovery of a faulted pseudo-channel. -/
  | memRecoverPc (t : Nat) (by_ : Requester) (m : Nat)
  /-- MEM_CLEAR_REPAIR_RECORD (R321): Command 7 clears the repair record in flash. -/
  | memClearRepairRecord (t : Nat) (by_ : Requester) (m : Nat)
  /-- FLASH_WRITE_DONE (R422): A flash write long operation finishes writing and verifying. -/
  | flashWriteDone (t : Nat) (slot : Nat) (result : Nat)
  /-- PTP_SYNC_RECEIVED (R260): A Sync exchange yields an offset sample that drives the servo, state machine and steps. -/
  | ptpSyncReceived (t : Nat) (port : Nat) (m : PtpSync)
  /-- PTP_ANNOUNCE_RECEIVED (R257): An Announce message enters best-master selection. -/
  | ptpAnnounceReceived (t : Nat) (port : Nat) (a : Announce)
  /-- PTP_DELAY_RESP_RECEIVED (R257): A Delay_Resp updates the mean path delay. -/
  | ptpDelayRespReceived (t : Nat) (port : Nat) (stamp : Int)
  /-- PTP_DELAY_REQ_RECEIVED (R257): A master port answers a Delay_Req with a Delay_Resp. -/
  | ptpDelayReqReceived (t : Nat) (port : Nat) (mac : Int) (fec : Nat) (req : List Byte)
  /-- PTP_MESSAGE_INTERVAL (R258): A PTP message interval expires and Sync, Announce or Delay_Req is sent. -/
  | ptpMessageInterval (t : Nat) (port : Nat) (msg : PtpMsg) (mac : Int)
  /-- PTP_ANNOUNCE_TIMEOUT (R261): announceReceiptTimeout expires and the time unit enters HOLDOVER. -/
  | ptpAnnounceTimeout (t : Nat) (port : Nat)
  /-- TIME_RESTEP (R263): Time command 1 steps the time base by the filtered offset. -/
  | timeRestep (t : Nat) (by_ : Requester)
  /-- TIME_SLEW (R263): Time command 2 resumes slewing during an excursion. -/
  | timeSlew (t : Nat) (by_ : Requester)
  /-- TIME_HOLD (R263): Time command 3 holds the rate during an excursion. -/
  | timeHold (t : Nat) (by_ : Requester)
  /-- EVT_EDGE (R266): An event input holds a new level for its glitch filter and the edge is captured, merged or ignored. -/
  | evtEdge (t : Nat) (i : Nat) (level : Bool) (at_ : Nat)
  /-- EVT_MERGING (R406): A second in which edges were merged ends and is journaled. -/
  | evtMerging (t : Nat) (i : Nat)
  /-- EVT_STUCK (R407): An input has held its active level for its stuck time. -/
  | evtStuck (t : Nat) (i : Nat)
  /-- EVT_RELEASED (R407): A stuck input holds its inactive level for the glitch filter time and is released. -/
  | evtReleased (t : Nat) (i : Nat)
  /-- PPS_OUT_PULSE (R268): In mode 1 a PPS_OUT pulse starts at a whole second plus offset. -/
  | ppsOutPulse (t : Nat)
  /-- LAUNCH_ARM (R269): Arm is written to a launch entry. -/
  | launchArm (t : Nat) (by_ : Requester) (e : Nat)
  /-- LAUNCH_DISARM (R269): Disarm is written to a launch entry. -/
  | launchDisarm (t : Nat) (by_ : Requester) (e : Nat)
  /-- LAUNCH_TIME (R269): A launch time is reached and the PULSE, PACKET or SLOT action is carried out. -/
  | launchTime (t : Nat) (e : Nat)
  /-- PULSE_END (R271): A PULSE width elapses and PPS_OUT falls. -/
  | pulseEnd (t : Nat)
  /-- AUDIO_FRAME (R282): An I2S port frame at a sample position is written or played out. -/
  | audioFrame (t : Nat) (a : Nat) (left : Nat) (right : Nat) (bclks : Nat)
  /-- AUD_UNDERRUN (R283): Unwritten positions read in the last second are reported for an output port. -/
  | audUnderrun (t : Nat) (a : Nat)
  /-- AUDIO_DRIFT_GATE (R280): A 1 s BCLK drift gate of a slave port ends and is evaluated. -/
  | audioDriftGate (t : Nat) (a : Nat) (edges : Nat)
  /-- BCLK_STOPPED (R280): BCLK of a slave port stops for 1 ms and the port enters FAULT. -/
  | bclkStopped (t : Nat) (a : Nat)
  /-- AUDIO_PORT_REARM (R280): Re-arm takes a port out of FAULT. -/
  | audioPortRearm (t : Nat) (by_ : Requester) (a : Nat)
  /-- AUDIO_GROUP_ARM (R281): Arm fixes the start position of a port group. -/
  | audioGroupArm (t : Nat) (by_ : Requester) (g : Nat)
  /-- AUDIO_GROUP_STOP (R281): Stop returns a group's ports to STOPPED. -/
  | audioGroupStop (t : Nat) (by_ : Requester) (g : Nat)
  /-- AUDIO_GROUP_START (R281): The start position of an armed group is reached and its ports enter RUNNING. -/
  | audioGroupStart (t : Nat) (g : Nat)
  /-- AUDIO_PACKET_RECEIVED (R285): An ST 2110-30 or AES67 packet is written to its channel positions. -/
  | audioPacketReceived (t : Nat) (st : Nat) (p : AudioPacket)
  /-- AUDIO_PES_RECEIVED (R286): A 302M PES of a transport stream is written at its anchored positions. -/
  | audioPesReceived (t : Nat) (st : Nat) (p : AudioPes)
  /-- AUDIO_PACKET_SEND (R287): A send-stream packet launches at its sample-position time. -/
  | audioPacketSend (t : Nat) (st : Nat)
  /-- AUD_STREAM_SILENT (R285): A receive stream goes 100 ms without a packet. -/
  | audStreamSilent (t : Nat) (st : Nat)
  /-- TOUCH_SCAN (R292): A touch scan starts in quiet or hopping mode. -/
  | touchScan (t : Nat)
  /-- TOUCH_REPORT (R294): A scan ends and node states, baselines, elements and contacts are computed and reported. -/
  | touchReport (t : Nat) (raw : List (Nat × Nat)) (listen : Nat)
  /-- TOUCH_REBASELINE (R299): A re-baseline command takes raw counts as baselines at the next scan. -/
  | touchRebaseline (t : Nat) (by_ : Requester) (sf : Nat)
  /-- HEARTBEAT (R347): The active device toggles ILK_HOLD_OUT at each 500 µs multiple. -/
  | heartbeat (t : Nat)
  /-- ILK_HOLD_EDGE (R348): An edge on ILK_HOLD_IN advances or restarts the detector's arming run. -/
  | ilkHoldEdge (t : Nat) (aon : Nat)
  /-- DETECTOR_EXPIRY (R351): The armed detector sees no edge for 3 ms and the standby claims or reports by arming. -/
  | detectorExpiry (t : Nat)
  /-- ILK_TAKE_IN (R349): A rising edge on ILK_TAKE_IN makes an active device release through its AON hardware. -/
  | ilkTakeIn (t : Nat)
  /-- CLAIM_PULSE_END (R349): ILK_TAKE_OUT falls 1 ms after a claim. -/
  | claimPulseEnd (t : Nat)
  /-- CLAIM (R352): Command 1 makes a standby with a disarmed detector claim. -/
  | claim (t : Nat) (by_ : Requester)
  /-- SWAP (R353): Command 2 schedules a commanded role swap at a W0 tick. -/
  | swap (t : Nat) (by_ : Requester)
  /-- CANCEL_SWAP (R353): Command 3 withdraws a pending swap. -/
  | cancelSwap (t : Nat) (by_ : Requester)
  /-- SWAP_PREPARE (R354): At N − 2 ms the active sends its batch state and the standby confirms or declines. -/
  | swapPrepare (t : Nat) (m : SwapState)
  /-- SWAP_CONFIRMATION (R354): The active receives a confirmation, decline or cancellation of a swap. -/
  | swapConfirmation (t : Nat) (answer : SwapAnswer)
  /-- SWAP_CONFIRM_DEADLINE (R354): N − 1 ms passes on the active without confirmation and the swap is cancelled. -/
  | swapConfirmDeadline (t : Nat)
  /-- RESYNCHRONISE (R364): Command 4 starts standby resynchronisation. -/
  | resynchronise (t : Nat) (by_ : Requester)
  /-- RESYNC_PHASE_DONE (R364): A resynchronisation phase ends and the next begins, or the operation ends. -/
  | resyncPhaseDone (t : Nat) (obs : ResyncObs)
  /-- REFOLLOW (R362): Command 5 makes a standby channel follow again. -/
  | refollow (t : Nat) (by_ : Requester)
  /-- MIRRORED_BATCH_RECEIVED (R44): The standby receives a batch over the ring, admits it and answers. -/
  | mirroredBatchReceived (t : Nat) (b : MirrorBatch)
  /-- MIRRORED_WRITE_RECEIVED (R90): The standby receives a mirrored write to apply at its T+0. -/
  | mirroredWriteReceived (t : Nat) (key : ObjKey) (data : List Byte) (wing : Nat) (tick : Nat)
  /-- LINK_PARAMETERS_RECEIVED (R346): The standby adopts trained DisplayPort link parameters from the active. -/
  | linkParametersReceived (t : Nat) (p : Nat) (params : List Byte)
  /-- COMPARE_RECORD (R360): A partner's compare record arrives and is compared with the own record. -/
  | compareRecord (t : Nat) (r : CompareRec)
  /-- COMPARE_TIMEOUT (R360): The partner's record has not arrived within 2 ticks and byte 56 becomes not compared. -/
  | compareTimeout (t : Nat) (kind : Nat) (n : Nat) (count : Nat)
  /-- RING_ALIGN (R373): A ring side's CDR locks and the alignment search runs over its lanes. -/
  | ringAlign (t : Nat) (side : Nat) (lanes : List LaneObs) (neighbour : Nat)
  /-- RING_ALIGN_RETRY (R374): The 10 ms retry timer of a failed side expires. -/
  | ringAlignRetry (t : Nat) (side : Nat)
  /-- RING_LOCK_LOST (R375): A ring side loses lock and switches path and realigns. -/
  | ringLockLost (t : Nat) (side : Nat)
  /-- RING_LANE (R377): A ring lane fails and the side stripes over 3 lanes. -/
  | ringLane (t : Nat) (side : Nat) (lane : Nat)
  /-- RING_TICK (R378): A ring tick begins and pending slot tables or shared-source entries apply. -/
  | ringTick (t : Nat)
  /-- RING_SLOT (R380): A ring slot begins and each node sends or forwards the frame of its link-slot. -/
  | ringSlot (t : Nat) (side : Nat)
  /-- RING_FRAME (R380): A ring frame is received, checked and delivered, forwarded or discarded. -/
  | ringFrame (t : Nat) (side : Nat) (f : RingFrame)
  /-- URGENT_BLOCK (R387): An urgent block is received and forwarded, and its broadcast acts. -/
  | urgentBlock (t : Nat) (side : Nat) (copies : List (List Byte))
  /-- RING_RESET (R387): Command 1 broadcasts a ring reset in which every node realigns. -/
  | ringReset (t : Nat) (by_ : Requester)
  /-- RING_REALIGN (R387): Command 2 realigns the node's own sides. -/
  | ringRealign (t : Nat) (by_ : Requester)
  /-- URGENT_NOTIFY (R387): A write of an urgent notify sends an untimed broadcast. -/
  | urgentNotify (t : Nat) (by_ : Requester) (body : List Byte)
  /-- SLOT_TABLE_CHANGE (R383): A slot-table apply tick is written, checked and distributed as a timed operation. -/
  | slotTableChange (t : Nat) (by_ : Requester) (ring : Nat) (atTick : Nat)
  /-- SHARED_SOURCE_CHANGE (R384): Shared-source entries are committed for a ring tick. -/
  | sharedSourceChange (t : Nat) (by_ : Requester) (atTick : Nat)
  /-- SNAPSHOT (R388): Command 1 issues a consistent snapshot as a timed operation. -/
  | snapshot (t : Nat) (by_ : Requester)
  /-- SNAPSHOT_EXPORT_DONE (R388): A snapshot export long operation finishes. -/
  | snapshotExportDone (t : Nat)
  /-- JOURNAL_RECORD (R390): The guardian pair records a queued report as a journal entry or repeat and delivers it. -/
  | journalRecord (t : Nat)
  /-- JOURNAL_CLEAR_ENTRY (R392): A write clears one journal entry. -/
  | journalClearEntry (t : Nat) (by_ : Requester) (e : Nat)
  /-- JOURNAL_CLEAR_ALL (R392): A write clears every journal entry. -/
  | journalClearAll (t : Nat) (by_ : Requester)
  /-- JOURNAL_EMPTY (R396): Emptying removes every entry and restarts recording at slot 0. -/
  | journalEmpty (t : Nat) (by_ : Requester)
  /-- AON_RECORD_CLEAR (R400): A write erases the AON minimal records. -/
  | aonRecordClear (t : Nat) (by_ : Requester)
  /-- CVU_DATA (R402): A register-feed write adds bytes to a check-value unit. -/
  | cvuData (t : Nat) (by_ : Requester) (u : Nat) (data : List Byte)
  /-- CVU_START_DMA (R402): Command 1 starts a DMA feed of a check-value unit. -/
  | cvuStartDma (t : Nat) (by_ : Requester) (u : Nat)
  /-- CVU_ABORT (R404): Command 2 aborts a running DMA at the next 64-byte boundary. -/
  | cvuAbort (t : Nat) (by_ : Requester) (u : Nat)
  /-- CVU_INITIALISE (R402): Command 3 loads the initial value of the selected CRC. -/
  | cvuInitialise (t : Nat) (by_ : Requester) (u : Nat)
  /-- CVU_RUNNING_VALUE_WRITE (R403): A write of the running value restores a saved CRC context. -/
  | cvuRunningValueWrite (t : Nat) (by_ : Requester) (u : Nat) (v : Nat)
  /-- CVU_DMA_END (R404): A DMA ends done, or in error on poison, refusal or abort. -/
  | cvuDmaEnd (t : Nat) (u : Nat) (obs : MemObs)
  /-- CAL_START_CAMPAIGN (R419): Command 1 starts a calibration campaign. -/
  | calStartCampaign (t : Nat) (by_ : Requester)
  /-- CAL_STORE_RECORD (R422): Command 2 stores the calibration record in flash. -/
  | calStoreRecord (t : Nat) (by_ : Requester)
  /-- CAL_INSTANCE (R416): The window of an instance arises, its two runs are measured and the result is accepted or rejected. -/
  | calInstance (t : Nat) (item : Nat) (inst : Nat) (run1 : List Int) (run2 : List Int) (idle : Bool)
  /-- CAL_SKIPPED (R420): An instance has not started within the window timeout and is skipped. -/
  | calSkipped (t : Nat) (item : Nat) (inst : Nat)
  /-- DEVICE_SLEEP (R428): Device command 1 begins entry into Sleep. -/
  | deviceSleep (t : Nat) (by_ : Requester)
  /-- DEVICE_DEEP_SLEEP (R428): Device command 2 begins entry into Deep sleep. -/
  | deviceDeepSleep (t : Nat) (by_ : Requester)
  /-- DEVICE_OFF (R428): Device command 3 begins entry into Off. -/
  | deviceOff (t : Nat) (by_ : Requester)
  /-- POWER_ENTRY_STEP (R428): An entry step whose wait has ended runs, and a latched wake may abandon entry at an abort point. -/
  | powerEntryStep (t : Nat)
  /-- WAKE_N_FALL (R432): An armed WAKE_N goes low and wakes the device. -/
  | wakeNFall (t : Nat)
  /-- WAKE_N_ARM (R432): WAKE_N has been high for 1 ms and is armed. -/
  | wakeNArm (t : Nat)
  /-- CAN_RX_WAKE (R430): A dominant level on CAN_RX for 5 µs wakes the device. -/
  | canRxWake (t : Nat)
  /-- WAKE_TIMER (R430): The wake timer expires and wakes the device. -/
  | wakeTimer (t : Nat)
  /-- WAKE_STEP (R431): The condition of a wake step holds and the next step runs after its delay. -/
  | wakeStep (t : Nat) (obs : WakeObs)
  /-- WAKE_STEP_TIMEOUT (R433): A wake step times out, supplies are torn down and the device enters Off. -/
  | wakeStepTimeout (t : Nat)
  /-- RETENTION_RELEASE (R435): Writing a bank number releases its held function at a later T+0. -/
  | retentionRelease (t : Nat) (by_ : Requester) (bank : Nat)
  /-- THERMAL_SAMPLE (R438): The die sensors are read every 10 ms. -/
  | thermalSample (t : Nat) (temps : List Int)
  /-- WING_FAULT (R22): A wing loses PWR_OK, its clock or its watchdog and stops, contained in the wing. -/
  | wingFault (t : Nat) (w : Nat) (cause : Nat)
  /-- CURATOR_STOPPED (R25): A curator cluster stops by fault. -/
  | curatorStopped (t : Nat) (w : Nat) (core : Nat) (trap : Nat)
  /-- LOCKSTEP_MISMATCH (R26): The guardian compare logic detects a mismatch and stops the pair. -/
  | lockstepMismatch (t : Nat) (pc : Nat)
  /-- SOC_SUPPLY (R22): A VDD_SOC fault stops the spine units. -/
  | socSupply (t : Nat) (input : Nat)
  /-- VDD_AON_POWER_ON (R439): VDD_AON reaches 0.72 V and the AON power-on reset runs. -/
  | vddAonPowerOn (t : Nat)
  /-- RESET_N_LOW (R440): RESET_N is held low for 10 µs and resets every domain except AON. -/
  | resetNLow (t : Nat)
  /-- RESET_RELEASE (R439): Reset release starts the supply and clock sequence to the boot ROM. -/
  | resetRelease (t : Nat) (pos : Nat) (bootsel : Nat)
  /-- BOOT_STEP (R448): A boot step completes and the next boot phase starts. -/
  | bootStep (t : Nat) (obs : BootObs)
  /-- FIRMWARE_RESET (R440): Command 1 of 0x2360:07 resets the device. -/
  | firmwareReset (t : Nat) (by_ : Requester)
  /-- ARM_TRIAL (R455): Command 2 arms the target slot as trial image. -/
  | armTrial (t : Nat) (by_ : Requester)
  /-- CONFIRM_TRIAL (R455): Command 3 confirms the running trial image. -/
  | confirmTrial (t : Nat) (by_ : Requester)
  /-- RAISE_SECURITY_COUNTER (R447): Command 4 raises the OTP security counter. -/
  | raiseSecurityCounter (t : Nat) (by_ : Requester)
  /-- CANCEL_TRIAL (R455): Command 5 withdraws an armed trial. -/
  | cancelTrial (t : Nat) (by_ : Requester)
  /-- STAGE_IMAGE (R454): A segment of a signed image is written to the staging object. -/
  | stageImage (t : Nat) (by_ : Requester) (off : Nat) (data : List Byte) (last : Bool)
  /-- STAGING_DONE (R454): Firmware staging finishes programming, read-back and verification. -/
  | stagingDone (t : Nat) (result : Nat)
  /-- DEBUG_TOKEN (R457): A debug token is written and checked against the debug key. -/
  | debugToken (t : Nat) (by_ : Requester) (token : List Byte)
  /-- PCIE_PERST_HIGH (R451): PERST_N rises and the endpoint answers with retry status until configured. -/
  | pciePerstHigh (t : Nat)
  /-- JTAG_INSTRUCTION (R456): A TAP instruction is loaded and acts. -/
  | jtagInstruction (t : Nat) (ir : JtagIr) (data : List Byte)
  /-- SOURCE_COUNTER_RESET (R112): A write clears the counters of a source. -/
  | sourceCounterReset (t : Nat) (by_ : Requester) (src : Nat)
  /-- DECODER_COUNTER_RESET (R131): A write clears the counters of a decoder session. -/
  | decoderCounterReset (t : Nat) (by_ : Requester) (sess : Nat)
  /-- OUTPUT_COUNTER_RESET (R202): A write clears the underrun and not-sent counters of an output. -/
  | outputCounterReset (t : Nat) (by_ : Requester) (o : Nat)
  /-- ENCODER_COUNTER_RESET (R237): A write clears the counters of an encoder channel. -/
  | encoderCounterReset (t : Nat) (by_ : Requester) (c : Nat)
  /-- RATE_CONTROL_COUNTER_RESET (R250): A write clears the exhaustion counters of a channel. -/
  | rateControlCounterReset (t : Nat) (by_ : Requester) (c : Nat)
  /-- AUDIO_COUNTER_RESET (R283): A write clears all audio counters. -/
  | audioCounterReset (t : Nat) (by_ : Requester)
  /-- MEMORY_COUNTER_RESET (R314): A write clears the memory counters. -/
  | memoryCounterReset (t : Nat) (by_ : Requester)
  /-- DUPLEX_COUNTER_RESET (R360): A write clears the comparison counters. -/
  | duplexCounterReset (t : Nat) (by_ : Requester)
  /-- ILK_TAKE_IN_FALL (R350): ILK_TAKE_IN falls at the end of the partner's claim pulse, and the switches leave the closed state forced by the pulse and follow Table 16.2 again. -/
  | ilkTakeInFall (t : Nat)
  /-- VDD_AON_LOST (R344): The device loses VDD_AON with all its supplies: it becomes unpowered, its switches close, its heartbeat stops and its state is lost. -/
  | vddAonLost (t : Nat)
  /-- PRODUCER_HEARTBEAT (R83): The CANopen producer heartbeat timer of 0x1017 expires and the device sends its heartbeat message. -/
  | producerHeartbeat (t : Nat)
  /-- EVT_TAIL (R88): The host writes EVT_TAIL of a mailbox channel, freeing event-ring space so that waiting device-originated messages can be placed. -/
  | evtTail (t : Nat) (ch : Nat) (off : Nat)
  deriving DecidableEq, Repr

end Sys2Proof
end

