-- ==== Sys2Proof/Machine/Bytes.lean ====
section
/-! DEFINITION. Byte-order and bit-field helpers. All multi-byte fields of the dictionary, its
protocols, the ledger and the journal are little-endian (R11). -/
namespace Sys2Proof.Machine

/-- A number as `n` bytes, least significant byte first (R11); higher bits are cut off. -/
def leBytes : Nat → Nat → List Byte
  | 0, _ => []
  | n + 1, v => BitVec.ofNat 8 v :: leBytes n (v / 256)

/-- A number as `n` bytes, most significant byte first (network order). -/
def beBytes (n v : Nat) : List Byte := (leBytes n v).reverse

/-- The number a little-endian byte list spells (R11). -/
def leNat : List Byte → Nat
  | [] => 0
  | b :: bs => b.toNat + 256 * leNat bs

/-- `n` bytes of a list from offset `o`, zero-padded past its end. -/
def slice (bs : List Byte) (o n : Nat) : List Byte :=
  let r := (bs.drop o).take n
  r ++ List.replicate (n - r.length) 0

/-- The little-endian number in bytes `o` to `o + n - 1` of a list. -/
def fieldAt (bs : List Byte) (o n : Nat) : Nat := leNat (slice bs o n)

/-- One byte of a list as a number; 0 past its end. -/
def byteAt (bs : List Byte) (o : Nat) : Nat := (bs.getD o 0).toNat

/-- Pads a list with zero bytes at its end to length `n`, and cuts it there. -/
def padTo (n : Nat) (bs : List Byte) : List Byte := slice bs 0 n

/-- Zero bytes that bring a length to the next multiple of 4 (Table 3.7). -/
def pad4 (bs : List Byte) : List Byte := bs ++ List.replicate ((4 - bs.length % 4) % 4) 0

/-- Bits `[hi:lo]` of a number. -/
def bits (v hi lo : Nat) : Nat := (v / 2 ^ lo) % 2 ^ (hi + 1 - lo)

/-- Bit `i` of a number. -/
def bit (v i : Nat) : Bool := v.testBit i

/-- A number with bit `i` set or cleared. -/
def setBit (v i : Nat) (b : Bool) : Nat :=
  if v.testBit i == b then v else if b then v + 2 ^ i else v - 2 ^ i

/-- The two's-complement reading of a `w`-bit number. -/
def toSigned (w v : Nat) : Int := if v < 2 ^ (w - 1) then (v : Int) else (v : Int) - 2 ^ w

/-- The `w`-bit two's-complement pattern of an integer. -/
def ofSigned (w : Nat) (i : Int) : Nat := (i % (2 ^ w : Int)).toNat

/-- A counter of `w` bits that stops at its highest value. -/
def satInc (w v : Nat) : Nat := min (v + 1) (2 ^ w - 1)

/-- A counter of `w` bits that stops at its highest value, raised by `k`. -/
def satAdd (w v k : Nat) : Nat := min (v + k) (2 ^ w - 1)

/-- Division rounded up. -/
def ceilDiv (a b : Nat) : Nat := (a + b - 1) / b

/-- The characters of a string as bytes (VISIBLE_STRING, Table 3.2). -/
def strBytes (s : String) : List Byte := s.toList.map fun c => BitVec.ofNat 8 c.toNat

/-- Splits a list into pieces of `n` elements (`n` at least 1), at most `fuel` of them. -/
def chunksFuel {α : Type} : Nat → Nat → List α → List (List α)
  | 0, _, _ => []
  | _ + 1, _, [] => []
  | f + 1, n, xs => xs.take n :: chunksFuel f n (xs.drop n)

/-- Splits a list into pieces of `n` elements. -/
def chunks {α : Type} (n : Nat) (xs : List α) : List (List α) := chunksFuel xs.length n xs

/-- `f` applied over the numbers `0` to `n - 1`, in order. -/
def foldNat {σ : Type} (f : σ → Nat → σ) : Nat → σ → σ
  | 0, s => s
  | n + 1, s => f (foldNat f n s) n

end Sys2Proof.Machine
end

