-- ==== Sys2Proof/Machine/Crc.lean ====
section
/-! DEFINITION. The CRCs of Table 18.7. The running value is the register before the final XOR, in
reflected bit order for the reflected CRCs (R401). -/
namespace Sys2Proof.Machine

/-- Parameters of a CRC. `poly` is bit-reversed for a reflected CRC. -/
structure CrcParams where
  width : Nat
  poly : Nat
  init : Nat
  reflected : Bool
  xorOut : Nat
  deriving DecidableEq, Repr

/-- The CRC of a code of Table 18.7. -/
def crcParams : Nat → CrcParams
  | 0 => ⟨32, 0xEDB88320, 0xFFFFFFFF, true, 0xFFFFFFFF⟩
  | 1 => ⟨32, 0x82F63B78, 0xFFFFFFFF, true, 0xFFFFFFFF⟩
  | 2 => ⟨16, 0x1021, 0xFFFF, false, 0⟩
  | _ => ⟨64, 0x42F0E1EBA9EA3693, 0, false, 0⟩

/-- One bit of a reflected CRC. -/
def crcBitR (poly r : Nat) : Nat := if r % 2 = 1 then (r / 2) ^^^ poly else r / 2

/-- One bit of a CRC of `w` bits that is not reflected. -/
def crcBitL (w poly r : Nat) : Nat :=
  if 2 ^ (w - 1) ≤ r then (2 * r % 2 ^ w) ^^^ poly else 2 * r % 2 ^ w

/-- Feeds one byte to the running value. -/
def crcByte (p : CrcParams) (r : Nat) (b : Byte) : Nat :=
  if p.reflected then Nat.repeat (crcBitR p.poly) 8 (r ^^^ b.toNat)
  else Nat.repeat (crcBitL p.width p.poly) 8 (r ^^^ (b.toNat * 2 ^ (p.width - 8)))

/-- Feeds bytes in order to the running value (R402, R403). -/
def crcFeed (p : CrcParams) (r : Nat) (bs : List Byte) : Nat := bs.foldl (crcByte p) r

/-- The result of a running value (R401). -/
def crcResult (p : CrcParams) (r : Nat) : Nat := (r ^^^ p.xorOut) % 2 ^ p.width

/-- CRC-32C of a byte string, as every embedded unit computes it (R401). -/
def crc32c (bs : List Byte) : Nat := crcResult (crcParams 1) (crcFeed (crcParams 1) 0xFFFFFFFF bs)

end Sys2Proof.Machine
end

