-- ==== Sys2Proof/Config.lean ====
section
/-! DEFINITION. What a device fixes and what the spec leaves open. Every constant here is opaque: no
proof can see its value, so a claim holds whatever it is. -/
namespace Sys2Proof.Config

/-! ### What a video coder is given -/

/-- How a CTU is coded: by the engine's decision, floor-coded as intra DC without residual or as merge skip with a zero
motion vector (R244), or ended at its deadline as DC intra or inter with a zero motion vector (R226). -/
inductive CtuMode where
  | decided | floorIntra | floorSkip | lateIntra | lateInter
  deriving DecidableEq, Repr

/-- A coded CTU: its final QP and how it is coded. -/
structure CtuCode where
  qp : Nat
  mode : CtuMode
  deriving DecidableEq, Repr

/-- All that the coding of a row depends on (R220, R223, R235): the declared profile, level and tier, which fix the
tools of Table 9.2; effort; coded size, a multiple of 8 each way; chroma format; POC; whether the picture is an IDR; for a
GDR picture ph_recovery_poc_cnt; the refresh column; the row; the samples it may see, and the reference picture in strips of
16 luma columns, as far as it may see them. -/
structure SliceIn where
  codec : Nat
  profile : Nat
  level : Nat
  tier : Nat
  effort : Nat
  width : Nat
  height : Nat
  is420 : Bool
  poc : Nat
  idr : Bool
  recovery : Option Nat
  refA : Nat
  refB : Nat
  row : Nat
  input : List Nat
  reference : List (List Nat)
  deriving DecidableEq, Repr

/-- HRD parameters (R241): cbr_flag, bit rate in bit/s, CPB size in bits. -/
structure Hrd where
  cbr : Bool
  rate : Nat
  size : Nat
  deriving DecidableEq, Repr

/-- A sequence parameter set (R219 to R222, R241): profile, level and tier, coded size, columns and rows that the
conformance window crops, chroma format, the colour signalling of sub 0F in its VUI, bits of POC LSB, one reference
picture, and HRD parameters. -/
structure Sps where
  profile : Nat
  level : Nat
  tier : Nat
  width : Nat
  height : Nat
  cropRight : Nat
  cropBottom : Nat
  is420 : Bool
  colour : Nat
  pocBits : Nat
  references : Nat
  hrd : Hrd
  deriving DecidableEq, Repr

/-- An access-unit header NAL unit (R221): the delimiter, the parameter sets, and the SEI messages: the recovery point of
R223 with recovery_poc_cnt, exact_match_flag and broken_link_flag, and the buffering period and the picture timing of R241.
Picture timing gives the decoding-unit count, the slice NAL units of each, and the removal times in ns after the first, as
quotients. -/
inductive HeaderNal where
  | aud (intra : Bool)
  | vps (profile level tier : Nat)
  | sps (set : Sps)
  | pps (ctu rows : Nat)
  | recoveryPoint (pocCnt : Nat) (exactMatch brokenLink : Bool)
  | bufferingPeriod (hrd : Hrd)
  | pictureTiming (units slicesEach : Nat) (removals : List (Nat × Nat))
  deriving DecidableEq, Repr

/-! ### The open values -/

/-- Serial number of the device (0x1018:04, per device). -/
opaque serial : Nat → Nat
/-- MAC address of NET port `k` (0x2038+k:01, per device and port). -/
opaque macAddress : Nat → List Byte
/-- PTP clock identity (0x2201:0A, per device). -/
opaque clockIdentity : Nat → List Byte
/-- NMOS node ID (0x2036:06), derived from the serial number in a way the spec does not give. -/
opaque nodeId : Nat → List Byte
/-- The factory key (R92). -/
opaque factoryKey : Nat → List Byte
/-- Board table of the reference board (0x2113:01). -/
opaque boardTable : Nat → List Byte
/-- Built-in colour table `t` of 48 to 63 (0x4800+t:01, const). -/
opaque builtinLut : Nat → List Byte
/-- Built-in filter set 0 (0x4840:01). -/
opaque builtinFilter : Nat → List Byte
/-- HMAC-SHA-256 over a key and a message (R75, R76), as its 32 bytes in number form. -/
opaque hmacSha256 : List Byte → List Byte → BitVec 256
/-- SHA-384 over a message, in number form. -/
opaque sha384 : List Byte → BitVec 384
/-- ECDSA P-384 verification: key slot, message, signature. -/
opaque ecdsaVerify : Nat → List Byte → List Byte → Bool
/-- A fresh free value: nothing fixes it. The argument is the counter `fresh` of the state. -/
opaque freeNat : Nat → Nat
/-- A free byte string of the length asked for. -/
opaque freeBytes : Nat → Nat → List Byte

/-- Whether a quotient `num / den` that the spec does not round is rounded up (R140, R142, R144,
R180 state the arithmetic and not its rounding). -/
opaque roundUp : Int → Nat → Bool
/-- Coefficient of a built-in filter set 0 to 3 (R141): set, vertical, step, phase, tap. -/
opaque filterCoef : Nat → Bool → Nat → Nat → Nat → Int
/-- The low bits of a packed component that is wider than the dithered code: width, depth, code. -/
opaque ditherPad : Nat → Nat → Nat → Nat
/-- Where the device places an allocation in home memory, in 4 KiB units (R137). -/
opaque place : Nat → Nat → Nat
/-- Where the device places a buffer of Table 15.5 other than a graphics slot, in 4 KiB pages of its home
memory: kind, number and buffer. -/
opaque bufferPlace : Nat → Nat → Nat → Nat
/-- Spare rows of a stack ID and bank group of a pseudo-channel (0x2601:0A gives no number): device-wide
pseudo-channel × 12 + stack ID × 4 + bank group. -/
opaque spareRows : Nat → Nat
/-- Count of the RTP clock for a timestamp that R113 gives no count from 0 on, as less than 2^32 / 90,000 s have
passed since the PTP epoch: timestamp, arrival. -/
opaque earlyRtp : Nat → Nat → Nat
/-- MST time slots of a stream (R204 gives no number): link rate and lanes, display format, rate code and panel depth,
DSC bits per pixel (0 without DSC). -/
opaque timeSlots : Nat → Nat → Nat → Nat → Nat → Nat → Nat
/-- A slice of DSC 1.2a: bits per pixel in 1/16, depth, slice width, and its lines of pixels (R196 names the coding and
lists none of it). -/
opaque dscSlice : Nat → Nat → Nat → List (List Nat) → List Byte
/-- Legend glyph bits in ROM (R183): legend, column, row. -/
opaque romGlyph : Nat → Nat → Nat → Bool

/-- The bytes of a header NAL unit of a codec (1 HEVC, 2 VVC), in the syntax of its standard (R221; the spec names what
they say). -/
opaque headerNal : Nat → HeaderNal → List Byte
/-- Bits that the entropy coder spends on a CTU: what the row is coded from, the CTUs before it, and the CTU (R248, R249;
the spec leaves the coder's choices within the tools of Table 9.2 to it, the same for equal inputs, R235). -/
opaque ctuBits : SliceIn → List CtuCode → CtuCode → Nat
/-- Bytes of a slice NAL unit after its first two: what the row is coded from, and its CTUs (R235). -/
opaque sliceData : SliceIn → List CtuCode → List Byte
/-- Samples of a strip of the reconstructed picture, filtered in the loop: what the picture is coded from, the CTUs of its
rows, and the strip (R223, R235). -/
opaque codedStrip : SliceIn → List (List CtuCode) → Nat → List Nat
/-- The 2:1 filter of luma before the complexity is measured, over four samples (R242 does not give it). -/
opaque halve : Nat → Nat → Nat → Nat → Nat
/-- The DC prediction of an 8×8 block of downsampled luma: the row's luma, and the block (R242 does not say from which
neighbours). -/
opaque dcPrediction : List (List Nat) → Nat → Nat → Nat
/-- Whether a fixed-point result of the encoder that is not exact is rounded up (R243; its precision is not stated): an
operand that tells the case. -/
opaque encRoundUp : Nat → Bool
/-- κ where the bit model gives none: the row has fewer bits than its overhead, or its estimate is 0 (R243): κ, A, E. -/
opaque kappaOpen : Nat → Int → Nat → Nat
/-- The bytes of a persistent record in flash (R70, layout not stated): its save count and the values it holds. -/
opaque savedBytes : Nat → List (Nat × Nat) → List (Nat × List Byte) → List Byte
/-- The bytes of a copy of the repair record in flash (R321, layout not stated): the copy, and the rows of HB0 and of
HB1. -/
opaque repairBytes : Nat → List (Nat × Nat × Nat) → List (Nat × Nat × Nat) → List Byte
/-- An SDP text that the curator generates for an output (0), a channel (1) or an audio stream (2), before the
attribute that the spec states for it (R209, R287): kind, number, and the values of the dictionary. -/
opaque sdpText : Nat → Nat → List (Nat × Nat) → List (Nat × List Byte) → List Byte
/-- The same text after that attribute. -/
opaque sdpRest : Nat → Nat → List (Nat × Nat) → List (Nat × List Byte) → List Byte
/-- SSRC of an audio send stream (not stated). -/
opaque audioSsrc : Nat → Nat

/-- UDP source port and traffic class byte of an audio send stream's packets: no object gives them. -/
opaque audioSrcPort : Nat → Nat
opaque audioMarking : Nat → Nat
/-- The HBM word, by physical address div 32, that holds a slot of an audio ring: channel and slot (R276; its place is
the device's). -/
opaque audioWord : Nat → Nat → Nat
/-- The HBM word that holds a pixel of a channel's input picture: kind, reference instant, pixel in raster order
(R216; its place is the device's). -/
opaque inputWord : Nat → Nat → Nat → Nat
/-- Hardware default of a calibration value: item, instance, value (R417 gives none). -/
opaque calDefault : Nat → Nat → Nat → Int

/-- A sense count normalised by a gain and an offset trim (R294): what the codes do is not stated. -/
opaque touchCount : Int → Int → Nat → Nat

end Sys2Proof.Config
end

