-- ==== Sys2Proof/Machine/ObjTable.lean ====
section
/-! DEFINITION. The object dictionary's descriptor table: every object of the object tables of the
spec's chapters with its type, access code, commit class, default and range (R12, R13, R59 to R61).
A row with no range the table states as numbers has range `any`; ranges that depend on other objects
are in Dict.lean. The PDO objects 0x1400, 0x1600, 0x1800 and 0x1A00 have the layout of CiA 301 (R85;
log entry 14, PRESUMED). -/
namespace Sys2Proof.Machine

/-- Types of dictionary values (Table 3.2). -/
inductive ObjTy where
  | bool | u8 | u16 | u32 | u64 | i8 | i16 | i32 | i64 | real32 | vstr | ostr | dom | time48
  deriving DecidableEq, Repr

/-- Access levels (Table 3.3), Observer lowest. -/
inductive Level where
  | observer | oper | integ | super
  deriving DecidableEq, Repr

/-- The code of an access level (Table 3.3). -/
def Level.code : Level → Nat
  | .observer => 0 | .oper => 1 | .integ => 2 | .super => 3

/-- The access level of a code; codes above 3 have none. -/
def Level.ofCode : Nat → Option Level
  | 0 => some .observer | 1 => some .oper | 2 => some .integ | 3 => some .super | _ => none

/-- Access codes of an object: `ro`, `const`, `rw/x`, `wo/x`. -/
inductive Acc where
  | ro | konst | rw (l : Level) | wo (l : Level)
  deriving DecidableEq, Repr

/-- Commit classes: I, T, P; none for objects that cannot be written. -/
inductive Com where
  | none | i | t | p
  deriving DecidableEq, Repr

/-- The values the table's Range/unit column admits; for byte strings and DOMAINs the lengths. `clear`: the bits that a
value has at 0. -/
inductive Rng where
  | any
  | btw (lo hi : Nat)
  | btwOr (lo hi alt : Nat)
  | oneOf (vs : List Nat)
  | sbtw (lo hi : Int)
  | len (lo hi : Nat)
  | lenMul (lo hi k : Nat)
  | clear (bits : Nat)
  deriving DecidableEq, Repr

/-- One row of an object table: `subs` consecutive subindices from `sub`. -/
structure Row where
  sub : Nat
  subs : Nat
  ty : ObjTy
  acc : Acc
  com : Com
  dfl : Nat
  rng : Rng
  deriving DecidableEq, Repr

namespace Obj

def t1000 : List Row :=
  [ .mk 0 1 .u32 .konst .none 0x960000 .any  -- Device type
  ]

def t1001 : List Row :=
  [ .mk 0 1 .u8 .ro .none 0 .any  -- Error register
  ]

def t1005 : List Row :=
  [ .mk 0 1 .u32 (.rw .integ) .p 0x80 .any  -- COB-ID SYNC
  ]

def t1008 : List Row :=
  [ .mk 0 1 .vstr .konst .none 0 (.len 6 6)  -- Device name
  ]

def t1009 : List Row :=
  [ .mk 0 1 .vstr .konst .none 0 (.len 2 2)  -- Hardware version
  ]

def t100A : List Row :=
  [ .mk 0 1 .vstr .ro .none 0 (.len 0 16)  -- Software version
  ]

def t1010 : List Row :=
  [ .mk 0 1 .u8 .ro .none 1 .any  -- Highest subindex
  , .mk 1 1 .u32 (.rw .super) .i 1 .any  -- Save all (0x1010) / Load defaults (0x1011)
  ]

def t1011 : List Row :=
  [ .mk 0 1 .u8 .ro .none 1 .any  -- Highest subindex
  , .mk 1 1 .u32 (.rw .super) .i 1 .any  -- Save all (0x1010) / Load defaults (0x1011)
  ]

def t1014 : List Row :=
  [ .mk 0 1 .u32 (.rw .integ) .p 0 .any  -- COB-ID EMCY
  ]

def t1015 : List Row :=
  [ .mk 0 1 .u16 (.rw .integ) .p 0x64 .any  -- Inhibit time EMCY
  ]

def t1017 : List Row :=
  [ .mk 0 1 .u16 (.rw .integ) .p 0x3E8 .any  -- Producer heartbeat
  ]

def t1018 : List Row :=
  [ .mk 0 1 .u8 .ro .none 4 .any  -- Highest subindex
  , .mk 1 1 .u32 .konst .none 0xC7A .any  -- Vendor ID
  , .mk 2 1 .u32 .konst .none 0x9600 .any  -- Product code
  , .mk 3 1 .u32 .konst .none 0xB10001 .any  -- Revision
  , .mk 4 1 .u32 .konst .none 0 .any  -- Serial number
  ]

def t2000 : List Row :=
  [ .mk 0 1 .u8 .ro .none 2 .any  -- Highest subindex
  , .mk 1 1 .u8 (.rw .super) .t 0 (.btw 0 1)  -- Power profile
  , .mk 2 1 .u8 (.rw .super) .t 0 (.btw 0 2)  -- Protection
  ]

def t2010 : List Row :=
  [ .mk 0 1 .u8 .ro .none 6 .any  -- Highest subindex
  , .mk 1 1 .u8 (.rw .integ) .t 8 (.btw 0 11)  -- Tick rate code
  , .mk 2 1 .u32 (.rw .integ) .t 0 .any  -- Phase offset
  , .mk 3 1 .u64 .ro .none 0 .any  -- Current tick number
  , .mk 4 1 .time48 .ro .none 0 .any  -- Time of current tick
  , .mk 5 1 .u64 .ro .none 0x3E16926AB .any  -- Period
  , .mk 6 1 .u8 .ro .none 0xF .any  -- Coupled-wing mask
  ]

def t2020 : List Row :=
  [ .mk 0 1 .u8 .ro .none 4 .any  -- Highest subindex
  , .mk 1 4 .u8 (.rw .integ) .t 1 (.btw 1 4)  -- Effort of W0.ENC to W3.ENC
  ]

def t2030 : List Row :=
  [ .mk 0 1 .u8 .ro .none 0xA .any  -- Highest subindex
  , .mk 1 1 .u8 .ro .none 0 .any  -- Last result
  , .mk 2 1 .u8 .ro .none 0 .any  -- Resource class
  , .mk 3 1 .u8 .ro .none 0 .any  -- Resource instance
  , .mk 4 1 .u16 .ro .none 0 .any  -- Demand
  , .mk 5 1 .u16 .ro .none 0x384 .any  -- Ceiling
  , .mk 6 1 .u64 .ro .none 0 .any  -- Named tick
  , .mk 7 1 .time48 .ro .none 0 .any  -- Time of result
  , .mk 8 1 .u16 .ro .none 0 .any  -- Session
  , .mk 9 1 .u32 .ro .none 0 .any  -- Refusal count
  , .mk 0xA 1 .u8 .ro .none 0 .any  -- Device
  ]

def t2031 : List Row :=
  [ .mk 0 1 .dom .ro .none 0 .any  -- Admitted demand records
  ]

def t2036 : List Row :=
  [ .mk 0 1 .u8 .ro .none 7 .any  -- Highest subindex
  , .mk 1 1 .bool (.rw .super) .p 0 (.btw 0 1)  -- Enable node
  , .mk 2 1 .u32 (.rw .super) .p 0 .any  -- Registry address
  , .mk 3 1 .u16 (.rw .super) .p 0x50 (.btw 1 65535)  -- Registry port
  , .mk 4 1 .u8 (.rw .super) .p 0 (.btw 0 2)  -- API interface
  , .mk 5 1 .u8 (.rw .super) .p 1 (.btw 1 2)  -- IS-05 level
  , .mk 6 1 .ostr .ro .none 0 (.len 16 16)  -- Node ID
  , .mk 7 1 .u16 (.rw .super) .p 0xA (.btw 6 1000)  -- Activation lead
  ]

def t2037 : List Row :=
  [ .mk 0 1 .u8 .ro .none 8 .any  -- Highest subindex
  , .mk 1 4 .u8 (.rw .integ) .t 0 (.btw 0 2)  -- Mode of W0–W3
  , .mk 5 4 .u8 (.rw .integ) .t 2 (.btw 0 2)  -- Interface of W0–W3
  ]

def t2038 : List Row :=
  [ .mk 0 1 .u8 .ro .none 0xF .any  -- Highest subindex
  , .mk 1 1 .ostr .konst .none 0 (.len 6 6)  -- MAC address
  , .mk 2 1 .u32 (.rw .integ) .t 0 .any  -- IPv4 address, position P
  , .mk 3 1 .u32 (.rw .integ) .t 0 .any  -- IPv4 address, position S
  , .mk 4 1 .u8 (.rw .integ) .t 0x18 (.btw 8 30)  -- IPv4 prefix length
  , .mk 5 1 .u32 (.rw .integ) .t 0 .any  -- IPv4 gateway
  , .mk 6 1 .u16 (.rw .integ) .t 0 (.btw 0 4094)  -- VLAN ID
  , .mk 7 1 .ostr (.rw .integ) .t 0 (.len 16 16)  -- IPv6 address, position P
  , .mk 8 1 .ostr (.rw .integ) .t 0 (.len 16 16)  -- IPv6 address, position S
  , .mk 9 1 .u8 (.rw .integ) .t 0x40 (.btw 16 127)  -- IPv6 prefix length
  , .mk 0xA 1 .u8 .ro .none 0 .any  -- Link state
  , .mk 0xB 1 .dom .ro .none 0 .any  -- Counters
  , .mk 0xC 1 .u64 .ro .none 0 .any  -- Discarded unicast
  , .mk 0xD 1 .u32 (.rw .integ) .t 0 .any  -- Service IPv4 address
  , .mk 0xE 1 .ostr (.rw .integ) .t 0 (.len 16 16)  -- Service IPv6 address
  , .mk 0xF 1 .ostr (.rw .integ) .t 0 (.len 6 6)  -- Service MAC address
  ]

def t2040 : List Row :=
  [ .mk 0 1 .u8 .ro .none 4 .any  -- Highest subindex
  , .mk 1 1 .u8 .ro .none 0 .any  -- Open sessions
  , .mk 2 1 .dom .ro .none 0 .any  -- Session table
  , .mk 3 1 .u16 (.rw .super) .p 0xA (.btw 1 600)  -- Session timeout
  , .mk 4 1 .u32 .ro .none 0 .any  -- Failed AUTH count
  ]

def t2041 : List Row :=
  [ .mk 0 1 .u8 .ro .none 4 .any  -- Highest subindex
  , .mk 1 4 .ostr (.wo .super) .p 0 (.len 32 32)  -- Key for Observer, Operator, Integrator, Supervisor
  ]

def t2042 : List Row :=
  [ .mk 0 1 .u8 .ro .none 9 .any  -- Highest subindex
  , .mk 1 1 .u16 (.rw .super) .p 0x1306 (.btw 1024 65535)  -- UDP port
  , .mk 2 1 .u32 (.rw .super) .p 0xC0A8300A .any  -- MGT0 IPv4 address
  , .mk 3 1 .u8 (.rw .super) .p 0x18 (.btw 8 30)  -- MGT0 prefix length
  , .mk 4 1 .u32 (.rw .super) .p 0xC0A8310A .any  -- MGT1 IPv4 address
  , .mk 5 1 .u8 (.rw .super) .p 0x18 (.btw 8 30)  -- MGT1 prefix length
  , .mk 6 1 .u32 (.rw .super) .p 0 .any  -- Gateway
  , .mk 7 1 .u8 (.rw .super) .p 0xFF (.btwOr 0 7 255)  -- In-band NET port
  , .mk 8 1 .u32 (.rw .super) .p 0 .any  -- In-band IPv4 address
  , .mk 9 1 .u16 (.rw .super) .p 0 (.btw 0 4094)  -- In-band VLAN ID
  ]

def t2043 : List Row :=
  [ .mk 0 1 .u8 .ro .none 8 .any  -- Highest subindex
  , .mk 1 1 .bool (.rw .super) .p 1 (.btw 0 1)  -- Enable
  , .mk 2 1 .u8 (.rw .super) .p 0x30 (.btw 1 127)  -- Node-ID
  , .mk 3 1 .u8 (.rw .super) .p 1 (.btw 0 2)  -- Arbitration bit rate
  , .mk 4 1 .u8 (.rw .super) .p 2 (.btw 0 3)  -- Data bit rate
  , .mk 5 1 .u8 (.rw .super) .p 1 (.btw 0 1)  -- Bus access level
  , .mk 6 1 .u64 (.wo .oper) .i 0 .any  -- Commit tick
  , .mk 7 1 .u8 (.rw .oper) .i 0 (.btw 0 3)  -- Commit reference wing
  , .mk 8 1 .u32 .ro .none 0 .any  -- Last batch number
  ]

def t2044 : List Row :=
  [ .mk 0 1 .u8 .ro .none 3 .any  -- Highest subindex
  , .mk 1 1 .bool (.rw .super) .p 0 (.btw 0 1)  -- Enable endpoint
  , .mk 2 1 .dom (.rw .integ) .i 0 (.lenMul 0 1024 16)  -- Window table
  , .mk 3 1 .u32 .ro .none 0 .any  -- Discarded window writes
  ]

def t2045 : List Row :=
  [ .mk 0 1 .u8 .ro .none 4 .any  -- Highest subindex
  , .mk 1 1 .u32 .ro .none 0 .any  -- Save count
  , .mk 2 1 .time48 .ro .none 0 .any  -- Last save time
  , .mk 3 1 .u8 .ro .none 0xFF .any  -- Loaded copy
  , .mk 4 1 .u8 .ro .none 0xFF .any  -- Last save slot
  ]

def t2046 : List Row :=
  [ .mk 0 1 .u8 .ro .none 7 .any  -- Highest subindex
  , .mk 1 2 .u8 (.rw .super) .p 0 (.btw 0 1)  -- Mode of MGT0, MGT1
  , .mk 3 1 .u8 (.rw .super) .p 0 (.btw 0 31)  -- PHY address of MGT0, MGT1
  , .mk 4 1 .u8 (.rw .super) .p 1 (.btw 0 31)  -- PHY address of MGT0, MGT1
  , .mk 5 1 .u32 (.wo .super) .i 0 .any  -- MDIO request
  , .mk 6 1 .u32 .ro .none 0 .any  -- MDIO result
  , .mk 7 1 .u8 .ro .none 0 .any  -- Link state
  ]

def t2080 : List Row :=
  [ .mk 0 1 .u8 .ro .none 0xE .any  -- Highest subindex
  , .mk 1 1 .u16 .ro .none 0 .any  -- Kind
  , .mk 2 1 .u8 .ro .none 0 .any  -- State
  , .mk 3 1 .u16 .ro .none 0 .any  -- Percent
  , .mk 4 1 .u64 .ro .none 0 .any  -- Position
  , .mk 5 1 .u64 .ro .none 0 .any  -- Position total
  , .mk 6 1 .u8 .ro .none 0 .any  -- Position unit
  , .mk 7 1 .u8 .ro .none 0 .any  -- Phase
  , .mk 8 1 .u8 .ro .none 0 .any  -- Phase count
  , .mk 9 1 .time48 .ro .none 0 .any  -- Start time
  , .mk 0xA 1 .time48 .ro .none 0 .any  -- End time
  , .mk 0xB 1 .u32 .ro .none 0 .any  -- Result code
  , .mk 0xC 1 .u16 .ro .none 0 .any  -- Owner session
  , .mk 0xD 1 .vstr .ro .none 0 (.len 0 16)  -- Target
  , .mk 0xE 1 .u8 (.wo .oper) .i 0 (.btw 1 2)  -- Command
  ]

def t2100 : List Row :=
  [ .mk 0 1 .u8 .ro .none 0x10 .any  -- Highest subindex
  , .mk 1 1 .u8 .ro .none 0 .any  -- Role
  , .mk 2 1 .u8 .ro .none 0 .any  -- Position
  , .mk 3 1 .u8 .ro .none 0 .any  -- Pair state
  , .mk 4 1 .u8 (.rw .super) .p 2 (.btw 0 2)  -- Takeover arming
  , .mk 5 1 .u8 (.wo .super) .i 0 (.btw 1 5)  -- Command
  , .mk 6 1 .u64 (.rw .super) .i 0 .any  -- Swap tick
  , .mk 7 1 .u8 (.rw .integ) .p 0 (.btw 0 1)  -- Re-follow policy
  , .mk 8 1 .u8 .ro .none 0 .any  -- Interlock status
  , .mk 9 1 .time48 .ro .none 0 .any  -- Last role change
  , .mk 0xA 1 .u8 .ro .none 0 .any  -- Last cause
  , .mk 0xB 1 .u32 .ro .none 0 .any  -- Role changes
  , .mk 0xC 1 .u8 .ro .none 0xFF .any  -- Resynchronisation slot
  , .mk 0xD 1 .u32 .ro .none 0 .any  -- Partner serial number
  , .mk 0xE 1 .dom .ro .none 0 .any  -- Comparison counters
  , .mk 0xF 1 .bool (.wo .oper) .i 0 (.btw 1 1)  -- Counter reset
  , .mk 0x10 1 .dom .ro .none 0 .any  -- Last divergence
  ]

def t2110 : List Row :=
  [ .mk 0 1 .u8 .ro .none 8 .any  -- Highest subindex
  , .mk 1 1 .u8 (.rw .super) .p 0 (.btw 0 15)  -- Node number
  , .mk 2 1 .bool (.rw .super) .p 0 (.btw 0 1)  -- Ring enable
  , .mk 3 1 .u8 (.rw .super) .p 0xFF (.btwOr 0 15 255)  -- Partner node
  , .mk 4 1 .u8 .ro .none 0 .any  -- Node count
  , .mk 5 1 .ostr .ro .none 0 (.len 16 16)  -- Clockwise order
  , .mk 6 1 .u64 .ro .none 0 .any  -- Ring tick
  , .mk 7 1 .u8 (.wo .integ) .i 0 (.btw 1 2)  -- Command
  , .mk 8 1 .ostr (.wo .oper) .i 0 (.len 16 16)  -- Urgent notify
  ]

def t2111 : List Row :=
  [ .mk 0 1 .u8 .ro .none 7 .any  -- Highest subindex
  , .mk 1 1 .u8 .ro .none 0 .any  -- State
  , .mk 2 1 .u8 .ro .none 0 .any  -- Path
  , .mk 3 1 .u8 .ro .none 0 .any  -- Lanes in use
  , .mk 4 1 .u8 .ro .none 0xFF .any  -- Neighbour
  , .mk 5 1 .u16 .ro .none 0 .any  -- Link delay
  , .mk 6 1 .u16 .ro .none 0 .any  -- Occupied link-slots
  , .mk 7 1 .dom .ro .none 0 .any  -- Counters
  ]

def t2113 : List Row :=
  [ .mk 0 1 .u8 .ro .none 1 .any  -- Highest subindex
  , .mk 1 1 .dom (.rw .super) .p 0 (.len 128 128)  -- Board table
  ]

def t2120 : List Row :=
  [ .mk 0 1 .u8 .ro .none 4 .any  -- Highest subindex
  , .mk 1 1 .dom .ro .none 0 .any  -- Active table, clockwise / counter-clockwise
  , .mk 2 1 .dom (.rw .integ) .i 0 (.len 0 1040)  -- Pending table
  , .mk 3 1 .u64 (.wo .integ) .i 0 .any  -- Apply at ring tick
  , .mk 4 1 .ostr .ro .none 0 (.len 8 8)  -- Status
  ]

def t2122 : List Row :=
  [ .mk 0 1 .u8 .ro .none 3 .any  -- Highest subindex
  , .mk 1 1 .dom (.rw .integ) .i 0 (.lenMul 0 512 8)  -- Entries
  , .mk 2 1 .u64 (.wo .integ) .i 0 .any  -- Apply at ring tick
  , .mk 3 1 .u64 .ro .none 0 .any  -- Frames lost
  ]

def t2130 : List Row :=
  [ .mk 0 1 .u8 .ro .none 6 .any  -- Highest subindex
  , .mk 1 1 .time48 (.rw .integ) .i 0 .any  -- Snapshot time
  , .mk 2 1 .u8 (.wo .integ) .i 0 (.btw 1 1)  -- Command
  , .mk 3 1 .u8 .ro .none 0 .any  -- Snapshot state
  , .mk 4 1 .dom .ro .none 0 .any  -- Latched ticks
  , .mk 5 1 .u8 .ro .none 0xFF .any  -- Export slot
  , .mk 6 1 .dom .ro .none 0 .any  -- Snapshot data
  ]

def t2200 : List Row :=
  [ .mk 0 1 .u8 .ro .none 0xC .any  -- Highest subindex
  , .mk 1 1 .u8 .ro .none 0 .any  -- State
  , .mk 2 1 .time48 .ro .none 0 .any  -- Current time
  , .mk 3 1 .i64 .ro .none 0 .any  -- Filtered offset
  , .mk 4 1 .i32 .ro .none 0 .any  -- Rate adjustment ρ
  , .mk 5 1 .u32 .ro .none 0 .any  -- Mean path delay
  , .mk 6 1 .ostr .ro .none 0 (.len 8 8)  -- Parent clock identity
  , .mk 7 1 .u8 .ro .none 0xFF .any  -- Slave port
  , .mk 8 1 .u32 .ro .none 0 .any  -- Steps
  , .mk 9 1 .i64 .ro .none 0 .any  -- Last step
  , .mk 0xA 1 .u32 .ro .none 0 .any  -- Generation
  , .mk 0xB 1 .u8 (.wo .super) .i 0 (.btw 1 3)  -- Command
  , .mk 0xC 1 .time48 .ro .none 0 .any  -- Locked since
  ]

def t2201 : List Row :=
  [ .mk 0 1 .u8 .ro .none 0xC .any  -- Highest subindex
  , .mk 1 1 .u8 (.rw .super) .p 0x7F (.btw 0 127)  -- Domain
  , .mk 2 1 .u8 (.rw .super) .p 0x80 .any  -- Priority1
  , .mk 3 1 .u8 (.rw .super) .p 0x80 .any  -- Priority2
  , .mk 4 1 .bool (.rw .super) .p 1 (.btw 0 1)  -- Slave only
  , .mk 5 1 .u8 (.rw .super) .p 0 (.btw 0 1)  -- Clock type
  , .mk 6 1 .i8 (.rw .super) .p 0xFE (.sbtw (-3) (1))  -- logAnnounceInterval
  , .mk 7 1 .i8 (.rw .super) .p 0xFD (.sbtw (-7) (-1))  -- logSyncInterval
  , .mk 8 1 .i8 (.rw .super) .p 0xFD (.sbtw (-7) (5))  -- logMinDelayReqInterval
  , .mk 9 1 .u8 (.rw .super) .p 3 (.btw 2 10)  -- announceReceiptTimeout
  , .mk 0xA 1 .ostr .konst .none 0 (.len 8 8)  -- Clock identity
  , .mk 0xB 1 .u8 (.rw .super) .p 0xF8 (.btw 6 255)  -- Local clock class
  , .mk 0xC 1 .u8 (.rw .super) .p 0xA0 .any  -- Time source
  ]

def t2202 : List Row :=
  [ .mk 0 1 .u8 .ro .none 9 .any  -- Highest subindex
  , .mk 1 1 .bool (.rw .super) .p 0 (.btw 0 1)  -- Enable
  , .mk 2 1 .u8 .ro .none 0 .any  -- Port mode
  , .mk 3 1 .i32 (.rw .super) .p 0 (.sbtw (-1000000) (1000000))  -- External ingress latency
  , .mk 4 1 .i32 (.rw .super) .p 0 (.sbtw (-1000000) (1000000))  -- External egress latency
  , .mk 5 1 .i32 (.rw .super) .p 0 (.sbtw (-1000000) (1000000))  -- Delay asymmetry
  , .mk 6 1 .bool (.rw .super) .p 0 (.btw 0 1)  -- Hybrid Delay_Req
  , .mk 7 1 .u8 .ro .none 1 .any  -- Port state
  , .mk 8 1 .u32 .ro .none 0 .any  -- Mean path delay
  , .mk 9 1 .dom .ro .none 0 .any  -- Counters
  ]

def t2220 : List Row :=
  [ .mk 0 1 .u8 .ro .none 0xC .any  -- Highest subindex
  , .mk 1 1 .bool (.rw .integ) .p 0 (.btw 0 1)  -- Enable
  , .mk 2 1 .u8 (.rw .integ) .p 1 (.btw 1 3)  -- Edge select
  , .mk 3 1 .u32 (.rw .integ) .p 0x64 (.btw 20 1000000)  -- Glitch filter
  , .mk 4 1 .u32 (.rw .integ) .p 0x2710 (.btw 1 100000)  -- Maximum event rate
  , .mk 5 1 .u8 (.rw .integ) .p 1 (.btw 0 1)  -- Active level
  , .mk 6 1 .u32 (.rw .integ) .p 0x2710 (.btw 1 3600000)  -- Stuck time
  , .mk 7 1 .bool (.rw .oper) .i 0 (.btw 0 1)  -- Notify
  , .mk 8 1 .dom .ro .none 0 .any  -- Capture ring
  , .mk 9 1 .u64 .ro .none 0 .any  -- Capture count
  , .mk 0xA 1 .time48 .ro .none 0 .any  -- Latest capture time
  , .mk 0xB 1 .u64 .ro .none 0 .any  -- Glitches discarded
  , .mk 0xC 1 .u8 .ro .none 0 .any  -- Input status
  ]

def t2238 : List Row :=
  [ .mk 0xD 1 .i32 .ro .none 0 .any  -- PPS_IN offset
  ]

def t2239 : List Row :=
  [ .mk 0 1 .u8 .ro .none 4 .any  -- Highest subindex
  , .mk 1 1 .u8 (.rw .integ) .p 0 (.btw 0 2)  -- Mode
  , .mk 2 1 .u32 (.rw .integ) .p 0x186A0 (.btw 1 500000)  -- Pulse width
  , .mk 3 1 .i32 (.rw .integ) .p 0 (.sbtw (-499999999) (499999999))  -- Offset
  , .mk 4 1 .bool (.rw .integ) .p 0 (.btw 0 1)  -- Send when not locked
  ]

def t2240 : List Row :=
  [ .mk 0 1 .u8 .ro .none 0xD .any  -- Highest subindex
  , .mk 1 1 .u8 (.rw .integ) .i 0 (.btw 0 3)  -- Kind
  , .mk 2 1 .u8 (.rw .integ) .i 0 (.btw 0 25)  -- Trigger
  , .mk 3 1 .time48 (.rw .integ) .i 0 .any  -- Launch time
  , .mk 4 1 .u32 (.rw .integ) .i 0 (.btw 0 1000000000)  -- Offset
  , .mk 5 1 .u16 (.rw .integ) .i 0 .any  -- Target
  , .mk 6 1 .u16 (.rw .integ) .i 0 .any  -- Parameter
  , .mk 7 1 .u16 (.rw .integ) .i 0xFFFF .any  -- Time insertion offset
  , .mk 8 1 .u8 (.wo .oper) .i 0 (.btw 0 1)  -- Arm
  , .mk 9 1 .u8 .ro .none 0 .any  -- State
  , .mk 0xA 1 .time48 .ro .none 0 .any  -- Last launch
  , .mk 0xB 1 .u8 .ro .none 0 .any  -- Result
  , .mk 0xC 1 .u64 .ro .none 0 .any  -- Launches
  , .mk 0xD 1 .u32 .ro .none 0 .any  -- Missed
  ]

def t2280 : List Row :=
  [ .mk 0 1 .u8 .ro .none 0x10 .any  -- Highest subindex
  , .mk 1 16 .dom (.rw .integ) .i 0 (.len 60 1518)  -- Templates 0–15
  ]

def t2300 : List Row :=
  [ .mk 0 1 .u8 .ro .none 0xE .any  -- Highest subindex
  , .mk 1 4 .u8 (.rw .integ) .t 0 (.btw 0 3)  -- Wing state of W0–W3
  , .mk 5 1 .u8 (.wo .super) .i 0 (.btw 1 3)  -- Device command
  , .mk 6 1 .u32 (.rw .super) .i 0 .any  -- Wake timer
  , .mk 7 1 .u8 (.rw .super) .p 1 (.btw 0 7)  -- Wake sources
  , .mk 8 1 .ostr .ro .none 0 (.len 4 4)  -- Current wing states
  , .mk 9 1 .dom .ro .none 0 .any  -- Last wake
  , .mk 0xA 1 .u16 .ro .none 0 .any  -- Retention status
  , .mk 0xB 1 .u8 (.wo .integ) .i 0 (.btw 0 7)  -- Release
  , .mk 0xC 1 .u8 .ro .none 0 .any  -- WAKE_N status
  , .mk 0xD 1 .dom .ro .none 0 .any  -- Counters
  , .mk 0xE 1 .dom .ro .none 0 .any  -- Die temperatures
  ]

def t2340 : List Row :=
  [ .mk 0 1 .u8 .ro .none 7 .any  -- Highest subindex
  , .mk 1 1 .u16 (.rw .integ) .i 0xFE .any  -- Campaign items
  , .mk 2 1 .bool (.rw .super) .i 0 (.btw 0 1)  -- Force
  , .mk 3 1 .u8 (.wo .integ) .i 0 (.btw 1 2)  -- Command
  , .mk 4 1 .u8 .ro .none 0xFF .any  -- Campaign slot
  , .mk 5 1 .u8 .ro .none 0xFF .any  -- Store slot
  , .mk 6 1 .u16 (.rw .integ) .i 0xA (.btw 1 3600)  -- Window timeout
  , .mk 7 1 .u8 .ro .none 0 .any  -- Start-up result
  ]

def t2341 : List Row :=
  [ .mk 0 1 .u8 .ro .none 8 .any  -- Highest subindex
  , .mk 1 8 .dom .ro .none 0 .any  -- Status of items 1–8
  ]

def t2342 : List Row :=
  [ .mk 0 1 .u8 .ro .none 5 .any  -- Highest subindex
  , .mk 1 1 .u8 .ro .none 0xFF .any  -- Loaded copy
  , .mk 2 1 .u32 .ro .none 0 .any  -- Write count
  , .mk 3 1 .time48 .ro .none 0 .any  -- Write time
  , .mk 4 1 .dom .ro .none 0 .any  -- Record
  , .mk 5 1 .u16 .ro .none 0 .any  -- Items in record
  ]

def t2360 : List Row :=
  [ .mk 0 1 .u8 .ro .none 0xF .any  -- Highest subindex
  , .mk 1 1 .u8 .ro .none 0 .any  -- Boot phase
  , .mk 2 1 .u8 .ro .none 0 .any  -- Running image
  , .mk 3 1 .u8 .ro .none 0 .any  -- Boot cause
  , .mk 4 1 .u8 .ro .none 0 .any  -- Straps
  , .mk 5 1 .dom .ro .none 0 .any  -- Slot information
  , .mk 6 1 .u8 .ro .none 0 .any  -- Security counter
  , .mk 7 1 .u8 (.wo .super) .i 0 (.btw 1 5)  -- Command
  , .mk 8 1 .u8 .ro .none 0 .any  -- Trial state
  , .mk 9 1 .dom .ro .none 0 .any  -- Boot times
  , .mk 0xA 1 .u32 .ro .none 0 .any  -- Boot count
  , .mk 0xB 1 .dom (.wo .super) .i 0 (.len 4096 100663296)  -- Staging image
  , .mk 0xC 1 .u8 .ro .none 0xFF .any  -- Staging slot
  , .mk 0xD 1 .ostr .ro .none 0 (.len 16 16)  -- Debug challenge
  , .mk 0xE 1 .dom (.wo .super) .i 0 (.len 120 120)  -- Debug token
  , .mk 0xF 1 .u8 .ro .none 0 .any  -- Debug state
  ]

def t2400 : List Row :=
  [ .mk 0 1 .u8 .ro .none 0xB .any  -- Highest subindex
  , .mk 1 1 .u16 .ro .none 0 .any  -- Entries recorded
  , .mk 2 1 .u16 .ro .none 0 .any  -- Uncleared entries
  , .mk 3 1 .u32 .ro .none 0 .any  -- Lost count
  , .mk 4 1 .u8 .ro .none 0xFF .any  -- Highest lost severity
  , .mk 5 1 .u16 (.wo .oper) .i 0 (.btw 0 1023)  -- Clear entry
  , .mk 6 1 .bool (.wo .oper) .i 0 (.btw 1 1)  -- Clear all
  , .mk 7 1 .bool (.wo .super) .i 0 (.btw 1 1)  -- Empty
  , .mk 8 1 .u8 (.rw .super) .p 2 (.btw 1 3)  -- FAULT_N threshold
  , .mk 9 1 .u64 .ro .none 0 .any  -- Repeats counted
  , .mk 0xA 1 .u8 .ro .none 0 .any  -- Queue peak
  , .mk 0xB 1 .dom .ro .none 0 .any  -- Uncleared by severity
  ]

def t2401 : List Row :=
  [ .mk 0 1 .u8 .ro .none 1 .any  -- Highest subindex
  , .mk 1 1 .dom .ro .none 0 .any  -- Entries
  ]

def t2402 : List Row :=
  [ .mk 0 1 .u8 .ro .none 3 .any  -- Highest subindex
  , .mk 1 1 .dom .ro .none 0 .any  -- Records
  , .mk 2 1 .u32 .ro .none 0 .any  -- Records written
  , .mk 3 1 .bool (.wo .super) .i 0 (.btw 1 1)  -- Clear
  ]

def t2410 : List Row :=
  [ .mk 0 1 .u8 .ro .none 0xC .any  -- Highest subindex
  , .mk 1 1 .bool (.rw .integ) .t 0 (.btw 0 1)  -- Enable
  , .mk 2 1 .u8 (.rw .oper) .i 1 (.btw 0 3)  -- Polynomial
  , .mk 3 1 .u16 (.rw .integ) .t 0x3E8 (.btw 100 8000)  -- DMA rate
  , .mk 4 1 .u64 (.rw .oper) .i 0 .any  -- Running value
  , .mk 5 1 .u64 .ro .none 0 .any  -- Result
  , .mk 6 1 .ostr (.wo .oper) .i 0 (.len 1 1024)  -- Data
  , .mk 7 1 .u64 (.rw .oper) .i 0 .any  -- DMA address
  , .mk 8 1 .u64 (.rw .oper) .i 0 (.btw 1 25769803776)  -- DMA length
  , .mk 9 1 .u8 (.wo .oper) .i 0 (.btw 1 3)  -- Command
  , .mk 0xA 1 .u8 .ro .none 0 .any  -- State
  , .mk 0xB 1 .u64 .ro .none 0 .any  -- Position
  , .mk 0xC 1 .u8 .ro .none 0 .any  -- Status
  ]

def t2500 : List Row :=
  [ .mk 0 1 .u8 .ro .none 7 .any  -- Highest subindex
  , .mk 1 4 .u8 (.rw .super) .t 0 (.btw 0 1)  -- Active set of W0–W3
  , .mk 5 1 .u8 (.rw .super) .t 0 (.btw 0 1)  -- Active set of spine
  , .mk 6 1 .u64 .konst .none 0x5FC000000 .any  -- Guardian region base
  , .mk 7 1 .u32 .konst .none 0x4000000 .any  -- Guardian region size
  ]

def t2501 : List Row :=
  [ .mk 0 1 .u8 .ro .none 2 .any  -- Highest subindex
  , .mk 1 1 .dom (.rw .super) .t 0 (.lenMul 0 16384 32)  -- Rules
  , .mk 2 1 .u16 .ro .none 0 .any  -- Enabled rules
  ]

def t2502 : List Row :=
  [ .mk 0 1 .u8 .ro .none 2 .any  -- Highest subindex
  , .mk 1 1 .dom (.rw .super) .t 0 (.lenMul 0 16384 32)  -- Rules
  , .mk 2 1 .u16 .ro .none 0 .any  -- Enabled rules
  ]

def t2503 : List Row :=
  [ .mk 0 1 .u8 .ro .none 1 .any  -- Highest subindex
  , .mk 1 1 .dom .ro .none 0 .any  -- Partition status
  ]

def t2504 : List Row :=
  [ .mk 0 1 .u8 .ro .none 3 .any  -- Highest subindex
  , .mk 1 1 .dom .ro .none 0 .any  -- Violation records
  , .mk 2 1 .dom .ro .none 0 .any  -- Violation counters
  , .mk 3 1 .u32 (.wo .oper) .i 0 .any  -- Clear
  ]

def t2600 : List Row :=
  [ .mk 0 1 .u8 .ro .none 4 .any  -- Highest subindex
  , .mk 1 1 .u16 (.rw .super) .p 0x1000 (.btw 1024 32768)  -- Row-disturbance threshold
  , .mk 2 1 .u16 (.rw .super) .p 0x10 (.btw 1 64)  -- Throttle spacing
  , .mk 3 1 .u16 (.rw .integ) .p 0x10 (.btw 1 65535)  -- Candidate threshold
  , .mk 4 1 .bool (.wo .oper) .i 0 (.btw 1 1)  -- Counter reset
  ]

def t2601 : List Row :=
  [ .mk 0 1 .u8 .ro .none 0xE .any  -- Highest subindex
  , .mk 1 1 .u8 .ro .none 0 .any  -- State
  , .mk 2 1 .i8 .ro .none 0 .any  -- Temperature
  , .mk 3 1 .u8 .ro .none 0 .any  -- Refresh interval
  , .mk 4 1 .dom .ro .none 0 .any  -- Pseudo-channel status
  , .mk 5 1 .u64 .ro .none 0 .any  -- Corrected errors
  , .mk 6 1 .u64 .ro .none 0 .any  -- Uncorrectable reads
  , .mk 7 1 .dom .ro .none 0 .any  -- Error records
  , .mk 8 1 .u64 .ro .none 0 .any  -- Error records written
  , .mk 9 1 .dom .ro .none 0 .any  -- Candidate table
  , .mk 0xA 1 .dom .ro .none 0 .any  -- Spare rows
  , .mk 0xB 1 .u16 .ro .none 0 .any  -- Repair record entries
  , .mk 0xC 1 .u8 (.wo .integ) .i 0 (.btw 1 7)  -- Command
  , .mk 0xD 1 .u8 (.rw .integ) .i 0 (.btw 0 31)  -- Command parameter
  , .mk 0xE 1 .u8 .ro .none 0xFF .any  -- Last command slot
  ]

def t3000 : List Row :=
  [ .mk 0 1 .u8 .ro .none 0x25 .any  -- Highest subindex
  , .mk 1 1 .bool (.rw .integ) .t 0 (.btw 0 1)  -- Enable
  , .mk 2 1 .u8 (.rw .integ) .t 0 (.btw 0 3)  -- Owning wing
  , .mk 3 1 .u8 (.rw .integ) .t 1 (.btw 1 5)  -- Transport
  , .mk 4 1 .u8 (.rw .integ) .t 0 (.btw 0 2)  -- Class
  , .mk 5 1 .u16 (.rw .integ) .t 0x780 (.btw 64 7680)  -- Width
  , .mk 6 1 .u16 (.rw .integ) .t 0x438 (.btw 64 4320)  -- Height
  , .mk 7 1 .u8 (.rw .integ) .t 8 (.btw 0 11)  -- Frame rate
  , .mk 8 1 .u8 (.rw .integ) .t 0 (.btw 0 2)  -- Sampling
  , .mk 9 1 .u8 (.rw .integ) .t 0xA (.oneOf [8, 10, 12])  -- Depth
  , .mk 0xA 1 .u8 (.rw .integ) .t 0 (.btw 0 2)  -- Colorimetry
  , .mk 0xB 1 .u8 (.rw .integ) .t 0 (.btw 0 2)  -- Transfer
  , .mk 0xC 1 .u8 (.rw .integ) .t 4 (.btw 2 8)  -- Pool depth
  , .mk 0xD 1 .u8 (.rw .integ) .t 0 (.btw 0 1)  -- Impaired policy
  , .mk 0xE 1 .u8 (.rw .integ) .t 0 (.btw 0 7)  -- Leg A port
  , .mk 0xF 1 .ostr (.rw .integ) .t 0 (.len 16 16)  -- Leg A group
  , .mk 0x10 1 .ostr (.rw .integ) .t 0 (.len 16 16)  -- Leg A source address
  , .mk 0x11 1 .u16 (.rw .integ) .t 0x138C (.btw 1024 65535)  -- Leg A UDP port
  , .mk 0x12 1 .bool (.rw .integ) .t 0 (.btw 0 1)  -- Leg B enable
  , .mk 0x13 1 .u8 (.rw .integ) .t 0 (.btw 0 7)  -- Leg B port, group, source address, UDP port
  , .mk 0x14 2 .ostr (.rw .integ) .t 0 (.len 16 16)  -- Leg B port, group, source address, UDP port
  , .mk 0x16 1 .u16 (.rw .integ) .t 0x138C (.btw 1024 65535)  -- Leg B port, group, source address, UDP port
  , .mk 0x17 1 .u16 (.rw .integ) .t 0xA (.btw 1 50)  -- Merge window
  , .mk 0x18 1 .u8 (.rw .integ) .t 0x60 (.btw 96 127)  -- Payload type
  , .mk 0x19 1 .u16 (.rw .integ) .t 0x4B0 (.btw 256 8960)  -- Declared payload
  , .mk 0x1A 1 .u32 (.rw .integ) .t 0 .any  -- Declared bit rate
  , .mk 0x1B 1 .u8 (.rw .integ) .t 0xFF (.btwOr 0 127 255)  -- Decoder session
  , .mk 0x1C 1 .u8 (.rw .integ) .t 0 (.btw 0 2)  -- Token kind
  , .mk 0x1D 1 .u16 (.rw .integ) .t 0x5101 .any  -- Token DID/SDID
  , .mk 0x1E 1 .u16 (.rw .integ) .t 0 .any  -- Token strip column
  , .mk 0x1F 1 .u16 (.rw .integ) .t 0 .any  -- Token strip row
  , .mk 0x20 1 .u8 .ro .none 0 .any  -- State
  , .mk 0x21 1 .u8 .ro .none 0 .any  -- Leg states
  , .mk 0x22 1 .dom .ro .none 0 .any  -- Last stamp
  , .mk 0x23 1 .dom .ro .none 0 .any  -- Counters
  , .mk 0x24 1 .bool (.wo .oper) .i 0 (.btw 1 1)  -- Counter reset
  , .mk 0x25 1 .bool (.rw .integ) .t 1 (.btw 0 1)  -- PTP-referenced
  ]

def t3100 : List Row :=
  [ .mk 0 1 .u8 .ro .none 0xF .any  -- Highest subindex
  , .mk 1 1 .bool (.rw .integ) .t 0 (.btw 0 1)  -- Enable
  , .mk 2 1 .u8 (.rw .integ) .t 2 (.btw 1 3)  -- Codec
  , .mk 3 1 .u8 (.rw .integ) .t 2 (.btw 1 3)  -- Profile
  , .mk 4 1 .u8 (.rw .integ) .t 0x99 .any  -- Level
  , .mk 5 1 .u32 (.rw .integ) .t 0x4000 (.btw 1024 65536)  -- Bitstream buffer
  , .mk 6 1 .u8 (.rw .integ) .t 6 (.btw 1 16)  -- Reference pictures
  , .mk 7 1 .u8 (.rw .integ) .i 0 (.btw 0 1)  -- Resume policy
  , .mk 8 1 .u16 (.rw .integ) .i 0x64 (.btw 20 10000)  -- Timestamp limit
  , .mk 9 1 .bool (.wo .oper) .i 0 (.btw 1 1)  -- Re-arm
  , .mk 0xA 1 .u8 .ro .none 0xFF .any  -- Bound source
  , .mk 0xB 1 .u8 .ro .none 0 .any  -- State
  , .mk 0xC 1 .dom .ro .none 0 .any  -- Last error
  , .mk 0xD 1 .dom .ro .none 0 .any  -- Stream info
  , .mk 0xE 1 .dom .ro .none 0 .any  -- Counters
  , .mk 0xF 1 .bool (.wo .oper) .i 0 (.btw 1 1)  -- Counter reset
  ]

def t3200 : List Row :=
  [ .mk 0 1 .u8 .ro .none 0x1E .any  -- Highest subindex
  , .mk 1 1 .bool (.rw .oper) .t 0 (.btw 0 1)  -- Enable
  , .mk 2 1 .u8 (.rw .integ) .t 0 (.btw 0 2)  -- Kind
  , .mk 3 1 .u8 (.rw .integ) .t 0 (.btw 0 3)  -- Home wing
  , .mk 4 1 .u8 (.rw .oper) .t 0 (.btw 0 63)  -- Canvas
  , .mk 5 1 .u8 (.rw .oper) .t 0 .any  -- Z-order
  , .mk 6 1 .u8 (.rw .oper) .t 0 .any  -- Source
  , .mk 7 4 .u16 (.rw .oper) .t 0 .any  -- Crop x, y, width, height
  , .mk 0xB 2 .i32 (.rw .oper) .t 0 .any  -- Destination x, y
  , .mk 0xD 1 .u16 (.rw .oper) .t 0x780 (.btw 1 65535)  -- Destination width, height
  , .mk 0xE 1 .u16 (.rw .oper) .t 0x438 (.btw 1 65535)  -- Destination width, height
  , .mk 0xF 1 .u16 (.rw .oper) .t 0x1000 (.btw 0 4096)  -- Layer alpha
  , .mk 0x10 1 .u8 (.rw .integ) .t 1 (.btw 0 2)  -- Alpha mode
  , .mk 0x11 1 .u8 (.rw .integ) .t 0 (.btw 0 1)  -- Colour mode
  , .mk 0x12 1 .u8 (.rw .integ) .t 0x30 (.btw 0 63)  -- Colour table
  , .mk 0x13 1 .dom (.rw .integ) .t 0 (.len 24 24)  -- Matrix
  , .mk 0x14 1 .u8 (.rw .integ) .t 0 .any  -- Filter sets
  , .mk 0x15 1 .u8 (.rw .integ) .t 2 (.btw 0 3)  -- Graphics format
  , .mk 0x16 1 .u16 (.rw .integ) .t 0x780 (.btw 16 7680)  -- Graphics width, height
  , .mk 0x17 1 .u16 (.rw .integ) .t 0x438 (.btw 16 4320)  -- Graphics width, height
  , .mk 0x18 1 .u8 (.rw .integ) .t 2 (.btw 1 4)  -- Slot count
  , .mk 0x19 1 .u8 (.rw .oper) .t 0 (.btw 0 3)  -- Current slot
  , .mk 0x1A 1 .u8 (.wo .oper) .i 0 (.btw 0 3)  -- Claim
  , .mk 0x1B 1 .u8 (.rw .integ) .t 0 (.btw 0 1)  -- Writer
  , .mk 0x1C 1 .u8 (.rw .integ) .t 0xFF .any  -- Writer job list
  , .mk 0x1D 1 .u32 (.rw .oper) .t 0 .any  -- Solid colour
  , .mk 0x1E 1 .dom .ro .none 0 .any  -- Slot status
  ]

def t3400p0 : List Row :=
  [ .mk 0 1 .u8 .ro .none 0 .any  -- Highest subindex
  , .mk 1 1 .bool (.rw .integ) .t 0 (.btw 0 1)  -- Enable
  , .mk 2 1 .u8 (.rw .integ) .t 2 (.btw 1 7)  -- Display format
  , .mk 3 1 .u8 (.rw .integ) .t 8 (.btw 0 11)  -- Rate code
  , .mk 4 1 .u16 (.rw .integ) .t 0 .any  -- Raster offset
  , .mk 5 1 .u8 (.rw .integ) .t 0 (.btw 0 16)  -- Genlock group
  , .mk 6 1 .u8 (.rw .integ) .t 0 (.btw 0 1)  -- Latency mode
  , .mk 7 1 .u16 (.rw .integ) .t 0x100 (.btw 64 512)  -- Racing lead
  , .mk 8 1 .u8 (.rw .integ) .t 0xFF .any  -- Bay allocation mask
  , .mk 9 1 .u8 (.rw .integ) .t 0 (.btw 0 1)  -- Blend space
  , .mk 0xA 1 .u8 (.rw .integ) .t 0x30 (.btw 0 63)  -- Output colour table
  , .mk 0xB 1 .u8 (.rw .integ) .t 0 (.btw 0 4)  -- Signalled colorimetry
  , .mk 0xC 1 .u8 (.rw .integ) .t 3 (.btw 0 3)  -- Frame format
  , .mk 0xD 1 .u8 (.rw .integ) .t 0xA (.oneOf [6, 8, 10])  -- Panel depth
  , .mk 0xE 1 .u16 (.rw .oper) .i 0 .any  -- Line match
  , .mk 0xF 1 .u8 (.rw .oper) .i 8 (.btw 0 15)  -- Event notify mask
  , .mk 0x10 1 .u8 .ro .none 0 .any  -- State
  , .mk 0x11 1 .dom .ro .none 0 (.len 40 40)  -- Event times
  , .mk 0x12 1 .u64 .ro .none 0 .any  -- Raster frame count
  , .mk 0x13 1 .u64 .ro .none 0 .any  -- Underrun frames
  , .mk 0x14 1 .u64 .ro .none 0 .any  -- Underrun lines
  , .mk 0x15 1 .u64 .ro .none 0 .any  -- Frames not sent
  , .mk 0x16 1 .bool (.wo .oper) .i 0 (.btw 1 1)  -- Counter reset
  , .mk 0x17 1 .dom .ro .none 0 .any  -- Timing
  , .mk 0x20 1 .u8 (.rw .integ) .t 0 (.btw 0 7)  -- Leg A port
  , .mk 0x21 1 .ostr (.rw .integ) .t 0 (.len 16 16)  -- Leg A destination
  , .mk 0x22 1 .u16 (.rw .integ) .t 0x138C (.btw 1024 65535)  -- Leg A UDP port
  , .mk 0x23 1 .bool (.rw .integ) .t 0 (.btw 0 1)  -- Leg B enable
  , .mk 0x24 1 .u8 (.rw .integ) .t 0 (.btw 0 7)  -- Leg B port, destination, UDP port
  , .mk 0x25 1 .ostr (.rw .integ) .t 0 (.len 16 16)  -- Leg B port, destination, UDP port
  , .mk 0x26 1 .u16 (.rw .integ) .t 0x138C (.btw 1024 65535)  -- Leg B port, destination, UDP port
  , .mk 0x27 1 .u16 (.rw .integ) .t 0x138C (.btw 1024 65535)  -- Source UDP port
  , .mk 0x28 1 .u8 (.rw .integ) .t 0x60 (.btw 96 127)  -- Payload type
  , .mk 0x29 1 .u16 (.rw .integ) .t 0x4B0 (.btw 256 8960)  -- Payload size
  , .mk 0x2A 1 .u8 (.rw .integ) .t 0 (.btw 0 1)  -- Sampling
  , .mk 0x2B 1 .u16 (.rw .integ) .t 0x4022 (.clear 0xC0)  -- Marking of packets
  , .mk 0x2C 1 .dom .ro .none 0 .any  -- SDP
  , .mk 0x2D 1 .u32 (.rw .integ) .t 0 .any  -- SSRC
  , .mk 0x30 1 .bool (.rw .integ) .t 0 (.btw 0 1)  -- DSC enable
  , .mk 0x31 1 .u16 (.rw .integ) .t 0xC0 (.btw 128 256)  -- DSC bits per pixel
  ]

def t3400p1 : List Row :=
  [ .mk 0x38 1 .u8 (.rw .integ) .t 6 (.btw 0 6)  -- Link rate
  , .mk 0x39 1 .u8 (.rw .integ) .t 4 (.oneOf [1, 2, 4])  -- Lane count
  , .mk 0x3A 1 .u8 (.rw .integ) .t 0 (.btw 0 1)  -- Stream mode
  , .mk 0x3B 1 .ostr .ro .none 0 (.len 4 4)  -- Time slots
  , .mk 0x3C 1 .dom .ro .none 0 .any  -- Sink capabilities
  , .mk 0x3D 1 .dom .ro .none 0 .any  -- EDID
  , .mk 0x3E 1 .u32 .ro .none 0 .any  -- Retrain count
  , .mk 0x3F 1 .bool (.wo .integ) .i 0 (.btw 1 1)  -- Retrain
  , .mk 0x40 1 .dom .ro .none 0 .any  -- Link counters
  ]

def t3400 : List Row := t3400p0 ++ t3400p1

def t3480 : List Row :=
  [ .mk 0 1 .u8 .ro .none 6 .any  -- Highest subindex
  , .mk 1 1 .bool (.rw .integ) .t 0 (.btw 0 1)  -- Enable
  , .mk 2 1 .u16 (.rw .integ) .t 0x780 (.btw 64 65535)  -- Width
  , .mk 3 1 .u16 (.rw .integ) .t 0x438 (.btw 64 65535)  -- Height
  , .mk 4 1 .dom (.rw .integ) .t 0 (.lenMul 0 128 8)  -- Head list
  , .mk 5 1 .u32 (.rw .oper) .t 0 .any  -- Background colour
  , .mk 6 1 .u16 .ro .none 0 .any  -- Layers placed
  ]

def t34C0 : List Row :=
  [ .mk 0 1 .u8 .ro .none 6 .any  -- Highest subindex
  , .mk 1 1 .u8 (.rw .integ) .t 2 (.btw 1 16)  -- Stale periods
  , .mk 2 1 .u16 (.rw .integ) .t 0x14 (.btw 0 1000)  -- Transport allowance
  , .mk 3 1 .u16 (.rw .integ) .t 0x19 (.btw 2 65535)  -- Frozen count
  , .mk 4 1 .u16 (.rw .integ) .t 0x1F4 (.btw 20 60000)  -- Token limit
  , .mk 5 1 .u16 (.rw .integ) .t 0 (.btw 0 3600)  -- Blank limit
  , .mk 6 1 .u8 (.rw .integ) .t 1 (.btw 1 255)  -- Recovery frames
  ]

def t34F0 : List Row :=
  [ .mk 0 1 .u8 .ro .none 0x80 .any  -- Highest subindex
  , .mk 1 128 .u8 (.rw .integ) .t 0 (.btw 0 47)  -- Policy of sources 0–127, 128–255
  ]

def t34F1 : List Row :=
  [ .mk 0 1 .u8 .ro .none 0x80 .any  -- Highest subindex
  , .mk 1 128 .u8 (.rw .integ) .t 0 (.btw 0 47)  -- Policy of sources 0–127, 128–255
  ]

def t34F2 : List Row :=
  [ .mk 0 1 .u8 .ro .none 0x11 .any  -- Highest subindex
  , .mk 1 12 .u32 (.rw .super) .t 0 .any  -- Colours A, B of STALE, FROZEN, HELD, IMPAIRED, NO SIGNAL, DEGRADED
  , .mk 0xD 2 .u32 (.rw .super) .t 0 .any  -- Legend ink, legend background
  , .mk 0xF 1 .u16 (.rw .super) .t 0x1000 (.btw 2048 4096)  -- Legend background alpha
  , .mk 0x10 2 .u32 (.rw .super) .t 0 .any  -- Firefly ink, background
  ]

def t34F3 : List Row :=
  [ .mk 0 1 .u8 .ro .none 0x80 .any  -- Highest subindex
  , .mk 1 128 .u8 (.rw .super) .t 0xC (.clear 0xC0)  -- Placement of outputs 0–127
  ]

def t34F4 : List Row :=
  [ .mk 0 1 .u8 .ro .none 8 .any  -- Highest subindex
  , .mk 1 8 .u32 (.rw .oper) .t 0 .any  -- Hold, sources 32(i − 1) to 32i − 1
  ]

def t34F5 : List Row :=
  [ .mk 0 1 .u8 .ro .none 2 .any  -- Highest subindex
  , .mk 1 1 .dom (.rw .super) .p 0 (.len 0 65536)  -- Legend set
  , .mk 2 1 .u8 .ro .none 0 .any  -- Legend status
  ]

def t34F6 : List Row :=
  [ .mk 0 1 .u8 .ro .none 1 .any  -- Highest subindex
  , .mk 1 1 .dom .ro .none 0 .any  -- Source summary
  ]

def t3500p0 : List Row :=
  [ .mk 0 1 .u8 .ro .none 0x2A .any  -- Highest subindex
  , .mk 1 1 .bool (.rw .integ) .t 0 (.btw 0 1)  -- Enable
  , .mk 2 1 .u8 (.rw .integ) .t 1 (.btw 1 2)  -- Codec
  , .mk 3 1 .u8 (.rw .integ) .t 1 (.btw 1 2)  -- Profile
  , .mk 4 1 .u8 (.rw .integ) .t 0x99 .any  -- Level
  , .mk 5 1 .u8 (.rw .integ) .t 0 (.btw 0 1)  -- Tier
  , .mk 6 1 .u8 (.rw .oper) .t 0 (.btw 0 2)  -- Input kind
  , .mk 7 1 .u8 (.rw .oper) .t 0 .any  -- Input number
  , .mk 8 2 .u16 (.rw .oper) .t 0 .any  -- Region x, y
  , .mk 0xA 1 .u16 (.rw .integ) .t 0xF00 (.btw 256 7680)  -- Width
  , .mk 0xB 1 .u16 (.rw .integ) .t 0x870 (.btw 449 4320)  -- Height
  , .mk 0xC 1 .u8 (.rw .integ) .t 8 (.btw 8 255)  -- Delay rows D
  , .mk 0xD 1 .u32 (.rw .integ) .t 0 .any  -- Input offset
  , .mk 0xE 1 .u16 (.rw .integ) .t 0x20 (.btw 8 256)  -- Refresh period R
  , .mk 0xF 1 .u8 (.rw .integ) .t 0 (.btw 0 3)  -- Colour signalling
  , .mk 0x10 1 .u32 (.rw .integ) .t 0xC350 (.btw 1000 800000)  -- Bit rate
  , .mk 0x11 1 .u8 (.rw .integ) .t 0 (.btw 0 1)  -- Carriage
  , .mk 0x12 1 .u32 (.rw .integ) .t 0 .any  -- TS rate
  , .mk 0x13 1 .ostr (.rw .integ) .t 0 (.len 8 8)  -- TS audio channels
  , .mk 0x14 1 .u16 (.rw .integ) .t 0x7D0 (.btw 0 50000)  -- PTS margin m
  , .mk 0x15 1 .u8 (.rw .integ) .t 0 (.btw 0 7)  -- Leg A port
  , .mk 0x16 1 .ostr (.rw .integ) .t 0 (.len 16 16)  -- Leg A destination
  , .mk 0x17 1 .u16 (.rw .integ) .t 0x138C (.btw 1024 65535)  -- Leg A UDP port
  , .mk 0x18 1 .bool (.rw .integ) .t 0 (.btw 0 1)  -- Leg B enable
  , .mk 0x19 1 .u8 (.rw .integ) .t 0 (.btw 0 7)  -- Leg B port, destination, UDP port
  , .mk 0x1A 1 .ostr (.rw .integ) .t 0 (.len 16 16)  -- Leg B port, destination, UDP port
  , .mk 0x1B 1 .u16 (.rw .integ) .t 0x138C (.btw 1024 65535)  -- Leg B port, destination, UDP port
  , .mk 0x1C 1 .u16 (.rw .integ) .t 0x138C (.btw 1024 65535)  -- Source UDP port
  , .mk 0x1D 1 .u8 (.rw .integ) .t 0x60 (.btw 96 127)  -- Payload type
  , .mk 0x1E 1 .u16 (.rw .integ) .t 0x4B0 (.btw 256 8960)  -- Payload size
  , .mk 0x1F 1 .u16 (.rw .integ) .t 0x4022 (.clear 0xC0)  -- Marking of packets
  , .mk 0x20 1 .u32 (.rw .integ) .t 0 .any  -- SSRC
  , .mk 0x21 1 .dom .ro .none 0 .any  -- SDP
  , .mk 0x22 1 .u8 (.rw .super) .t 0xC (.clear 0xC0)  -- Placement
  , .mk 0x23 1 .u8 .ro .none 0 .any  -- State
  , .mk 0x24 1 .u64 .ro .none 0 .any  -- Picture count
  , .mk 0x25 1 .u32 .ro .none 0 .any  -- Fixed delay
  , .mk 0x26 1 .u32 .ro .none 0 .any  -- Row input time
  , .mk 0x27 1 .u32 .ro .none 0 .any  -- Coded size
  , .mk 0x28 1 .dom .ro .none 0 .any  -- Counters
  ]

def t3500p1 : List Row :=
  [ .mk 0x29 1 .bool (.wo .oper) .i 0 (.btw 1 1)  -- Counter reset
  , .mk 0x2A 1 .u16 .ro .none 0 .any  -- Cycle position
  ]

def t3500 : List Row := t3500p0 ++ t3500p1

def t3510 : List Row :=
  [ .mk 0 1 .u8 .ro .none 2 .any  -- Highest subindex
  , .mk 1 1 .dom (.rw .oper) .t 0 (.lenMul 0 192 12)  -- ROI table
  , .mk 2 1 .u8 .ro .none 0 .any  -- Enabled rectangles
  ]

def t3520 : List Row :=
  [ .mk 0 1 .u8 .ro .none 0xC .any  -- Highest subindex
  , .mk 1 1 .u8 (.rw .integ) .t 4 (.btw 0 63)  -- QP minimum
  , .mk 2 1 .u8 (.rw .integ) .t 0xFF (.btwOr 0 63 255)  -- QP maximum
  , .mk 3 1 .u8 (.rw .integ) .t 0x10 (.btw 1 255)  -- Exhaustion threshold e
  , .mk 4 1 .u32 .ro .none 0 .any  -- Minimum bit rate
  , .mk 5 1 .u32 .ro .none 0 .any  -- CPB size
  , .mk 6 1 .dom .ro .none 0 .any  -- Rate-control state
  , .mk 7 1 .dom .ro .none 0 .any  -- Row record set
  , .mk 8 1 .u8 .ro .none 0 .any  -- Follow state
  , .mk 9 1 .u64 .ro .none 0 .any  -- Exhausted pictures
  , .mk 0xA 1 .u64 .ro .none 0 .any  -- Floor-coded rows
  , .mk 0xB 1 .u64 .ro .none 0 .any  -- Floor-coded CTUs
  , .mk 0xC 1 .bool (.wo .oper) .i 0 (.btw 1 1)  -- Counter reset
  ]

def t3540 : List Row :=
  [ .mk 0 1 .u8 .ro .none 3 .any  -- Highest subindex
  , .mk 1 1 .dom .ro .none 0 .any  -- Window
  , .mk 2 1 .u32 .ro .none 0 .any  -- Newest picture count
  , .mk 3 1 .u64 .ro .none 0 .any  -- Records written
  ]

def t3600 : List Row :=
  [ .mk 0 1 .u8 .ro .none 5 .any  -- Highest subindex
  , .mk 1 1 .u8 (.rw .integ) .p 1 (.btw 0 3)  -- AUD_MCLK0, AUD_MCLK1 frequency
  , .mk 2 1 .u8 (.rw .integ) .p 2 (.btw 0 3)  -- AUD_MCLK0, AUD_MCLK1 frequency
  , .mk 3 1 .u64 .ro .none 0 .any  -- Current position
  , .mk 4 1 .dom .ro .none 0 .any  -- Channel status
  , .mk 5 1 .bool (.wo .oper) .i 0 (.btw 1 1)  -- Counter reset
  ]

def t3601 : List Row :=
  [ .mk 0 1 .u8 .ro .none 0xC .any  -- Highest subindex
  , .mk 1 1 .bool (.rw .integ) .t 0 (.btw 0 1)  -- Enable
  , .mk 2 1 .u8 (.rw .integ) .t 0 (.btw 0 1)  -- Direction
  , .mk 3 1 .u8 (.rw .integ) .t 0 (.btw 0 1)  -- Rate
  , .mk 4 1 .u8 (.rw .integ) .t 0 (.btw 0 1)  -- Format
  , .mk 5 1 .u8 (.rw .integ) .t 0 (.btw 0 1)  -- Clock role
  , .mk 6 1 .u8 (.rw .oper) .t 0 (.btw 0 8)  -- Group
  , .mk 7 2 .u8 (.rw .oper) .t 0xFF (.btwOr 0 159 255)  -- Left, right source channel
  , .mk 9 1 .u16 (.rw .integ) .t 0x60 (.btw 8 16384)  -- Playout delay d
  , .mk 0xA 1 .u8 .ro .none 0 .any  -- State
  , .mk 0xB 1 .i32 .ro .none 0 .any  -- Drift
  , .mk 0xC 1 .bool (.wo .oper) .i 0 (.btw 1 1)  -- Re-arm
  ]

def t3611 : List Row :=
  [ .mk 0 1 .u8 .ro .none 7 .any  -- Highest subindex
  , .mk 1 1 .u8 (.rw .oper) .i 1 (.btw 0 1)  -- Trigger kind
  , .mk 2 1 .time48 (.rw .oper) .i 0 .any  -- Trigger time
  , .mk 3 1 .u8 (.rw .oper) .i 0 (.btw 0 3)  -- Trigger wing, tick
  , .mk 4 1 .u64 (.rw .oper) .i 0 .any  -- Trigger wing, tick
  , .mk 5 1 .u8 (.wo .oper) .i 0 (.btw 1 2)  -- Command
  , .mk 6 1 .u64 .ro .none 0 .any  -- Start position n₀
  , .mk 7 1 .u8 .ro .none 0 .any  -- Group state
  ]

def t3620 : List Row :=
  [ .mk 0 1 .u8 .ro .none 0x13 .any  -- Highest subindex
  , .mk 1 1 .bool (.rw .integ) .t 0 (.btw 0 1)  -- Enable
  , .mk 2 1 .u8 (.rw .integ) .t 0 (.btw 0 1)  -- Kind
  , .mk 3 1 .u8 (.rw .integ) .t 0 (.btw 0 7)  -- Port
  , .mk 4 1 .ostr (.rw .integ) .t 0 (.len 16 16)  -- Group or destination
  , .mk 5 1 .ostr (.rw .integ) .t 0 (.len 16 16)  -- Source address
  , .mk 6 1 .u16 (.rw .integ) .t 0x138C (.btw 1024 65535)  -- UDP port
  , .mk 7 1 .u8 (.rw .integ) .t 0x61 (.btw 96 127)  -- Payload type
  , .mk 8 1 .u8 (.rw .integ) .t 0 (.btw 0 1)  -- Encoding
  , .mk 9 1 .u8 (.rw .integ) .t 0 (.btw 0 1)  -- Rate
  , .mk 0xA 1 .u8 (.rw .integ) .t 2 (.btw 1 64)  -- Channel count
  , .mk 0xB 1 .u8 (.rw .integ) .t 0 (.btw 0 1)  -- Packet time
  , .mk 0xC 1 .u8 (.rw .integ) .t 0x20 (.btw 0 159)  -- First channel
  , .mk 0xD 1 .u32 (.rw .integ) .t 0 .any  -- RTP offset / link offset
  , .mk 0xE 1 .u8 (.rw .integ) .t 0xFF (.btwOr 0 7 255)  -- Leg B port
  , .mk 0xF 1 .ostr (.rw .integ) .t 0 (.len 16 16)  -- Leg B group or destination
  , .mk 0x10 1 .u8 (.rw .integ) .t 0 .any  -- TS source, TS PID
  , .mk 0x11 1 .u16 (.rw .integ) .t 0x101 (.btw 16 8190)  -- TS source, TS PID
  , .mk 0x12 1 .u8 .ro .none 0 .any  -- State
  , .mk 0x13 1 .dom .ro .none 0 .any  -- Counters / SDP
  ]

def t3700 : List Row :=
  [ .mk 0 1 .u8 .ro .none 0xA .any  -- Highest subindex
  , .mk 1 1 .u8 (.rw .integ) .t 0 (.btw 0 3)  -- Reference wing
  , .mk 2 1 .u8 (.rw .integ) .t 0xFF (.btwOr 0 63 255)  -- Quiet-sync output
  , .mk 3 1 .u8 (.rw .integ) .t 8 (.btw 8 16)  -- Quiet pulses q
  , .mk 4 1 .u8 .ro .none 1 .any  -- Noise mode
  , .mk 5 1 .u8 .ro .none 0 .any  -- Current frequency
  , .mk 6 1 .dom .ro .none 0 .any  -- Noise
  , .mk 7 1 .u16 (.rw .integ) .t 0x28 (.btw 1 65535)  -- Hop threshold
  , .mk 8 1 .u8 .ro .none 4 .any  -- Scans per tick
  , .mk 9 1 .u64 .ro .none 0 .any  -- Scan count
  , .mk 0xA 1 .u32 .ro .none 0 .any  -- Hops
  ]

def t3701 : List Row :=
  [ .mk 0 1 .u8 .ro .none 0x11 .any  -- Highest subindex
  , .mk 1 1 .bool (.rw .integ) .t 0 (.btw 0 1)  -- Enable
  , .mk 2 1 .u8 (.rw .integ) .t 0 (.btw 0 1)  -- Class
  , .mk 3 1 .u8 (.rw .integ) .t 0 (.btw 0 31)  -- First drive line, drive count
  , .mk 4 1 .u8 (.rw .integ) .t 1 (.btw 1 32)  -- First drive line, drive count
  , .mk 5 1 .u8 (.rw .integ) .t 0 (.btw 0 47)  -- First sense line, sense count
  , .mk 6 1 .u8 (.rw .integ) .t 1 (.btw 1 48)  -- First sense line, sense count
  , .mk 7 1 .u16 (.rw .integ) .t 0x64 (.btw 10 65535)  -- Touch threshold
  , .mk 8 1 .u16 (.rw .integ) .t 0x3C (.btw 5 65535)  -- Release threshold
  , .mk 9 1 .u16 (.rw .integ) .t 0x3C (.btw 10 65535)  -- Negative threshold
  , .mk 0xA 1 .u16 (.rw .integ) .t 0x1F40 (.btw 1000 60000)  -- Time constant τ
  , .mk 0xB 1 .u16 (.rw .integ) .t 0x1E (.btw 1 3600)  -- Stuck time
  , .mk 0xC 1 .u8 (.rw .integ) .t 0xC (.btw 4 255)  -- Large-object limit
  , .mk 0xD 1 .dom (.rw .integ) .t 0 (.lenMul 0 2304 36)  -- Element table
  , .mk 0xE 1 .bool (.wo .oper) .i 0 (.btw 1 1)  -- Re-baseline
  , .mk 0xF 1 .u8 .ro .none 0 .any  -- Surface state
  , .mk 0x10 1 .dom .ro .none 0 .any  -- Node data
  , .mk 0x11 1 .dom .ro .none 0 .any  -- Counters
  ]

def t3711 : List Row :=
  [ .mk 0 1 .u8 .ro .none 0x4F .any  -- Highest subindex
  , .mk 1 1 .u32 .ro .none 0 .any  -- Scan count
  , .mk 2 1 .u16 .ro .none 0 .any  -- Surface flags
  , .mk 3 10 .u64 .ro .none 0 .any  -- Contacts 0–9
  , .mk 0x10 64 .u32 .ro .none 0 .any  -- Elements 0–63
  ]

def t4000 : List Row :=
  [ .mk 0 1 .u8 .ro .none 6 .any  -- Highest subindex
  , .mk 1 1 .dom (.rw .integ) .t 0 (.len 96 8192)  -- Content
  , .mk 2 1 .bool (.rw .integ) .t 0 (.btw 0 1)  -- Enable
  , .mk 3 1 .u8 (.rw .integ) .t 0xFF .any  -- Bay mask
  , .mk 4 1 .u16 .ro .none 0 .any  -- Check result
  , .mk 5 1 .u64 .ro .none 0 .any  -- Demand
  , .mk 6 1 .u64 .ro .none 0 .any  -- Runs
  ]

def t4800 : List Row :=
  [ .mk 0 1 .u8 .ro .none 1 .any  -- Highest subindex
  , .mk 1 1 .dom (.rw .integ) .t 0 (.len 318232 318232)  -- Table
  ]

def t4840 : List Row :=
  [ .mk 0 1 .u8 .ro .none 1 .any  -- Highest subindex
  , .mk 1 1 .dom (.rw .integ) .t 0 (.len 1792 1792)  -- Coefficients
  ]

def t5000 : List Row :=
  [ .mk 0 1 .u8 .ro .none 3 .any  -- Highest subindex
  , .mk 1 1 .dom .ro .none 0 .any  -- Window
  , .mk 2 1 .u32 .ro .none 0 .any  -- Newest raster frame count
  , .mk 3 1 .u64 .ro .none 0 .any  -- Entries written
  ]

def tRpdoComm : List Row :=
  [ .mk 0 1 .u8 .ro .none 2 .any  -- Highest subindex
  , .mk 1 1 .u32 (.rw .oper) .p 0x80000000 .any  -- COB-ID
  , .mk 2 1 .u8 (.rw .oper) .p 254 .any  -- Transmission type
  ]

def tPdoMap : List Row :=
  [ .mk 0 1 .u8 .ro .none 64 .any  -- Highest subindex
  , .mk 1 64 .u32 (.rw .oper) .p 0 .any  -- Mapped object: index, subindex, bits
  ]

def tTpdoComm : List Row :=
  [ .mk 0 1 .u8 .ro .none 5 .any  -- Highest subindex
  , .mk 1 1 .u32 (.rw .oper) .p 0x80000000 .any  -- COB-ID
  , .mk 2 1 .u8 (.rw .oper) .p 254 .any  -- Transmission type
  , .mk 3 1 .u16 (.rw .oper) .p 0 .any  -- Inhibit time, 100 us
  , .mk 5 1 .u16 (.rw .oper) .p 0 .any  -- Event timer, ms
  ]

end Obj

/-- The index map (Table 3.1): first index, number of indices, the rows of each. -/
def indexMap1000 : List (Nat × Nat × List Row) :=
  [ (0x1000, 1, Obj.t1000)
  , (0x1001, 1, Obj.t1001)
  , (0x1005, 1, Obj.t1005)
  , (0x1008, 1, Obj.t1008)
  , (0x1009, 1, Obj.t1009)
  , (0x100A, 1, Obj.t100A)
  , (0x1010, 1, Obj.t1010)
  , (0x1011, 1, Obj.t1011)
  , (0x1014, 1, Obj.t1014)
  , (0x1015, 1, Obj.t1015)
  , (0x1017, 1, Obj.t1017)
  , (0x1018, 1, Obj.t1018)
  , (0x1400, 8, Obj.tRpdoComm)
  , (0x1600, 8, Obj.tPdoMap)
  , (0x1800, 8, Obj.tTpdoComm)
  , (0x1A00, 8, Obj.tPdoMap) ]

def indexMap2000 : List (Nat × Nat × List Row) :=
  [ (0x2000, 1, Obj.t2000)
  , (0x2010, 4, Obj.t2010)
  , (0x2020, 1, Obj.t2020)
  , (0x2030, 1, Obj.t2030)
  , (0x2031, 1, Obj.t2031)
  , (0x2036, 1, Obj.t2036)
  , (0x2037, 1, Obj.t2037)
  , (0x2038, 8, Obj.t2038)
  , (0x2040, 1, Obj.t2040)
  , (0x2041, 1, Obj.t2041)
  , (0x2042, 1, Obj.t2042)
  , (0x2043, 1, Obj.t2043)
  , (0x2044, 1, Obj.t2044)
  , (0x2045, 1, Obj.t2045)
  , (0x2046, 1, Obj.t2046)
  , (0x2080, 64, Obj.t2080) ]

def indexMap2100 : List (Nat × Nat × List Row) :=
  [ (0x2100, 1, Obj.t2100)
  , (0x2110, 1, Obj.t2110)
  , (0x2111, 2, Obj.t2111)
  , (0x2113, 1, Obj.t2113)
  , (0x2120, 2, Obj.t2120)
  , (0x2122, 1, Obj.t2122)
  , (0x2130, 1, Obj.t2130) ]

def indexMap2200 : List (Nat × Nat × List Row) :=
  [ (0x2200, 1, Obj.t2200)
  , (0x2201, 1, Obj.t2201)
  , (0x2202, 10, Obj.t2202)
  , (0x2220, 25, Obj.t2220)
  , (0x2238, 1, Obj.t2238)
  , (0x2239, 1, Obj.t2239)
  , (0x2240, 64, Obj.t2240)
  , (0x2280, 1, Obj.t2280) ]

def indexMap2300 : List (Nat × Nat × List Row) :=
  [ (0x2300, 1, Obj.t2300)
  , (0x2340, 1, Obj.t2340)
  , (0x2341, 1, Obj.t2341)
  , (0x2342, 1, Obj.t2342)
  , (0x2360, 1, Obj.t2360) ]

def indexMap2400 : List (Nat × Nat × List Row) :=
  [ (0x2400, 1, Obj.t2400)
  , (0x2401, 1, Obj.t2401)
  , (0x2402, 1, Obj.t2402)
  , (0x2410, 32, Obj.t2410) ]

def indexMap2500 : List (Nat × Nat × List Row) :=
  [ (0x2500, 1, Obj.t2500)
  , (0x2501, 1, Obj.t2501)
  , (0x2502, 1, Obj.t2502)
  , (0x2503, 1, Obj.t2503)
  , (0x2504, 1, Obj.t2504) ]

def indexMap2600 : List (Nat × Nat × List Row) :=
  [ (0x2600, 1, Obj.t2600)
  , (0x2601, 2, Obj.t2601) ]

def indexMap3000 : List (Nat × Nat × List Row) :=
  [ (0x3000, 256, Obj.t3000)
  , (0x3100, 128, Obj.t3100)
  , (0x3200, 512, Obj.t3200)
  , (0x3400, 128, Obj.t3400)
  , (0x3480, 64, Obj.t3480)
  , (0x34C0, 48, Obj.t34C0)
  , (0x34F0, 1, Obj.t34F0)
  , (0x34F1, 1, Obj.t34F1)
  , (0x34F2, 1, Obj.t34F2)
  , (0x34F3, 1, Obj.t34F3)
  , (0x34F4, 1, Obj.t34F4)
  , (0x34F5, 1, Obj.t34F5)
  , (0x34F6, 1, Obj.t34F6)
  , (0x3500, 16, Obj.t3500)
  , (0x3510, 16, Obj.t3510)
  , (0x3520, 16, Obj.t3520)
  , (0x3540, 16, Obj.t3540)
  , (0x3600, 1, Obj.t3600)
  , (0x3601, 16, Obj.t3601)
  , (0x3611, 8, Obj.t3611)
  , (0x3620, 32, Obj.t3620)
  , (0x3700, 1, Obj.t3700)
  , (0x3701, 8, Obj.t3701)
  , (0x3711, 8, Obj.t3711) ]

def indexMap4000 : List (Nat × Nat × List Row) :=
  [ (0x4000, 256, Obj.t4000)
  , (0x4800, 64, Obj.t4800)
  , (0x4840, 4, Obj.t4840) ]

def indexMap5000 : List (Nat × Nat × List Row) :=
  [ (0x5000, 128, Obj.t5000) ]

/-- The part of the index map that holds an index. -/
def indexMap (i : Nat) : List (Nat × Nat × List Row) :=
  if i < 0x2000 then indexMap1000
  else if i < 0x2100 then indexMap2000
  else if i < 0x2200 then indexMap2100
  else if i < 0x2300 then indexMap2200
  else if i < 0x2400 then indexMap2300
  else if i < 0x2500 then indexMap2400
  else if i < 0x2600 then indexMap2500
  else if i < 0x3000 then indexMap2600
  else if i < 0x4000 then indexMap3000
  else if i < 0x5000 then indexMap4000
  else indexMap5000

/-- The row of a subindex within the rows of an index. -/
def Row.find (s : Nat) : List Row → Option Row
  | [] => none
  | r :: rs => if r.sub ≤ s ∧ s < r.sub + r.subs then some r else Row.find s rs

/-- The row of an object within a part of the index map. -/
def Row.lookup (i s : Nat) : List (Nat × Nat × List Row) → Option Row
  | [] => none
  | (lo, n, rs) :: m =>
    if lo ≤ i ∧ i < lo + n then
      match Row.find s rs with
      | some r => some r
      | none => Row.lookup i s m
    else Row.lookup i s m

/-- The descriptor of an object; none where index or subindex is not implemented (R59). The colour
tables 48 to 63 are `const` (Table 6.10). -/
def objRow (i s : Nat) : Option Row :=
  match Row.lookup i s (indexMap i) with
  | some r => if 0x4830 ≤ i ∧ i < 0x4840 ∧ s = 1 then some { r with acc := .konst } else some r
  | none => none

/-- Size in bytes of a value of a fixed-size type (Table 3.2); 0 for those of varying length. -/
def ObjTy.size : ObjTy → Nat
  | .bool | .u8 | .i8 => 1
  | .u16 | .i16 => 2
  | .u32 | .i32 | .real32 => 4
  | .u64 | .i64 => 8
  | .time48 => 10
  | .vstr | .ostr | .dom => 0

/-- Whether a type's values vary in length (R60). -/
def ObjTy.varLen : ObjTy → Bool
  | .vstr | .ostr | .dom => true
  | _ => false

end Sys2Proof.Machine
end

