-- ==== Sys2Proof/Machine/Tab.lean ====
section
/-! DEFINITION. A sparse table: what a register file, a set of per-unit records and a memory are
held as. One canonical form: keys strictly rising, and no entry equal to what an unlisted key reads
as, so that tables with equal contents are equal data. -/
namespace Sys2Proof.Machine

/-- A sparse table from numbers to values. -/
abbrev Tab (α : Type) := List (Nat × α)

/-- The value at a key; `d` where the key is unlisted. -/
def Tab.getD {α : Type} : Tab α → Nat → α → α
  | [], _, d => d
  | (k, v) :: r, i, d => if k = i then v else Tab.getD r i d

/-- The table without a key. -/
def Tab.erase {α : Type} : Tab α → Nat → Tab α
  | [], _ => []
  | (k, v) :: r, i => if k = i then Tab.erase r i else (k, v) :: Tab.erase r i

/-- The table with a key set to a value, in key order. -/
def Tab.insert {α : Type} : Tab α → Nat → α → Tab α
  | [], i, x => [(i, x)]
  | (k, v) :: r, i, x =>
    if k = i then (i, x) :: r
    else if i < k then (i, x) :: (k, v) :: r
    else (k, v) :: Tab.insert r i x

/-- Writes a key, keeping the canonical form: writing what an unlisted key reads as (`d`) removes
the entry. -/
def Tab.setD {α : Type} [DecidableEq α] (t : Tab α) (i : Nat) (x d : α) : Tab α :=
  if x = d then Tab.erase t i else Tab.insert t i x

/-- Keys strictly rising, all above a bound. -/
def Tab.sortedFrom {α : Type} : Nat → Tab α → Bool
  | _, [] => true
  | b, (k, _) :: r => decide (b ≤ k) && Tab.sortedFrom (k + 1) r

/-- The canonical form for a default that depends on the key. -/
def Tab.wf {α : Type} [DecidableEq α] (dflt : Nat → α) (t : Tab α) : Bool :=
  Tab.sortedFrom 0 t && t.all fun e => decide (e.2 ≠ dflt e.1)

/-- The listed values whose key passes a test, with their keys. -/
def Tab.filterKeys {α : Type} (t : Tab α) (p : Nat → Bool) : Tab α := t.filter fun e => p e.1

end Sys2Proof.Machine
end

