-- ==== Sys2Proof/Machine/Types.lean ====
section
/-! DEFINITION. The records the state is made of: what the units hold beside their dictionary
objects. All are plain data. -/
namespace Sys2Proof.Machine

/-- A fault report on its way to the guardian pair (R390), or the identity of a recorded one. -/
structure Report where
  unit : Nat
  code : Nat
  p1 : Nat := 0
  p2 : Nat := 0
  sev : Nat
  time : Nat
  deriving DecidableEq, Repr

/-- A staged or accepted write: object and value bytes. -/
structure Rec where
  idx : Nat
  sub : Nat
  data : List Byte
  complete : Bool := true
  deriving DecidableEq, Repr

/-- An accepted batch (R65), with the records that still wait. `done`: the wings at whose tick it has
applied, 4 for device-wide objects. -/
structure Batch where
  num : Nat
  sess : Nat
  wing : Nat
  tick : Nat
  recs : List Rec
  done : List Nat := []
  deriving DecidableEq, Repr

/-- A mirrored I-class or P-class write that waits for its tick (R90). -/
structure MirWrite where
  wing : Nat
  tick : Nat
  rec_ : Rec
  by_ : Requester
  deriving DecidableEq, Repr

/-- A subscription of a session (R80). -/
structure Sub where
  num : Nat
  kind : Nat
  period : Nat
  wing : Nat
  param : Nat
  objs : List ObjKey
  deriving DecidableEq, Repr

/-- A NOTIFY that waits for its acknowledgement (R82). -/
structure Unacked where
  nseq : Nat
  body : List Byte
  sent : Nat
  deriving DecidableEq, Repr

/-- A WDP session, or its opening (R75). -/
structure Session where
  num : Nat
  level : Nat
  via : Transport
  isOpen : Bool := false
  key : List Byte := []
  openedAt : Nat
  lastValid : Nat
  lastSeq : Nat := 0
  cached : List Byte := []
  early : List (Nat × List Byte) := []
  devSeq : Nat := 0
  notifySeq : Nat := 0
  subs : List Sub := []
  stage : List Rec := []
  unacked : List Unacked := []
  requests : Nat := 0
  badTags : Nat := 0
  lost : Nat := 0
  deriving DecidableEq, Repr

/-- A PCIe mailbox channel (R88, Table 3.11): the request and the response buffer, the latter's valid bit,
the event ring with its offsets, the data messages it dropped, and the NOTIFYs that wait for space. -/
structure Mbx where
  req : List Byte := []
  rsp : List Byte := []
  valid : Bool := false
  evt : Tab Byte := []
  head : Nat := 0
  tail : Nat := 0
  dropped : Nat := 0
  waiting : List Nat := []
  deriving DecidableEq, Repr

/-- What a long operation holds beside its dictionary objects (R54 to R58). `arg`, `arg2`, `held`: what
its own chapter needs of it. -/
structure LongOp where
  ownerLevel : Nat := 0
  abortAsked : Bool := false
  lastPct : Nat := 0
  lastProgress : Nat := 0
  arg : Nat := 0
  arg2 : Nat := 0
  held : List Nat := []
  deriving DecidableEq, Repr

/-- A wing's tick state (R31 to R37). `quietUntil`: no tick is raised before it (R35, R264).
`stopped`: the wing is stopped by a fault (R22). `late`: the former values of device-wide objects that a W0 tick
has changed, with which the wing works until its own next T+0 (R65). `frozen`: the values with which the services of
the wing's curator cluster last ran, of objects changed since it stopped (R23 to R25). -/
structure Wing where
  tick : Nat := 0
  at_ : Nat := 0
  raised : Bool := false
  quietUntil : Nat := 0
  stopped : Bool := false
  late : List Rec := []
  frozen : List Rec := []
  deriving DecidableEq, Repr


/-! ### Intake and decoders -/

/-- A frame and its publication record: the fields of its stamp (Table 4.4), its identical run (R172), the capture
time of the newest advanced token (R173) and the generation of the time base (R265). `pix`: the samples of the pool
format in stored order, keyed by position; an unlisted sample is black. -/
structure Frame where
  seq : Nat := 0
  complete : Bool := true
  flags : Nat := 0
  capture : Nat := 0
  arrival : Nat := 0
  published : Nat := 0
  crc : Nat := 0
  lost : Nat := 0
  token : Nat := 0
  ts : Nat := 0
  run : Nat := 1
  adv : Option Nat := none
  gen : Nat := 0
  width : Nat := 0
  height : Nat := 0
  sampling : Nat := 0
  depth : Nat := 10
  pix : Tab Nat := []
  origin : Option Nat := none
  deriving DecidableEq, Repr

/-- A buffer of a source's pool. `old`: it belongs to a configuration that has been replaced and is
freed when its loans return (R111). -/
structure PoolBuf where
  id : Nat
  frame : Option Frame := none
  filling : Bool := false
  loans : Nat := 0
  old : Bool := false
  bytes : Nat := 0
  deriving DecidableEq, Repr

/-- A frame in progress on an ST 2110-20 source (R108). -/
structure InFrame where
  ts : Nat
  first : Nat
  legs : Nat := 0
  gotA : List Nat := []
  gotB : List Nat := []
  marker : Option Nat := none
  policed : List Nat := []
  tooSoon : Bool := false
  ended : Bool := false
  lost : Nat := 0
  recovered : Nat := 0
  buf : Option Nat := none
  wraps : Nat := 0
  pix : Tab Nat := []
  spans : List (Nat × Nat) := []
  denied : Bool := false
  deriving DecidableEq, Repr

/-- What is remembered of a frame of an ST 2110-20 source, from its first packet until 16 later ones have begun (log
entry 155): the lowest and highest sequence number received for it, late ones included, and whether it began before the
latest change of a leg's definition. -/
structure SeenFrame where
  ts : Nat
  lo : Nat
  hi : Nat
  before : Bool := false
  deriving DecidableEq, Repr

/-- An access unit being received or waiting for its session (R126). `legs`: mask of the legs that contributed;
`once`: its packets that one leg alone has delivered; `ext`: its timestamp with the wraps before it (R113, R122);
`headless`: its first packet was lost; `abandoned`: an error or a restart of the session has abandoned it. -/
structure InUnit where
  ts : Nat
  first : Nat
  bytes : Nat := 0
  legs : Nat := 0
  once : List Nat := []
  policed : Bool := false
  lost : Bool := false
  overflow : Bool := false
  complete : Bool := false
  ext : Nat := 0
  headless : Bool := false
  abandoned : Bool := false
  deriving DecidableEq, Repr

/-- A membership report that is sent a second time after 1 s (R103). -/
structure JoinRepeat where
  due : Nat
  port : Nat
  group : List Byte
  addr : List Byte
  join : Bool
  deriving DecidableEq, Repr

/-- What a source holds beside its objects. Of its stream: the timestamp of the newest frame or access unit begun with
the wraps before it since enable applied (R113, R122), the newest timestamp each leg has brought, the latest sequence
number extended, and the frames seen. `vrxA`, `vrxB`: what each leg's receiver buffer holds, and since when (R101).
`cut`: timestamps of access units begun before the session's latest restart (R127, R128). `policedTs`: timestamp of an
access unit that has lost packets to policing and has not begun. -/
structure SourceRt where
  bufs : List PoolBuf := []
  nextBuf : Nat := 0
  newest : Option Nat := none
  held : Option Nat := none
  frames : List InFrame := []
  seen : List SeenFrame := []
  units : List InUnit := []
  cut : List Nat := []
  policedTs : Option Nat := none
  prevTs : Option Nat := none
  wraps : Nat := 0
  newA : Option Nat := none
  newB : Option Nat := none
  lastSeq : Option Nat := none
  mismatched : Nat := 0
  lastA : Option Nat := none
  lastB : Option Nat := none
  hiA : Option Nat := none
  hiB : Option Nat := none
  vrxA : Nat × Nat := (0, 0)
  vrxB : Nat × Nat := (0, 0)
  lastToken : Option Nat := none
  adv : Option Nat := none
  lastCrc : Option Nat := none
  lastRun : Nat := 0
  ancTokens : Tab Nat := []
  dropped : Nat := 0
  droppedAt : Nat := 0
  policedCount : Nat := 0
  policedAt : Option Nat := none
  rateA : List (Nat × Nat) := []
  rateB : List (Nat × Nat) := []
  deriving DecidableEq, Repr

/-- A decoded picture that waits for its output: its place in output order, whether all earlier pictures are output
before it, its chroma format and its depth. -/
structure DecPic where
  id : Nat
  order : Nat
  flushes : Bool
  ts : Nat
  first : Nat
  ext : Nat
  legs : Nat
  chroma : Nat
  depth : Nat
  token : Option Nat
  deriving DecidableEq, Repr

/-- A coded packet that is held for its predecessors (R115): its leg and its arrival. -/
structure HeldPacket where
  at_ : Nat
  leg : Nat
  pkt : Packet
  deriving DecidableEq, Repr

/-- The NMOS node (R104): whether it runs, the transport legs that each receiver is registered with, and the staged
IS-05 parameters of each: values of subs of its source object. -/
structure NmosRt where
  node : Bool := false
  legs : Tab Nat := []
  staged : Tab (List (Nat × List Byte)) := []
  deriving DecidableEq, Repr

/-- What a decoder session holds beside its objects. `generated`: the reference buffers that hold a generated picture,
and the value of all its samples (R125); `gone`: the latest gaps of the sequence, from and to; `reorder`: the reordering
depth that the stream signals; `from_`: place in output order of the recovery start. -/
structure DecRt where
  refs : List Nat := []
  generated : List (Nat × Nat) := []
  pics : List DecPic := []
  fill : Nat := 0
  nextSeq : Option Nat := none
  ahead : List HeldPacket := []
  gone : List (Nat × Nat) := []
  reorder : Nat := 0
  recoverLeft : Nat := 0
  from_ : Nat := 0
  entry : Nat := 0
  lastOutTs : Option Nat := none
  deriving DecidableEq, Repr


/-! ### Instants and display timings -/

/-- An instant, or a duration, in ns as an exact quotient. -/
structure Q where
  n : Nat
  d : Nat := 1
  deriving DecidableEq, Repr

/-- A row of Table 8.1: active size, totals, vertical front porch, sync and back porch in lines, pixel
clock in Hz at the integer rate, and the DSC-only mark. -/
structure Timing where
  ha : Nat
  va : Nat
  ht : Nat
  vt : Nat
  vf : Nat
  vs : Nat
  vb : Nat
  clk : Nat
  dscOnly : Bool := false
  deriving DecidableEq, Repr

/-! ### Composition -/

/-- A job-list descriptor (Tables 6.4, 6.5): op code, plane, region, END, and words 1 to 7. `place`: the destination
of a generated FETCH, which can lie further out than word 4 holds (R134). -/
structure Desc where
  op : Nat
  plane : Nat := 0
  region : Nat := 0
  last : Bool := false
  w : List Nat := []
  place : Option (Int × Int) := none
  deriving DecidableEq, Repr

/-- What a region shows of one source: the entry of a loan or of a slot record (R160, R178), with the
limits of its policy at the selection (R168, R169), in ns. `buf`: the pool buffer; none where the
source had no published frame. -/
structure SrcRec where
  source : Nat
  buf : Option Nat := none
  seq : Nat := 0
  capture : Nat := 0
  run : Nat := 0
  adv : Option Nat := none
  complete : Bool := true
  flags : Nat := 0
  held : Bool := false
  impaired : Bool := false
  gen : Nat := 0
  crc : Nat := 0
  cls : Nat := 0
  policy : Nat := 0
  stale : Nat := 0
  frozen : Nat := 0
  tokenLim : Nat := 0
  blank : Nat := 0
  recovery : Nat := 1
  deriving DecidableEq, Repr

/-- A region of a composed frame (R135, R166). `kind`: 0 video, 1 host graphics, 2 job-list graphics,
3 solid. `z`: the z-order of its layer; `dark`: composed
as black, being without signal at the selection (R176). -/
structure Region where
  num : Nat
  layer : Nat
  kind : Nat
  policy : Nat := 0
  x : Nat
  y : Nat
  w : Nat
  h : Nat
  isOpaque : Bool
  canvas : Nat := 0
  recs : List SrcRec := []
  byList : Bool := false
  z : Nat := 0
  dark : Bool := false
  deriving DecidableEq, Repr

/-- What a marking list draws with: the colours of 0x34F2:01 to 11, the legend set in use (empty: the ROM texts), and
the placement of 0x34F3 (R183). -/
structure MarkSet where
  colours : List Nat := []
  legends : List Byte := []
  place : Nat := 0
  deriving DecidableEq, Repr

/-- A loan a composition or an encoder channel holds (R160, R216): a source's buffer, a layer's slot, or a composed
frame of an output by its composition and its buffer. -/
inductive Loan where
  | source (n buf : Nat)
  | slot (l slot gen : Nat)
  | frame (o id buf : Nat)
  deriving DecidableEq, Repr

/-- A composition of an output or of a graphics layer, from its selection to its frame-done. `work`: the tick its work
belongs to (R37, R157). `luts`, `filters`, `marks`: the colour tables, filter sets and marks of the configuration it
selected with, under which it completes (R36). `due`: when its bands are due: T+0 of its wing's next tick, or the
scan-out time of its first row, from which a Racing band is due `line` ns for each row later (R153). `readyAt`: when
each Racing band was released, by band. `buf`: the output's frame buffer that it writes (R155). -/
structure Comp where
  id : Nat
  isLayer : Bool := false
  target : Nat
  tick : Nat
  work : Nat := 0
  racing : Bool := false
  selAt : Nat := 0
  slot : Nat := 0
  gen : Nat := 0
  wing : Nat := 0
  mask : Nat := 0
  width : Nat := 0
  height : Nat := 0
  fmt : Nat := 3
  linear : Bool := false
  background : Nat := 0
  encTable : Nat := 0
  depth : Nat := 10
  descs : List Desc := []
  regions : List Region := []
  loans : List Loan := []
  released : List Nat := []
  written : List Nat := []
  impaired : List Nat := []
  bandFlags : List (Nat × Nat) := []
  batch : Nat := 0
  crc : Nat := 0
  pix : Tab Nat := []
  job : Option Nat := none
  luts : Tab (List Byte) := []
  filters : Tab (List Byte) := []
  marks : MarkSet := {}
  due : Nat := 0
  line : Q := ⟨0, 1⟩
  readyAt : Tab Nat := []
  buf : Nat := 0
  deriving DecidableEq, Repr

/-- A slot of a graphics layer (Table 6.7). `gen`: the allocation it belongs to. -/
structure Slot where
  num : Nat
  gen : Nat
  state : Nat := 0
  loans : Nat := 0
  base : Nat := 0
  pitch : Nat := 0
  size : Nat := 0
  fmt : Nat := 2
  blocked : Nat := 0
  told : Bool := false
  byJob : Bool := false
  seq : Nat := 0
  recs : List SrcRec := []
  deriving DecidableEq, Repr

/-- What a layer holds beside its objects: its slots, those of earlier allocations still on loan, and
the slot a writer job list has finished (R151). -/
structure LayerRt where
  gen : Nat := 0
  slots : List Slot := []
  old : List Slot := []
  next : Option Nat := none
  deriving DecidableEq, Repr

/-- Freshness history of a region, per output and layer (R171). `back`: the state it resumes after
HELD or NO SIGNAL; `clean`: consecutive frames without a condition. `banded`: the latest raster frame was found
impaired while its bands were executed (R175). `shown`: the source and state it
contributes to the source summary, plus one; 0 none (R179). -/
structure History where
  source : Nat := 0
  kind : Nat := 0
  canvas : Nat := 0
  state : Nat := 0
  back : Nat := 0
  clean : Nat := 0
  banded : Bool := false
  shownSrc : Nat := 0
  shown : Nat := 0
  deriving DecidableEq, Repr

/-- The evaluation of a region in a raster frame (Table 7.7). `drawn`: the state that its marking shows, which is the
recorded one but for a first impairment found at band execution; `bandMark`: the first band from which its
rows carry the band hatch; `again`: the frame before was so impaired (R175). -/
structure RegEval where
  num : Nat
  state : Nat
  conds : Nat
  kind : Nat
  policy : Nat
  layer : Nat
  source : Nat
  seq : Nat
  capture : Nat
  age : Nat
  firstRow : Nat
  crc : Nat := 0
  bandMark : Option Nat := none
  slot : Nat := 0
  drawn : Nat := 0
  again : Bool := false
  deriving DecidableEq, Repr

/-- A marking list: its regions with their evaluation, the size of the picture, the marks, and what else is
drawn (R180). `firefly`: its 16 squares. -/
structure MarkList where
  regions : List (Region × RegEval) := []
  width : Nat := 0
  height : Nat := 0
  marks : MarkSet := {}
  degraded : Bool := false
  fault : Bool := false
  firefly : Option Nat := none
  deriving DecidableEq, Repr

/-- A raster frame of an output, from its start to its ledger entry. `base`: T+0 of the tick it begins in; `offset`,
`tm`, `code`, `fmt`, `depth`, `colour`, `payload`, `sampling`: the raster offset, timing, rate code, frame format,
panel depth, colorimetry, payload size and sampling that it keeps to its end (R36, R203); `doneAt`: its frame-done;
`slice`: lines of a DSC slice that is not complete (R196); `rtp`: its RTP timestamp (R210). `marks`: the marks of its
marking list. `waits`: its Racing composition selects after the frame start; `missed`: the underrun lines, each with
one past its first missing pixel (R199). `value`: the check value of a Racing frame whose bands are not all written,
which its firefly shows (R184). `flagged`: band flags that stood when it was evaluated again (R175). `told`: events
raised in it (R193). -/
structure Raster where
  k : Nat := 0
  start : Nat := 0
  s0 : Nat := 0
  tick : Nat := 0
  width : Nat := 0
  height : Nat := 0
  comp : Option Comp := none
  evals : List RegEval := []
  modeChange : Bool := false
  notFed : Bool := false
  degraded : Bool := false
  racing : Bool := false
  listFault : Bool := false
  marks : MarkSet := {}
  base : Nat := 0
  offset : Nat := 0
  tm : Option Timing := none
  code : Nat := 8
  colour : Nat := 0
  payload : Nat := 1200
  sampling : Nat := 0
  rtp : Nat := 0
  doneAt : Nat := 0
  slice : List (List Nat) := []
  flagged : Nat := 0
  told : List Nat := []
  crc : Nat := 0
  marking : Nat := 0
  missed : Tab Nat := []
  repeated : Bool := false
  waits : Bool := false
  sent : Bool := false
  fmt : Nat := 3
  depth : Nat := 10
  value : Nat := 0
  deriving DecidableEq, Repr

/-- What an output holds beside its objects. `comps`: compositions in progress, oldest first, and
Racing ones no raster frame has shown yet; `ready`: Framed frame-done compositions that no raster
frame has shown yet, oldest first; `shown`: the newest composition a raster frame has shown;
`hold`: no raster frame starts before it (R203). `lent`: loans that encoder channels hold on composed frames, by
composition and buffer (R155, R216). `plane`: what the plane keeps while the guardian pair is stopped (R26). -/
structure OutputRt where
  comps : List Comp := []
  ready : List Comp := []
  shown : Option Comp := none
  raster : Option Raster := none
  entry : Option Raster := none
  count : Nat := 0
  hold : Nat := 0
  blackNext : Bool := false
  unfed : Bool := false
  badRun : Nat := 0
  cleanRun : Nat := 0
  degraded : Bool := false
  bandLateTick : Option Nat := none
  lastFed : Nat := 0
  sendSeq : Nat := 0
  lent : List (Nat × Nat) := []
  plane : Option MarkList := none
  deriving DecidableEq, Repr

/-- A DisplayPort port (R197). `link`: its state in the codes of Table 8.3, the switches aside;
`flagged`: its ledger entries carry the mode-change flag until video resumes (R205); `adopted`: the
link parameters a standby transmits with (R346). `slots`: the MST time slots of its streams (R204);
`busyAt`: when it last entered or left training or changed its slots (R411). -/
structure DpRt where
  hpd : Bool := false
  link : Nat := 1
  caps : Option SinkCaps := none
  params : List Byte := []
  adopted : Option (List Byte) := none
  failedAt : Nat := 0
  flagged : Bool := false
  lostLock : Bool := false
  slots : List Nat := []
  busyAt : Nat := 0
  deriving DecidableEq, Repr

/-! ### Encoder channels -/

/-- What a picture of a channel takes in (Table 9.1): a raster frame of an output, the composed frames
of the heads a canvas region covers with each head's position relative to the region, or a source's
frame. -/
inductive EncInput where
  | output (o : Nat) (r : Raster)
  | region (heads : List (Comp × Int × Int))
  | source (f : Option Frame)
  deriving DecidableEq, Repr

/-- A CTU row of a picture (R239, R246). `u`: its release instant; `zu`: the stream position that the schedule reaches
there; `heads`: the access-unit header NAL units before it; `y`, `cb`, `cr`: its converted input, by line (R219);
`counts`: the slice bits of an imported record, with which the row counts (R253); `qps`: the QP map; `ctus`: its CTUs
as coded. -/
structure RowRt where
  row : Nat
  u : Q
  zu : Nat
  q : Nat := 0
  budget : Nat := 0
  header : Nat := 0
  heads : List (List Byte) := []
  y : List (List Nat) := []
  cb : List (List Nat) := []
  cr : List (List Nat) := []
  est : Nat := 0
  w : Nat := 0
  cplx : List Nat := []
  exhausted : Bool := false
  imported : Bool := false
  awaits : Bool := false
  actual : Option Nat := none
  settled : Bool := false
  floorFrom : Option Nat := none
  late : Option Nat := none
  lateCtus : Nat := 0
  counts : Option Nat := none
  qps : List Nat := []
  ctus : List Config.CtuCode := []
  deriving DecidableEq, Repr

/-- A picture of a channel, from its selection to its record. The configuration that a picture keeps stands here
(R234, R251). `epoch`: its coded video sequence, whose stream positions it counts in (R238). `loans`: on what it takes
in (R216); `rtp`: its RTP timestamp (R230); `prior`: the check value that its firefly shows (R218); `ended`: the end
of sequence follows it. -/
structure EncPic where
  count : Nat
  tick : Nat
  ref : Nat
  ts : Q
  tin : Q
  kind : Nat
  codec : Nat
  width : Nat
  height : Nat
  delay : Nat
  rate : Nat
  qmin : Nat
  qmax : Nat
  thr : Nat
  roi : List Byte := []
  input : EncInput
  regions : List Region := []
  evals : List RegEval := []
  marks : MarkSet := {}
  listFault : Bool := false
  loans : List Loan := []
  idr : Bool := false
  restart : Bool := false
  pos : Option Nat := none
  period : Nat := 32
  refA : Nat := 0
  refB : Nat := 0
  target : Nat := 0
  kappa0 : Nat := 65536
  start : Nat := 0
  inRef : Nat := 0
  rows : List RowRt := []
  bytes : List Byte := []
  fillerBits : Nat := 0
  closed : Bool := false
  exhaustedRow : Option Nat := none
  imported : Bool := false
  epoch : Nat := 0
  is420 : Bool := true
  matrix : Nat := 0
  carriage : Nat := 0
  profile : Nat := 1
  level : Nat := 0
  tier : Nat := 0
  colour : Nat := 0
  effort : Nat := 1
  cpb : Nat := 0
  poc : Nat := 0
  rtp : Nat := 0
  prior : Nat := 0
  ended : Bool := false
  deriving DecidableEq, Repr

/-- A NAL unit that waits to be sent: its picture, its bytes, how many of them have left, the codec and
the carriage of its picture (R234), and whether it is the picture's last slice or begins its access unit. -/
structure OutNal where
  pic : Nat
  ts : Nat
  bytes : List Byte
  sent : Nat := 0
  codec : Nat := 1
  carriage : Nat := 0
  lastSlice : Bool := false
  first : Bool := false
  deriving DecidableEq, Repr

/-- What an encoder channel holds beside its objects. `begin_`: 0 running, 1 starting, 2 restarting; `from_`: the
instant from which a starting channel takes pictures (R215); `t0`: the instant of stream position 0; `kEnd`: the end
of the newest settled slice; `zLast`: the position of the previous picture's last row; `lastDue`: that row's instant;
`kappa` in 16.16; `epoch`: the coded video sequence of the newest picture, in which `t0` and `kEnd` count; `t0Old` and
`kOld` are those of the one before. `zEnd`: the position by which the newest settled slice had to end; `poc`: the next
picture's; `owed`: filler bits due that no filler NAL unit has held yet; `prevY`: luma of the previous input picture
(R242); `recon`: the reference picture in strips of 16 luma columns (R223); `plane`: what its plane keeps while the
guardian pair is stopped (R26). -/
structure EncRt where
  begin_ : Nat := 0
  from_ : Nat := 0
  pics : List EncPic := []
  pos : Nat := 0
  period : Nat := 32
  t0 : Q := ⟨0, 1⟩
  kEnd : Nat := 0
  epoch : Nat := 0
  t0Old : Q := ⟨0, 1⟩
  kOld : Nat := 0
  zLast : Nat := 0
  lastDue : Q := ⟨0, 1⟩
  kappa : Nat := 65536
  prevW : List Nat := []
  prevCrc : Nat := 0
  nals : List OutNal := []
  seq : Nat := 0
  imports : List RowRecordSet := []
  followWanted : Bool := false
  followCycle : Option Nat := none
  psiAt : Option Nat := none
  pcrAt : Option Nat := none
  cc : Tab Nat := []
  audNext : Nat := 0
  audTs : List (List Byte) := []
  zEnd : Nat := 0
  poc : Nat := 0
  owed : Nat := 0
  prevY : List (List Nat) := []
  recon : List (List Nat) := []
  plane : Option MarkList := none
  deriving DecidableEq, Repr

/-! ### Events, launches and time -/

/-- What a capture input holds beside its objects: the transition that began its level, the merged
edges of the second that runs and when it began (R406), whether the next edge makes a new record
(R407), and its captures since the latest W0 tick (R266). -/
structure EvtRt where
  since : Nat := 0
  merged : Nat := 0
  mergeFrom : Nat := 0
  resumed : Bool := true
  inTick : Nat := 0
  deriving DecidableEq, Repr

/-- PPS_OUT: its level, and the end of the pulse or of the merged pulses (R268, R271). -/
structure PpsRt where
  high : Bool := false
  until_ : Nat := 0
  deriving DecidableEq, Repr

/-- What a PTP port has heard: the Announce it keeps, and the instants of its latest Announce and
Sync; and of the parent's delay measurement, in ps: what the latest Sync took on its way by both clocks, and the
corrected timestamp of the latest Delay_Req. -/
structure PtpRt where
  ann : Option Announce := none
  annAt : Nat := 0
  syncAt : Nat := 0
  path : Option Int := none
  reqAt : Option Int := none
  deriving DecidableEq, Repr

/-- The servo (R260 to R263). `samples`: the latest 8 offsets, newest last; `taken`: samples of
ACQUIRING; `good`, `bad`, `calm`: consecutive filtered offsets of at most 1 µs, above 1 µs, and of
at most 1 ms; `newParent`: the next sample is the first of a newly selected parent; `slewing`: slew
was commanded in EXCURSION; `rhoAt`: when the rate adjustment changed last. -/
structure TimeRt where
  samples : List Int := []
  taken : Nat := 0
  good : Nat := 0
  bad : Nat := 0
  calm : Nat := 0
  newParent : Bool := false
  slewing : Bool := false
  rhoAt : Nat := 0
  parent : Option Announce := none
  ports : Tab PtpRt := []
  deriving DecidableEq, Repr

/-! ### Audio -/

/-- What an audio port holds beside its objects. `from_`: the first position it moves (R281, R282);
`zeros`: zero samples since the latest AUD_UNDERRUN, raised at `told` (R283); `gateOk`: the latest
complete gate lay within 50 ppm (R280); `framing`: framing errors (R279). -/
structure AudPort where
  from_ : Nat := 0
  zeros : Nat := 0
  told : Option Nat := none
  gateOk : Bool := false
  framing : Nat := 0
  deriving DecidableEq, Repr

/-- What a receive stream holds: the newest extended sequence number of each leg, the missing ones
below the newest, the arrival of its latest packet, and its PES anchor: a position, the extended PTS it
belongs to, and the extended PTS expected next (R286). -/
structure AudIn where
  hiA : Option Nat := none
  hiB : Option Nat := none
  missing : List Nat := []
  last : Nat := 0
  anchor : Option (Int × Int × Int) := none
  deriving DecidableEq, Repr

/-- What a send stream holds: its sequence number and the end of the positions it has sent. -/
structure AudOut where
  seq : Nat := 0
  done : Nat := 0
  deriving DecidableEq, Repr

/-- The audio block. `rings`: sample slots, keyed channel × 65,536 + slot, each with one past its
position and its sample (R276); `mute`: frames until a muted pair is released, by first channel
(R284); `zeros`, `zeroAt`: zero samples read, and one past the instant of the latest, by channel. -/
structure AudRt where
  rings : Tab (Nat × Nat) := []
  mute : Tab Nat := []
  zeros : Tab Nat := []
  zeroAt : Tab Nat := []
  ports : Tab AudPort := []
  ins : Tab AudIn := []
  outs : Tab AudOut := []
  deriving DecidableEq, Repr

/-! ### Touch -/

/-- A node of the touch grid (R294 to R298). `base` has 8 fractional bits; `st`: 0 IDLE, 1 TOUCHED,
2 LONG; `sum`: its raw counts of the acquisition; `since`: when it was touched; `sense`: its latest count before the
trims. -/
structure TNode where
  raw : Nat := 0
  base : Nat := 0
  delta : Int := 0
  st : Nat := 0
  flagged : Bool := false
  sum : Nat := 0
  since : Nat := 0
  sense : Nat := 0
  deriving DecidableEq, Repr

/-- A contact of a panel (R302). Coordinates in 1/64 of the node pitch; `nodes` relative to the surface;
`isLong`: its long bit; `ended`: it ended in the latest scan. -/
structure Contact where
  id : Nat
  x : Nat
  y : Nat
  peak : Nat
  since : Nat
  isNew : Bool := true
  isLong : Bool := false
  ended : Bool := false
  rejected : Bool := false
  nodes : List (Nat × Nat) := []
  deriving DecidableEq, Repr

/-- An element of a control surface (R300, R301). `st`: 0 idle, 1 touched, 2 long. -/
structure TElem where
  st : Nat := 0
  presses : Nat := 0
  pos : Nat := 0
  since : Nat := 0
  deriving DecidableEq, Repr

/-- A surface. `acq`: scans of acquisition left; `rebase`: a re-baseline waits; `rebaseNow`: the scan in
progress carries it out; `large`: the large objects of the latest scan. -/
structure Surf where
  acq : Nat := 0
  rebase : Bool := false
  rebaseNow : Bool := false
  contacts : List Contact := []
  elems : Tab TElem := []
  large : List (List (Nat × Nat)) := []
  deriving DecidableEq, Repr

/-- The touch block. `freq`: the hopping frequency; `listen`: the frequency of the next listen slot;
`heard`: one past the scan that measured a frequency last; `over`: consecutive measurements of the
current frequency above the threshold; `hopTo`: one past the frequency of the next scan; `hopAt`: one
past the scan of the latest hop; `lostAt`: one past the instant the quiet-sync head was lost; `startAt`: one past
the start of the latest scan, `endAt`: its end, `drive`: its drive frequency in Hz (R292, R293). Nodes are
keyed drive × 48 + sense; `ref`: one past a node's reference count (R415). -/
structure TouchRt where
  scanning : Bool := false
  freq : Nat := 0
  listen : Nat := 0
  heard : Tab Nat := []
  beyond : Nat := 0
  hopTo : Nat := 0
  hopAt : Nat := 0
  lostAt : Nat := 0
  startAt : Nat := 0
  endAt : Nat := 0
  drive : Nat × Nat := (0, 1)
  nodes : Tab TNode := []
  ref : Tab Nat := []
  surfs : Tab Surf := []
  deriving DecidableEq, Repr

/-! ### Memory and the access catalogue -/

/-- A write that waits in a write queue (R306): its word (physical address div 32), its offset in the
word, its bytes, and when it was accepted. -/
structure QWrite where
  word : Nat
  off : Nat
  data : List Byte
  at_ : Nat
  deriving DecidableEq, Repr

/-- A pseudo-channel. `state`: 0 in service, 1 faulted, 2 recovering; `trained`: its recovery has
retrained it; `cmd`, `streak`: one past the command replayed last, and the consecutive replays of it
that a parity error ended (R310); `poison`: its words read poisoned unless `words` lists them
(R310); `rotate`: the rotation pointer of its controller, a bank from 0 to 47 (R305). -/
structure PcRt where
  state : Nat := 0
  replays : Nat := 0
  corrected : Nat := 0
  uncorrectable : Nat := 0
  cmd : Nat := 0
  streak : Nat := 0
  discarded : Nat := 0
  poison : Bool := false
  trained : Bool := false
  queue : List QWrite := []
  rotate : Nat := 0
  deriving DecidableEq, Repr

/-- The activates of a row in the 32 ms window that runs, in all and by requester code (R317). `told`:
ROW_DISTURBANCE is journaled. -/
structure RowAct where
  count : Nat := 0
  reqs : Tab Nat := []
  told : Bool := false
  deriving DecidableEq, Repr

/-- A throttled requester (R317, R318). `full`: a whole window has run since it began. -/
structure Throttle where
  pc : Nat
  bank : Nat
  row : Nat
  req : Nat
  full : Bool := false
  deriving DecidableEq, Repr

/-- An entry of a candidate table (R319). `pc` counts from 0 in the device; `flags` as in 0x2601:09. -/
structure Cand where
  pc : Nat
  bank : Nat
  row : Nat
  count : Nat := 0
  flags : Nat := 0
  seen : Nat := 0
  deriving DecidableEq, Repr

/-- An HBM device. `repair`: the repair record in flash (R320), oldest first; `spares`: spare rows in
use, by pseudo-channel × 12 + stack ID × 4 + bank group; `lately`, `told`: corrected errors since, and
one past, the latest MEM_CORRECTED (R314); `faults`: pseudo-channel faults; `lost`: rows the candidate
table could not take; `rowAt`: the end of the maintenance window in which the latest row was repaired (R320). -/
structure HbmRt where
  cands : List Cand := []
  repair : List (Nat × Nat × Nat) := []
  spares : Tab Nat := []
  lately : List Nat := []
  told : Nat := 0
  faults : Nat := 0
  lost : Nat := 0
  rowAt : Nat := 0
  deriving DecidableEq, Repr

/-- A partition of the access catalogue (R326, R335, R337). `set`: the rule set it uses; `next`: one past
the set it awaits, since `asked`; `old`, `flying`: accesses in flight checked under the previous set
and under this one; `told`: SET_SWAPPED is due while false. -/
structure PartRt where
  set : Nat := 0
  next : Nat := 0
  asked : Nat := 0
  old : Nat := 0
  flying : Nat := 0
  draining : Bool := false
  swapAt : Nat := 0
  drainAt : Nat := 0
  swaps : Nat := 0
  deriving DecidableEq, Repr

/-! ### The duplex pair and the ring -/

/-- A commanded swap that is pending on the active device (R353, R354). -/
structure SwapRt where
  tick : Nat
  at_ : Nat
  sent : Bool := false
  confirmed : Bool := false
  deriving DecidableEq, Repr

/-- The duplex interlock and the pair (R343 to R367). `ignored`: the ILK_TAKE_IN pulse that P ignores; `takeInAt`,
`claimAt`, `edgeAt`: one past an instant; `beatFrom`: from when the next edge of the heartbeat may come; `armed`, `run`, `edge`: the detector, its
run of edges and the AON time of the latest one; `gated`: sends are gated for a committed swap; `partner`: the
partner's pair state as last heard, `partnerIn`: it takes part in mirroring and admission; `inStep`: this standby
does; `asked`: the swap tick a standby has confirmed; `applied`: the latest applied batch number. `own`, `theirs`:
compare records that wait, with their instants; `following`: how a channel stands (R360): 1 its inputs differed, 2 it
follows since, 3 its pictures differed; `divAt`: one past the tick of the latest DIVERGENCE; `inDiv`: recent input
divergences, and one past the latest INPUT_DIVERGENCE; `counted`, `filled`, `matched`: of a resynchronisation. -/
structure DupRt where
  takeIn : Bool := false
  ignored : Bool := false
  takeInAt : Nat := 0
  takeOut : Bool := false
  claimAt : Nat := 0
  holdOut : Bool := false
  beatFrom : Nat := 0
  armed : Bool := false
  run : Nat := 0
  edge : Option Nat := none
  edgeAt : Nat := 0
  gated : Bool := false
  linkUp : Bool := false
  partner : Nat := 0
  partnerIn : Bool := false
  inStep : Bool := false
  swap : Option SwapRt := none
  asked : Option Nat := none
  applied : Nat := 0
  own : List (CompareRec × Nat) := []
  theirs : List (CompareRec × Nat) := []
  following : Tab Nat := []
  divAt : Tab Nat := []
  inDiv : Tab (List Nat × Nat) := []
  counted : List Nat := []
  filled : List Nat := []
  matched : List Nat := []
  deriving DecidableEq, Repr

/-- A ring side (R373 to R377). `slips`: bit slip and block start by lane; `out`: lanes
reported out; `tries`: failed attempts since
it ran; `failedAt`: the latest one; `named`: a NODE_BYPASS has named its neighbour; `last`: one past the
neighbour it ran with last, `lastPath` its path then; `late`: instants of frames off their time, `told`:
one past the latest RING_TIMING; `versionTold`: one past the version of the latest VERSION_MISMATCH; `slotAt`: one past the slot
whose frame left last, counted from the epoch. -/
structure SideRt where
  slips : Tab (Nat × Nat) := []
  out : Nat := 0
  tries : Nat := 0
  failedAt : Nat := 0
  named : Bool := false
  last : Nat := 0
  lastPath : Nat := 0
  late : List Nat := []
  told : Nat := 0
  versionTold : Nat := 0
  slotAt : Nat := 0
  deriving DecidableEq, Repr

/-- A shared source frame that arrives in parts (R385). -/
structure ShareRt where
  nextSeq : Nat := 0
  started : Bool := false
  lost : Bool := false
  buf : Option Nat := none
  bytes : List Byte := []
  deriving DecidableEq, Repr

/-- A flow that carries a source of this node (R385): the timestamp of the frame being sent and the parts of it that
have left; `since`, `seq`: when the frame last sent was published, and its sequence. -/
structure ShareTx where
  ts : Option Nat := none
  part : Nat := 0
  since : Nat := 0
  seq : Nat := 0
  deriving DecidableEq, Repr

/-- The ring. `tables`, `shared`: changes that wait for their ring tick; `entries`: shared source entries
in force; `taking`: receiving sources that take their frames from the ring, with one past their flow;
`parts`: frames in parts by source; `tx`: the flows that carry a source of
this node, by ring × 256 + flow; `fwd`: frames to be sent on, by side × 256 + link-slot; `seqs`: next
sequence by ring × 256 + flow; `snapAt`: the time of a scheduled snapshot; `snapParts`: what wings have
latched, by wing; `snapBy`: who issued it; `urgent`: the latest urgent message, and one past its instant. -/
structure RingRt where
  sides : Tab SideRt := []
  tables : Tab (Nat × List Byte) := []
  shared : Option (Nat × List Byte) := none
  entries : List Byte := []
  taking : Tab Nat := []
  parts : Tab ShareRt := []
  tx : Tab ShareTx := []
  fwd : Tab (Option RingFrame) := []
  seqs : Tab Nat := []
  snapAt : Option Nat := none
  snapParts : Tab (List Byte) := []
  snapBy : Requester := ⟨0, 0⟩
  urgent : List Byte × Nat := ([], 0)
  deriving DecidableEq, Repr

/-! ### Calibration, power and boot -/

/-- The values of a calibration instance (0x2341): their source, the last outcome, the largest drift and
the time of the last measurement. -/
structure CalInst where
  source : Nat := 0
  outcome : Nat := 0
  drift : Int := 0
  time : Nat := 0
  values : List Int := []
  deriving DecidableEq, Repr

/-- Calibration. Instances are keyed item × 256 + instance; `record`: the values of the loaded record;
`done`: instances of the campaign's `item` that have ended; `itemAt`: when that item started; `measured8`:
item 8 has been measured since reset; `groups`: by HBM device, the end of the latest maintenance window
used and its group (R412); `trimmed`: sense channels whose trim takes effect at the next scan, with their former values (R414). -/
structure CalRt where
  insts : Tab CalInst := []
  record : Tab (List Int) := []
  items : Nat := 0
  item : Nat := 0
  itemAt : Nat := 0
  done : List Nat := []
  rejected : Bool := false
  skipped : Bool := false
  measured8 : Bool := false
  groups : Tab (Nat × Nat) := []
  trimmed : List (Nat × List Int) := []
  deriving DecidableEq, Repr

/-- A persistent record in flash (R70): its save count and the values it holds. -/
structure Saved where
  count : Nat
  regs : Tab Nat
  doms : Tab (List Byte)
  deriving DecidableEq, Repr

/-- The selector record (R446): active image, trial image (0xFF none), attempts, write count. -/
structure Selector where
  active : Nat := 0
  trial : Nat := 0xFF
  attempts : Nat := 0
  count : Nat := 0
  deriving DecidableEq, Repr

/-- What flash and the one-time-programmable cells hold (Table 21.3, R447): by copy the selector, the
calibration record as bytes and the persistent record; by slot the image and its write time in seconds. -/
structure Flash where
  sels : Tab (Option Selector) := []
  cals : Tab (List Byte) := []
  saves : Tab (Option Saved) := []
  images : Tab (List Byte) := []
  written : Tab Nat := []
  counter : Nat := 0
  deriving DecidableEq, Repr

/-- A device entry into a lower state (Table 20.2): the state, and the steps that have ended. -/
structure EntryRt where
  target : Nat
  step : Nat := 1
  deriving DecidableEq, Repr

/-- A wake (Table 20.3): the state left, the step that waits for its condition, the cause, and when the
wake and the step began. -/
structure WakeRt where
  from_ : Nat
  step : Nat
  cause : Nat
  began : Nat
  stepAt : Nat
  deriving DecidableEq, Repr

/-- Firmware staging (R454): the target slot, the session, and the bytes received. -/
structure StageRt where
  slot : Nat
  sess : Nat
  data : List Byte
  total : Nat
  deriving DecidableEq, Repr

/-- Power and boot. `state`: 0 Run, 1 Sleep, 2 Deep sleep, 3 Off, 4 reset or boot, 5 unpowered. `bootStep`: steps B1
to B9 that have ended, 10 for recovery; `cause`: of the boot (0x2360:03); `releasedAt`: instant W8; `enables`: PWR_EN;
`resetLow`: RESET_N is low; `latched`: the wake cause latched during entry; `enteredAt`: the end of E6; `wakeLow`,
`wakeArmed`: WAKE_N; `releases`: banks waiting for release with the wing and tick; `hot`, `coolFrom`: a thermal
excursion and one past when every sensor fell below 100 °C; `failed`: the step and PWR_OK input of a failed wake,
journaled by the next boot; `notes`: what the boot ROM journals once boot ends; `straps`: POS and BOOTSEL as sampled;
`image`: the image of the boot; `resetAsked`: the command in progress resets the device after its response; `perst`:
PERST_N is high; `ir`: the TAP instruction; `socDown`: the spine units are stopped (R22). -/
structure PwrRt where
  state : Nat := 4
  bootStep : Nat := 0
  cause : Nat := 1
  releasedAt : Nat := 0
  enables : Nat := 0
  resetLow : Bool := true
  entry : Option EntryRt := none
  wake : Option WakeRt := none
  latched : Nat := 0
  enteredAt : Nat := 0
  wakeLow : Bool := false
  wakeArmed : Bool := false
  releases : List (Nat × Nat × Nat) := []
  hot : Bool := false
  coolFrom : Nat := 0
  failed : Option (Nat × Nat) := none
  notes : List Report := []
  perst : Bool := false
  ir : JtagIr := .bypass
  socDown : Bool := false
  stage : Option StageRt := none
  straps : Nat := 0
  image : Nat := 0xFF
  resetAsked : Bool := false
  deriving DecidableEq, Repr

/-- NMT states of CiA 301 (R87). -/
inductive NmtState where
  | preOperational | operational | stopped
  deriving DecidableEq, Repr

/-- The addresses that a media packet carries (R97, Tables 8.5, 9.7, 12.5): source and destination, UDP ports, the
marking of packets (DSCP, TTL) and the VLAN, 0 untagged. -/
structure NetHead where
  srcMac : List Byte
  src : List Byte
  dst : List Byte
  srcPort : Nat
  dstPort : Nat
  marking : Nat
  vlan : Nat
  deriving DecidableEq, Repr

/-- What a command sends out of the block. -/
inductive Out where
  /-- The status of a command object's write, with the long-operation slot it started (R54). -/
  | answer (by_ : Requester) (status : Nat) (slot : Option Nat)
  /-- A WDP message of the device. -/
  | wdp (dst : Transport) (bytes : List Byte)
  /-- A USDO answer: 0 with data, or an abort code (Table 3.10). -/
  | usdo (abort : Nat) (data : List Byte)
  /-- A CAN frame: COB-ID and data. -/
  | can (cobId : Nat) (data : List Byte)
  /-- A packet on a NET port: what it is, and its bytes or parameters. -/
  | net (port : Nat) (what : String) (bytes : List Byte)
  /-- A media packet on a NET port: its addresses, what it is, and its UDP payload. -/
  | media (port : Nat) (head : NetHead) (what : String) (bytes : List Byte)
  /-- An HTTP answer of the NMOS interface: its interface (0x2036:04), status code and error body. -/
  | http (iface status : Nat) (body : String)
  /-- A registration of the NMOS node with its registry: the interface, the registry's address (0: the one DNS-SD finds)
  and port, what it registers, and for a receiver its number and transport legs. -/
  | nmos (iface addr port : Nat) (what : String) (data : List Nat)
  /-- A frame on a management port. -/
  | mgt (g : Nat) (what : String) (bytes : List Byte)
  /-- An MSI-X vector of the PCIe endpoint. -/
  | msix (vector : Nat)
  /-- A message to another node of the ring. -/
  | ring (what : String) (bytes : List Byte)
  /-- A message to the duplex partner over the ring. -/
  | partner (what : String) (bytes : List Byte)
  /-- The answer to a fabric request: requester code, what it is, its bytes, and the words delivered
  poisoned. -/
  | fabric (req : Nat) (what : String) (bytes : List Byte) (poison : List Nat)
  /-- What a DisplayPort port does on its lanes or its AUX channel. -/
  | dp (p : Nat) (what : String) (data : List Nat)
  /-- What another interface does: a pin pulse, an audio frame, an MDIO frame. -/
  | pin (what : String) (data : List Nat)
  deriving DecidableEq, Repr

end Sys2Proof.Machine
end

