-- ==== Sys2Proof/Machine/State.lean ====
section
/-! DEFINITION. The whole state of the block, as plain data, and its value right after reset. -/
namespace Sys2Proof.Machine

/-- Why the machine stops with a fault. -/
inductive Fault where
  /-- Raised by nothing: the spec stops the block at no command, and an empty type would have no
  constructor to name. Safe. -/
  | noFault
  deriving DecidableEq, Repr

/-- Why a command has no meaning. -/
inductive Refusal where
  /-- Raised by exec's arm of a command whose meaning is not written yet; safe. -/
  | notModelled (mnemonic : String)
  deriving DecidableEq, Repr

/-- Everything the block holds but the queue of waiting commands and the HBM. -/
structure Dev where
  /-- Device time base, in ns (R255). -/
  now : Nat := 0
  /-- What the command in progress has sent (log entry 3). -/
  outbox : List Out := []
  /-- The model's own counter that free values are drawn with (log entry 4). -/
  fresh : Nat := 0
  /-- Numeric dictionary values, keyed index, subindex, field (R59). -/
  regs : Tab Nat := []
  /-- Byte-string and DOMAIN values, keyed index, subindex, chunk. -/
  doms : Tab (List Byte) := []
  /-- Wings 0 to 3. -/
  wings : Tab Wing := []
  /-- WDP sessions by number: 1 to 32 UDP, 64 to 71 PCIe (R75, R88). -/
  sessions : Tab (Option Session) := []
  /-- Failed AUTH instants by IPv4 address (R75). -/
  authFails : Tab (List Nat) := []
  /-- Blocked IPv4 addresses and the end of their block (R75). -/
  blocked : Tab Nat := []
  /-- CANopen stage (R84). -/
  canStage : List Rec := []
  /-- Value of each mapped object when a change-driven TPDO was last sent, and that instant (R85). -/
  tpdos : Tab (List Byte × Nat) := []
  /-- SYNC messages sent since reset (R85). -/
  syncs : Nat := 0
  /-- DOMAINs that are being written in segments, keyed session × 2^24 + index × 256 + subindex (R79). -/
  segs : Tab (List Byte) := []
  /-- WDP datagrams dropped for their mark, version or length (R73). -/
  wdpDropped : Nat := 0
  /-- PCIe mailbox channels 0 to 7 (R88). -/
  mbxs : Tab Mbx := []
  /-- Accepted batches that have not applied everywhere, in order of acceptance (R36). -/
  batches : List Batch := []
  /-- The latest applied batch that wrote an object, by index (Table 7.6). -/
  batchOf : Tab Nat := []
  /-- Number of the latest accepted batch (R65). -/
  batchNum : Nat := 0
  /-- Mirrored I-class and P-class writes that wait for their tick (R90). -/
  mirror : List MirWrite := []
  /-- Long operations by slot. -/
  longOps : Tab LongOp := []
  /-- Reports waiting for the guardian pair (R390). -/
  queue : List Report := []
  /-- AON domain: FAULT_N held asserted (R26, R398, R433). -/
  aonFault : Bool := false
  /-- NMT state of the CANopen interface (R87). -/
  nmt : NmtState := .preOperational
  /-- Instant of the latest EMCY (R86). -/
  emcyAt : Option Nat := none
  /-- P-class values as the last reset loaded them (R69). -/
  bootRegs : Tab Nat := []
  bootDoms : Tab (List Byte) := []
  /-- Sources by number (R105). -/
  sources : Tab SourceRt := []
  /-- Membership reports to be repeated (R103). -/
  joinRepeats : List JoinRepeat := []
  /-- The NMOS node and its receivers (R104). -/
  nmos : NmosRt := {}
  /-- Decoder sessions by number (R117). -/
  decs : Tab DecRt := []
  /-- Layers by number (R134). -/
  layers : Tab LayerRt := []
  /-- Compositions of graphics layers in progress, oldest first (R151). -/
  layerComps : List Comp := []
  /-- Outputs by number (R9). -/
  outputs : Tab OutputRt := []
  /-- Region histories, keyed output × 1,024 + place; channels follow the outputs (R171). -/
  hist : Tab History := []
  /-- Worst state last reported for each source, plus one; 0 not shown (R179). -/
  summary : Tab Nat := []
  /-- When each shelf finished its latest band, by wing × 64 + bay × 8 + shelf (R153). -/
  shelfIdle : Tab Nat := []
  /-- Number given to the latest composition. -/
  compId : Nat := 0
  /-- DisplayPort ports by number (R197). -/
  dps : Tab DpRt := []
  /-- Encoder channels by number (R215). -/
  encs : Tab EncRt := []
  /-- Capture inputs by number, 24 PPS_IN (R266). -/
  evts : Tab EvtRt := []
  /-- Launch times of launch entries (R269). -/
  due : Tab Nat := []
  /-- Launched traffic of the last ms by port: instants and bytes (R272). -/
  launched : Tab (List (Nat × Nat)) := []
  /-- PPS_OUT (R268). -/
  pps : PpsRt := {}
  /-- PTP and the servo (R255 to R264). -/
  time : TimeRt := {}
  /-- The audio block (R275 to R288). -/
  aud : AudRt := {}
  /-- The touch block (R289 to R302). -/
  touch : TouchRt := {}
  /-- Highest admitted demand of each resource instance since reset, in ‰ (R52), keyed class × 256 +
  instance. -/
  peak : Tab Nat := []
  /-- Occupied link-slots of the four ring instances: side × 2 + direction (Table 2.2, R382). -/
  ringOcc : List Nat := []
  /-- The active slot tables give the class 1, 3 and 4 flows to the partner that R381 asks for. -/
  pairFlows : Bool := false
  /-- Partitions of the access catalogue by number (R326). -/
  parts : Tab PartRt := []
  /-- Pseudo-channels by device-wide number (R303). -/
  pcs : Tab PcRt := []
  /-- HBM devices. -/
  hbms : Tab HbmRt := []
  /-- Words of the HBM by physical address div 32: 1 uncorrectable, 2 poison pattern, 3 written since its
  pseudo-channel was filled with poison (R310 to R312). -/
  words : Tab Nat := []
  /-- Activates by pseudo-channel × 2^20 + bank × 2^14 + row (R317). -/
  acts : Tab RowAct := []
  throttles : List Throttle := []
  /-- Uncorrectable words journaled in the W0 tick that the first component numbers (R314). -/
  uncTold : Nat × List Nat := (0, [])
  /-- The guardian pair has stopped on a lockstep mismatch (R26). -/
  guardianStopped : Bool := false
  /-- Wings whose curator cluster has stopped by fault (R25). -/
  curStopped : List Nat := []
  /-- Duplex interlock and pair (R343 to R368). -/
  dup : DupRt := {}
  /-- The ring (R368 to R388). -/
  ring : RingRt := {}
  /-- Calibration (R408 to R423). -/
  cal : CalRt := {}
  /-- Flash and one-time-programmable cells (Table 21.3). -/
  flash : Flash := {}
  /-- Bytes written to the retention SRAM over the fabric, by offset (Table 1.6). -/
  retain : Tab (Option Byte) := []
  /-- The P-class values that a save in progress has captured (R70). -/
  saving : Option Saved := none
  /-- Power state and what surrounds it (R426 to R457). -/
  pwr : PwrRt := {}
  deriving DecidableEq, Repr

/-- The whole state: the waiting commands, first in first out, the HBM, and the device. -/
structure State where
  pending : List Instr := []
  /-- HBM: bytes by physical address (R29); an unlisted address reads as 0 (log entry 5). -/
  mem : Tab Byte := []
  dev : Dev := {}
  deriving DecidableEq, Repr

/-- The machine right after reset. -/
def State.reset : State := {}

end Sys2Proof.Machine
end

