-- ==== Sys2Proof/Machine/Ops.lean ====
section
/-! DEFINITION. The named operations every meaning is written with: reading and writing dictionary
objects (the block's register file), sending, reporting, drawing free values, and the frame of a
command's meaning. -/
namespace Sys2Proof.Machine

/-! ### Dictionary storage -/

/-- Key of a numeric value: index, subindex and field (field 0 for a scalar object). -/
def regKey (i s f : Nat) : Nat := (i * 256 + s) * 65536 + f

/-- Default colours of 0x34F2 (Table 7.5), subs 01 to 0C. -/
def markDefault (s : Nat) : Nat :=
  [0x3FFA8000, 0x00000000, 0x000003FF, 0x3FFFFFFF, 0x000FFFFF, 0x00000000,
   0x3FF003FF, 0x00000000, 0x20080200, 0x00000000, 0x3FF00000, 0x3FFFFFFF].getD (s - 1) 0

/-- Default of a numeric object at field 0, where the object table gives one that its row cannot hold, and otherwise
the row's. That of 0x1014, 0x80 + node-ID, takes the default node-ID 0x30, whatever 0x2043:02 has been loaded with
(DESIGN CHOICE: R86 does not say which; log entry 160). -/
def regDefault0 (i s : Nat) : Nat :=
  if i = 0x1018 ∧ s = 4 then Config.serial 0 % 2 ^ 32
  else if i = 0x1014 then 0xB0
  else if 0x3400 ≤ i ∧ i < 0x3480 ∧ s = 0x2D then 0x57000000 + (i - 0x3400)
  else if 0x3500 ≤ i ∧ i < 0x3510 ∧ s = 0x20 then 0x57800000 + (i - 0x3500)
  else if i = 0x2238 ∧ s = 0 then 0x0D
  else if i = 0x34F2 ∧ 1 ≤ s ∧ s ≤ 0x0C then markDefault s
  else if 0x3400 ≤ i ∧ i < 0x3480 ∧ s = 0 then (if 0x3440 ≤ i then 0x2D else if i % 4 = 0 then 0x40 else 0x31)
  else if i = 0x34F2 ∧ (s = 0x0D ∨ s = 0x10) then 0x3FFFFFFF
  else if 0x2410 ≤ i ∧ i < 0x2430 ∧ s = 4 then 0xFFFFFFFF
  else match objRow i s with
    | some r => r.dfl
    | none => 0

/-- What a numeric key reads as when unlisted: the object's default; fields of counter DOMAINs 0. -/
def regDefault (k : Nat) : Nat :=
  if k % 65536 = 0 then regDefault0 (k / 65536 / 256) (k / 65536 % 256) else 0

/-- Field `f` of a numeric object. -/
def Dev.rdf (d : Dev) (i s f : Nat) : Nat :=
  Tab.getD d.regs (regKey i s f) (regDefault (regKey i s f))

/-- Writes field `f` of a numeric object. -/
def Dev.wrf (d : Dev) (i s f v : Nat) : Dev :=
  { d with regs := Tab.setD d.regs (regKey i s f) v (regDefault (regKey i s f)) }

/-- A numeric object. -/
def Dev.rd (d : Dev) (i s : Nat) : Nat := d.rdf i s 0

/-- Writes a numeric object. -/
def Dev.wr (d : Dev) (i s v : Nat) : Dev := d.wrf i s 0 v

/-- A BOOLEAN object. -/
def Dev.rdb (d : Dev) (i s : Nat) : Bool := d.rd i s != 0

/-- A signed object of `w` bits. -/
def Dev.rdi (d : Dev) (w i s : Nat) : Int := toSigned w (d.rd i s)

/-- Adds to a counter field of `w` bytes, which wraps at its width. -/
def Dev.addf (d : Dev) (i s f n w : Nat) : Dev :=
  d.wrf i s f ((d.rdf i s f + n) % 2 ^ (8 * w))

/-- Adds one to an UNSIGNED64 counter field. -/
def Dev.incf (d : Dev) (i s f : Nat) : Dev := d.addf i s f 1 8

/-- Key of a byte string or of one chunk of a DOMAIN that is kept in chunks. -/
def domKey (i s c : Nat) : Nat := (i * 256 + s) * 65536 + c

/-- The identity colour matrix with zero offsets of 0x3200+l:13 (Table 6.9): INTEGER16 entries of
1/4096. -/
def identityMatrix : List Byte :=
  [4096, 0, 0, 0, 4096, 0, 0, 0, 4096, 0, 0, 0].flatMap (leBytes 2)

/-- Tap `j` of phase `p` in the bytes of a filter set: 8 horizontal taps, then 6 vertical ones, a phase (Table 6.10). -/
def filterTapOf (b : List Byte) (vert : Bool) (p j : Nat) : Int :=
  toSigned 16 (fieldAt b (if vert then 1024 + (p * 6 + j) * 2 else (p * 8 + j) * 2) 2)

/-- Taps of a phase: 8 horizontal, 6 vertical (R140). -/
def filterTaps (vert : Bool) : Nat := if vert then 6 else 8

/-- The sum of a phase's taps. -/
def tapSum (vert : Bool) (tap : Nat → Int) : Int := (List.range (filterTaps vert)).foldl (fun a j => a + tap j) 0

/-- Every phase of a filter set sums to 4,096 (R141). -/
def filterSums (b : List Byte) : Bool :=
  (List.range 64).all fun p => [false, true].all fun v => tapSum v (filterTapOf b v p) == 4096

/-- The built-in set 3, nearest neighbour (R141): the whole weight lies on the pixel nearest to the phase; one half
way takes the later one (log entry 130). -/
def nearestTap (vert : Bool) (phase tap : Nat) : Int :=
  if tap = (if vert then 2 else 3) + phase / 32 then 4096 else 0

/-- The built-in set 2, bilinear (R141): the phase divides the weight between the pixels on both sides. -/
def bilinearTap (vert : Bool) (phase tap : Nat) : Int :=
  let lo := if vert then 2 else 3
  if tap = lo then 4096 - 64 * phase else if tap = lo + 1 then 64 * phase else 0

/-- The bytes of set 3. -/
def nearestBytes : List Byte :=
  [false, true].flatMap fun v => (List.range 64).flatMap fun p =>
    (List.range (filterTaps v)).flatMap fun j => leBytes 2 (nearestTap v p j).toNat

/-- The bytes of the built-in set 0, of which the custom sets are copies at reset (Table 6.10): free, but each phase
sums to 4,096 (R141, log entry 130). -/
def builtinSet0 : List Byte :=
  let b := padTo 1792 (Config.builtinFilter 0)
  if filterSums b then b else nearestBytes

/-- Header of a colour table (R143): version 0x01, the flags, and reserved zeros. -/
def lutHeader (flags : Nat) : List Byte := [0x01] ++ leBytes 1 flags ++ List.replicate 14 0

/-- The identity colour table (Table 6.3): each entry is the code that addresses it, and the 3D LUT is not used (log
entry 141). -/
def identityLut : List Byte :=
  let ramp := fun n step => (List.range n).flatMap fun k => leBytes 2 (k * step)
  let lin := ramp 1024 64
  let enc := ramp 4096 16
  let node := fun k => leBytes 2 (k * 65535 / 32)
  lutHeader 0 ++ lin ++ lin ++ lin ++
    ((List.range 35937).flatMap fun k => node (k % 33) ++ node (k / 33 % 33) ++ node (k / 1089) ++ [0, 0]) ++ enc ++ enc ++ enc

/-- A built-in colour table, 48 to 63 (Table 6.3): 60 to 63 are the identity, the content of the others is not listed
(log entry 131). -/
def builtinTable (t : Nat) : List Byte :=
  if 60 ≤ t then identityLut
  else
    let b := padTo 318232 (Config.builtinLut t)
    lutHeader (byteAt b 1 % 2) ++ b.drop 16

/-- Default of a byte string or DOMAIN chunk. -/
def domDefault (k : Nat) : List Byte :=
  let i := k / 65536 / 256
  let s := k / 65536 % 256
  if i = 0x1008 then strBytes "CW9600"
  else if i = 0x1009 then strBytes "B1"
  else if 0x2038 ≤ i ∧ i < 0x2040 ∧ s = 1 then padTo 6 (Config.macAddress (i - 0x2038))
  else if i = 0x2036 ∧ s = 6 then padTo 16 (Config.nodeId 0)
  else if i = 0x2201 ∧ s = 0x0A then padTo 8 (Config.clockIdentity 0)
  else if 0x3200 ≤ i ∧ i < 0x3400 ∧ s = 0x13 then identityMatrix
  else if 0x3500 ≤ i ∧ i < 0x3510 ∧ s = 0x13 then List.replicate 8 0xFF
  else if 0x3100 ≤ i ∧ i < 0x3180 ∧ s = 0x0C then List.replicate 20 0
  else if 0x3100 ≤ i ∧ i < 0x3180 ∧ s = 0x0D then List.replicate 12 0
  else if (i = 0x2100 ∧ s = 0x10) ∨ (i = 0x2300 ∧ s = 9) then List.replicate 16 0
  else if i = 0x2130 ∧ s = 4 then List.replicate 32 0
  else if i = 0x2300 ∧ s = 0x0E then List.replicate 10 0
  else if i = 0x2110 ∧ s = 5 then List.replicate 16 0xFF
  else if i = 0x2113 ∧ s = 1 then padTo 128 (Config.boardTable 0)
  else if 0x4800 ≤ i ∧ i < 0x4840 ∧ s = 1 then (if i < 0x4830 then identityLut else builtinTable (i - 0x4800))
  else if 0x4840 ≤ i ∧ i < 0x4844 ∧ s = 1 then builtinSet0
  else match objRow i s with
    | some r =>
      match r.rng with
      | .len lo hi => if lo = hi ∧ r.com ≠ .i ∧ i ≠ 0x2041 then List.replicate lo 0 else []
      | _ => []
    | none => []

/-- Chunk `c` of a byte string or DOMAIN. -/
def Dev.rdc (d : Dev) (i s c : Nat) : List Byte :=
  Tab.getD d.doms (domKey i s c) (domDefault (domKey i s c))

/-- Writes chunk `c` of a byte string or DOMAIN. -/
def Dev.wrc (d : Dev) (i s c : Nat) (v : List Byte) : Dev :=
  { d with doms := Tab.setD d.doms (domKey i s c) v (domDefault (domKey i s c)) }

/-- A byte string or DOMAIN. -/
def Dev.rdd (d : Dev) (i s : Nat) : List Byte := d.rdc i s 0

/-- Writes a byte string or DOMAIN. -/
def Dev.wrd (d : Dev) (i s : Nat) (v : List Byte) : Dev := d.wrc i s 0 v

/-! ### Time -/

/-- A TIME48 value in its little-endian number form: 48-bit seconds, then 32-bit ns (R12). -/
def time48 (ns : Nat) : Nat := (ns / 1000000000) % 2 ^ 48 + (ns % 1000000000) * 2 ^ 48

/-- The instant a TIME48 number names. -/
def ofTime48 (v : Nat) : Nat := (v % 2 ^ 48) * 1000000000 + v / 2 ^ 48

/-- A TIME48 value as its 10 bytes. -/
def time48Bytes (ns : Nat) : List Byte := leBytes 10 (time48 ns)

/-! ### Sending and free values -/

/-- Sends something out of the block. -/
def Dev.send (d : Dev) (o : Out) : Dev := { d with outbox := d.outbox ++ [o] }

/-- Draws a free value: nothing constrains it. -/
def Dev.free (d : Dev) : Nat × Dev := (Config.freeNat d.fresh, { d with fresh := d.fresh + 1 })

/-- Draws `n` free bytes. -/
def Dev.freeBytes (d : Dev) (n : Nat) : List Byte × Dev :=
  (padTo n (Config.freeBytes n d.fresh), { d with fresh := d.fresh + 1 })

/-! ### Unit codes and paths (Tables 0.3, 18.3) -/

/-- The unit code of the whole device. -/
def uDevice : Nat := 0x0F00
/-- Unit code of wing `w`. -/
def uWing (w : Nat) : Nat := 0x1000 + w * 256
/-- Unit code of the bay with global number `g` (R7). -/
def uBay (g : Nat) : Nat := 0x2000 + (g / 8) * 256 + g % 8
/-- Unit code of encoder `w`. -/
def uEnc (w : Nat) : Nat := 0x3000 + w * 256
/-- Unit code of decoder `w`. -/
def uDec (w : Nat) : Nat := 0x4000 + w * 256
/-- Unit code of intake `w`. -/
def uIntake (w : Nat) : Nat := 0x5000 + w * 256
/-- Unit code of curator cluster `w`. -/
def uCur (w : Nat) : Nat := 0x6000 + w * 256
/-- Unit code of DisplayPort port `p`. -/
def uDp (p : Nat) : Nat := 0x7000 + (p / 4) * 256 + p
/-- Unit code of network port `k`. -/
def uNet (k : Nat) : Nat := 0x8000 + (k / 2) * 256 + k
/-- Unit code of HBM device `m`. -/
def uHb (m : Nat) : Nat := 0x9F00 + m
/-- Unit code of check-value unit `u`. -/
def uCvu (u : Nat) : Nat := 0xAF00 + u
/-- Unit code of audio port `a`. -/
def uAud (a : Nat) : Nat := 0xBF00 + a
/-- Unit code of management port `g`. -/
def uMgt (g : Nat) : Nat := 0xCF00 + g
/-- Unit code of a spine unit. -/
def uSpine (x : Nat) : Nat := 0xDF00 + x
def uFabric : Nat := uSpine 0
def uTime : Nat := uSpine 1
def uRing : Nat := uSpine 2
def uDict : Nat := uSpine 3
def uAudio : Nat := uSpine 4
def uTouch : Nat := uSpine 5
def uCal : Nat := uSpine 6
def uGuard : Nat := uSpine 7
def uJournal : Nat := uSpine 8
def uXspi : Nat := uSpine 9
def uPcie : Nat := uSpine 10
def uAon : Nat := uSpine 11

/-- A number in decimal, as text. -/
def decStr (n : Nat) : String := String.ofList (Nat.toDigits 10 n)

/-- The unit path of a unit code (Tables 0.3, 18.3). -/
def unitPath (u : Nat) : String :=
  let w := decStr (u / 256 % 16)
  let k := decStr (u % 256)
  match u / 4096 with
  | 1 => "W" ++ w
  | 2 => "W" ++ w ++ ".BAY" ++ k
  | 3 => "W" ++ w ++ ".ENC"
  | 4 => "W" ++ w ++ ".DEC"
  | 5 => "W" ++ w ++ ".INTAKE"
  | 6 => "W" ++ w ++ ".CUR"
  | 7 => "DP" ++ k
  | 8 => "NET" ++ k
  | 9 => "HB" ++ k
  | 10 => "CVU" ++ k
  | 11 => "AUD" ++ k
  | 12 => "MGT" ++ k
  | 13 => "SPINE." ++ ["FABRIC", "TIME", "RING", "DICT", "AUDIO", "TOUCH", "CAL", "GUARD",
      "JOURNAL", "XSPI", "PCIE", "AON"].getD (u % 256) ""
  | _ => ""

/-! ### Sessions, NOTIFY and reports -/

/-- The session with number `n`, if it is allocated. -/
def Dev.session (d : Dev) (n : Nat) : Option Session := Tab.getD d.sessions n none

/-- Stores a session. -/
def Dev.setSession (d : Dev) (n : Nat) (x : Option Session) : Dev :=
  { d with sessions := Tab.setD d.sessions n x none }

/-- The session numbers: 1 to 32 over UDP (R75), 64 to 71 over PCIe (R88). -/
def sessionNumbers : List Nat := (List.range 32).map (· + 1) ++ (List.range 8).map (· + 64)

/-- The header of a WDP message (Table 3.4). -/
def wdpHeader (ty sess flags status seq len : Nat) : List Byte :=
  [0x57, 0x44, 0x01] ++ leBytes 1 ty ++ leBytes 2 sess ++ leBytes 1 flags ++ leBytes 1 status ++
    leBytes 4 seq ++ leBytes 2 len ++ leBytes 2 0

/-- The tag of a WDP message under a key (R76). -/
def wdpTag (key msg : List Byte) : List Byte := leBytes 32 (Config.hmacSha256 key msg).toNat

/-- A whole WDP message: header, payload, tag (R73). -/
def wdpMessage (key : List Byte) (ty sess flags status seq : Nat) (payload : List Byte) :
    List Byte :=
  let m := wdpHeader ty sess flags status seq payload.length ++ payload
  m ++ wdpTag key m

/-- A value loaded at the last reset: what a "from next reset" object acts with (R69). -/
def Dev.bootRd (d : Dev) (i s : Nat) : Nat :=
  Tab.getD d.bootRegs (regKey i s 0) (regDefault (regKey i s 0))

/-- A byte string loaded at the last reset (R69). -/
def Dev.bootRdd (d : Dev) (i s : Nat) : List Byte :=
  Tab.getD d.bootDoms (domKey i s 0) (domDefault (domKey i s 0))

/-- Management port `g` runs SGMII, from the last reset on. -/
def Dev.sgmii (d : Dev) (g : Nat) : Bool := d.bootRd 0x2046 (g + 1) == 1

/-- Management port `g` sends: an SGMII port whose PHY reports no link sends nothing. -/
def Dev.mgtSends (d : Dev) (g : Nat) : Bool := !d.sgmii g || bits (d.rd 0x2046 7) (2 * g + 1) (2 * g) == 2

/-- Gives a WDP message to the transport it leaves on. -/
def Dev.sendVia (d : Dev) (via : Transport) (msg : List Byte) : Dev :=
  match via with
  | .mgt g _ => if d.mgtSends g then d.send (.wdp via msg) else d
  | _ => d.send (.wdp via msg)

/-- A PCIe mailbox channel. -/
def Dev.mbx (d : Dev) (ch : Nat) : Mbx := Tab.getD d.mbxs ch {}

def Dev.setMbx (d : Dev) (ch : Nat) (x : Mbx) : Dev := { d with mbxs := Tab.setD d.mbxs ch x {} }

/-- Size of an event ring (Table 3.11). -/
def eventRing : Nat := 65536

/-- The event ring with a message placed, when it has the space (R88). -/
def Mbx.place (x : Mbx) (msg : List Byte) : Option Mbx :=
  let e := leBytes 2 msg.length ++ msg
  let n := (e.length + 7) / 8 * 8
  if (x.head + eventRing - x.tail) % eventRing + n < eventRing then
    some { x with
      evt := foldNat (fun m j => Tab.setD m ((x.head + j) % eventRing) (e.getD j 0) 0) n x.evt
      head := (x.head + n) % eventRing }
  else none

/-- A device-originated message for an open session leaves over its transport; in a mailbox channel it goes
into the event ring: where that is full a NOTIFY waits and a data message is dropped and counted (R88). -/
def Dev.originate (d : Dev) (n : Nat) (x : Session) (ty flags : Nat) (payload : List Byte) : Dev :=
  let x' := { x with devSeq := x.devSeq + 1 }
  let msg := wdpMessage x.key ty n (4 + flags) 0 x'.devSeq payload
  match x.via with
  | .pcie ch =>
    let b := d.mbx ch
    match b.place msg with
    | some b' => (((d.setSession n (some x')).setMbx ch b').send (.wdp x.via msg)).send (.msix (2 * ch + 1))
    | none =>
      if ty = 0x20 then
        let q := leNat (payload.take 4)
        if b.waiting.contains q then d else d.setMbx ch { b with waiting := b.waiting ++ [q] }
      else d.setMbx ch { b with dropped := b.dropped + 1 }
  | via => (d.setSession n (some x')).sendVia via msg

/-- Sends a device-originated message in an open session: flag DEV, its own rising sequence (R77). -/
def Dev.sendDev (d : Dev) (n ty flags : Nat) (payload : List Byte) : Dev :=
  match d.session n with
  | some x => if x.isOpen && !d.pwr.socDown then d.originate n x ty flags payload else d
  | none => d

/-- The NOTIFY payload of Table 3.8. -/
def notifyPayload (nseq event time : Nat) (body : List Byte) : List Byte :=
  leBytes 4 nseq ++ leBytes 2 event ++ leBytes 2 0 ++ time48Bytes time ++ leBytes 2 0 ++ body

/-- Sends a NOTIFY to one session and keeps it until it is acknowledged (R82). -/
def Dev.notifyTo (d : Dev) (n event time : Nat) (body : List Byte) : Dev :=
  match d.session n with
  | some x =>
    if x.isOpen then
      let q := x.notifySeq + 1
      let p := notifyPayload q event time body
      let x' := { x with notifySeq := q, unacked := x.unacked ++ [⟨q, p, 1⟩] }
      (d.setSession n (some x')).sendDev n 0x20 0 p
    else d
  | none => d

/-- Whether a session subscribes to NOTIFY event `e` (R80 kind 2). -/
def Session.wants (x : Session) (e : Nat) : Bool :=
  x.subs.any fun b => b.kind == 2 && b.param.testBit e

/-- Sends a NOTIFY to every session that subscribes to its event (R82). -/
def Dev.notify (d : Dev) (event time : Nat) (body : List Byte) : Dev :=
  sessionNumbers.foldl (fun d n =>
    match d.session n with
    | some x => if x.wants event then d.notifyTo n event time body else d
    | none => d) d

/-- Body of NOTIFY UNIT_EVENT (Table 3.8). -/
def unitEventBody (unit code p1 p2 : Nat) : List Byte :=
  padTo 16 (strBytes (unitPath unit)) ++ leBytes 2 code ++ leBytes 2 0 ++ leBytes 4 p1 ++
    leBytes 4 p2

/-- Puts a report in the guardian pair's queue of 64 (R390); one that finds it full is lost: it is
counted, and its severity held when higher. -/
def Dev.report (d : Dev) (r : Report) : Dev :=
  if d.queue.length < 64 then
    let d := { d with queue := d.queue ++ [r] }
    if d.rd 0x2400 0x0A < d.queue.length then d.wr 0x2400 0x0A d.queue.length else d
  else
    let d := d.wr 0x2400 3 (satInc 32 (d.rd 0x2400 3))
    if d.rd 0x2400 4 = 0xFF ∨ d.rd 0x2400 4 < r.sev then d.wr 0x2400 4 r.sev else d

/-- A unit event that is not journaled: NOTIFY UNIT_EVENT only. -/
def Dev.event (d : Dev) (unit code p1 p2 : Nat) : Dev :=
  d.notify 3 d.now (unitEventBody unit code p1 p2)

/-- A unit event that is journaled with a severity: NOTIFY UNIT_EVENT and a report (R389, R479). -/
def Dev.raise (d : Dev) (unit code p1 p2 sev : Nat) : Dev :=
  (d.event unit code p1 p2).report
    { unit := unit, code := code, p1 := p1 % 2 ^ 32, p2 := p2 % 2 ^ 32, sev := sev, time := d.now }

/-- Severities of Table 18.1. -/
def sevInfo : Nat := 0
def sevDegraded : Nat := 1
def sevService : Nat := 2
def sevDevice : Nat := 3

/-! ### Status codes (Tables 2.4, 3.6) -/

def stOk : Nat := 0x00
def stCapacity : Nat := 0x01
def stTooLate : Nat := 0x02
def stTooFar : Nat := 0x03
def stConflict : Nat := 0x04
def stUncoupled : Nat := 0x05
def stModeRate : Nat := 0x06
def stRange : Nat := 0x07
def stNoObject : Nat := 0x08
def stAccess : Nat := 0x09
def stNotWritable : Nat := 0x0A
def stType : Nat := 0x0B
def stWrongClass : Nat := 0x0C
def stStageFull : Nat := 0x0D
def stAuth : Nat := 0x0E
def stSequence : Nat := 0x0F
def stNoSession : Nat := 0x10
def stBusy : Nat := 0x11
def stStandby : Nat := 0x12
def stNoSlot : Nat := 0x13
def stWrongState : Nat := 0x14
def stOnLoan : Nat := 0x15
def stTooLarge : Nat := 0x16
def stSegment : Nat := 0x17
def stNoBatch : Nat := 0x18

/-! ### The frame of a meaning -/

/-- The guardian domain works: in Run until step E2 of an entry has ended (R428), and in a boot once the
dictionary engine has started (R449). -/
def Dev.guardAlive (d : Dev) : Bool :=
  match d.pwr.state with
  | 0 => match d.pwr.entry with
    | some e => decide (e.step < 2)
    | none => true
  | 4 => d.pwr.bootStep == 8
  | _ => false

/-- The guardian domain is powered and clocked: in every power state above Off (R26); during a boot from the point where
the dictionary engine starts. -/
def Dev.guardOn (d : Dev) : Bool := decide (d.pwr.state < 3) || d.guardAlive

/-- Everything works: as the guardian domain, unless VDD_SOC has failed (R22). -/
def Dev.alive (d : Dev) : Bool := d.guardAlive && !d.pwr.socDown

/-- The boot ROM serves the dictionary in recovery (R453). -/
def Dev.recovery (d : Dev) : Bool := d.pwr.state == 4 && d.pwr.bootStep == 10

/-- A command at instant `t`: the time base reads `t`, what the previous command sent is gone, and
the device changes by `f`. The queue of commands is untouched. -/
def onAon (t : Nat) (f : Dev → Dev) (s : State) : Host.Outcome State Fault Refusal :=
  .next { s with dev := f { s.dev with now := t, outbox := [] } }

/-- A command to a part of the device that rests below Run, in reset and before the dictionary is
reachable (R424, R449): it has no effect there. -/
def onDev (t : Nat) (f : Dev → Dev) (s : State) : Host.Outcome State Fault Refusal :=
  onAon t (fun d => if d.alive then f d else d) s

/-- A command to the guardian domain, which a fault of VDD_SOC does not stop (R22). -/
def onGuard (t : Nat) (f : Dev → Dev) (s : State) : Host.Outcome State Fault Refusal :=
  onAon t (fun d => if d.guardAlive then f d else d) s

/-! ### Calibration instances -/

def calKey (item inst : Nat) : Nat := item * 256 + inst

/-- An instance of a calibration item (R408). -/
def Dev.calInst (d : Dev) (item inst : Nat) : CalInst := Tab.getD d.cal.insts (calKey item inst) {}

/-- What the processing of a command object gives: a status, the long-operation slot it started,
and the device. -/
structure Res where
  st : Nat
  slot : Option Nat
  dev : Dev

/-- The command object's write is refused, or succeeds, without a slot. -/
def Dev.res (d : Dev) (st : Nat) : Res := ⟨st, none, d⟩

/-- A command object written by `by_`: the effect, then its status sent back. -/
def onCommand (t : Nat) (by_ : Requester) (f : Dev → Res) (s : State) :
    Host.Outcome State Fault Refusal :=
  onAon t (fun d =>
    if d.alive || d.recovery then let r := f d; r.dev.send (.answer by_ r.st r.slot) else d) s

end Sys2Proof.Machine
end

