-- ==== Sys2Proof/Machine/Mem.lean ====
section
/-! DEFINITION. HBM bytes by physical address (Table 1.6, R304 maps them to pseudo-channels). One
canonical form: addresses strictly rising, no entry equal to what an unlisted address reads as. -/
namespace Sys2Proof.Machine

/-- The HBM's contents. -/
abbrev Mem := Tab Byte

/-- What an unlisted byte of the HBM reads as: 0 (DESIGN CHOICE, log entry 5; R322 calls the content
after a reset undefined). -/
def unlistedByte : Byte := 0

/-- One byte of the HBM. -/
def Mem.read (m : Mem) (a : Nat) : Byte := Tab.getD m a unlistedByte

/-- Writes one byte of the HBM. -/
def Mem.write (m : Mem) (a : Nat) (b : Byte) : Mem := Tab.setD m a b unlistedByte

/-- The HBM's canonical form. -/
def Mem.wf (m : Mem) : Bool := Tab.wf (fun _ => unlistedByte) m

/-- `n` bytes from an address. -/
def Mem.readBytes (m : Mem) (a n : Nat) : List Byte := (List.range n).map fun j => m.read (a + j)

/-- Writes bytes from an address upwards. -/
def Mem.writeBytes : Mem → Nat → List Byte → Mem
  | m, _, [] => m
  | m, a, b :: bs => Mem.writeBytes (m.write a b) (a + 1) bs

/-- Clears `n` bytes from an address to 0. -/
def Mem.clear (m : Mem) (a n : Nat) : Mem := m.filter fun e => !(decide (a ≤ e.1) && decide (e.1 < a + n))

/-- The HBM answers: in Run, and in a boot once it is trained (R448). -/
def Dev.memUp (d : Dev) : Bool :=
  d.pwr.state == 0 || (d.pwr.state == 4 && decide (4 ≤ d.pwr.bootStep) && decide (d.pwr.bootStep < 10))

/-- A command that reads or writes the HBM. -/
def onDevMem (t : Nat) (f : Mem → Dev → Dev × Mem) (s : State) :
    Host.Outcome State Fault Refusal :=
  let d := { s.dev with now := t, outbox := [] }
  let r := if d.memUp then f s.mem d else (d, s.mem)
  .next { s with dev := r.1, mem := r.2 }

/-- A command object whose effect reads the HBM. -/
def onCommandMem (t : Nat) (by_ : Requester) (f : Mem → Dev → Res) (s : State) :
    Host.Outcome State Fault Refusal :=
  onCommand t by_ (f s.mem) s

end Sys2Proof.Machine
end

