-- ==== Sys2Proof/Machine/Place.lean ====
section
/-! DEFINITION. Where a physical address lies in the HBM (R304), and what is known of its words (R310 to
R313). -/
namespace Sys2Proof.Machine

/-! ### Addresses -/

/-- The HBM device that holds a physical address (Table 1.6), and the offset in it. -/
def hbmOf (a : Nat) : Option (Nat × Nat) :=
  if a < 0x600000000 then some (0, a)
  else if 0x800000000 ≤ a ∧ a < 0xE00000000 then some (1, a - 0x800000000)
  else none

/-- Base of an HBM device (Table 1.6). -/
def hbmBase (m : Nat) : Nat := m * 0x800000000

/-- Where a physical address lies: device-wide pseudo-channel, bank in the encoding of Table 14.2, and row
(R304). -/
structure Place where
  pc : Nat
  bank : Nat
  row : Nat
  deriving DecidableEq, Repr

/-- The place of a physical address (R304). -/
def placeOf (a : Nat) : Place :=
  match hbmOf a with
  | none => ⟨0, 0, 0⟩
  | some (m, o) =>
    let b := o / 256
    let l := b / 32
    { pc := 32 * m + Nat.xor (b % 32) (l % 32)
      bank := (l / 16 % 4) + (l / 4 % 4) * 4 + (l / 64 % 3) * 16
      row := l / 192 }

/-- Key of a row in `acts`. -/
def Place.key (p : Place) : Nat := p.pc * 2 ^ 20 + p.bank * 2 ^ 14 + p.row

/-- Index of an HBM device's object. -/
def hbmIdx (m : Nat) : Nat := 0x2601 + m

def Dev.pc (d : Dev) (p : Nat) : PcRt := Tab.getD d.pcs p {}
def Dev.setPcRt (d : Dev) (p : Nat) (x : PcRt) : Dev := { d with pcs := Tab.setD d.pcs p x {} }
def Dev.hbm (d : Dev) (m : Nat) : HbmRt := Tab.getD d.hbms m {}
def Dev.setHbm (d : Dev) (m : Nat) (x : HbmRt) : Dev := { d with hbms := Tab.setD d.hbms m x {} }

/-! ### Words, queues and forwarding -/

/-- What is known of a word: 0 good, 1 uncorrectable, 2 poison pattern. -/
def Dev.wordState (d : Dev) (w : Nat) : Nat :=
  match Tab.getD d.words w 0 with
  | 0 => if (d.pc (placeOf (w * 32)).pc).poison then 2 else 0
  | 3 => 0
  | v => v

/-- A word reads poisoned. Without a bad word or a recovered pseudo-channel none does. -/
def Dev.poisonedAt (d : Dev) (w : Unit → Nat) : Bool :=
  (!d.words.isEmpty || d.pcs.any fun e => e.2.poison || e.2.state != 0) &&
    ((d.pc (placeOf (w () * 32)).pc).state != 0 || d.wordState (w ()) != 0)

end Sys2Proof.Machine
end

