-- ==== Sys2Proof/Machine/Timing.lean ====
section
/-! DEFINITION. Tick instants: when ticks fall, which tick an instant belongs to, and which wings are
tick-coupled (R32 to R35). -/
namespace Sys2Proof.Machine

/-! ### Exact instants -/

def Q.add (a b : Q) : Q := ⟨a.n * b.d + b.n * a.d, a.d * b.d⟩
def Q.sub (a b : Q) : Q := ⟨a.n * b.d - b.n * a.d, a.d * b.d⟩
def Q.mul (a : Q) (k : Nat) : Q := ⟨a.n * k, a.d⟩
def Q.le (a b : Q) : Bool := decide (a.n * b.d ≤ b.n * a.d)
def Q.floor (a : Q) : Nat := a.n / a.d
def Q.ofNat (n : Nat) : Q := ⟨n, 1⟩

/-- The 90 kHz count of an instant since the PTP epoch, as an RTP timestamp (R210, R230). -/
def count90k (a : Q) : Nat := (a.mul 9).floor / 100000 % 2 ^ 32

/-- Two instants lie less than `ns` apart. -/
def Q.near (ns : Nat) (a b : Q) : Bool :=
  decide (a.n * b.d < b.n * a.d + ns * (a.d * b.d)) && decide (b.n * a.d < a.n * b.d + ns * (a.d * b.d))

/-! ### Ticks -/

/-- Numerator of the exact period in seconds (Table 2.1). -/
def periodNum (code : Nat) : Nat := if code = 0 ∨ code = 3 ∨ code = 7 ∨ code = 10 then 1001 else 1

/-- Denominator of the exact period in seconds (Table 2.1). -/
def periodDen (code : Nat) : Nat :=
  [24000, 24, 25, 30000, 30, 48, 50, 60000, 60, 100, 120000, 120].getD code 60

/-- The period in ps, to the nearest (Table 2.1). -/
def periodPs (code : Nat) : Nat :=
  (2 * periodNum code * 1000000000000 + periodDen code) / (2 * periodDen code)

/-- The period in ns, rounded down. -/
def periodNs (code : Nat) : Nat := periodNum code * 1000000000 / periodDen code

/-- The first ns count at or after the exact instant of tick `k` (R32, R33). -/
def tickInstant (code phase k : Nat) : Nat :=
  phase + ceilDiv (k * periodNum code * 1000000000) (periodDen code)

/-- The number of the latest tick whose exact instant lies at or before `t`. -/
def tickNumber (code phase t : Nat) : Nat :=
  (t - phase) * periodDen code / (periodNum code * 1000000000)

/-- The first tick whose exact instant lies at or after `t`. -/
def tickAtOrAfter (code phase t : Nat) : Nat :=
  ceilDiv ((t - phase) * periodDen code) (periodNum code * 1000000000)

/-- Rate code of wing `w` (0x2010+w:01). -/
def Dev.rate (d : Dev) (w : Nat) : Nat := d.rd (0x2010 + w) 1

/-- Phase offset of wing `w` (0x2010+w:02). -/
def Dev.phase (d : Dev) (w : Nat) : Nat := d.rd (0x2010 + w) 2

/-- The raised instant of tick `k` of wing `w`. -/
def Dev.tickTime (d : Dev) (w k : Nat) : Nat := tickInstant (d.rate w) (d.phase w) k

/-- The exact instant of tick `k` of wing `w` (R32). -/
def Dev.tickExact (d : Dev) (w k : Nat) : Q :=
  (Q.ofNat (d.phase w)).add ⟨k * periodNum (d.rate w) * 1000000000, periodDen (d.rate w)⟩

/-- The tick of wing `w` that an instant falls in. -/
def Dev.tickOf (d : Dev) (w t : Nat) : Nat := tickNumber (d.rate w) (d.phase w) t

/-- The first tick of wing `w` whose raised instant is at or after `t`. -/
def Dev.tickFrom (d : Dev) (w t : Nat) : Nat := tickAtOrAfter (d.rate w) (d.phase w) t

/-- The first tick of wing `w` whose exact instant lies at or after another exact instant. -/
def Dev.tickFromExact (d : Dev) (w : Nat) (a : Q) : Nat :=
  ceilDiv ((a.n - d.phase w * a.d) * periodDen (d.rate w)) (a.d * (periodNum (d.rate w) * 1000000000))

/-- A batch has come to tick `k` of wing `w`: that of its reference wing by its number, that of another wing
when it lies at or after the instant of the named tick (R65, R264). -/
def Dev.batchDue (d : Dev) (b : Batch) (w k : Nat) : Bool :=
  if b.wing = w then decide (b.tick ≤ k) else decide (d.tickTime b.wing b.tick ≤ d.tickTime w k)

/-- The curator cluster of wing `w` does not run: it has stopped by fault, or the wing rests below Run (R25,
Table 20.1). -/
def Dev.curDown (d : Dev) (w : Nat) : Bool := d.curStopped.contains w || byteAt (d.rdd 0x2300 8) w != 0

/-- A command to a service of W0.CUR (Table 1.4); without its cluster it has no effect. -/
def onCurator (t : Nat) (f : Dev → Dev) (s : State) : Host.Outcome State Fault Refusal :=
  onDev t (fun d => if d.curDown 0 then d else f d) s

/-- The tick state of wing `w`. -/
def Dev.wing (d : Dev) (w : Nat) : Wing := Tab.getD d.wings w {}

/-- Stores the tick state of wing `w`. -/
def Dev.setWing (d : Dev) (w : Nat) (x : Wing) : Dev := { d with wings := Tab.setD d.wings w x {} }

/-- Whether two wings are tick-coupled (R34). -/
def Dev.coupled (d : Dev) (a b : Nat) : Bool := d.rate a == d.rate b && d.phase a == d.phase b

/-- The coupled-wing mask of wing `w` (0x2010+w:06); its own bit is always set. -/
def Dev.coupledMask (d : Dev) (w : Nat) : Nat :=
  (List.range 4).foldl (fun m v => if d.coupled w v then m + 2 ^ v else m) 0

/-- The wing whose tick decides whether two reports fall in the same tick (R393): that of the unit,
and W0 for kinds 0 and 9 to 0xD. -/
def unitWing (u : Nat) : Nat := if 1 ≤ u / 4096 ∧ u / 4096 ≤ 8 then u / 256 % 16 else 0

end Sys2Proof.Machine
end

