-- ==== Sys2Proof/Machine/Journal.lean ====
section
/-! DEFINITION. The fault journal (R390 to R399) and the AON minimal record (R400). -/
namespace Sys2Proof.Machine

/-- Entry `e` of the journal, 32 bytes (Table 18.2). -/
def Dev.jEntry (d : Dev) (e : Nat) : List Byte := padTo 32 (d.rdc 0x2401 1 e)

/-- Number of recorded entries (0x2400:01). -/
def Dev.jCount (d : Dev) : Nat := d.rd 0x2400 1

def jUnit (b : List Byte) : Nat := fieldAt b 10 2
def jClass (b : List Byte) : Nat := byteAt b 12
def jCode (b : List Byte) : Nat := fieldAt b 13 2
def jFlags (b : List Byte) : Nat := byteAt b 15
def jSev (b : List Byte) : Nat := jFlags b % 4
def jP1 (b : List Byte) : Nat := fieldAt b 20 4
def jP2 (b : List Byte) : Nat := fieldAt b 24 4
def jTime (b : List Byte) : Nat := ofTime48 (fieldAt b 0 10)
def jRepeat (b : List Byte) : Nat := fieldAt b 18 2

/-- Whether an entry is uncleared: of severity Degraded or above with bit 3 of its flags clear. -/
def jUncleared (b : List Byte) : Bool := jSev b != 0 && !(jFlags b).testBit 3

/-- The recorded entries, oldest first. -/
def Dev.jEntries (d : Dev) : List (List Byte) := (List.range d.jCount).map d.jEntry

/-- The entries uncleared now. -/
def Dev.jOpen (d : Dev) : List (List Byte) := d.jEntries.filter jUncleared

/-- An entry as its 32 bytes (Table 18.2). -/
def jBytes (r : Report) (flags nest rep e : Nat) : List Byte :=
  time48Bytes r.time ++ leBytes 2 r.unit ++ leBytes 1 (r.code / 256) ++ leBytes 2 r.code ++
    leBytes 1 flags ++ leBytes 2 nest ++ leBytes 2 rep ++ leBytes 4 r.p1 ++ leBytes 4 r.p2 ++
    leBytes 2 e ++ leBytes 2 0

/-- Whether the highest lost severity is held and is at least `v`. -/
def Dev.lostAtLeast (d : Dev) (v : Nat) : Bool :=
  d.rd 0x2400 4 != 0xFF && decide (v ≤ d.rd 0x2400 4)

/-- FAULT_N is driven low (R398). -/
def Dev.faultNLow (d : Dev) : Bool :=
  d.jOpen.any (fun b => decide (d.rd 0x2400 8 ≤ jSev b)) || d.lostAtLeast (d.rd 0x2400 8) ||
    d.aonFault

/-- The error register's bits (Table 18.6). -/
def Dev.errorBits (d : Dev) : Nat :=
  let open_ := d.jOpen
  let b7 := open_.any fun b => jSev b == 3
  let b4 := open_.any fun b => jClass b == 0x03 || jClass b == 0x11 || jCode b == 0x0405 ||
    jCode b == 0x0805
  let b3 := open_.any fun b => jCode b == 0x1406
  let b2 := open_.any fun b => jCode b == 0x0106 || (jCode b == 0x0103 && jP1 b == 1) ||
    (jCode b == 0x1403 && jP2 b != 0xFF)
  let b0 := !open_.isEmpty || d.lostAtLeast 1
  b7.toNat * 128 + b4.toNat * 16 + b3.toNat * 8 + b2.toNat * 4 + b0.toNat

/-- Whether the CANopen interface may send: enabled at the last reset and not stopped (R87). -/
def Dev.canSends (d : Dev) : Bool := d.bootRd 0x2043 1 != 0 && d.nmt != .stopped && !d.pwr.socDown

/-- Sends an EMCY outside the inhibit time of 0x1015 (R86). One that falls within it, 0x0000 too, is dropped and not
sent later (DESIGN CHOICE, log entry 160). -/
def Dev.emcy (d : Dev) (code : Nat) (body : List Byte) : Dev :=
  let free := match d.emcyAt with
    | none => true
    | some t => decide (t + d.rd 0x1015 0 * 100000 ≤ d.now)
  if d.canSends && free then
    { d with emcyAt := some d.now }.send
      (.can (d.rd 0x1014 0) (leBytes 2 code ++ leBytes 1 (d.rd 0x1001 0) ++ body))
  else d

/-- Recomputes what hangs on the uncleared entries: their counts and the error register (R392,
R399); EMCY 0x0000 when its bit 0 returns to 0 (R86). -/
def Dev.jRefresh (d : Dev) : Dev :=
  let old := d.rd 0x1001 0
  let open_ := d.jOpen
  let cnt := fun v => (open_.filter fun b => jSev b == v).length
  let d := (((d.wr 0x2400 2 open_.length).wrf 0x2400 0x0B 1 (cnt 1)).wrf 0x2400 0x0B 2 (cnt 2)).wrf
    0x2400 0x0B 3 (cnt 3)
  let d := d.wr 0x1001 0 d.errorBits
  if old % 2 = 1 ∧ d.rd 0x1001 0 % 2 = 0 then d.emcy 0 (List.replicate 5 0) else d

/-- Writes an AON minimal record in slot `n mod 8` (R400). -/
def Dev.aonRecord (d : Dev) (unit code sev time : Nat) : Dev :=
  let n := d.rd 0x2402 2
  let rec_ := time48Bytes time ++ leBytes 2 unit ++ leBytes 2 code ++ leBytes 1 sev ++
    leBytes 1 (d.rd 0x2360 0x0A % 128)
  (d.wrc 0x2402 1 (n % 8) rec_).wr 0x2402 2 ((n + 1) % 2 ^ 32)

/-- Records a report as a new entry in slot `e`, and delivers it (R391, R392, R397, R400). -/
def Dev.jRecordAt (d : Dev) (e : Nat) (r : Report) : Dev :=
  let cls := r.code / 256
  let first := !(d.jEntries.any fun b => jClass b == cls)
  let flags := r.sev + (if first then 4 else 0) + (if r.sev = 0 then 8 else 0)
  let b := jBytes r flags d.jOpen.length 0 e
  let d := ((d.wrc 0x2401 1 e b).wr 0x2400 1 (e + 1)).jRefresh
  let d := d.notify 1 r.time b
  let d := if r.sev = 0 then d
    else d.emcy (0xFF00 + r.sev) (leBytes 2 e ++ leBytes 1 cls ++ leBytes 2 r.code)
  if r.sev = 3 ∧ r.code ≠ 0x1202 then d.aonRecord r.unit r.code r.sev r.time else d

/-- Whether an entry takes a report as its repeat: identical, in the same tick, and uncleared or of
severity Info (R393). -/
def Dev.jTakes (d : Dev) (r : Report) (b : List Byte) : Bool :=
  let w := unitWing r.unit
  jUnit b == r.unit && jCode b == r.code && jP1 b == r.p1 && jP2 b == r.p2 &&
    d.tickOf w (jTime b) == d.tickOf w r.time && (jSev b == 0 || jUncleared b)

/-- Counts a repeat in entry `e` (R393, R394). -/
def Dev.jRepeatAt (d : Dev) (e : Nat) : Dev :=
  let b := d.jEntry e
  let n := satInc 16 (jRepeat b)
  let fl := if n = 0xFFFF then setBit (jFlags b) 4 true else jFlags b
  let b' := slice b 0 15 ++ leBytes 1 fl ++ slice b 16 2 ++ leBytes 2 n ++ slice b 20 12
  (d.wrc 0x2401 1 e b').wr 0x2400 9 ((d.rd 0x2400 9 + 1) % 2 ^ 64)

/-- Counts a report as lost (R390, R395). -/
def Dev.jLost (d : Dev) (sev : Nat) : Dev :=
  let d := d.wr 0x2400 3 (satInc 32 (d.rd 0x2400 3))
  if d.rd 0x2400 4 = 0xFF ∨ d.rd 0x2400 4 < sev then d.wr 0x2400 4 sev else d

/-- Records one report: as a repeat, as a new entry, or, with slot 1,022 filled, as lost, the first
of them recording JOURNAL_FULL in slot 1,023 (R390 to R395). -/
def Dev.jRecord (d : Dev) (r : Report) : Dev :=
  match (List.range d.jCount).find? fun e => d.jTakes r (d.jEntry e) with
  | some e => d.jRepeatAt e
  | none =>
    if d.jCount < 1023 then d.jRecordAt d.jCount r
    else
      let d' := d.jLost r.sev
      if d.jCount = 1023 then
        d'.jRecordAt 1023
          { unit := uJournal, code := 0x1201, p1 := r.code, p2 := 0, sev := 2, time := d.now }
      else d'

/-- JOURNAL_RECORD: the guardian pair records the oldest queued report (R390), unless it is stopped
(R26). -/
def execJournalRecord (t : Nat) (s : State) : Host.Outcome State Fault Refusal :=
  onGuard t (fun d =>
    match d.guardianStopped, d.queue with
    | false, r :: rest => { d with queue := rest }.jRecord r
    | _, _ => d) s

/-- Sets the cleared bit of entry `e` (0x2400:05). -/
def Dev.jClear (d : Dev) (e : Nat) : Dev :=
  let b := d.jEntry e
  d.wrc 0x2401 1 e (slice b 0 15 ++ leBytes 1 (setBit (jFlags b) 3 true) ++ slice b 16 16)

/-- Clears one entry; an unrecorded entry is refused with RANGE (0x2400:05). -/
def Dev.jClearEntry (d : Dev) (e : Nat) : Res :=
  if e < d.jCount then (d.jClear e).jRefresh.res stOk else d.res stRange

/-- Clears every entry (0x2400:06). -/
def Dev.jClearAll (d : Dev) : Dev := (foldNat Dev.jClear d.jCount d).jRefresh

/-- Empties the journal (R396). -/
def Dev.jEmpty (d : Dev) : Dev :=
  let d := foldNat (fun d e => d.wrc 0x2401 1 e []) d.jCount d
  (((d.wr 0x2400 1 0).wr 0x2400 3 0).wr 0x2400 4 0xFF).jRefresh

/-- Erases the AON records (0x2402:03). -/
def Dev.aonClear (d : Dev) : Dev :=
  (foldNat (fun d e => d.wrc 0x2402 1 e []) 8 d).wr 0x2402 2 0

/-- Reports each AON record whose reported bit is clear, oldest first, and sets that bit (R400). -/
def Dev.aonReport (d : Dev) : Dev :=
  let n := d.rd 0x2402 2
  foldNat (fun d i =>
    let slot := (n - min n 8 + i) % 8
    let b := padTo 16 (d.rdc 0x2402 1 slot)
    if (byteAt b 15).testBit 7 then d
    else
      let sev := byteAt b 14
      let d := d.report { unit := fieldAt b 10 2, code := 0x1202, p1 := slot + sev * 256,
                          p2 := fieldAt b 12 2, sev := sev, time := d.now }
      d.wrc 0x2402 1 slot (slice b 0 15 ++ leBytes 1 (byteAt b 15 + 128))) (min n 8) d

end Sys2Proof.Machine
end

