-- ==== Sys2Proof/Machine/Dict.lean ====
section
/-! DEFINITION. What the dictionary engine checks of every write (R59 to R64), which objects are
local (R91), and the storing of a value's bytes. -/
namespace Sys2Proof.Machine

/-! ### Protection and role -/

/-- The device is in Duplex protection (0x2000:02). -/
def Dev.duplex (d : Dev) : Bool := d.rd 0x2000 2 != 0

/-- The device's role is active (0x2100:01); in Single protection it acts as active (R343). -/
def Dev.active (d : Dev) : Bool := !d.duplex || d.rd 0x2100 1 == 1

/-- The device is the standby of a pair. -/
def Dev.standby (d : Dev) : Bool := d.duplex && d.rd 0x2100 1 == 0

/-- The objects of Table 3.12, which are never mirrored; the rule sets and the active-set objects of
the access catalogue are mirrored (the note below that table). -/
def isLocal (i : Nat) : Bool :=
  (0x1000 ≤ i && i ≤ 0x1FFF) || (0x2040 ≤ i && i ≤ 0x20BF) || (0x2100 ≤ i && i ≤ 0x21FF) ||
    (0x2202 ≤ i && i ≤ 0x220B) ||
    (0x2300 ≤ i && i ≤ 0x26FF && !(0x2500 ≤ i && i ≤ 0x2502))

/-! ### Values and ranges -/

/-- Whether a value's length fits its object's type and stated lengths (R60). -/
def Row.lenOk (r : Row) (n : Nat) : Bool :=
  if r.ty.varLen then
    match r.rng with
    | .len lo hi => decide (lo ≤ n) && decide (n ≤ hi)
    | .lenMul lo hi k => decide (lo ≤ n) && decide (n ≤ hi) && n % k == 0
    | _ => true
  else n == r.ty.size

/-- Whether a DOMAIN or string may grow to length `n` (R60): at most the stated maximum. -/
def Row.maxOk (r : Row) (n : Nat) : Bool :=
  match r.rng with
  | .len _ hi => decide (n ≤ hi)
  | .lenMul _ hi _ => decide (n ≤ hi)
  | _ => true

/-- Whether a value of the right length lies in the range its row states (R60, R12). -/
def Row.rangeOk (r : Row) (data : List Byte) : Bool :=
  let v := leNat data
  let inTy := match r.ty with
    | .bool => decide (v ≤ 1)
    | .real32 => v / 2 ^ 23 % 256 != 255
    | .vstr => data.all fun b => decide (0x20 ≤ b.toNat) && decide (b.toNat ≤ 0x7E)
    | .time48 => decide (v / 2 ^ 48 < 1000000000)
    | _ => true
  inTy && match r.rng with
    | .any => true
    | .btw lo hi => decide (lo ≤ v) && decide (v ≤ hi)
    | .btwOr lo hi a => (decide (lo ≤ v) && decide (v ≤ hi)) || v == a
    | .oneOf vs => vs.contains v
    | .sbtw lo hi =>
      decide (lo ≤ toSigned (8 * r.ty.size) v) && decide (toSigned (8 * r.ty.size) v ≤ hi)
    | .len _ _ => true
    | .lenMul _ _ _ => true
    | .clear m => v &&& m == 0

/-- Stores a value's bytes in an object: a number, or a byte string or DOMAIN. -/
def Dev.setObj (d : Dev) (i s : Nat) (data : List Byte) : Dev :=
  match objRow i s with
  | some r => if r.ty.varLen then d.wrd i s data else d.wr i s (leNat data)
  | none => d

/-- The configuration with the values of some records, none of their effects. -/
def Dev.setRecs (d : Dev) (rs : List Rec) : Dev :=
  rs.foldl (fun d r => d.setObj r.idx r.sub r.data) d

/-- An object with its value as it stands, as a record that `setObj` puts back. -/
def Dev.standing (d : Dev) (i s : Nat) : Rec :=
  { idx := i, sub := s
    data := match objRow i s with
      | some r => if r.ty.varLen then d.rdd i s else leBytes r.ty.size (d.rd i s)
      | none => [] }

/-- The configuration that the work of wing `w` goes by: a device-wide change counts from the wing's own first
T+0 at or after the W0 tick of the change (R65). -/
def Dev.seenBy (d : Dev) (w : Nat) : Dev := d.setRecs (d.wing w).late

/-- An index lies in a range of `n` equal objects. -/
def inRange (i base n : Nat) : Bool := decide (base ≤ i) && decide (i < base + n)

/-- Objects that the per-wing curator services work from (Table 1.4): sources, layers, outputs, canvases, the policy
map, encoder channels and audio send streams. -/
def isCurated (i : Nat) : Bool :=
  inRange i 0x3000 256 || inRange i 0x3200 512 || inRange i 0x3400 128 || inRange i 0x3480 64 || inRange i 0x34F0 2 ||
    inRange i 0x3500 16 || inRange i 0x3630 16

/-- The configuration that the curator services of wing `w` go by: layout and job-list generation, packetisation
control and its senders' SDP. A change made while the cluster does not run waits for it (R23, R24). -/
def Dev.ledBy (d : Dev) (w : Nat) : Dev := (d.seenBy w).setRecs (d.wing w).frozen

/-- Outputs 64 to 127 are IP outputs, which have other subs than heads (R9, R214). -/
def outputSubExists (o s : Nat) : Bool :=
  if o < 64 then
    !(0x20 ≤ s && s ≤ 0x2D) && (s ≤ 0x17 || s == 0x30 || s == 0x31 || s == 0x32 ||
      (0x33 ≤ s && s ≤ 0x37) || o % 4 == 0)
  else s ≤ 0x17 || (0x20 ≤ s && s ≤ 0x2D)

/-- What the boot ROM implements in recovery (R453). -/
def inRecovery (i : Nat) : Bool :=
  (0x1000 ≤ i && i ≤ 0x1018) || (0x2080 ≤ i && i ≤ 0x20BF) || i == 0x2360

/-- The descriptor of an object that this device implements now (R59, R453). -/
def Dev.objAt (d : Dev) (i s : Nat) : Option Row :=
  match objRow i s with
  | some r =>
    if d.recovery && !inRecovery i then none
    else if 0x3400 ≤ i ∧ i < 0x3480 ∧ !outputSubExists (i - 0x3400) s then none else some r
  | none => none

/-- The refusal of a write for existence, access code and level (R59, R61). -/
def Dev.accessStatus (d : Dev) (level i s : Nat) : Nat :=
  match d.objAt i s with
  | none => stNoObject
  | some r =>
    match r.acc with
    | .ro => stNotWritable
    | .konst => stNotWritable
    | .rw l => if l.code ≤ level then stOk else stAccess
    | .wo l => if l.code ≤ level then stOk else stAccess

/-- The status of a whole value written to an object by a session at `level`: existence, access,
length, range (R59 to R61, R64). The commit class is checked by the caller. -/
def Dev.valueStatus (d : Dev) (level i s : Nat) (data : List Byte) : Nat :=
  let a := d.accessStatus level i s
  if a ≠ stOk then a
  else match d.objAt i s with
    | none => stNoObject
    | some r =>
      if !r.lenOk data.length then stType
      else if !r.rangeOk data then stRange
      else stOk

/-- The status that stands before a command object's own effect: existence, access, length and
range, and STANDBY for a mirrored object on a standby (R91). -/
def Dev.commandStatus (d : Dev) (by_ : Requester) (i s : Nat) (data : List Byte) : Nat :=
  let a := d.valueStatus by_.level i s data
  if a ≠ stOk then a
  else if d.standby && !isLocal i then stStandby
  else stOk

/-- The wing whose tick a mirrored I-class or P-class write waits for: the owner's, and W0 for
device-wide objects (R65, R90). -/
def Dev.objWing (d : Dev) (i : Nat) : Option Nat :=
  if 0x3000 ≤ i ∧ i < 0x3100 then some (d.rd i 2)
  else if 0x3100 ≤ i ∧ i < 0x3180 then some ((i - 0x3100) / 32)
  else if 0x3200 ≤ i ∧ i < 0x3400 then some (d.rd i 3)
  else if 0x3400 ≤ i ∧ i < 0x3480 then
    let o := i - 0x3400
    some (if o < 64 then o / 16 else (o - 64) / 16)
  else if 0x3500 ≤ i ∧ i < 0x3510 then some ((i - 0x3500) / 4)
  else if 0x3510 ≤ i ∧ i < 0x3520 then some ((i - 0x3510) / 4)
  else if 0x3520 ≤ i ∧ i < 0x3530 then some ((i - 0x3520) / 4)
  else if 0x2010 ≤ i ∧ i < 0x2014 then some (i - 0x2010)
  else none

/-- Sends a mirrored write to the standby: wing, tick, object and value (R90). -/
def Dev.sendMirror (d : Dev) (m : MirWrite) : Dev :=
  if d.duplex && d.dup.linkUp then
    d.send (.partner "write" (leBytes 1 m.wing ++ leBytes 8 m.tick ++ leBytes 2 m.rec_.idx ++
      leBytes 1 m.rec_.sub ++ leBytes 4 m.rec_.data.length ++ m.rec_.data))
  else d

/-- Runs a command object's effect at once, or, for a mirrored object in Duplex protection, at T+0
of the first tick of its wing at least 2 ms ahead (R62, R90). -/
def Dev.command (d : Dev) (by_ : Requester) (i s : Nat) (data : List Byte) (eff : Dev → Res) : Res :=
  let a := d.commandStatus by_ i s data
  if a ≠ stOk then d.res a
  else if d.duplex && !isLocal i then
    let w := (d.objWing i).getD 0
    let m : MirWrite :=
      { wing := w, tick := d.tickFrom w (d.now + 2000000)
        rec_ := { idx := i, sub := s, data := data }, by_ := by_ }
    let d : Dev := { d with mirror := d.mirror ++ [m] }
    (d.sendMirror m).res stOk
  else eff d

/-- A command object with a check of its own at arrival, `pre`, after those of every write. -/
def Dev.commandPre (d : Dev) (by_ : Requester) (i s : Nat) (data : List Byte) (pre : Nat)
    (eff : Dev → Res) : Res :=
  let a := d.commandStatus by_ i s data
  if a ≠ stOk then d.res a
  else if pre ≠ stOk then d.res pre
  else d.command by_ i s data eff

end Sys2Proof.Machine
end

