-- ==== Sys2Proof/Machine/LongOp.lean ====
section
/-! DEFINITION. Long operations (R53 to R58): allocation of a slot, position and percent, phases, the
end, and PROGRESS. -/
namespace Sys2Proof.Machine

/-- What a long-operation slot holds beside its objects. -/
def Dev.longOp (d : Dev) (k : Nat) : LongOp := Tab.getD d.longOps k {}

def Dev.setLongOp (d : Dev) (k : Nat) (x : LongOp) : Dev :=
  { d with longOps := Tab.setD d.longOps k x {} }

/-- State of slot `k` (0x2080+k:02, Table 2.10). -/
def Dev.slotState (d : Dev) (k : Nat) : Nat := d.rd (0x2080 + k) 2

/-- The kind a running slot holds; 0 when it is not running. -/
def Dev.runningKind (d : Dev) (k : Nat) : Nat :=
  if d.slotState k = 1 then d.rd (0x2080 + k) 1 else 0

/-- The lowest-numbered idle slot (R54). -/
def Dev.idleSlot (d : Dev) : Option Nat := (List.range 64).find? fun k => d.slotState k == 0

/-- The running slot of a kind, if any. -/
def Dev.slotOfKind (d : Dev) (kind : Nat) : Option Nat :=
  (List.range 64).find? fun k => d.runningKind k == kind

/-- The PROGRESS payload of slot `k` (R82). -/
def Dev.progressPayload (d : Dev) (k : Nat) : List Byte :=
  let i := 0x2080 + k
  leBytes 1 k ++ leBytes 1 (d.rd i 2) ++ leBytes 1 (d.rd i 7) ++ leBytes 1 (d.rd i 8) ++
    leBytes 2 (d.rd i 3) ++ leBytes 1 (d.rd i 6) ++ leBytes 1 0 ++ leBytes 8 (d.rd i 4) ++
    leBytes 8 (d.rd i 5) ++ leBytes 4 (d.rd i 0x0B)

/-- Whether a session subscribes to the progress of slot `k` (R80 kind 1). -/
def Session.wantsProgress (x : Session) (k : Nat) : Bool :=
  x.subs.any fun b => b.kind == 1 && (b.param == k || b.param == 0xFF)

/-- Sends PROGRESS of slot `k` to every session that subscribes to it (R57). -/
def Dev.progress (d : Dev) (k : Nat) : Dev :=
  let d := d.setLongOp k { d.longOp k with lastPct := d.rd (0x2080 + k) 3, lastProgress := d.now }
  sessionNumbers.foldl (fun d n =>
    match d.session n with
    | some x => if x.wantsProgress k then d.sendDev n 0x21 0 (d.progressPayload k) else d
    | none => d) d

/-- Starts a long operation in the lowest idle slot (R54); NO_SLOT where none is idle. -/
def Dev.startLong (d : Dev) (by_ : Requester) (kind unit phases total : Nat) (target : String)
    (arg arg2 : Nat) : Res :=
  match d.idleSlot with
  | none => d.res stNoSlot
  | some k =>
    let i := 0x2080 + k
    let d := (((((d.wr i 1 kind).wr i 2 1).wr i 3 0).wr i 4 0).wr i 5 total).wr i 6 unit
    let d := ((((d.wr i 7 1).wr i 8 phases).wr i 9 (time48 d.now)).wr i 0x0A 0).wr i 0x0B 0
    let d := (d.wr i 0x0C by_.sess).wrd i 0x0D (strBytes target)
    let d := d.setLongOp k { ownerLevel := by_.level, arg := arg, arg2 := arg2 }
    ⟨stOk, some k, d.progress k⟩

/-- Percent of a position (R56), in hundredths; `down` for a unit that counts down. -/
def percentOf (down : Bool) (pos total : Nat) : Nat :=
  if total = 0 then 0
  else (if down then total - pos else pos) * 10000 / total

/-- Moves slot `k` to a position of its phase, with PROGRESS for each whole percent, at most every
250 ms (R56, R57). -/
def Dev.setPosition (d : Dev) (k pos : Nat) : Dev :=
  let i := 0x2080 + k
  let pct := percentOf (d.rd i 6 == 4) pos (d.rd i 5)
  let d := (d.wr i 4 pos).wr i 3 pct
  if (d.longOp k).lastPct + 100 ≤ pct ∧ (d.longOp k).lastProgress + 250000000 ≤ d.now then
    d.progress k
  else d

/-- Moves slot `k` to its next phase: percent restarts at 0 (R56). -/
def Dev.nextPhase (d : Dev) (k unit total : Nat) : Dev :=
  let i := 0x2080 + k
  let d := ((d.wr i 7 (d.rd i 7 + 1)).wr i 6 unit).wr i 5 total
  let d := (d.wr i 4 (if unit = 4 then total else 0)).wr i 3 0
  d.progress k

/-- Ends slot `k`: done with percent 10,000 where the result is 0, and failed otherwise
(Table 2.10, R56). -/
def Dev.finishLong (d : Dev) (k result : Nat) : Dev :=
  let i := 0x2080 + k
  let d := ((d.wr i 2 (if result = 0 then 2 else 3)).wr i 0x0B result).wr i 0x0A (time48 d.now)
  let d := if result = 0 then
      (d.wr i 3 10000).wr i 4 (if d.rd i 6 = 4 then 0 else d.rd i 5)
    else d
  d.progress k

/-- Slot `k` enters aborted (Table 2.10). -/
def Dev.abortLong (d : Dev) (k : Nat) : Dev :=
  let i := 0x2080 + k
  ((d.wr i 2 4).wr i 0x0A (time48 d.now)).progress k

/-- Abort of slot `k` (R58): in state running, from the owner or from a higher level. -/
def Dev.askAbort (d : Dev) (by_ : Requester) (k : Nat) : Res :=
  if d.slotState k ≠ 1 then d.res stWrongState
  else if by_.sess = d.rd (0x2080 + k) 0x0C ∨ (d.longOp k).ownerLevel < by_.level then
    (d.setLongOp k { d.longOp k with abortAsked := true }).res stOk
  else d.res stAccess

/-- Clear of slot `k` (R55, R58): in done, failed or aborted; the slot returns to idle. -/
def Dev.clearLong (d : Dev) (k : Nat) : Res :=
  let i := 0x2080 + k
  if d.slotState k < 2 then d.res stWrongState
  else
    let d := (List.range 0x0C).foldl (fun d s => d.wr i (s + 1) 0) d
    let d := (d.wrd i 0x0D []).setLongOp k {}
    (d.progress k).res stOk

/-- LONG_OP_ABORT: 1 written to 0x2080+slot:0E (R58). -/
def execLongOpAbort (t : Nat) (by_ : Requester) (slot : Nat) (s : State) :
    Host.Outcome State Fault Refusal :=
  onCommand t by_ (fun d => d.command by_ (0x2080 + slot) 0x0E [1] (·.askAbort by_ slot)) s

/-- LONG_OP_CLEAR: 2 written to 0x2080+slot:0E (R58). -/
def execLongOpClear (t : Nat) (by_ : Requester) (slot : Nat) (s : State) :
    Host.Outcome State Fault Refusal :=
  onCommand t by_ (fun d => d.command by_ (0x2080 + slot) 0x0E [2] (·.clearLong slot)) s

end Sys2Proof.Machine
end

