-- ==== Sys2Proof/Machine/Pair.lean ====
section
/-! DEFINITION. What every unit needs of the duplex pair: the ring to the partner, messages to it, and the
compare records that wait (R359, R360). -/
namespace Sys2Proof.Machine

/-- Object of a ring side: 0 East, 1 West. -/
def sideIdx (s : Nat) : Nat := 0x2111 + s

/-- State of a ring side (Table 17.4). -/
def Dev.sideState (d : Dev) (s : Nat) : Nat := d.rd (sideIdx s) 1

/-- The function of retention bank `b` is held in reset (R435). -/
def Dev.bankHeld (d : Dev) (b : Nat) : Bool := (d.rd 0x2300 0x0A).testBit b

/-- The units of a wing do nothing: it is stopped by a fault (R22), or held (R435). -/
def Dev.wingDown (d : Dev) (w : Nat) : Bool := (d.wing w).stopped || d.bankHeld w

/-- A device whose wings and functions all run, with the same configuration: what admission judges. -/
def Dev.allRunning (d : Dev) : Dev :=
  { d with wings := d.wings.map fun (e : Nat × Wing) => (e.1, { e.2 with stopped := false }) }.wr 0x2300 0x0A 0

/-- A ring side is RUNNING. -/
def Dev.sideRuns (d : Dev) (s : Nat) : Bool := decide (2 ≤ d.sideState s)

/-- The ring is enabled, from the last reset on (0x2110:02). -/
def Dev.ringOn (d : Dev) : Bool := d.bootRd 0x2110 2 != 0

/-- This node's number, from the last reset on (0x2110:01). -/
def Dev.node' (d : Dev) : Nat := d.bootRd 0x2110 1

/-- Nodes in clockwise order from this one (0x2110:05). -/
def Dev.ringOrder (d : Dev) : List Nat :=
  ((padTo 16 (d.rdd 0x2110 5)).map (·.toNat)).take (d.rd 0x2110 4)

/-- The ring to the partner is up: a side runs, and the partner stands in the order. -/
def Dev.pairLink (d : Dev) : Bool :=
  let p := d.rd 0x2110 3
  d.ringOn && (d.sideRuns 0 || d.sideRuns 1) && p != 0xFF && d.ringOrder.contains p

/-- Gives a message to the ring for the partner, in Duplex protection with the ring up. -/
def Dev.toPartner (d : Dev) (what : String) (b : List Byte) : Dev :=
  if d.duplex && d.dup.linkUp then d.send (.partner what b) else d

/-- Sends that a unit of an active device makes are gated: on a standby, and from T+0 of a committed swap
(R349, R355). -/
def Dev.gatedSends (d : Dev) : Bool := d.standby || d.dup.gated

/-- Kind, number and count that a compare record belongs to. -/
def recKey : CompareRec → Nat × Nat × Nat
  | .output o k _ _ _ _ _ _ _ => (0, o, k)
  | .picture c n _ _ _ _ => (1, c, n)
  | .source n q _ _ => (2, n, q)

/-- The wing whose ticks bound the wait for the partner's record (R360). -/
def Dev.recWing (d : Dev) (r : CompareRec) : Nat :=
  match recKey r with
  | (0, o, _) => if o < 64 then o / 16 else (o - 64) / 16
  | (1, c, _) => c / 4
  | (_, n, _) => d.rd (0x3000 + n) 2

/-- Two ticks of a record's wing have passed since an instant (R360). -/
def Dev.twoTicksAgo (d : Dev) (r : CompareRec) (at_ : Nat) : Bool :=
  decide (at_ + 2 * periodNs (d.rate (d.recWing r)) < d.now)

/-- The region of a compare record, as bytes for the ring. -/
def cmpRegionBytes (r : CmpRegion) : List Byte :=
  leBytes 2 r.layer ++ leBytes 2 r.source ++ leBytes 8 r.seq ++ leBytes 4 r.crc ++ leBytes 1 r.state ++
    leBytes 1 r.conds ++ leBytes 2 r.incomplete.toNat ++ time48Bytes r.capture

/-- A compare record as bytes for the ring; the spec gives its content and not its layout. -/
def recBytes : CompareRec → List Byte
  | .output o k tick batch u rs crc m rd =>
    leBytes 2 o ++ leBytes 4 k ++ leBytes 8 tick ++ leBytes 4 batch ++ leBytes 1 u.toNat ++
      rs.flatMap cmpRegionBytes ++ leBytes 4 crc ++ leBytes 4 m ++ leBytes 4 rd
  | .picture c n i e l f =>
    leBytes 1 c ++ leBytes 8 n ++ leBytes 4 i ++ leBytes 4 e ++ leBytes 1 (l.toNat + 2 * f.toNat)
  | .source n q ok crc => leBytes 2 n ++ leBytes 8 q ++ leBytes 1 ok.toNat ++ leBytes 4 crc

/-- Sends an own compare record to the partner (R359). -/
def Dev.sendRec (d : Dev) (r : CompareRec) : Dev :=
  d.toPartner (["compare-output", "compare-picture", "compare-source"].getD (recKey r).1 "") (recBytes r)

/-- Takes the partner's waiting record of the same kind, number and count. -/
def Dev.takeTheirs (d : Dev) (r : CompareRec) : Option CompareRec × Dev :=
  match d.dup.theirs.find? fun e => recKey e.1 == recKey r with
  | some e => (some e.1, { d with dup := { d.dup with theirs := d.dup.theirs.erase e } })
  | none => (none, d)

/-- Takes the own waiting record of the same kind, number and count. -/
def Dev.takeOwn (d : Dev) (r : CompareRec) : Option CompareRec × Dev :=
  match d.dup.own.find? fun e => recKey e.1 == recKey r with
  | some e => (some e.1, { d with dup := { d.dup with own := d.dup.own.erase e } })
  | none => (none, d)

/-- Keeps an own record until the partner's arrives; records of source frames are dropped after two ticks,
those of outputs and channels by COMPARE_TIMEOUT. -/
def Dev.keepOwn (d : Dev) (r : CompareRec) : Dev :=
  let old := d.dup.own.filter fun e => (recKey e.1).1 != 2 || !d.twoTicksAgo e.1 e.2
  { d with dup := { d.dup with own := old ++ [(r, d.now)] } }

/-- Keeps the partner's record until the own one is made; two ticks later it is dropped. -/
def Dev.keepTheirs (d : Dev) (r : CompareRec) : Dev :=
  let old := d.dup.theirs.filter fun e => !d.twoTicksAgo e.1 e.2
  { d with dup := { d.dup with theirs := old ++ [(r, d.now)] } }

/-- Compares two source-frame records (R360): a difference is counted; equal ones fill the source in a
resynchronisation (R366). -/
def Dev.compareSource (d : Dev) (n : Nat) (same : Bool) (crcSame : Bool) : Dev :=
  let d := if same then d else d.addf 0x2100 0x0E 6 1 8
  if crcSame && !d.dup.filled.contains n then
    { d with dup := { d.dup with filled := d.dup.filled ++ [n] } }
  else d

/-- A source frame is published: its compare record is made, sent and compared (R359, R360). -/
def Dev.sourceRecord (d : Dev) (n seq : Nat) (complete : Bool) (crc : Nat) : Dev :=
  if !d.duplex then d
  else
    let r := CompareRec.source n seq complete crc
    let d := d.sendRec r
    match d.takeTheirs r with
    | (some (.source _ _ ok c), d) => d.compareSource n (ok == complete && c == crc) (c == crc)
    | (_, d) => d.keepOwn r

end Sys2Proof.Machine
end

