-- ==== Sys2Proof/Machine/Intake.lean ====
section
/-! DEFINITION. Network ports and sources: answering on the ports (R96 to R98), joins (R103), frames,
their end, stamp and publication (R107 to R115), and source and leg states (R478). -/
namespace Sys2Proof.Machine

/-! ### Ports -/

/-- Index of the object of network port `k`. -/
def netIdx (k : Nat) : Nat := 0x2038 + k

/-- Lane-plan mode of wing `w` (0x2037:01 to 04). -/
def Dev.laneMode (d : Dev) (w : Nat) : Nat := d.rd 0x2037 (w + 1)

/-- Whether the lane plan provides port NET`k` (Table 4.1, R8). -/
def Dev.portExists (d : Dev) (k : Nat) : Bool :=
  if 8 ≤ k then false
  else match d.laneMode (k / 2) with
    | 0 => true
    | 1 => k % 2 == 0
    | _ => k % 4 == 0

/-- Line rate of a port in Gb/s (Table 2.2). -/
def Dev.portGbps (d : Dev) (k : Nat) : Nat :=
  match d.laneMode (k / 2) with
  | 0 => 100
  | 1 => 200
  | _ => 400

/-- The device sits at position S (0x2100:02). -/
def Dev.posS (d : Dev) : Bool := d.rd 0x2100 2 == 1

/-- IPv4 position address of a port (R96); 0 none. -/
def Dev.portV4 (d : Dev) (k : Nat) : Nat := d.rd (netIdx k) (if d.posS then 3 else 2)

/-- IPv6 position address of a port (R96). -/
def Dev.portV6 (d : Dev) (k : Nat) : List Byte := d.rdd (netIdx k) (if d.posS then 8 else 7)

/-- A byte string of zeros. -/
def allZero (b : List Byte) : Bool := b.all (· == 0)

/-- Link-local IPv6 address of a port, from its MAC address (PRESUMED, RFC 4291; log entry 15). -/
def Dev.portLinkLocal (d : Dev) (k : Nat) : List Byte :=
  let m := d.rdd (netIdx k) 1
  [0xFE, 0x80, 0, 0, 0, 0, 0, 0] ++ [BitVec.ofNat 8 (byteAt m 0 ^^^ 2)] ++ slice m 1 2 ++
    [0xFF, 0xFE] ++ slice m 3 3

/-- Service MAC address of a port; its own where the service field is zero (R97). -/
def Dev.serviceMac (d : Dev) (k : Nat) : List Byte :=
  if allZero (d.rdd (netIdx k) 0x0F) then d.rdd (netIdx k) 1 else d.rdd (netIdx k) 0x0F

/-- Service IPv4 address of a port; its position address where the service field is zero (R97). -/
def Dev.serviceV4 (d : Dev) (k : Nat) : Nat :=
  if d.rd (netIdx k) 0x0D = 0 then d.portV4 k else d.rd (netIdx k) 0x0D

/-- Service IPv6 address of a port; its position address where the service field is zero (R97). -/
def Dev.serviceV6 (d : Dev) (k : Nat) : List Byte :=
  if allZero (d.rdd (netIdx k) 0x0E) then d.portV6 k else d.rdd (netIdx k) 0x0E

/-- A port carries traffic: its link is up (0x2038+k:0A). -/
def Dev.linkUp (d : Dev) (k : Nat) : Bool := d.rd (netIdx k) 0x0A == 2

/-- Sends a packet on a port whose link is up, and counts it (R95, Table 4.9). -/
def Dev.sendNet (d : Dev) (k : Nat) (what : String) (bytes : List Byte) : Dev :=
  if d.linkUp k then
    ((d.incf (netIdx k) 0x0B 2).addf (netIdx k) 0x0B 3 bytes.length 8).send (.net k what bytes)
  else d

/-- An IPv4 address written as ::ffff:a.b.c.d (Table 4.6). -/
def mappedV4 (a : List Byte) : Option Nat :=
  if a.take 12 = List.replicate 10 0 ++ [0xFF, 0xFF] then some (leNat (slice a 12 4).reverse)
  else none

/-- An IPv4 address in that form. -/
def mapV4 (v : Nat) : List Byte := List.replicate 10 0 ++ [0xFF, 0xFF] ++ beBytes 4 v

/-- The addresses of a packet that the block sends as a media sender: its port's service MAC address, and the service
address of the destination's family (R97). -/
def Dev.mediaHead (d : Dev) (k : Nat) (dst : List Byte) (dstPort srcPort marking : Nat) : NetHead :=
  { srcMac := d.serviceMac k, src := if (mappedV4 dst).isSome then mapV4 (d.serviceV4 k) else d.serviceV6 k
    dst := dst, srcPort := srcPort, dstPort := dstPort, marking := marking, vlan := d.rd (netIdx k) 6 }

/-- Sends a media packet on a port whose link is up, and counts it (R95, R97, Table 4.9). -/
def Dev.sendMedia (d : Dev) (k : Nat) (dst : List Byte) (dstPort srcPort marking : Nat) (what : String) (bytes : List Byte) :
    Dev :=
  if d.linkUp k then
    ((d.incf (netIdx k) 0x0B 2).addf (netIdx k) 0x0B 3 bytes.length 8).send
      (.media k ((d.seenBy (k / 2)).mediaHead k dst dstPort srcPort marking) what bytes)
  else d

/-- NET_LINK_DOWN (R98). -/
def Dev.netDown (d : Dev) (k : Nat) : Dev :=
  if d.rd (netIdx k) 0x0A = 0 ∨ 8 ≤ k then d
  else (((d.wr (netIdx k) 0x0A 0).incf (netIdx k) 0x0B 7)).raise (uNet k) 0x0405 k 0 sevDegraded

/-- NET_LINK_DOWN: the port loses its link; journaled against it with severity Degraded (R98). -/
def execNetLinkDown (t port : Nat) (s : State) : Host.Outcome State Fault Refusal :=
  onDev t (·.netDown port) s

/-- NET_LINK_UP: a port that the lane plan provides completes link bring-up (R95). -/
def execNetLinkUp (t port : Nat) (s : State) : Host.Outcome State Fault Refusal :=
  onDev t (fun d =>
    if d.portExists port && !d.linkUp port then
      (d.wr (netIdx port) 0x0A 2).event (uNet port) 0x0405 port 2
    else d) s

/-- ARP_REQUEST: answered for the port's own position address, and for its service address by an
active device (R96, R97). -/
def execArpRequest (t port addr : Nat) (s : State) : Host.Outcome State Fault Refusal :=
  onDev t (fun d =>
    if addr ≠ 0 ∧ addr = d.portV4 port then
      d.sendNet port "arp-reply" (d.rdd (netIdx port) 1 ++ beBytes 4 addr)
    else if addr ≠ 0 ∧ addr = d.rd (netIdx port) 0x0D ∧ d.active then
      d.sendNet port "arp-reply" (d.serviceMac port ++ beBytes 4 addr)
    else d) s

/-- Whether a port answers for an IPv6 address, and with which MAC address (R96, R97). -/
def Dev.v6Answer (d : Dev) (port : Nat) (addr : List Byte) : Option (List Byte) :=
  if allZero addr then none
  else if addr = d.portV6 port ∨ addr = d.portLinkLocal port then some (d.rdd (netIdx port) 1)
  else if addr = d.rdd (netIdx port) 0x0E ∧ d.active then some (d.serviceMac port)
  else none

/-- NEIGHBOUR_SOLICITATION: answered for the port's IPv6 addresses (R96, R97). -/
def execNeighbourSolicitation (t port : Nat) (addr : List Byte) (s : State) :
    Host.Outcome State Fault Refusal :=
  onDev t (fun d =>
    match d.v6Answer port addr with
    | some mac => d.sendNet port "neighbour-advertisement" (mac ++ addr)
    | none => d) s

/-- A unicast packet that nothing takes is discarded and counted (R96). -/
def Dev.netDiscard (d : Dev) (k : Nat) : Dev := d.wr (netIdx k) 0x0C ((d.rd (netIdx k) 0x0C + 1) % 2 ^ 64)

/-- A device that becomes active announces the service addresses of every port: one gratuitous ARP and one unsolicited
neighbour advertisement (R97). -/
def Dev.announce (d : Dev) : Dev :=
  foldNat (fun d k =>
    let v4 := d.rd (netIdx k) 0x0D
    let v6 := d.rdd (netIdx k) 0x0E
    let d := if v4 = 0 then d else d.sendNet k "gratuitous-arp" (d.serviceMac k ++ beBytes 4 v4)
    if allZero v6 then d else d.sendNet k "unsolicited-neighbour-advertisement" (d.serviceMac k ++ v6)) 8 d

/-- ICMP_ECHO_REQUEST: answered for position addresses, and for service addresses by an active device; for another
address it is one more discarded unicast packet (R96, R97). -/
def execIcmpEchoRequest (t port : Nat) (addr payload : List Byte) (s : State) :
    Host.Outcome State Fault Refusal :=
  onDev t (fun d =>
    let ours := match mappedV4 addr with
      | some v => v != 0 && (v == d.portV4 port || (v == d.rd (netIdx port) 0x0D && d.active))
      | none => (d.v6Answer port addr).isSome
    if ours then d.sendNet port "icmp-echo-reply" (addr ++ payload)
    else if d.linkUp port then d.netDiscard port else d) s

/-! ### Legs and joins -/

/-- Index of the object of source `n`. -/
def srcIdx (n : Nat) : Nat := 0x3000 + n

/-- The runtime record of source `n`. -/
def Dev.src (d : Dev) (n : Nat) : SourceRt := Tab.getD d.sources n {}

def Dev.setSrc (d : Dev) (n : Nat) (x : SourceRt) : Dev :=
  { d with sources := Tab.setD d.sources n x {} }

/-- Owning wing of a source. -/
def Dev.srcWing (d : Dev) (n : Nat) : Nat := d.rd (srcIdx n) 2

/-- A source is enabled. -/
def Dev.srcOn (d : Dev) (n : Nat) : Bool := d.rdb (srcIdx n) 1 && !d.wingDown (d.srcWing n)

/-- A leg of a stream: its network port, group, source address and UDP port (R103). -/
structure Leg where
  port : Nat
  group : List Byte
  addr : List Byte
  udp : Nat
  deriving DecidableEq, Repr

/-- Leg A (0) or leg B (1) of a source. -/
def Dev.leg (d : Dev) (n b : Nat) : Leg :=
  let o := if b = 0 then 0x0E else 0x13
  { port := d.rd (srcIdx n) o, group := d.rdd (srcIdx n) (o + 1), addr := d.rdd (srcIdx n) (o + 2)
    udp := d.rd (srcIdx n) (o + 3) }

/-- A source takes its frames from the ring (R384). -/
def Dev.takesRing (d : Dev) (n : Nat) : Bool := Tab.getD d.ring.taking n 0 != 0

/-- The legs a source has when enabled: A, and B where it is enabled; none where the ring feeds it
(R384). -/
def Dev.srcLegs (d : Dev) (n : Nat) : List Nat :=
  if d.takesRing n then []
  else if d.rdb (srcIdx n) 0x12 then [0, 1] else [0]

/-- The legs of audio receive stream `st` of kind 0 (R285); leg B has leg A's source address. -/
def Dev.audLegs (d : Dev) (st : Nat) : List Leg :=
  let i := 0x3620 + st
  let a : Leg := { port := d.rd i 3, group := d.rdd i 4, addr := d.rdd i 5, udp := d.rd i 6 }
  if d.rd i 2 ≠ 0 then []
  else if d.rd i 0x0E = 0xFF then [a]
  else [a, { a with port := d.rd i 0x0E, group := d.rdd i 0x0F }]

/-- The memberships of the enabled sources and audio receive streams on a port: group and source
address. -/
def Dev.memberships (d : Dev) (port : Nat) : List (List Byte × List Byte) :=
  let src := (List.range 256).flatMap fun n =>
    if d.srcOn n then (d.srcLegs n).map (d.leg n) else []
  let aud := (List.range 16).flatMap fun st => if d.rdb (0x3620 + st) 1 then d.audLegs st else []
  (src ++ aud).filterMap fun l => if l.port = port then some (l.group, l.addr) else none

/-- The body of a membership report record: INCLUDE with the source address, or EXCLUDE with an empty
list for an any-source join; a leave blocks it (R103). -/
def joinBytes (join : Bool) (group addr : List Byte) : List Byte :=
  (if join then (if allZero addr then [4] else [5]) else (if allZero addr then [3] else [6])) ++
    group ++ (if allZero addr then [] else addr)

/-- The report's kind: IGMPv3 for an IPv4 group, MLDv2 for an IPv6 group (R103). -/
def joinKind (group : List Byte) : String :=
  if (mappedV4 group).isSome then "igmpv3-report" else "mldv2-report"

/-- Sends an unsolicited report, and keeps its repeat 1 s later (R103). -/
def Dev.sendJoin (d : Dev) (join : Bool) (l : Leg) : Dev :=
  if d.curDown (l.port / 2) then d
  else
  let d := d.sendNet l.port (joinKind l.group) (joinBytes join l.group l.addr)
  { d with joinRepeats := d.joinRepeats ++ [⟨d.now + 1000000000, l.port, l.group, l.addr, join⟩] }

/-- What the joins of a port ask for on a group: every source, or the listed ones; none where nothing joins it
(RFC 3376 4.2: an any-source join prevails; log entry 15). -/
def Dev.groupState (d : Dev) (port : Nat) (group : List Byte) : Option (Option (List (List Byte))) :=
  let ms := (d.memberships port).filter fun m => m.1 == group
  if ms.isEmpty then none
  else if ms.any fun m => allZero m.2 then some none
  else some (some (ms.map (·.2)).eraseDups)

/-- The record with which a query is answered: MODE_IS_EXCLUDE with an empty list, or MODE_IS_INCLUDE with sources. A
query that lists sources is answered with those of them that the joins ask for, and not at all where there is none
(RFC 3376 5.2; log entry 15). -/
def queryRecord (group : List Byte) (asked : List (List Byte)) (st : Option (List (List Byte))) : Option (List Byte) :=
  match st, asked with
  | none, [] => some ([2] ++ group)
  | none, b => some ([1] ++ group ++ b.flatten)
  | some a, [] => some ([1] ++ group ++ a.flatten)
  | some a, b =>
    let both := b.filter fun x => a.contains x
    if both.isEmpty then none else some ([1] ++ group ++ both.flatten)

/-- A query on a port: general with no group, group-specific, or group-and-source-specific. One record answers for each
group (R103). -/
def Dev.query (d : Dev) (port : Nat) (v6 : Bool) (group : List Byte) (sources : List (List Byte)) : Dev :=
  let gs := ((d.memberships port).map (·.1)).eraseDups.filter fun g =>
    ((mappedV4 g).isSome != v6) && (group.isEmpty || group == g)
  gs.foldl (fun d g =>
    match (d.groupState port g).bind (queryRecord g (if group.isEmpty then [] else sources)) with
    | some r => d.sendNet port (joinKind g) r
    | none => d) d

/-- MEMBERSHIP_QUERY: answered for the joined groups of the port; `group` empty for a general query, `sources` empty but
for a group-and-source-specific one (R103). -/
def execMembershipQuery (t port : Nat) (v6 : Bool) (group : List Byte) (sources : List (List Byte)) (s : State) :
    Host.Outcome State Fault Refusal :=
  onDev t (fun d => if d.curDown (port / 2) then d else d.query port v6 group sources) s

/-- JOIN_REPORT_REPEAT: the second unsolicited report, 1 s after the first (R103). -/
def execJoinReportRepeat (t port : Nat) (group addr : List Byte) (s : State) :
    Host.Outcome State Fault Refusal :=
  onDev t (fun d =>
    if d.curDown (port / 2) then d
    else match d.joinRepeats.find? fun r =>
        r.port == port && r.group == group && r.addr == addr && decide (r.due ≤ d.now) with
    | some r =>
      { d with joinRepeats := d.joinRepeats.erase r }.sendNet port (joinKind group)
        (joinBytes r.join group addr)
    | none => d) s

/-! ### NMOS (R104) -/

/-- The NMOS interface: its code and whether it is up; in-band it is the port of the in-band WDP transport. -/
def Dev.nmosIface (d : Dev) : Nat := d.bootRd 0x2036 4

def Dev.nmosUp (d : Dev) : Bool := d.nmosIface != 2 || (d.bootRd 0x2042 7 != 0xFF && d.linkUp (d.bootRd 0x2042 7))

/-- Sends a registration to the registry. -/
def Dev.nmosSend (d : Dev) (what : String) (data : List Nat) : Dev :=
  d.send (.nmos d.nmosIface (d.bootRd 0x2036 2) (d.bootRd 0x2036 3) what data)

/-- Registers a source's receiver: with two transport legs where leg B is enabled, otherwise with one. -/
def Dev.registerReceiver (d : Dev) (n : Nat) : Dev :=
  let k := if d.rdb (srcIdx n) 0x12 then 2 else 1
  if !d.nmos.node || d.curDown 0 || Tab.getD d.nmos.legs n 0 = k then d
  else { d with nmos := { d.nmos with legs := Tab.setD d.nmos.legs n k 0 } }.nmosSend "receiver" [n, k]

/-- The node starts at the end of boot, where 0x2036:01 is set, and registers one receiver per source number. -/
def Dev.startNode (d : Dev) : Dev :=
  if d.bootRd 0x2036 1 = 1 then
    foldNat Dev.registerReceiver 256 ({ d with nmos := { node := true } }.nmosSend "node" [])
  else { d with nmos := {} }

/-! ### States -/

/-- State of a source (0x3000+n:20, Table 4.3). -/
def Dev.srcState (d : Dev) (n : Nat) : Nat := d.rd (srcIdx n) 0x20

/-- Enters a source state, with SOURCE_STATE; journaled on entering SILENT or MISMATCH (Table 4.7). -/
def Dev.setSrcState (d : Dev) (n st : Nat) : Dev :=
  if d.srcState n = st then d
  else
    let d := d.wr (srcIdx n) 0x20 st
    if st = 3 ∨ st = 4 then d.raise (uIntake (d.srcWing n)) 0x0401 n st sevInfo
    else d.event (uIntake (d.srcWing n)) 0x0401 n st

/-- State of a leg: 0 idle, 1 active, 2 lost (0x3000+n:21). -/
def Dev.legState (d : Dev) (n b : Nat) : Nat := d.rd (srcIdx n) 0x21 / 4 ^ b % 4

/-- Enters a leg state, with LEG_STATE (R478, Table 4.7). -/
def Dev.setLegState (d : Dev) (n b st : Nat) : Dev :=
  if d.legState n b = st then d
  else
    let v := d.rd (srcIdx n) 0x21
    let v' := v - v / 4 ^ b % 4 * 4 ^ b + st * 4 ^ b
    (d.wr (srcIdx n) 0x21 v').raise (uIntake (d.srcWing n)) 0x0402 n v' sevInfo

/-- The source state's evaluation at a publication (`pub`) or at a mismatched frame (R478). -/
def Dev.evalSrcState (d : Dev) (n : Nat) (pub : Bool) : Dev :=
  if d.srcState n = 0 then d
  else if 3 ≤ (d.src n).mismatched then d.setSrcState n 4
  else if pub && d.srcState n != 2 then d.setSrcState n 2
  else d

/-- One more mismatched frame (R478). -/
def Dev.countMismatch (d : Dev) (n : Nat) : Dev :=
  d.setSrc n { d.src n with mismatched := (d.src n).mismatched + 1 }

/-- Counts a policed packet; POLICED at most once per second per source (R102, Table 4.7). -/
def Dev.police (d : Dev) (n : Nat) : Dev :=
  let d := d.incf (srcIdx n) 0x23 7
  let x := d.src n
  let due := match x.policedAt with
    | none => true
    | some a => decide (a + 1000000000 ≤ d.now)
  if due then
    (d.setSrc n { x with policedCount := 0, policedAt := some d.now }).raise
      (uIntake (d.srcWing n)) 0x0404 n (x.policedCount + 1) sevDegraded
  else d.setSrc n { x with policedCount := x.policedCount + 1 }

/-! ### Pool buffers -/

/-- The pool format is YC422P10; otherwise YC444P12 (R100). -/
def is422 (sampling depth : Nat) : Bool := sampling == 0 && depth != 12

/-- Bytes a frame occupies, before rounding (R100). -/
def frameBytes (w h sampling depth : Nat) : Nat :=
  if is422 sampling depth then ceilDiv (w * h * 2) 3 * 4 else w * h * 6

/-- A size rounded up to 4 KiB. -/
def round4k (n : Nat) : Nat := ceilDiv n 4096 * 4096

/-- Bytes of one pool buffer of a source (R100). -/
def Dev.srcFrameBytes (d : Dev) (n : Nat) : Nat :=
  let i := srcIdx n
  round4k (frameBytes (d.rd i 5) (d.rd i 6) (d.rd i 8) (d.rd i 9))

/-- A pool buffer with an id. -/
def SourceRt.buf (x : SourceRt) (id : Nat) : Option PoolBuf := x.bufs.find? (·.id == id)

/-- Changes a pool buffer. -/
def SourceRt.updBuf (x : SourceRt) (id : Nat) (f : PoolBuf → PoolBuf) : SourceRt :=
  { x with bufs := x.bufs.map fun b => if b.id = id then f b else b }

/-- A buffer that a new frame may take: not on loan, not the newest published or held frame, not
being filled, and of the current configuration (R110, R174). -/
def SourceRt.bufFree (x : SourceRt) (b : PoolBuf) : Bool :=
  b.loans == 0 && x.newest != some b.id && x.held != some b.id && !b.filling && !b.old

/-- Takes the oldest free buffer (R110): the list runs from the oldest to the newest taken. -/
def SourceRt.take (x : SourceRt) : Option (Nat × SourceRt) :=
  match x.bufs.find? x.bufFree with
  | none => none
  | some b =>
    some (b.id, { x with
      bufs := x.bufs.filter (·.id != b.id) ++ [{ b with frame := none, filling := true }] })

/-- Returns a buffer to the pool unpublished. -/
def SourceRt.release (x : SourceRt) (id : Nat) : SourceRt :=
  x.updBuf id fun b => { b with frame := none, filling := false }

/-- Drops the buffers of earlier configurations that nothing holds any more (R111, R174). -/
def SourceRt.sweep (x : SourceRt) : SourceRt :=
  { x with bufs := x.bufs.filter fun b =>
      !(b.old && b.loans == 0 && x.newest != some b.id && x.held != some b.id) }

/-- Takes a loan on a buffer (R160). -/
def Dev.lend (d : Dev) (n id : Nat) : Dev :=
  d.setSrc n ((d.src n).updBuf id fun b => { b with loans := b.loans + 1 })

/-- Returns a loan (R161). -/
def Dev.unlend (d : Dev) (n id : Nat) : Dev :=
  d.setSrc n ((d.src n).updBuf id fun b => { b with loans := b.loans - 1 }).sweep

/-- The hold bit of a source. -/
def Dev.holdBit (d : Dev) (n : Nat) : Bool := (d.rd 0x34F4 (n / 32 + 1)).testBit (n % 32)

/-- The frame a selection takes: the held frame, if one was pinned, while the source is held, otherwise the newest
published one (R30, R174). -/
def Dev.srcFrame (d : Dev) (n : Nat) : Option (Nat × Frame) :=
  let x := d.src n
  match (if d.holdBit n then x.held else x.newest) with
  | some b => (x.buf b).bind fun p => p.frame.map fun f => (b, f)
  | none => none

/-- Counts a frame discarded for lack of a pool buffer (R110). -/
def Dev.dropFrame (d : Dev) (n : Nat) : Dev :=
  let x := d.src n
  (d.incf (srcIdx n) 0x23 6).setSrc n
    { x with dropped := x.dropped + 1, droppedAt := if x.dropped = 0 then d.now else x.droppedAt }

/-! ### Stamps and publication -/

/-- Samples per pixel in a stored frame: 2 for 4:2:2 order, 3 for three components. -/
def compsPerPixel (f : Frame) : Nat := if is422 f.sampling f.depth then 2 else 3

/-- The black fill of stored sample `k` (R108): luma 64 and chroma 512 in 10-bit scale, RGB 64; four
times that for 12-bit samples. -/
def blackSample (f : Frame) (k : Nat) : Nat :=
  let v := if f.sampling = 2 then 64
    else if is422 f.sampling f.depth then (if k % 2 = 0 then 512 else 64)
    else (if k % 3 = 0 then 64 else 512)
  if f.depth = 12 then 4 * v else v

/-- Stored sample `k` of a frame. -/
def Frame.sample (f : Frame) (k : Nat) : Nat := Tab.getD f.pix k (blackSample f k)

/-- The bytes of a stored frame in the pool format, in raster order (Table 6.2). -/
def Frame.bytes (f : Frame) : List Byte :=
  let n := f.width * f.height * compsPerPixel f
  if is422 f.sampling f.depth then
    (List.range (ceilDiv n 3)).flatMap fun w =>
      let at_ := fun j => if 3 * w + j < n then f.sample (3 * w + j) % 1024 else 0
      leBytes 4 (at_ 0 + at_ 1 * 1024 + at_ 2 * 1048576)
  else (List.range n).flatMap fun k => leBytes 2 (f.sample k % 4096)

/-- The luma sample of a pixel in 10-bit scale; of an RGB pixel the first component, R (DESIGN CHOICE: R107 names no
component there; log entry 155). -/
def Frame.luma10 (f : Frame) (x y : Nat) : Nat :=
  let p := y * f.width + x
  let v := if is422 f.sampling f.depth then f.sample (2 * p + 1) else f.sample (3 * p)
  if f.depth = 12 then v / 4 else v

/-- A strip token: 16 pixels from column `x` of row `y`; none where a pixel lies between 384 and 640
(R107). -/
def Frame.strip (f : Frame) (x y : Nat) : Option Nat :=
  (List.range 16).foldl (fun r i =>
    match r with
    | none => none
    | some v =>
      let l := f.luma10 (x + i) y
      if 640 ≤ l then some (v + 2 ^ i) else if l ≤ 384 then some v else none) (some 0)

/-- The 64-byte source stamp (Table 4.4). A shared frame keeps the source number of its sender (R385). -/
def Frame.stamp (f : Frame) (n : Nat) : List Byte :=
  leBytes 2 (f.origin.getD n) ++ leBytes 1 (if f.complete then 0 else 1) ++ leBytes 1 f.flags ++ leBytes 8 f.seq ++
    time48Bytes f.capture ++ time48Bytes f.arrival ++ time48Bytes f.published ++ leBytes 2 0 ++
    leBytes 4 f.crc ++ leBytes 4 f.lost ++ leBytes 4 f.token ++ leBytes 4 f.ts ++ leBytes 4 0

/-- Capture time, frame sequence and stamp flags from an RTP timestamp and an arrival time (R113). -/
def captureOf (ptp : Bool) (ts arrival wraps : Nat) : Nat × Nat × Nat :=
  if ptp then
    let top := (arrival + 1000000000) * 9 / 100000
    let back := (top + 2 ^ 32 - ts % 2 ^ 32) % 2 ^ 32
    let n := if back ≤ top then top - back else Config.earlyRtp ts arrival
    let c := n * 100000 / 9
    if arrival < c then (arrival, n, 2) else (c, n, 0)
  else (arrival, 2 ^ 32 * wraps + ts, 1)

/-- Capture times of source `n` come from its timestamps: it is PTP-referenced, and the time base counts
from the PTP epoch (R113, R256). -/
def Dev.ptpCapture (d : Dev) (n : Nat) : Bool := d.rdb (srcIdx n) 0x25 && d.rd 0x2200 0x0A != 0

/-- Whether count `a` of a clock of `m` counts is later than `b`. -/
def laterOn (m a b : Nat) : Bool :=
  let x := (a + m - b % m) % m
  x != 0 && decide (x < m / 2)

/-- Whether timestamp `a` is later than `b` on the 32-bit RTP clock. -/
def rtpLater (a b : Nat) : Bool := laterOn (2 ^ 32) a b

/-- Bits of the stream timestamp: RTP 32, PTS 33 (R121). -/
def Dev.tsBits (d : Dev) (n : Nat) : Nat := if d.rd (srcIdx n) 3 = 5 then 33 else 32

/-- The wraps before a timestamp of a clock of `m` counts, from those before the newest one (R113, R122). -/
def wrapsAt (m ts wraps : Nat) (last : Option Nat) : Nat :=
  match last with
  | none => wraps
  | some q =>
    if laterOn m ts q then (if ts < q then wraps + 1 else wraps)
    else if q < ts then wraps - 1 else wraps

/-- A frame or an access unit of a timestamp begins: the newest timestamp of the source and its wraps. -/
def SourceRt.newTs (x : SourceRt) (m ts : Nat) : SourceRt :=
  let newer := match x.prevTs with
    | none => true
    | some q => laterOn m ts q
  if newer then { x with wraps := wrapsAt m ts x.wraps x.prevTs, prevTs := some ts } else x

/-- A sequence number of a counter of `m` numbers as an extended one: the one nearest to the highest before it
(R115). -/
def extendSeq (m seq : Nat) (last : Option Nat) : Nat :=
  match last with
  | none => m + seq % m
  | some q =>
    let x := (seq + m - q % m) % m
    if x < m / 2 then q + x else q - (m - x)

/-- The token of a frame, with the token flags of its stamp and the newest advance (R107, R173):
`anc` is the value that arrived in an ANC packet. -/
def Dev.tokenOf (d : Dev) (n : Nat) (f : Frame) (anc : Option Nat) : Frame × SourceRt :=
  let i := srcIdx n
  let x := d.src n
  let tok := match d.rd i 0x1C with
    | 1 => anc
    | 2 => f.strip (d.rd i 0x1E) (d.rd i 0x1F)
    | _ => none
  match tok with
  | none => ({ f with adv := x.adv }, x)
  | some v =>
    if x.lastToken = some v then ({ f with token := v, flags := f.flags + 32, adv := x.adv }, x)
    else
      ({ f with token := v, flags := f.flags + 96, adv := some f.capture },
       { x with lastToken := some v, adv := some f.capture })

/-- Publishes a stamped frame from its buffer: it becomes the newest, with its identical run (R172)
its stamp in 0x3000+n:22, and its compare record (R109, R112, R359). -/
def Dev.publish (d : Dev) (n id : Nat) (f : Frame) : Dev :=
  let x := d.src n
  let run := if x.lastCrc = some f.crc then x.lastRun + 1 else 1
  let f := { f with published := d.now, run := run, gen := d.rd 0x2200 0x0A }
  let x := { x with newest := some id, lastCrc := some f.crc, lastRun := run }
  let x := (x.updBuf id fun b => { b with frame := some f, filling := false }).sweep
  let d := ((d.setSrc n x).incf (srcIdx n) 0x23 4).wrd (srcIdx n) 0x22 (f.stamp n)
  d.sourceRecord n f.seq f.complete f.crc

/-! ### Frames of ST 2110-20 sources -/

/-- Sequence numbers that either leg delivered. -/
def InFrame.got (f : InFrame) : List Nat := f.gotA ++ f.gotB

/-- What is remembered of the frame of a timestamp. -/
def SourceRt.seenAt (x : SourceRt) (ts : Nat) : Option SeenFrame := x.seen.find? (·.ts == ts)

/-- A sequence number is received for the frame of a timestamp, which may have ended. -/
def SourceRt.note (x : SourceRt) (ts seq : Nat) : SourceRt :=
  { x with seen := x.seen.map fun e => if e.ts = ts then { e with lo := min e.lo seq, hi := max e.hi seq } else e }

/-- The frame before that of a timestamp. A change of a leg's definition has none before it (R108). -/
def SourceRt.before (x : SourceRt) (ts : Nat) : Option SeenFrame :=
  let old := match x.seenAt ts with
    | some e => e.before
    | none => false
  x.seen.foldl (fun r e =>
    if rtpLater ts e.ts && (old || !e.before) then
      match r with
      | some q => if rtpLater e.ts q.ts then some e else r
      | none => some e
    else r) none

/-- First sequence number of a frame's span: one after the highest number received for the previous frame, or the lowest
received for this one (R108). -/
def SourceRt.spanStart (x : SourceRt) (f : InFrame) : Nat :=
  match x.before f.ts, x.seenAt f.ts with
  | some e, _ => e.hi + 1
  | none, some e => e.lo
  | none, none => 0

/-- The lowest sequence number received for a later frame. -/
def SourceRt.laterLo (x : SourceRt) (ts : Nat) : Option Nat :=
  x.seen.foldl (fun r e =>
    if rtpLater e.ts ts && !e.before then
      match r with
      | some l => some (min l e.lo)
      | none => some e.lo
    else r) none

/-- Last sequence number of a frame's span: its marker packet, else the packet before a later frame, else the highest
received (R108). -/
def SourceRt.spanEnd (x : SourceRt) (f : InFrame) : Nat :=
  match f.marker, x.laterLo f.ts, x.seenAt f.ts with
  | some m, _, _ => m
  | none, some l, _ => l - 1
  | none, none, some e => e.hi
  | none, none, none => 0

/-- Every packet of the frame up to its marker is held (R108 case 1). -/
def SourceRt.allHeld (x : SourceRt) (f : InFrame) : Bool :=
  match f.marker with
  | none => false
  | some m =>
    let a := x.spanStart f
    (List.range (m + 1 - a)).all fun j => f.got.contains (a + j)

/-- A frame at its end: its lost packets, and those that only one leg delivered (R108, R115). -/
def SourceRt.finish (x : SourceRt) (f : InFrame) : InFrame :=
  let a := x.spanStart f
  let span := (List.range (x.spanEnd f + 1 - a)).map (a + ·)
  { f with
    ended := true
    lost := (span.filter fun q => !(f.got ++ f.policed).contains q).length
    recovered := (span.filter fun q => f.gotA.contains q != f.gotB.contains q).length }

/-- A frame that R102 discards for its spacing, or that lost packets to its policing (R478). -/
def InFrame.mismatch (f : InFrame) : Bool := f.tooSoon || !f.policed.isEmpty

/-- The enabled legs that are active now (R478). -/
def Dev.activeLegs (d : Dev) (n : Nat) : List Nat := (d.srcLegs n).filter fun b => d.legState n b == 1

/-- A packet with a timestamp later than a frame's has arrived on every active leg (R108 case 2). -/
def Dev.overtaken (d : Dev) (n ts : Nat) : Bool :=
  let x := d.src n
  let later := fun b => match (if b = 0 then x.newA else x.newB) with
    | some q => rtpLater q ts
    | none => false
  (d.srcLegs n).any later && (d.activeLegs n).all later

/-- Ends the frames in progress that a test picks. A mismatched one counts as it ends (R108, R478). -/
def Dev.endIf (d : Dev) (n : Nat) (p : InFrame → Bool) : Dev :=
  let x := d.src n
  let due := x.frames.filter fun f => !f.ended && p f
  let d := d.setSrc n { x with frames := x.frames.map fun f => if !f.ended && p f then x.finish f else f }
  due.foldl (fun d f => if f.mismatch then (d.countMismatch n).evalSrcState n false else d) d

/-- Ends the frames in progress whose end has come: every packet held, or a later one on every active leg (R108). -/
def Dev.endFrames (d : Dev) (n : Nat) : Dev := d.endIf n fun f => (d.src n).allHeld f || d.overtaken n f.ts

/-- Whether a timestamp follows another by less than 0.9 of the source's frame period (R102). -/
def Dev.tooSoon (d : Dev) (n ts : Nat) (prev : Option Nat) : Bool :=
  match prev with
  | none => false
  | some p =>
    let c := d.rd (srcIdx n) 7
    let step := (ts + 2 ^ 32 - p % 2 ^ 32) % 2 ^ 32
    decide (step * 10 * periodDen c < 9 * 90000 * periodNum c)

/-- The place of component `j` of a packet's pixel group in a stored pixel: ST 2110-20 sends 4:4:4 as Cb, Y, Cr, which
the pool holds as Y, Cb, Cr; the other orders agree (R100, Table 6.2; PRESUMED for ST 2110-20, log entry 155). -/
def storedPlace (sampling k : Nat) : Nat :=
  if sampling = 1 then k - k % 3 + [1, 0, 2].getD (k % 3) 0 else k

/-- A packet's samples at the positions where the pool format stores them (R100). -/
def storeRow (sampling depth w : Nat) (pix : Tab Nat) (f : Frame) (r : RowData) : Tab Nat :=
  let per := if sampling = 0 then 2 else 3
  let base := (r.row * w + r.off)
  (List.range r.samples.length).foldl (fun pix j =>
    let v := r.samples.getD j 0
    let v := if depth = 8 then 4 * v else v
    if sampling = 0 ∧ depth = 12 then
      -- 4:2:2 at 12 bits: Cb, Y, Cr, Y, each chroma sample repeated for both pixels of its pair
      let pair := base + j / 4 * 2
      match j % 4 with
      | 0 =>
        let p := Tab.setD pix (3 * pair + 1) v (blackSample f (3 * pair + 1))
        Tab.setD p (3 * (pair + 1) + 1) v (blackSample f (3 * (pair + 1) + 1))
      | 1 => Tab.setD pix (3 * pair) v (blackSample f (3 * pair))
      | 2 =>
        let p := Tab.setD pix (3 * pair + 2) v (blackSample f (3 * pair + 2))
        Tab.setD p (3 * (pair + 1) + 2) v (blackSample f (3 * (pair + 1) + 2))
      | _ => Tab.setD pix (3 * (pair + 1)) v (blackSample f (3 * (pair + 1)))
    else
      let k := per * base + storedPlace sampling j
      Tab.setD pix k v (blackSample f k)) pix

/-- Whether a video packet breaks the declared figures (R102), or uses a feature that Table 4.2 does not support: more
than three row data headers, or interlaced (R99). -/
def Dev.videoPoliced (d : Dev) (n : Nat) (p : Packet) (rows : List RowData) (interlaced : Bool) : Bool :=
  let i := srcIdx n
  let per := if d.rd i 8 = 0 then 2 else 3
  p.pt != d.rd i 0x18 || interlaced || decide (3 < rows.length) || rows.any fun r =>
    decide (d.rd i 6 ≤ r.row) || decide (d.rd i 5 < r.off + r.samples.length / per)

/-! The receiver buffer of ST 2110-21 for a type W sender (R101): the standard, which the spec names and does not repeat,
gives its size and its drain (PRESUMED, log entry 156). Its fill is counted in parts of a packet, 10⁹ × the numerator of
the frame period to a packet, so that a packet of a frame's N leaves it every N-th of the period exactly. -/

/-- Bytes per pixel times 4 of ST 2110-20 samples (R116). -/
def stBytes4 (sampling depth : Nat) : Nat :=
  (if sampling = 0 then [8, 10, 12] else [12, 15, 18]).getD (depth / 2 - 4) 0

/-- Packets of a frame of the declared format (R116). -/
def Dev.framePackets (d : Dev) (n : Nat) : Nat :=
  let i := srcIdx n
  d.rd i 6 * ceilDiv (d.rd i 5 * stBytes4 (d.rd i 8) (d.rd i 9)) (4 * d.rd i 0x19)

/-- Packets that the receiver buffer of a leg holds: max(1,500 × 720 / MAXIP, N / (300 × T_FRAME)), where MAXIP is the
declared payload with 48 bytes of IP, UDP, RTP and payload headers. -/
def Dev.vrxFull (d : Dev) (n : Nat) : Nat :=
  let c := d.rd (srcIdx n) 7
  max (1500 * 720 / (d.rd (srcIdx n) 0x19 + 48)) (d.framePackets n * periodDen c / (300 * periodNum c))

/-- Parts of a packet in the fill of a receiver buffer. -/
def Dev.vrxUnit (d : Dev) (n : Nat) : Nat := 1000000000 * periodNum (d.rd (srcIdx n) 7)

/-- What a receiver buffer still holds now. -/
def Dev.vrxLeft (d : Dev) (n : Nat) (v : Nat × Nat) : Nat :=
  v.1 - (d.now - v.2) * d.framePackets n * periodDen (d.rd (srcIdx n) 7)

/-- A packet of leg `b` enters its receiver buffer, unless that is full. -/
def Dev.vrxTake (d : Dev) (n b : Nat) : Bool × Dev :=
  let x := d.src n
  let left := d.vrxLeft n (if b = 0 then x.vrxA else x.vrxB)
  if d.vrxFull n * d.vrxUnit n < left + d.vrxUnit n then (false, d)
  else
    let v := (left + d.vrxUnit n, d.now)
    (true, d.setSrc n (if b = 0 then { x with vrxA := v } else { x with vrxB := v }))

/-- The start of a frame at its first packet: it takes a pool buffer, or is discarded (R110). The previous frame of R102
is the latest one begun before it in timestamp order, discarded ones among them (DESIGN CHOICE: R102 does not say; log
entry 155). -/
def Dev.beginFrame (d : Dev) (n : Nat) (p : Packet) : Dev :=
  let x := d.src n
  let soon := d.tooSoon n p.ts ((x.before p.ts).map (·.ts))
  let f : InFrame := { ts := p.ts, first := d.now, tooSoon := soon, wraps := wrapsAt (2 ^ 32) p.ts x.wraps x.prevTs }
  let x := { x.newTs (2 ^ 32) p.ts with seen := x.seen.drop (x.seen.length - 15) ++ [({ ts := p.ts, lo := p.seq, hi := p.seq } : SeenFrame)] }
  if soon then d.setSrc n { x with frames := x.frames ++ [f] }
  else match x.take with
    | some (id, x) => d.setSrc n { x with frames := x.frames ++ [{ f with buf := some id }] }
    | none => (d.setSrc n { x with frames := x.frames ++ [f] }).dropFrame n

/-- Pixels `a` to `b - 1` join a list of spans, apart and in order. -/
def joinSpan (a b : Nat) : List (Nat × Nat) → List (Nat × Nat)
  | [] => [(a, b)]
  | (u, v) :: r =>
    if b < u then (a, b) :: (u, v) :: r
    else if v < a then (u, v) :: joinSpan a b r
    else joinSpan (min a u) (max b v) r

/-- A packet that its frame takes: the first copy of each sequence number gives its samples (R115), and the pixels that
they cover are written. -/
def InFrame.add (f : InFrame) (b : Nat) (p : Packet) (store : Tab Nat → Tab Nat) (spans : List (Nat × Nat)) : InFrame :=
  let g := { f with
    gotA := if b = 0 then f.gotA ++ [p.seq] else f.gotA
    gotB := if b = 0 then f.gotB else f.gotB ++ [p.seq] }
  if f.got.contains p.seq then g
  else
    { g with
      legs := f.legs ||| 2 ^ b
      marker := if p.marker then some p.seq else f.marker
      pix := store f.pix
      spans := spans.foldl (fun q e => joinSpan e.1 e.2 q) f.spans }

/-- Pixels that a packet's rows cover, in raster order. -/
def rowSpans (sampling w : Nat) (rows : List RowData) : List (Nat × Nat) :=
  rows.map fun r =>
    let a := r.row * w + r.off
    (a, a + r.samples.length / (if sampling = 0 then 2 else 3))

/-- A leg has brought a timestamp. -/
def SourceRt.legTs (x : SourceRt) (m b ts : Nat) : SourceRt :=
  let up := fun (o : Option Nat) => match o with
    | some q => if laterOn m ts q then some ts else some q
    | none => some ts
  if b = 0 then { x with newA := up x.newA } else { x with newB := up x.newB }

/-- A video packet of leg `b` enters its frame; one of a frame that has ended, or was discarded, is late (R101, R102,
R108, R115). -/
def Dev.videoPacket (d : Dev) (n b : Nat) (p : Packet) (rows : List RowData) (interlaced : Bool) : Dev :=
  let i := srcIdx n
  let (room, d) := d.vrxTake n b
  if !room then d.police n
  else
    let d := d.setSrc n ((d.src n).legTs (2 ^ 32) b p.ts)
    let x := d.src n
    let now := x.frames.find? fun f => f.ts == p.ts && !f.ended
    if now.isNone && (x.seenAt p.ts).isSome then (d.setSrc n (x.note p.ts p.seq)).incf i 0x23 8 |>.endFrames n
    else
      let d := if now.isSome then d else d.beginFrame n p
      let bad := d.videoPoliced n p rows interlaced || (d.src n).frames.any fun f => f.ts == p.ts && f.tooSoon
      let d := if bad then d.police n else d
      let x := (d.src n).note p.ts p.seq
      let fr : Frame := { sampling := d.rd i 8, depth := d.rd i 9 }
      let store := fun pix => rows.foldl (fun q r => storeRow fr.sampling fr.depth (d.rd i 5) q fr r) pix
      let upd := fun (f : InFrame) =>
        if f.ended || f.ts != p.ts then f
        else if bad then { f with policed := f.policed ++ [p.seq] }
        else f.add b p store (rowSpans fr.sampling (d.rd i 5) rows)
      (d.setSrc n { x with frames := x.frames.map upd }).endFrames n

/-- The tokens that are kept: those of frames in progress or of access units that wait, and those of frames that have
not begun (R107). -/
def SourceRt.liveTokens (x : SourceRt) (m : Nat) : Tab Nat :=
  x.ancTokens.filter fun e => x.frames.any (fun f => f.ts == e.1) || x.units.any (fun u => u.ts == e.1) ||
    match x.prevTs with
    | some q => laterOn m e.1 q
    | none => true

/-- A packet of the ANC stream of a source: with token kind 1 and its DID and SDID, its value is kept for the frame of
its timestamp (R107); every other one is discarded, and policed as R99 says of what Table 4.2 does not support
(DEDUCED, log entry 155). -/
def Dev.ancPacket (d : Dev) (n : Nat) (p : Packet) (did sdid : Nat) (ws : List Nat) : Dev :=
  let i := srcIdx n
  if d.rd i 0x1C = 1 ∧ did * 256 + sdid = d.rd i 0x1D ∧ 4 ≤ ws.length then
    let v := ws.getD 0 0 % 256 * 16777216 + ws.getD 1 0 % 256 * 65536 + ws.getD 2 0 % 256 * 256 +
      ws.getD 3 0 % 256
    let x := d.src n
    d.setSrc n { x with ancTokens := Tab.insert (x.liveTokens (2 ^ d.tsBits n)) p.ts v }
  else d.police n

/-- FRAME_COMPLETION_TIMEOUT: a frame in progress ends one declared frame period after its first packet, and the merge
window later where leg B is enabled (R108). -/
def Dev.completionTimeout (d : Dev) (n : Nat) : Dev :=
  let i := srcIdx n
  let wait := periodNs (d.rd i 7) + (if d.rdb i 0x12 then d.rd i 0x17 * 1000000 else 0)
  d.endIf n fun f => decide (f.first + wait ≤ d.now)

/-- FRAME_COMPLETION_TIMEOUT (R108). -/
def execFrameCompletionTimeout (t src : Nat) (s : State) : Host.Outcome State Fault Refusal :=
  onDev t (·.completionTimeout src) s

/-- The ended frame of a source is stamped, and published or held back (R109, R112, R478). -/
def Dev.framePublished (d : Dev) (n : Nat) : Dev :=
  let i := srcIdx n
  let x := d.src n
  match x.frames.find? (·.ended) with
  | none => d
  | some f =>
    let d := d.setSrc n { x with frames := x.frames.filter fun g => !(g.ts == f.ts && g.ended) }
    let d := (d.addf i 0x23 2 f.lost 8).addf i 0x23 3 (if d.rdb i 0x12 then f.recovered else 0) 8
    if f.tooSoon then d.incf i 0x23 6
    else match f.buf with
      | none => d
      | some id =>
        let bad := f.lost != 0 || f.marker.isNone || !f.policed.isEmpty || f.denied
        let (c, q, fl) := captureOf (d.ptpCapture n) f.ts f.first f.wraps
        let fr : Frame :=
          { seq := q, complete := !bad, flags := fl + f.legs * 4, capture := c, arrival := f.first
            lost := f.lost, ts := f.ts, width := d.rd i 5, height := d.rd i 6
            sampling := d.rd i 8, depth := d.rd i 9, pix := f.pix }
        let fr := { fr with crc := crc32c fr.bytes }
        let d := if bad then d.incf i 0x23 5 else d
        if bad && d.rd i 0x0D == 0 then (d.setSrc n ((d.src n).release id)).incf i 0x23 6
        else
          let anc := (x.ancTokens.find? fun e => e.1 == f.ts).map (·.2)
          let (fr, x') := d.tokenOf n fr anc
          let d := (d.setSrc n x').publish n id fr
          let d := if f.mismatch then d else d.setSrc n { d.src n with mismatched := 0 }
          d.evalSrcState n true

/-- SOURCE_SILENCE: no packet on any enabled leg for 100 ms (Table 4.3). -/
def execSourceSilence (t src : Nat) (s : State) : Host.Outcome State Fault Refusal :=
  onDev t (fun d =>
    let quiet := fun (l : Option Nat) => match l with
      | some a => decide (a + 100000000 ≤ d.now)
      | none => true
    let x := d.src src
    let all := quiet x.lastA && (!d.rdb (srcIdx src) 0x12 || quiet x.lastB)
    if all && (d.srcState src == 2 || d.srcState src == 4) then d.setSrcState src 3 else d) s

/-- Clears the counters of a source (0x3000+n:24). -/
def Dev.clearFields (d : Dev) (i s n : Nat) : Dev := foldNat (fun d f => d.wrf i s f 0) n d

/-- SOURCE_COUNTER_RESET: 1 written to 0x3000+n:24. -/
def execSourceCounterReset (t : Nat) (by_ : Requester) (src : Nat) (s : State) :
    Host.Outcome State Fault Refusal :=
  onCommand t by_ (fun d =>
    d.command by_ (srcIdx src) 0x24 [1] fun d => (d.clearFields (srcIdx src) 0x23 9).res stOk) s

end Sys2Proof.Machine
end

