-- ==== Sys2Proof/Machine/Decoders.lean ====
section
/-! DEFINITION. Decoder sessions: the coded payload's way to them (R102, R126 BUFFER_OVERFLOW and
LOSS), access units (R117, R118, R125, R126), output (R119 to R122) and re-arm (R127). -/
namespace Sys2Proof.Machine

/-- Index of the object of decoder session `k`. -/
def decIdx (k : Nat) : Nat := 0x3100 + k

/-- The runtime record of session `k`. -/
def Dev.dec (d : Dev) (k : Nat) : DecRt := Tab.getD d.decs k {}

def Dev.setDec (d : Dev) (k : Nat) (x : DecRt) : Dev := { d with decs := Tab.setD d.decs k x {} }

/-- State of a session (0x3100+k:0B, Table 5.2). -/
def Dev.decState (d : Dev) (k : Nat) : Nat := d.rd (decIdx k) 0x0B

/-- Enters a session state, with DEC_STATE (Table 5.5). -/
def Dev.setDecState (d : Dev) (k st : Nat) : Dev :=
  if d.decState k = st then d else (d.wr (decIdx k) 0x0B st).event (uDec (k / 32)) 0x0502 k st

/-- The enabled source of transports 2 to 5 that names a session (R123); 0x3100+k:0A shows it. -/
def Dev.boundSource (d : Dev) (k : Nat) : Option Nat :=
  (List.range 256).find? fun n =>
    d.srcOn n && decide (2 ≤ d.rd (srcIdx n) 3) && d.rd (srcIdx n) 0x1B == k

/-- Capture time, frame sequence and stamp flags of a decoded picture (R122). `ext`: its timestamp with the wraps
before it. -/
def Dev.decCapture (d : Dev) (n ext arrival : Nat) : Nat × Nat × Nat :=
  if d.rd (srcIdx n) 3 = 5 then (arrival, ext, 1)
  else captureOf (d.ptpCapture n) (ext % 2 ^ 32) arrival (ext / 2 ^ 32)

/-- The error record of a session (R131). -/
def Dev.decErrorRecord (d : Dev) (k code seq : Nat) : List Byte :=
  let old := fieldAt (d.rdd (decIdx k) 0x0C) 18 2
  leBytes 1 code ++ leBytes 1 (d.decState k) ++ leBytes 2 0 ++ leBytes 4 seq ++
    time48Bytes d.now ++ leBytes 2 (satInc 16 old)

/-- Reports an error of an access unit (R126 step 2), and counts a FORMAT one as a mismatched frame
(R478). -/
def Dev.decReport (d : Dev) (n k code seq : Nat) : Dev :=
  let d := (d.wrd (decIdx k) 0x0C (d.decErrorRecord k code seq)).incf (decIdx k) 0x0E 7
  let d := d.raise (uDec (k / 32)) 0x0501 (k + code * 256) (seq % 2 ^ 32) sevDegraded
  if code = 6 then (d.countMismatch n).evalSrcState n false else d

/-- An error outside WAITING: reported, the reference buffers emptied, the bitstream discarded up to
the next access unit, and STOPPED or WAITING by the resume policy (R126). -/
def Dev.decError (d : Dev) (n k code seq : Nat) : Dev :=
  let d := d.decReport n k code seq
  let d := d.setDec k { d.dec k with refs := [], generated := [], pics := [] }
  d.setDecState k (if d.rd (decIdx k) 7 = 0 then 4 else 1)

/-- The bitstream buffer of a session is emptied. What has begun of an access unit, on the wire or among the packets
held for their predecessors, is data without its start: the rest of it is discarded when it comes. -/
def Dev.abandonUnits (d : Dev) (k : Nat) : Dev :=
  match d.boundSource k with
  | none => d
  | some n =>
    let x := d.src n
    let us := x.units.filter fun u => !u.complete
    d.setSrc n { x with
      units := us.map fun u => { u with bytes := 0, abandoned := true }
      cut := (x.cut ++ us.map (·.ts) ++ (d.dec k).ahead.map (·.pkt.ts)).eraseDups }

/-- The session abandons its work and waits, or is disabled (R127, R128). -/
def Dev.decRestart (d : Dev) (k st : Nat) : Dev := ((d.abandonUnits k).setDec k {}).setDecState k st

/-- Frame sequence of an access unit, low 32 bits: unknown where the first packet of a transport 5 unit, which carries
its PTS, was lost (R126). -/
def Dev.unitSeq (d : Dev) (n : Nat) (u : InUnit) : Nat :=
  if u.headless && d.rd (srcIdx n) 3 == 5 then 0xFFFFFFFF else (d.decCapture n u.ext u.first).2.1 % 2 ^ 32

/-- An error of the access unit that is arriving: the session abandons it (R126 step 1). -/
def Dev.unitError (d : Dev) (n k code : Nat) (u : InUnit) : Dev :=
  let d := d.decError n k code (d.unitSeq n u)
  d.setSrc n { d.src n with units := (d.src n).units.map fun v => if v.ts = u.ts then { v with abandoned := true } else v }

/-! ### Coded packets -/

/-- A coded payload that Table 4.2 does not support (R99): NAL unit types of RFC 6184 mode 2, PACI packets of RFC 7798,
slice mode of RFC 9134 (the K bit), a PAT that names several programs. The places of these in a payload are those of the
RFCs and of ISO/IEC 13818-1 (PRESUMED, log entry 157). DONL fields show in no bit of a packet. -/
def codedExcluded (transport : Nat) (b : List Byte) : Bool :=
  let nal := byteAt b 0
  match transport with
  | 2 => (byteAt b 0).testBit 6
  | 3 => [25, 26, 27, 29].contains (nal % 32)
  | 4 => nal / 2 % 64 == 50
  | _ =>
    (chunks 188 b).any fun p =>
      let start := (byteAt p 1).testBit 6 && byteAt p 1 % 32 == 0 && byteAt p 2 == 0
      let s := p.drop (5 + byteAt p 4)
      let len := byteAt s 1 % 16 * 256 + byteAt s 2
      let progs := (chunks 4 (slice s 8 (len - 9))).filter fun e => byteAt e 0 != 0 || byteAt e 1 != 0
      start && byteAt p 3 / 16 % 4 == 1 && byteAt s 0 == 0 && decide (1 < progs.length)

/-- Whether a coded packet of leg `b` exceeds 1.25 times the declared bit rate over 100 ms, has another payload type, or
is not supported (R99, R102); and the source's rate windows with it. -/
def Dev.codedPoliced (d : Dev) (n b : Nat) (p : Packet) (data : List Byte) : Bool × SourceRt :=
  let i := srcIdx n
  let x := d.src n
  let win := (if b = 0 then x.rateA else x.rateB).filter fun e => decide (d.now < e.1 + 100000000)
  let used := (win.map (·.2)).foldl (· + ·) 0
  let set := fun w => if b = 0 then { x with rateA := w } else { x with rateB := w }
  if p.pt ≠ d.rd i 0x18 ∨ codedExcluded (d.rd i 3) data then (true, set win)
  else if d.rd i 0x1A * 125 < used + p.len * 8 then (true, set win)
  else (false, set (win ++ [(d.now, p.len * 8)]))

/-- An access unit ends all of whose packets policing took: it counts as a mismatched frame (R478). -/
def Dev.settlePoliced (d : Dev) (n ts : Nat) : Dev :=
  match (d.src n).policedTs with
  | some q =>
    if q = ts then d
    else ((d.setSrc n { d.src n with policedTs := none }).countMismatch n).evalSrcState n false
  | none => d

/-- Policing takes a packet of an access unit (R478). -/
def Dev.policeUnit (d : Dev) (n ts : Nat) : Dev :=
  let d := d.police n
  let x := d.src n
  if x.units.any fun u => u.ts == ts then
    d.setSrc n { x with units := x.units.map fun u => if u.ts = ts then { u with policed := true } else u }
  else
    let d := d.settlePoliced n ts
    d.setSrc n { d.src n with policedTs := some ts }

/-- Access units that have ended and that policing took packets of count as mismatched frames (R478). -/
def Dev.countEnded (d : Dev) (n : Nat) : Dev :=
  let x := d.src n
  let due := x.units.filter fun u => u.complete && u.policed
  let d := d.setSrc n { x with units := x.units.map fun u => if u.complete then { u with policed := false } else u }
  due.foldl (fun d _ => (d.countMismatch n).evalSrcState n false) d

/-- The next access unit begins with a held packet: what ends an open one without its last packet, and what a restart
has cut, is marked. -/
def Dev.beginUnit (d : Dev) (n : Nat) (h : HeldPacket) (headless : Bool) : Dev :=
  let ts := h.pkt.ts
  let d := d.settlePoliced n ts
  let m := 2 ^ d.tsBits n
  let x := d.src n
  let u : InUnit :=
    { ts := ts, first := h.at_, ext := wrapsAt m ts x.wraps x.prevTs * m + ts, headless := headless, lost := headless
      policed := x.policedTs == some ts, abandoned := x.cut.contains ts }
  (d.setSrc n { x.newTs m ts with
    policedTs := none, cut := x.cut.filter fun q => q == ts || laterOn m q ts
    units := x.units.map (fun u => { u with complete := true }) ++ [u] }).countEnded n

/-- A packet's bytes enter the access unit in progress. `full`: the bitstream buffer cannot take them. -/
def InUnit.take (u : InUnit) (h : HeldPacket) (full gap twoLegs : Bool) : InUnit :=
  { u with
    bytes := if full then u.bytes else u.bytes + h.pkt.len
    first := min u.first h.at_
    legs := u.legs ||| 2 ^ h.leg
    once := if twoLegs then u.once ++ [h.pkt.seq] else u.once
    overflow := u.overflow || full, lost := u.lost || gap
    complete := match h.pkt.body with
      | .coded _ e _ => e
      | _ => false }

/-- A session decodes: RECOVERING or DECODING. -/
def Dev.decoding (d : Dev) (k : Nat) : Bool := d.decState k == 2 || d.decState k == 3

/-- One coded packet, in sequence order, enters the access unit in progress: the bitstream buffer takes its bytes or
overflows (Table 5.3 0x03). A gap before it falls within the access unit whose end has not come; where that has come, it
falls within the one that begins (Table 5.3 0x05; DEDUCED, log entry 157). -/
def Dev.codedInOrder (d : Dev) (n k : Nat) (h : HeldPacket) (gap : Bool) : Dev :=
  let p := h.pkt
  let open_ := (d.src n).units.find? fun u => !u.complete
  let gap := gap || match p.body with
    | .coded _ _ c => c
    | _ => false
  let anew := match open_ with
    | some u => u.ts != p.ts
    | none => true
  -- the open unit ends here without its last packet
  let d : Dev := match open_ with
    | some u =>
      if anew && gap then
        let d := d.setSrc n { d.src n with
          units := (d.src n).units.map fun (v : InUnit) => if v.complete then v else { v with lost := true } }
        if d.decoding k && !u.abandoned && !u.lost then d.unitError n k 5 u else d
      else d
    | none => d
  let headless := gap && open_.isNone
  let d := if anew then d.beginUnit n h headless else d
  if d.decState k = 0 then
    -- a disabled session has no buffer: only the access unit in progress is followed
    let rest := ((d.src n).units.filter fun u => !u.complete).map fun u =>
      u.take { h with pkt := { p with len := 0 } } false gap false
    let d := (d.setSrc n { d.src n with units := rest }).countEnded n
    d.setSrc n { d.src n with units := (d.src n).units.filter fun u => !u.complete }
  else
    let full := decide (d.rd (decIdx k) 5 * 1024 < (d.dec k).fill + p.len)
    let here := gap && (!anew || headless)
    let u0 := (d.src n).units.find? fun u => !u.complete
    let two := d.rdb (srcIdx n) 0x12
    let d := (d.setSrc n { d.src n with
      units := (d.src n).units.map fun (u : InUnit) => if u.complete then u else u.take h full here two }).countEnded n
    let d := d.addf (decIdx k) 0x0E 9 p.len 8
    let d := if full then d else d.setDec k { d.dec k with fill := (d.dec k).fill + p.len }
    match u0 with
    | none => d
    | some u =>
      if !d.decoding k || u.abandoned then d
      else if here && (headless || !u.lost) then d.unitError n k 5 u
      else if full && !u.overflow then d.unitError n k 3 u
      else d

/-- The lowest sequence number held ahead. -/
def DecRt.lowest (r : DecRt) : Option HeldPacket :=
  r.ahead.foldl (fun m e => match m with
    | some q => if e.pkt.seq < q.pkt.seq then some e else m
    | none => some e) none

/-- A packet leaves those held and is delivered; `gap` numbers before it are lost (R115). -/
def Dev.codedDeliver (d : Dev) (n k : Nat) (h : HeldPacket) (gap : Nat) : Dev :=
  let r := d.dec k
  let q := h.pkt.seq
  let gone := if gap = 0 then r.gone else (r.gone ++ [(q - gap, q)]).drop (r.gone.length - 7)
  let d := d.setDec k { r with nextSeq := some (q + 1), ahead := r.ahead.filter (·.pkt.seq != q), gone := gone }
  let d := if gap = 0 then d else d.addf (srcIdx n) 0x23 2 gap 8
  d.codedInOrder n k h (gap != 0)

/-- Whether the numbers before a held packet may still come: an active leg has not passed them, and the merge window has
not run since the oldest held packet arrived (R115). -/
def Dev.mayCome (d : Dev) (n k : Nat) (h : HeldPacket) : Bool :=
  let x := d.src n
  let oldest := (d.dec k).ahead.foldl (fun a e => min a e.at_) h.at_
  d.rdb (srcIdx n) 0x12 && decide (d.now < oldest + d.rd (srcIdx n) 0x17 * 1000000) &&
    (d.activeLegs n).any fun b => match (if b = 0 then x.hiA else x.hiB) with
      | some q => decide (q < h.pkt.seq)
      | none => true

/-- Delivers the held packets that are next in sequence, and those whose predecessors will not come any more. -/
def Dev.codedDrain (d : Dev) (n k : Nat) : Nat → Dev
  | 0 => d
  | fuel + 1 =>
    match (d.dec k).lowest with
    | none => d
    | some h =>
      let q := (d.dec k).nextSeq.getD h.pkt.seq
      if q < h.pkt.seq && d.mayCome n k h then d else (d.codedDeliver n k h (h.pkt.seq - q)).codedDrain n k fuel

/-- Delivers what the merging of a source's legs holds back no longer. -/
def Dev.mergeDue (d : Dev) (n : Nat) : Dev :=
  let k := d.rd (srcIdx n) 0x1B
  if d.rd (srcIdx n) 3 < 2 ∨ 128 ≤ k then d else d.codedDrain n k (d.dec k).ahead.length

/-- A copy of a packet that was delivered before, or a packet that comes after its gap was found: it is discarded, the
latter as late. A packet that both legs deliver was not recovered by merging (R115, Table 4.6 sub 23). -/
def Dev.codedLate (d : Dev) (n k : Nat) (p : Packet) : Dev :=
  if (d.dec k).gone.any fun g => decide (g.1 ≤ p.seq) && decide (p.seq < g.2) then d.incf (srcIdx n) 0x23 8
  else
    let x := d.src n
    d.setSrc n { x with units := x.units.map fun u => { u with once := u.once.filter (· != p.seq) } }

/-- A coded packet of leg `b`: policed, merged with the other leg by sequence number, and delivered in order (R102,
R115, Table 5.3 0x05). -/
def Dev.codedPacket (d : Dev) (n b : Nat) (p : Packet) (data : List Byte) : Dev :=
  let k := d.rd (srcIdx n) 0x1B
  let (bad, x) := d.codedPoliced n b p data
  let d := d.setSrc n x
  if bad then d.policeUnit n p.ts
  else
    let hi := fun (o : Option Nat) => some (max p.seq (o.getD 0))
    let d := d.setSrc n (if b = 0 then { x with hiA := hi x.hiA } else { x with hiB := hi x.hiB })
    if 128 ≤ k then d
    else
      let r := d.dec k
      if p.seq < r.nextSeq.getD p.seq then (d.codedLate n k p).mergeDue n
      else if r.ahead.any (·.pkt.seq == p.seq) then d.mergeDue n
      else (d.setDec k { r with ahead := r.ahead ++ [⟨d.now, b, p⟩] }).mergeDue n

/-! ### Media packets -/

/-- A packet that belongs to leg `b` of source `n` (R98, R99, R478), its sequence number extended (R115): 32 bits for
ST 2110-20, 16 bits for RTP. -/
def Dev.legPacket (d : Dev) (n b : Nat) (p : Packet) : Dev :=
  let x := d.src n
  let seq := extendSeq (if d.rd (srcIdx n) 3 = 1 then 2 ^ 32 else 2 ^ 16) p.seq x.lastSeq
  let p := { p with seq := seq }
  let x := { x with lastSeq := some (max seq (x.lastSeq.getD 0)) }
  let d := d.setSrc n (if b = 0 then { x with lastA := some d.now } else { x with lastB := some d.now })
  let d := (d.setLegState n b 1).incf (srcIdx n) 0x23 b
  match p.body with
  | .video rows int => if d.rd (srcIdx n) 3 = 1 then d.videoPacket n b p rows int else d.police n
  | .coded data _ _ => if 2 ≤ d.rd (srcIdx n) 3 then d.codedPacket n b p data else d.police n
  | .anc _ _ _ => d
  | .unicast => d

/-- Whether a packet comes to leg `b` of a source at a UDP port. -/
def Dev.legTakes (d : Dev) (n b : Nat) (p : Packet) (udp : Nat) : Bool :=
  let l := d.leg n b
  p.port == l.port && p.dst == l.group && (allZero l.addr || p.src == l.addr) && p.udp == udp

/-- MEDIA_PACKET: a packet arrives on a port whose link is up (R95 to R102, R107, R108, R115). The ANC stream comes on
the groups of the legs, at leg A's UDP port plus two (Table 4.6 sub 1D). -/
def Dev.mediaPacket (d : Dev) (p : Packet) : Dev :=
  if !d.linkUp p.port then d
  else
    let d := (d.incf (netIdx p.port) 0x0B 0).addf (netIdx p.port) 0x0B 1 p.len 8
    match p.body with
    | .unicast => d.netDiscard p.port
    | .anc did sdid ws =>
      (List.range 256).foldl (fun d n =>
        if d.srcOn n && (d.srcLegs n).any (fun b => d.legTakes n b p ((d.leg n 0).udp + 2)) then
          d.ancPacket n p did sdid ws
        else d) d
    | _ =>
      (List.range 256).foldl (fun d n =>
        if d.srcOn n then
          (d.srcLegs n).foldl (fun d b => if d.legTakes n b p (d.leg n b).udp then d.legPacket n b p else d) d
        else d) d

/-- LEG_LOST: a leg without a packet for 100 ms becomes lost (R478): what waits for it waits no longer (R108, R115). -/
def execLegLost (t src leg : Nat) (s : State) : Host.Outcome State Fault Refusal :=
  onDev t (fun d =>
    let last := if leg = 0 then (d.src src).lastA else (d.src src).lastB
    let silent := match last with
      | some a => decide (a + 100000000 ≤ d.now)
      | none => false
    if silent && d.legState src leg == 1 then ((d.setLegState src leg 2).endFrames src).mergeDue src else d) s

/-- MEDIA_PACKET (R108). -/
def execMediaPacket (t : Nat) (p : Packet) (s : State) : Host.Outcome State Fault Refusal :=
  onDev t (·.mediaPacket p) s

/-! ### Access units -/

/-- Highest level of a codec (Table 5.1, Table 5.4 sub 04): level_idc 52, general_level_idc 183. -/
def maxLevel (codec : Nat) : Nat := if codec = 1 then 52 else 183

/-- The features that a codec does not support (Table 5.1). -/
def excludedFeatures (codec : Nat) : List Feature :=
  match codec with
  | 1 => [.interlaced, .fmo, .aso, .redundantSlices, .profile444, .monochrome]
  | 2 => [.fieldSeq, .rangeExtension, .screenContent, .multiLayer]
  | _ => [.sliceMode]

/-- The profile of sub 03 that a session needs for a parsed profile: Constrained Baseline and Main under any of the
three of H.264 (Table 5.1). The numbers are those of the standards (PRESUMED, log entry 158). -/
def neededProfile (codec idc : Nat) : Option Nat :=
  match codec, idc with
  | 1, 66 => some 0
  | 1, 77 => some 0
  | 1, 100 => some 1
  | 1, 110 => some 2
  | 1, 122 => some 3
  | 2, 1 => some 1
  | 2, 3 => some 1
  | 2, 2 => some 2
  | 2, 4 => some 3
  | 3, 0x35 => some 1
  | 3, 0x4A => some 2
  | _, _ => none

/-- Whether an access unit breaks R117, R118 or the reference limit of sub 06 (Table 5.3 0x06). -/
def Dev.formatError (d : Dev) (n k : Nat) (u : AccessUnit) : Bool :=
  let i := decIdx k
  let j := srcIdx n
  let codec := d.rd i 2
  let chromaOk := match d.rd j 8 with
    | 0 => decide (u.chroma ≤ 1)
    | 1 => decide (u.chroma ≤ 2)
    | _ => codec == 3 && d.rd i 3 == 2 && u.chroma == 2
  let profileOk := match neededProfile codec u.profile with
    | some q => decide (q ≤ d.rd i 3)
    | none => false
  u.features.any (excludedFeatures codec).contains || !profileOk ||
    (codec != 3 && decide (min (d.rd i 4) (maxLevel codec) < u.level)) || u.width != d.rd j 5 || u.height != d.rd j 6 ||
    !chromaOk || decide (d.rd j 9 < u.depth) || decide (d.rd i 6 < u.refsNeeded)

/-- Stream info of a session (0x3100+k:0D). -/
def streamInfo (u : AccessUnit) : List Byte :=
  leBytes 1 u.profile ++ leBytes 1 u.level ++ leBytes 1 u.chroma ++ leBytes 1 u.depth ++
    leBytes 2 u.width ++ leBytes 2 u.height ++ leBytes 1 u.reorder ++ leBytes 1 u.refsNeeded ++
    leBytes 2 0

/-- A reference that may be absent: the session is RECOVERING, and it precedes the recovery start in decoding order
(R125). -/
def Dev.mayGenerate (d : Dev) (k q : Nat) : Bool := d.decState k == 2 && decide (q < (d.dec k).entry)

/-- The references of an access unit that no buffer holds and R125 does not replace. -/
def Dev.missingRefs (d : Dev) (k : Nat) (u : AccessUnit) : Bool :=
  u.refs.any fun q => !(d.dec k).refs.contains q && !d.mayGenerate k q

/-- A picture is decoded: generated references take the place of absent ones, all their samples 2^(depth − 1) (R125); it
joins the reference buffers and waits for its output (R120). -/
def Dev.decodePicture (d : Dev) (n k : Nat) (w : InUnit) (u : AccessUnit) : Dev :=
  let r := d.dec k
  let gen := u.refs.filter fun q => !r.refs.contains q
  let anc := ((d.src n).ancTokens.find? fun e => e.1 == w.ts).map (·.2)
  let d := (d.incf (decIdx k) 0x0E 1).wrd (decIdx k) 0x0D (streamInfo u)
  d.setDec k { r with
    refs := ((r.refs ++ gen).filter fun q => u.keep.contains q) ++ [u.pic]
    generated := (r.generated ++ gen.map fun q => (q, 2 ^ (u.depth - 1))).filter fun e => u.keep.contains e.1
    reorder := u.reorder
    pics := r.pics ++ [{ id := u.pic, order := u.order, flushes := u.flushes, ts := w.ts, first := w.first, ext := w.ext
                         legs := w.legs, chroma := u.chroma, depth := u.depth, token := anc : DecPic }] }

/-- An access unit of a RECOVERING or DECODING session: the conditions of Table 5.3 in the order in
which they are detected, then decoding (R125, R126). RASL pictures of a random access point are discarded. -/
def Dev.liveUnit (d : Dev) (n k : Nat) (w : InUnit) (u : AccessUnit) : Dev :=
  let seq := d.unitSeq n w
  if w.lost then d.decError n k 5 seq
  else if w.overflow then d.decError n k 3 seq
  else if u.syntaxError && u.errorInHeader then d.decError n k 1 seq
  else if d.formatError n k u then d.decError n k 6 seq
  else if u.kind = .params then d.wrd (decIdx k) 0x0D (streamInfo u)
  else if u.rasl.isSome then d.incf (decIdx k) 0x0E 11
  else if d.missingRefs k u then d.decError n k 2 seq
  else if u.syntaxError then d.decError n k 1 seq
  else if u.hashWrong then d.decError n k 7 seq
  else d.decodePicture n k w u

/-- The session leaves WAITING with a random access point, or with a recovery start of count `left`. Output starts anew:
no picture is output before it, so the first one has no previous one in Table 5.3 0x04 and R121 (DESIGN CHOICE: the spec
does not say that the previous output picture is forgotten; log entry 158). -/
def Dev.enterUnit (d : Dev) (n k : Nat) (w : InUnit) (u : AccessUnit) (left : Nat) : Dev :=
  let d := d.setDec k { d.dec k with
    entry := u.pic, from_ := u.order, recoverLeft := left, refs := [], generated := [], pics := [], lastOutTs := none }
  (d.setDecState k (if left = 0 then 3 else 2)).liveUnit n k w u

/-- An access unit of a WAITING session: parameter sets and the headers of entry pictures are
checked, an entry picture ends the wait, all else is discarded (R125). -/
def Dev.waitingUnit (d : Dev) (n k : Nat) (w : InUnit) (u : AccessUnit) : Dev :=
  let seq := d.unitSeq n w
  let checked := fun (good : Dev) =>
    if u.syntaxError && u.errorInHeader then d.decReport n k 1 seq
    else if d.formatError n k u then d.decReport n k 6 seq
    else good
  match u.kind with
  | .picture => d.incf (decIdx k) 0x0E 5
  | .params => checked (d.wrd (decIdx k) 0x0D (streamInfo u))
  | .random => checked (d.enterUnit n k w u 0)
  | .recovery c => checked (d.enterUnit n k w u c)

/-- The oldest complete access unit leaves the bitstream buffer: the packets of it that one leg alone delivered count as
recovered by merging (R115). -/
def Dev.takeUnit (d : Dev) (n k : Nat) (w : InUnit) (nals : Nat) : Dev :=
  let d := d.setSrc n { d.src n with units := (d.src n).units.erase w }
  let d := d.setDec k { d.dec k with fill := (d.dec k).fill - w.bytes }
  let d := d.addf (srcIdx n) 0x23 3 w.once.length 8
  (d.incf (decIdx k) 0x0E 0).addf (decIdx k) 0x0E 6 nals 8

/-- ACCESS_UNIT: the session takes its oldest complete access unit (R125, R126). What an error has abandoned is
gone; the rest of a unit that a restart has cut is discarded in WAITING. -/
def Dev.accessUnit (d : Dev) (k : Nat) (u : AccessUnit) : Dev :=
  match d.boundSource k with
  | none => d
  | some n =>
    let d := d.mergeDue n
    match (d.src n).units.find? (·.complete) with
    | none => d
    | some w =>
      let d := d.takeUnit n k w u.discardedNals
      if w.abandoned then
        (if d.decState k = 1 ∧ w.lost = false ∧ w.overflow = false then d.incf (decIdx k) 0x0E 5 else d)
      else match d.decState k with
        | 1 => d.waitingUnit n k w u
        | 2 => d.liveUnit n k w u
        | 3 => d.liveUnit n k w u
        | _ => d

/-- ACCESS_UNIT (R126). -/
def execAccessUnit (t sess : Nat) (au : AccessUnit) (s : State) : Host.Outcome State Fault Refusal :=
  onDev t (·.accessUnit sess au) s

/-! ### Output -/

/-- Sample `k` of a decoded picture in the pool's order: 8-bit samples are shifted left by 2 bits, a 4:2:0 chroma row
serves both luma rows of its pair, and in YC444P12 a chroma sample of a pair both its pixels (R119). -/
def storedSample (o : PictureOut) (p : DecPic) (w : Nat) (in422 : Bool) (k : Nat) : Nat :=
  let per := if in422 then 2 else 3
  let row := k / (per * w)
  let j := k % (per * w)
  let col := j / per
  let crow := if p.chroma = 0 then row / 2 else row
  let cAt := if p.chroma = 2 then row * w + col else crow * ceilDiv w 2 + col / 2
  let v := if in422 then
      match j % 4 with
      | 0 => o.cb.getD cAt 0
      | 2 => o.cr.getD cAt 0
      | _ => o.y.getD (row * w + col) 0
    else
      match j % 3 with
      | 0 => o.y.getD (row * w + col) 0
      | 1 => o.cb.getD cAt 0
      | _ => o.cr.getD cAt 0
  if p.depth = 8 then 4 * v else v

/-- The samples of a decoded picture in the pool format of its source (R119). -/
def Dev.converted (d : Dev) (n : Nat) (p : DecPic) (o : PictureOut) : Tab Nat :=
  let i := srcIdx n
  let base : Frame := { sampling := d.rd i 8, depth := d.rd i 9 }
  let in422 := is422 base.sampling base.depth
  (List.range (d.rd i 5 * d.rd i 6 * compsPerPixel base)).foldl (fun t k =>
    Tab.setD t k (storedSample o p (d.rd i 5) in422 k) (blackSample base k)) []

/-- A decoded picture is converted and published, or withheld (R119 to R122). -/
def Dev.publishPicture (d : Dev) (n k : Nat) (p : DecPic) (o : PictureOut) : Dev :=
  let i := srcIdx n
  match (d.src n).take with
  | none => (d.incf (decIdx k) 0x0E 3).dropFrame n
  | some (id, x) =>
    let d := d.setSrc n x
    let (c, q, fl) := d.decCapture n p.ext p.first
    let fr : Frame :=
      { seq := q, complete := true, flags := fl + 4 * p.legs + 16, capture := c, arrival := p.first, lost := 0
        ts := p.ts % 2 ^ 32, width := d.rd i 5, height := d.rd i 6, sampling := d.rd i 8, depth := d.rd i 9
        pix := d.converted n p o }
    let fr := { fr with crc := crc32c fr.bytes }
    let (fr, x') := d.tokenOf n fr p.token
    let d := (((d.setSrc n x').publish n id fr).incf (decIdx k) 0x0E 2)
    (d.setSrc n { d.src n with mismatched := 0 }).evalSrcState n true

/-- The picture that a session outputs next: the first in output order, once more pictures wait than the stream's
reordering depth, or once a picture waits before which all earlier ones are output (R120; the output process of the
standards, PRESUMED, log entry 158). -/
def DecRt.next (r : DecRt) : Option DecPic :=
  let first := r.pics.foldl (fun m p => match m with
    | some (q : DecPic) => if p.order < q.order then some p else m
    | none => some p) none
  first.filter fun p => decide (r.reorder < r.pics.length) || r.pics.any fun q => q.flushes && decide (p.order < q.order)

/-- DECODED_PICTURE_OUTPUT: a picture is output when it is the next one: the timestamp checks of R121 and Table 5.3
0x04, the end of recovery (R125), and publication (R120). A picture withheld for its spacing is policed on the session
and on its source (DEDUCED: R121 applies the check of R102, which counts on the source; log entry 158). -/
def Dev.pictureOutput (d : Dev) (k : Nat) (o : PictureOut) : Dev :=
  match d.boundSource k, (d.dec k).next.filter (·.id == o.pic) with
  | some n, some p =>
    let r := d.dec k
    let m := 2 ^ d.tsBits n
    let step := match r.lastOutTs with
      | none => none
      | some q => some ((p.ts + m - q % m) % m)
    let lim := d.rd (decIdx k) 8 * 90
    let bad := match step with
      | none => false
      | some x => x == 0 || decide (m / 2 ≤ x) || decide (lim < x)
    let seq := (d.decCapture n p.ext p.first).2.1 % 2 ^ 32
    let d := d.setDec k { r with pics := r.pics.filter (·.id != o.pic), lastOutTs := some p.ts }
    if bad then d.decError n k 4 seq
    else
      let c := d.rd (srcIdx n) 7
      let soon := match step with
        | none => false
        | some x => decide (x * 10 * periodDen c < 9 * 90000 * periodNum c)
      let d := if soon then
          (((d.incf (decIdx k) 0x0E 4).incf (srcIdx n) 0x23 7).countMismatch n).evalSrcState n false
        else d
      if d.decState k == 2 && (decide (p.order < r.from_) || r.recoverLeft != 0) then
        -- before the recovery point: counted from the recovery start on, in output order
        if p.order < r.from_ then d else d.setDec k { d.dec k with recoverLeft := r.recoverLeft - 1 }
      else
        let d := if d.decState k = 2 then d.setDecState k 3 else d
        if soon then d else d.publishPicture n k p o
  | _, _ => d

/-- DECODED_PICTURE_OUTPUT (R120). -/
def execDecodedPictureOutput (t sess : Nat) (pic : PictureOut) (s : State) :
    Host.Outcome State Fault Refusal :=
  onDev t (·.pictureOutput sess pic) s

/-- FRAME_PUBLISHED (R109). -/
def execFramePublished (t src : Nat) (s : State) : Host.Outcome State Fault Refusal :=
  onDev t (·.framePublished src) s

/-! ### Re-arm and counters -/

/-- A re-arm takes effect where the session is STOPPED, and is counted either way (R127). -/
def Dev.rearm (d : Dev) (k : Nat) : Dev :=
  if d.decState k = 4 then (d.incf (decIdx k) 0x0E 8).decRestart k 1
  else d.incf (decIdx k) 0x0E 10

/-- DECODER_REARM: 1 written to 0x3100+k:09. It is refused with WRONG_STATE unless the session is
STOPPED when the write is processed (R127). -/
def Dev.rearmWrite (d : Dev) (by_ : Requester) (k : Nat) : Res :=
  let a := d.commandStatus by_ (decIdx k) 9 [1]
  if a = stOk ∧ d.decState k ≠ 4 then d.res stWrongState
  else d.command by_ (decIdx k) 9 [1] fun d => (d.rearm k).res stOk

/-- DECODER_REARM (R127). -/
def execDecoderRearm (t : Nat) (by_ : Requester) (sess : Nat) (s : State) :
    Host.Outcome State Fault Refusal :=
  onCommand t by_ (·.rearmWrite by_ sess) s

/-- DECODER_COUNTER_RESET: 1 written to 0x3100+k:0F clears 0x3100+k:0E. -/
def execDecoderCounterReset (t : Nat) (by_ : Requester) (sess : Nat) (s : State) :
    Host.Outcome State Fault Refusal :=
  onCommand t by_ (fun d =>
    d.command by_ (decIdx sess) 0x0F [1] fun d => (d.clearFields (decIdx sess) 0x0E 12).res stOk) s

end Sys2Proof.Machine
end

