-- ==== Sys2Proof/Machine/Pixel.lean ====
section
/-! DEFINITION. The pixel pipeline of a bay: fetch and widening (R136), scaling (R140), colour (R142
to R144), blending (R138), dithering (R145) and packing (Table 6.2). All components are 16-bit codes
unless a comment says otherwise. -/
namespace Sys2Proof.Machine

/-- A quotient whose rounding the spec leaves open: exact, or one of its two neighbours. -/
def freeRound (num : Int) (den : Nat) : Int :=
  if num % den = 0 then num / den
  else if Config.roundUp num den then num / den + 1 else num / den

/-- A value clamped to 0 to `hi`. -/
def clampTo (hi : Nat) (v : Int) : Nat := if v < 0 then 0 else min v.toNat hi

/-- An `n`-bit component widened to 16 bits by repeating its bits from the most significant end
(R136); `n` at least 4. -/
def widen (n v : Nat) : Nat := v * (1 + 2 ^ n + 2 ^ (2 * n) + 2 ^ (3 * n)) / 2 ^ (4 * n - 16)

/-- A pixel: three components and its αp, widened as they are (R136), as a fraction of 65,535. -/
structure Px where
  c0 : Nat
  c1 : Nat
  c2 : Nat
  a : Nat := 65535

/-- An XRGB 2:10:10:10 colour as a pixel. -/
def pxOfColour (v : Nat) : Px :=
  ⟨widen 10 (v / 1048576 % 1024), widen 10 (v / 1024 % 1024), widen 10 (v % 1024), 65535⟩

/-- Bytes per pixel of a packed format (Table 6.2). -/
def fmtBytes (fmt : Nat) : Nat := [2, 3, 4, 4].getD fmt 4

/-- Component widths R, G, B of a packed format (Table 6.2). -/
def fmtBits (fmt : Nat) : Nat × Nat × Nat :=
  match fmt with
  | 0 => (5, 6, 5)
  | 3 => (10, 10, 10)
  | _ => (8, 8, 8)

/-- A packed pixel's components and alpha (Table 6.2, R136). -/
def unpackPx (fmt v : Nat) : Px :=
  match fmt with
  | 0 => ⟨widen 5 (v / 2048 % 32), widen 6 (v / 32 % 64), widen 5 (v % 32), 65535⟩
  | 1 => ⟨widen 8 (v / 65536 % 256), widen 8 (v / 256 % 256), widen 8 (v % 256), 65535⟩
  | 2 => ⟨widen 8 (v / 65536 % 256), widen 8 (v / 256 % 256), widen 8 (v % 256), widen 8 (v / 16777216 % 256)⟩
  | _ => pxOfColour v

/-- Three component codes packed in a format: A 255 and X 0 where the format has them. -/
def packPx (fmt r g b : Nat) : Nat :=
  match fmt with
  | 0 => r * 2048 + g * 32 + b
  | 1 => r * 65536 + g * 256 + b
  | 2 => 255 * 16777216 + r * 65536 + g * 256 + b
  | _ => r * 1048576 + g * 1024 + b

/-- Pixel (`x`, `y`) of a source frame, widened (R136). -/
def Frame.px (f : Frame) (x y : Nat) : Px :=
  let n := if f.depth = 12 then 12 else 10
  if is422 f.sampling f.depth then
    let base := y * f.width + (x - x % 2)
    let chroma := fun o =>
      let here := f.sample (2 * base + o)
      if x % 2 = 0 then here
      else
        let nxt := if x + 1 < f.width then f.sample (2 * (base + 2) + o) else here
        (here + nxt + 1) / 2
    ⟨widen n (f.sample (2 * (y * f.width + x) + 1)), widen n (chroma 0), widen n (chroma 2), 65535⟩
  else
    let p := 3 * (y * f.width + x)
    ⟨widen n (f.sample p), widen n (f.sample (p + 1)), widen n (f.sample (p + 2)), 65535⟩

/-! ### Scaling -/

/-- The step of a scaling direction, unsigned 8.24 (R140). -/
def scaleStep (crop dest : Nat) : Nat := (freeRound (crop * 2 ^ 24) dest).toNat % 2 ^ 32

/-- Tap of a built-in filter set (R141): sets 2 and 3 are bilinear and nearest neighbour; sets 0 and 1 are free, but
each phase sums to 4,096, and set 0 depends on the step only when it scales down (log entry 130). -/
def builtinTap (set : Nat) (vert : Bool) (step phase tap : Nat) : Int :=
  let c := fun j => toSigned 16 (Config.filterCoef set vert (if set = 0 then step else 0) phase j % 65536).toNat
  if set = 3 then nearestTap vert phase tap
  else if set = 2 then bilinearTap vert phase tap
  else if set = 0 ∧ step ≤ 2 ^ 24 then filterTapOf builtinSet0 vert phase tap
  else if tapSum vert c = 4096 then c tap
  else nearestTap vert phase tap

/-- Coefficient of a filter set: built in, or of the custom sets 4 to 7 as the composition selected with them (R141,
R36, Table 6.10). -/
def Comp.filterTap (c : Comp) (set : Nat) (vert : Bool) (step phase tap : Nat) : Int :=
  if set < 4 then builtinTap set vert step phase tap
  else filterTapOf (Tab.getD c.filters set []) vert phase tap

/-- Position of output pixel `i`: integer part and phase (R140). -/
def scalePos (i step : Nat) : Int × Nat :=
  let u : Int := (2 * i + 1) * step - 2 ^ 24
  (u / 2 ^ 25, ((u % 2 ^ 25) * 64 / 2 ^ 25).toNat)

/-- A filtered component: taps outside the crop take its nearest pixel (R140). -/
def filterSum (n : Nat) (lo : Int) (limit : Nat) (coef : Nat → Int) (get : Nat → Nat) : Nat :=
  let s := (List.range n).foldl (fun (a : Int) (j : Nat) =>
    let p := clampTo (limit - 1) (lo + (j : Int))
    a + coef j * (get p : Int)) 0
  clampTo 65535 (freeRound s 4096)

/-- One component of the scaled pixel: horizontally, then vertically (R140). -/
def Comp.scaled (c : Comp) (hset vset cw ch dw dh i j : Nat) (get : Nat → Nat → Nat) : Nat :=
  let hs := scaleStep cw dw
  let vs := scaleStep ch dh
  let (hx, hp) := scalePos i hs
  let (vy, vp) := scalePos j vs
  filterSum 6 (vy - 2) ch (c.filterTap vset true vs vp) fun row =>
    filterSum 8 (hx - 3) cw (c.filterTap hset false hs hp) fun col => get col row

/-! ### Colour -/

/-- Luma coefficients in 1/10000: BT.709 or BT.2020 (Kr, Kb). -/
def lumaCoef (m : Nat) : Nat × Nat := if m = 0 then (2126, 722) else (2627, 593)

/-- A luma or RGB code as a full-range numerator over `rangeDen`: the 16-bit code is a 10-bit code
widened, and 64 to 940 spans the full range (R142 step 1). -/
def lumaNum (full : Nat) (v : Nat) : Int := if full = 1 then v else (v : Int) * 1023 - 64 * 65535

/-- A chroma code about its centre 512, over `chromaDen`: 64 to 960 spans the full range. -/
def chromaNum (v : Nat) : Int := (v : Int) * 1023 - 512 * 65535

def lumaDen (full : Nat) : Nat := if full = 1 then 1 else 876
def chromaDen (full : Nat) : Nat := if full = 1 then 1023 else 896

/-- CONVERT: YCbCr to RGB with range scaling, or range scaling alone (R142 step 1). -/
def convertPx (rgb full matrix : Nat) (p : Px) : Px :=
  let fin := fun (n : Int) (den : Nat) => clampTo 65535 (freeRound n den)
  let ld := lumaDen full
  let cd := chromaDen full
  if rgb = 1 then
    { p with c0 := fin (lumaNum full p.c0) ld, c1 := fin (lumaNum full p.c1) ld
             c2 := fin (lumaNum full p.c2) ld }
  else
    let (kr, kb) := lumaCoef matrix
    let kg := 10000 - kr - kb
    let y := lumaNum full p.c0 * (10000 * cd : Nat)
    let cb := chromaNum p.c1 * ld
    let cr := chromaNum p.c2 * ld
    { p with
      c0 := fin (y + 2 * (10000 - kr : Nat) * cr) (10000 * ld * cd)
      c1 := fin (y * kg - 2 * (kr * (10000 - kr) : Nat) * cr - 2 * (kb * (10000 - kb) : Nat) * cb)
        (10000 * ld * cd * kg)
      c2 := fin (y + 2 * (10000 - kb : Nat) * cb) (10000 * ld * cd) }

/-- The bytes of a colour table, as the composition selected with it (R36). -/
def Comp.lut (c : Comp) (t : Nat) : List Byte := Tab.getD c.luts t []

/-- Linearisation of component `c` (R142 step 2). -/
def lin1d (tab : List Byte) (c v : Nat) : Nat :=
  let e := fun k => fieldAt tab (16 + c * 2048 + k * 2) 2
  let i := v / 64
  if i = 1023 then e 1023
  else clampTo 65535 (freeRound ((e i : Int) * 64 + ((e (i + 1) : Int) - e i) * (v % 64 : Nat)) 64)

/-- Encoding of component `c` (R142 step 4). -/
def enc1d (tab : List Byte) (c v : Nat) : Nat :=
  let e := fun k => fieldAt tab (293656 + c * 8192 + k * 2) 2
  let i := v / 16
  if i = 4095 then e 4095
  else clampTo 65535 (freeRound ((e i : Int) * 16 + ((e (i + 1) : Int) - e i) * (v % 16 : Nat)) 16)

/-- Component `c` of 3D node (`r`, `g`, `b`) (R143). -/
def node3d (tab : List Byte) (c r g b : Nat) : Int :=
  fieldAt tab (6160 + (min r 32 + 33 * min g 32 + 1089 * min b 32) * 8 + c * 2) 2

/-- The 3D LUT with tetrahedral interpolation (R142 step 3): from the lower node, one step along each
axis in the order of falling fractions. -/
def lut3d (tab : List Byte) (p : Px) : Px :=
  if !(byteAt tab 1).testBit 0 then p
  else
    let i := fun v => v * 32 / 65535
    let f := fun v => v * 32 % 65535
    let (r, g, b) := (i p.c0, i p.c1, i p.c2)
    let (fr, fg, fb) := (f p.c0, f p.c1, f p.c2)
    let n := fun c x y z => node3d tab c (r + x) (g + y) (b + z)
    let mix := fun c =>
      let walk := fun (f1 f2 f3 : Nat) (a bb : Int) =>
        n c 0 0 0 * (65535 - f1 : Int) + a * ((f1 : Int) - f2) + bb * ((f2 : Int) - f3) +
          n c 1 1 1 * f3
      let s :=
        if fr ≥ fg ∧ fg ≥ fb then walk fr fg fb (n c 1 0 0) (n c 1 1 0)
        else if fr ≥ fb ∧ fb ≥ fg then walk fr fb fg (n c 1 0 0) (n c 1 0 1)
        else if fb ≥ fr ∧ fr ≥ fg then walk fb fr fg (n c 0 0 1) (n c 1 0 1)
        else if fg ≥ fr ∧ fr ≥ fb then walk fg fr fb (n c 0 1 0) (n c 1 1 0)
        else if fg ≥ fb ∧ fb ≥ fr then walk fg fb fr (n c 0 1 0) (n c 0 1 1)
        else walk fb fg fr (n c 0 0 1) (n c 0 1 1)
      clampTo 65535 (freeRound s 65535)
    { p with c0 := mix 0, c1 := mix 1, c2 := mix 2 }

/-- LUT: linearisation, 3D LUT and, with encode 1, encoding (R142). -/
def lutPx (tab : List Byte) (encode : Bool) (p : Px) : Px :=
  let p := { p with c0 := lin1d tab 0 p.c0, c1 := lin1d tab 1 p.c1, c2 := lin1d tab 2 p.c2 }
  let p := lut3d tab p
  if encode then { p with c0 := enc1d tab 0 p.c0, c1 := enc1d tab 1 p.c1, c2 := enc1d tab 2 p.c2 }
  else p

/-- MATRIX: out = M·in + o in 10-bit scale, clamped and widened (R144). -/
def matrixPx (c : Nat → Int) (p : Px) : Px :=
  let row := fun i =>
    let s := c (3 * i) * p.c0 + c (3 * i + 1) * p.c1 + c (3 * i + 2) * p.c2
    widen 10 (clampTo 1023 (freeRound (s + c (9 + i) * 262144) 262144))
  { p with c0 := row 0, c1 := row 1, c2 := row 2 }

/-! ### Blending, dithering -/

/-- A quotient rounded to the nearest, ties up (R138). -/
def roundNear (num den : Nat) : Nat := (2 * num + den) / (2 * den)

/-- One blended component (R138): `mode` 0 opaque, 1 straight, 2 pre-multiplied; αL over 4,096, αp
over 65,535. -/
def blendComp (mode al ap src dst : Nat) : Nat :=
  let den := 4096 * 65535
  match mode with
  | 0 => min 65535 (roundNear (src * al + dst * (4096 - al)) 4096)
  | 1 => min 65535 (roundNear (src * (ap * al) + dst * (den - ap * al)) den)
  | _ => min 65535 (roundNear (src * al * 65535 + dst * (den - ap * al)) den)

/-- A region's pixel over the pixel beneath it (R138). -/
def blendPx (mode al : Nat) (src dst : Px) : Px :=
  ⟨blendComp mode al src.a src.c0 dst.c0, blendComp mode al src.a src.c1 dst.c1,
   blendComp mode al src.a src.c2 dst.c2, 65535⟩

/-- The Bayer matrix B (R145). -/
def bayer (r c : Nat) : Nat :=
  ([[0, 8, 2, 10], [12, 4, 14, 6], [3, 11, 1, 9], [15, 7, 13, 5]].getD (r % 4) []).getD (c % 4) 0

/-- Dithering of a 16-bit component to `dep` bits (R145); `dep` at most 10. -/
def dither (dep f x y v : Nat) : Nat :=
  let t := bayer (y + f) (x + 3 * f)
  min (2 ^ dep - 1) ((v + (2 * t + 1) * 2 ^ (11 - dep)) / 2 ^ (16 - dep))

/-- A dithered component in its field of the frame format. -/
def ditherField (width panel f x y v : Nat) : Nat :=
  let dep := min panel width
  let c := dither dep f x y v
  c * 2 ^ (width - dep) + Config.ditherPad width dep c % 2 ^ (width - dep)

/-- The packed output value of a composed pixel (R145, Table 6.2). -/
def packDithered (fmt panel f x y : Nat) (p : Px) : Nat :=
  let (wr, wg, wb) := fmtBits fmt
  packPx fmt (ditherField wr panel f x y p.c0) (ditherField wg panel f x y p.c1)
    (ditherField wb panel f x y p.c2)

/-! ### Descriptors -/

/-- Word `k` (1 to 7) of a descriptor. -/
def Desc.word (c : Desc) (k : Nat) : Nat := c.w.getD (k - 1) 0
/-- The high and the low half of a word. -/
def Desc.hi (c : Desc) (k : Nat) : Nat := c.word k / 65536
def Desc.lo (c : Desc) (k : Nat) : Nat := c.word k % 65536

/-- The matrix coefficient `j` of a MATRIX descriptor: nine coefficients, then three offsets, two in
each word, low half first (Table 6.5). -/
def Desc.coef (c : Desc) (j : Nat) : Int :=
  toSigned 16 (if j % 2 = 0 then c.lo (j / 2 + 1) else c.hi (j / 2 + 1))

/-- An open plane: its FETCH, its filter sets where it is scaled, and its value at the pixel. -/
structure Plane where
  fetch : Desc
  sets : Option (Nat × Nat) := none
  val : Option Px := none

/-- The raw pixel of a FETCH at content position (`x`, `y`). -/
def Dev.fetchRaw (d : Dev) (mem : Mem) (c : Comp) (f : Desc) (x y : Nat) : Px :=
  let num := f.word 1 % 65536
  match f.word 1 / 2 ^ 30 with
  | 0 =>
    let buf := c.loans.findSome? fun l => match l with
      | .source n b => if n = num then some b else none
      | _ => none
    match buf.bind fun b => ((d.src num).buf b).bind (·.frame) with
    | some fr => fr.px x y
    | none => ⟨0, 0, 0, 65535⟩
  | 1 =>
    let lay := Tab.getD d.layers num {}
    let sl := c.loans.findSome? fun l => match l with
      | .slot n k g => if n = num then some (k, g) else none
      | _ => none
    match sl.bind fun kg => (lay.slots ++ lay.old).find? fun s => s.num == kg.1 && s.gen == kg.2 with
    | some s =>
      unpackPx s.fmt (leNat (mem.readBytes (s.base + y * s.pitch + x * fmtBytes s.fmt) (fmtBytes s.fmt)))
    | none => ⟨0, 0, 0, 65535⟩
  | _ => pxOfColour (f.word 6)

/-- The plane's fetched, and where scaled filtered, value at target pixel (`x`, `y`); none outside
its destination. -/
def Dev.fetchAt (d : Dev) (mem : Mem) (c : Comp) (p : Plane) (x y : Nat) : Option Px :=
  let f := p.fetch
  let (dx, dy) := f.place.getD (toSigned 16 (f.hi 4), toSigned 16 (f.lo 4))
  let dw := f.hi 5
  let dh := f.lo 5
  if (x : Int) < dx ∨ (y : Int) < dy ∨ dx + dw ≤ x ∨ dy + dh ≤ y then none
  else
    let i := ((x : Int) - dx).toNat
    let j := ((y : Int) - dy).toNat
    let raw := fun a b => d.fetchRaw mem c f (f.hi 2 + a) (f.lo 2 + b)
    match p.sets with
    | none => some (raw i j)
    | some (hs, vs) =>
      let sc := fun g => c.scaled hs vs (f.hi 3) (f.lo 3) dw dh i j g
      some ⟨sc fun a b => (raw a b).c0, sc fun a b => (raw a b).c1, sc fun a b => (raw a b).c2,
            sc fun a b => (raw a b).a⟩

/-- The accumulator and the planes while a job list runs for one pixel. `dark`: a region without signal lies
uppermost (R176). -/
structure PixSt where
  acc : Px
  planes : List (Nat × Plane) := []
  dark : Bool := false

/-- The plane's value: fetched when its first colour descriptor or its BLEND needs it. -/
def Dev.planeVal (d : Dev) (mem : Mem) (c : Comp) (p : Plane) (x y : Nat) : Option Px :=
  match p.val with
  | some v => some v
  | none => d.fetchAt mem c p x y

/-- One descriptor at one pixel (Table 6.5). A region without signal leaves black in place of its content (R176). -/
def Dev.runDesc (d : Dev) (mem : Mem) (c : Comp) (x y : Nat) (s : PixSt) (e : Desc) : PixSt :=
  let put := fun (p : Plane) => { s with planes := (e.plane, p) :: s.planes.filter (·.1 != e.plane) }
  let cur := (s.planes.find? (·.1 == e.plane)).map (·.2)
  let map := fun (g : Px → Px) => match cur with
    | some p => put { p with val := (d.planeVal mem c p x y).map g }
    | none => s
  match e.op with
  | 1 => put { fetch := e }
  | 2 => match cur with
    | some p => put { p with sets := some (e.word 1 % 16, e.word 1 / 16 % 16) }
    | none => s
  | 3 => map (convertPx (e.word 1 / 256 % 2) (e.word 1 / 16 % 16) (e.word 1 % 16))
  | 4 => map (lutPx (c.lut (e.word 1 % 64)) (e.word 1 / 256 % 2 == 1))
  | 5 => map (matrixPx e.coef)
  | 6 => match cur with
    | some p =>
      let rest := s.planes.filter (·.1 != e.plane)
      match d.planeVal mem c p x y with
      | some v =>
        if c.regions.any (fun r => r.num == e.region && r.dark) then { acc := ⟨0, 0, 0, 65535⟩, planes := rest, dark := true }
        else { acc := blendPx (e.word 1 / 65536 % 4) (e.word 1 % 8192) v s.acc, planes := rest }
      | none => { s with planes := rest }
    | none => s
  | _ => s

/-- The packed value of pixel (`x`, `y`) of a composition (R138, R139, R145). -/
def Dev.composePx (d : Dev) (mem : Mem) (c : Comp) (x y : Nat) : Nat :=
  let s := c.descs.foldl (d.runDesc mem c x y) { acc := pxOfColour c.background }
  let t := c.lut c.encTable
  let p := if c.linear then
      { s.acc with c0 := enc1d t 0 s.acc.c0, c1 := enc1d t 1 s.acc.c1, c2 := enc1d t 2 s.acc.c2 }
    else s.acc
  if s.dark then packPx c.fmt 0 0 0 else packDithered c.fmt c.depth (c.tick % 4) x y p

/-- Pixel (`x`, `y`) of a composed frame; 0, black, where it is not written and beyond its size. -/
def Comp.at (c : Comp) (x y : Nat) : Nat :=
  if x < c.width ∧ y < c.height then Tab.getD c.pix (y * c.width + x) 0 else 0

/-- The stored bytes of a composed frame, in raster order (R148). -/
def Comp.bytes (c : Comp) : List Byte :=
  (List.range (c.width * c.height)).flatMap fun k => leBytes (fmtBytes c.fmt) (Tab.getD c.pix k 0)

end Sys2Proof.Machine
end

