-- ==== Sys2Proof/Machine/Compose.lean ====
section
/-! DEFINITION. Composition: display timings (Table 8.1), regions of a head (R134, R135), job lists
(R146 to R151), bays and bands (R16, R152), selection and loans (R156 to R163), and bands written
(R16, R18, R148, R161, R165). -/
namespace Sys2Proof.Machine

/-! ### Display timings -/

/-- The rate class of a rate code in Table 8.1: the integer rate its timing is listed for. -/
def rateClass : Nat → Nat
  | 0 => 24 | 1 => 24 | 2 => 25 | 3 => 30 | 4 => 30 | 5 => 48 | 6 => 50 | 7 => 60 | 8 => 60
  | 9 => 100 | 10 => 120 | _ => 120

/-- H total and pixel clock in kHz of a format at an integer rate; none where Table 8.1 has none. -/
def timingRow (fmt rate : Nat) : Option (Nat × Nat) :=
  match fmt, rate with
  | 1, 50 => some (1980, 74250) | 1, 60 => some (1650, 74250)
  | 2, 24 => some (2750, 74250) | 2, 25 => some (2640, 74250) | 2, 30 => some (2200, 74250)
  | 2, 48 => some (2750, 148500) | 2, 50 => some (2640, 148500) | 2, 60 => some (2200, 148500)
  | 2, 100 => some (2640, 297000) | 2, 120 => some (2200, 297000)
  | 5, 24 => some (5500, 297000) | 5, 25 => some (5280, 297000) | 5, 30 => some (4400, 297000)
  | 5, 48 => some (5500, 594000) | 5, 50 => some (5280, 594000) | 5, 60 => some (4400, 594000)
  | 5, 100 => some (5280, 1188000) | 5, 120 => some (4400, 1188000)
  | 6, 24 => some (5500, 297000) | 6, 25 => some (5280, 297000) | 6, 30 => some (4400, 297000)
  | 6, 48 => some (5500, 594000) | 6, 50 => some (5280, 594000) | 6, 60 => some (4400, 594000)
  | 7, 24 => some (11000, 1188000) | 7, 25 => some (10800, 1188000) | 7, 30 => some (9000, 1188000)
  | 7, 48 => some (11000, 2376000) | 7, 50 => some (10800, 2376000) | 7, 60 => some (9000, 2376000)
  | 7, 100 => some (10560, 4752000) | 7, 120 => some (8800, 4752000)
  | _, _ => none

/-- The timing of a display format at a rate code (Table 8.1). -/
def timingOf (fmt code : Nat) : Option Timing :=
  match fmt with
  | 3 => if code = 8 then some ⟨1920, 1200, 2000, 1235, 21, 8, 6, 148200000, false⟩ else none
  | 4 => if code = 8 then some ⟨2560, 1440, 2640, 1481, 27, 8, 6, 234590400, false⟩ else none
  | _ =>
    -- format 6 has no row for rate code 0; format 1 only codes 6, 7, 8
    if fmt = 6 ∧ code = 0 then none
    else match timingRow fmt (rateClass code) with
      | none => none
      | some (ht, khz) =>
        match fmt with
        | 1 => some ⟨1280, 720, ht, 750, 5, 5, 20, khz * 1000, false⟩
        | 2 => some ⟨1920, 1080, ht, 1125, 4, 5, 36, khz * 1000, false⟩
        | 5 => some ⟨3840, 2160, ht, 2250, 8, 10, 72, khz * 1000, false⟩
        | 6 => some ⟨4096, 2160, ht, 2250, 8, 10, 72, khz * 1000, false⟩
        | 7 =>
          if rateClass code = 25 ∨ rateClass code = 30 ∨ rateClass code = 50 ∨ rateClass code = 60 then
            some ⟨7680, 4320, ht, 4400, 16, 20, 44, khz * 1000, false⟩
          else some ⟨7680, 4320, ht, 4500, 16, 20, 144, khz * 1000, decide (9 ≤ code)⟩
        | _ => none

/-- The duration of `n` lines in ns, rounded down (R191). -/
def lineNs (tm : Timing) (code n : Nat) : Nat :=
  n * tm.ht * 1000000000 * periodNum code / (tm.clk * (if periodNum code = 1 then 1 else 1000))

/-- The line time of a timing at a rate code in ns, exactly (R191). -/
def lineTime (tm : Timing) (code : Nat) : Q :=
  ⟨tm.ht * 1000000000 * periodNum code, tm.clk * (if periodNum code = 1 then 1 else 1000)⟩

/-- Lines of vertical sync and back porch (R192). -/
def Timing.top (tm : Timing) : Nat := tm.vs + tm.vb

/-- Index of the object of output `o`. -/
def outIdx (o : Nat) : Nat := 0x3400 + o

/-- The wing that composes an output (R9). -/
def outWing (o : Nat) : Nat := if o < 64 then o / 16 else (o - 64) / 16

/-- The unit of an output: its DP port, or the wing that composes an IP output (R479). -/
def uOut (o : Nat) : Nat := if o < 64 then uDp (o / 4) else uWing (outWing o)

/-- The runtime record of an output. -/
def Dev.out (d : Dev) (o : Nat) : OutputRt := Tab.getD d.outputs o {}

def Dev.setOut (d : Dev) (o : Nat) (x : OutputRt) : Dev :=
  { d with outputs := Tab.setD d.outputs o x {} }

/-- An output is enabled. -/
def Dev.outOn (d : Dev) (o : Nat) : Bool := d.rdb (outIdx o) 1 && !d.wingDown (outWing o)

/-- The timing an output runs. -/
def Dev.timing (d : Dev) (o : Nat) : Option Timing := timingOf (d.rd (outIdx o) 2) (d.rd (outIdx o) 3)

/-- `n` lines of an output, in ns. -/
def Dev.lines (d : Dev) (o n : Nat) : Nat :=
  match d.timing o with
  | some tm => lineNs tm (d.rd (outIdx o) 3) n
  | none => 0

/-- The output runs in Racing mode. -/
def Dev.racing (d : Dev) (o : Nat) : Bool := d.rd (outIdx o) 6 == 1

/-- Active width and height of an output. -/
def Dev.outSize (d : Dev) (o : Nat) : Nat × Nat :=
  match d.timing o with
  | some tm => (tm.ha, tm.va)
  | none => (0, 0)

/-- Lines from T+0 of the tick that a raster frame begins in to its first active line (R192). -/
def Dev.topLines (d : Dev) (o : Nat) : Nat := d.rd (outIdx o) 4 + (d.timing o).elim 0 Timing.top

/-- The scheduled time of active row `y` in the raster frame of an output that begins in tick `n` (R167, R192). -/
def Dev.rowTime (d : Dev) (o n y : Nat) : Nat := d.tickTime (outWing o) n + d.lines o (d.topLines o + y)

/-! ### Canvases and regions -/

/-- The head list of a canvas: output, x, y (Table 6.1). -/
def Dev.heads (d : Dev) (c : Nat) : List (Nat × Nat × Nat) :=
  (chunks 8 (d.rdd (0x3480 + c) 4)).map fun r => (byteAt r 0, fieldAt r 2 2, fieldAt r 4 2)

/-- The enabled canvas that places an output, with the output's position on it (R132). -/
def Dev.canvasOf (d : Dev) (o : Nat) : Option (Nat × Nat × Nat) :=
  (List.range 64).findSome? fun c =>
    if d.rdb (0x3480 + c) 1 then
      ((d.heads c).find? fun h => h.1 == o).map fun h => (c, h.2.1, h.2.2)
    else none

/-- Index of the object of layer `l`. -/
def layIdx (l : Nat) : Nat := 0x3200 + l

/-- The runtime record of a layer. -/
def Dev.layer (d : Dev) (l : Nat) : LayerRt := Tab.getD d.layers l {}

def Dev.setLayer (d : Dev) (l : Nat) (x : LayerRt) : Dev :=
  { d with layers := Tab.setD d.layers l x {} }

/-- Home wing of a layer. -/
def Dev.layWing (d : Dev) (l : Nat) : Nat := d.rd (layIdx l) 3

/-- Size of a layer's content: its source's or its graphics slots' (R134). -/
def Dev.contentSize (d : Dev) (l : Nat) : Nat × Nat :=
  if d.rd (layIdx l) 2 = 0 then
    let n := srcIdx (d.rd (layIdx l) 6)
    (d.rd n 5, d.rd n 6)
  else (d.rd (layIdx l) 0x16, d.rd (layIdx l) 0x17)

/-- Crop rectangle of a layer; a width or height of 0 is the full one (R134). -/
def Dev.crop (d : Dev) (l : Nat) : Nat × Nat × Nat × Nat :=
  let (w, h) := d.contentSize l
  let i := layIdx l
  (d.rd i 7, d.rd i 8, if d.rd i 9 = 0 then w else d.rd i 9, if d.rd i 0x0A = 0 then h else d.rd i 0x0A)

/-- The part of a destination span that lies in `[lo, lo + n)`, relative to `lo`: start and length. -/
def clipSpan (pos : Int) (len lo n : Nat) : Nat × Nat :=
  let a := max pos lo
  let b := min (pos + len) (lo + n)
  if a < b then ((a - lo).toNat, (b - a).toNat) else (0, 0)

/-- A layer's visible rectangle on an output at (`hx`, `hy`) of its canvas: x, y, width, height. -/
def Dev.layerRect (d : Dev) (l o hx hy : Nat) : Nat × Nat × Nat × Nat :=
  let i := layIdx l
  let (w, h) := d.outSize o
  let (x, cw) := clipSpan (toSigned 32 (d.rd i 0x0B)) (d.rd i 0x0D) hx w
  let (y, ch) := clipSpan (toSigned 32 (d.rd i 0x0C)) (d.rd i 0x0E) hy h
  (x, y, cw, ch)

/-- Inserts a layer in stacking order: by z-order, then by number (R135). -/
def insertZ (z : Nat → Nat) (l : Nat) : List Nat → List Nat
  | [] => [l]
  | m :: r => if z l < z m then l :: m :: r else m :: insertZ z l r

/-- The layers that have a region on an output, in stacking order (R135). -/
def Dev.headLayers (d : Dev) (o : Nat) : List Nat :=
  match d.canvasOf o with
  | none => []
  | some (c, hx, hy) =>
    ((List.range 512).filter fun l =>
      d.rdb (layIdx l) 1 && d.rd (layIdx l) 4 == c &&
        (let r := d.layerRect l o hx hy; r.2.2.1 != 0 && r.2.2.2 != 0)).foldl
      (fun acc l => insertZ (fun m => d.rd (layIdx m) 5) l acc) []

/-- The freshness policy of a source (R169). -/
def Dev.policyOf (d : Dev) (n : Nat) : Nat :=
  if n < 128 then d.rd 0x34F0 (n + 1) else d.rd 0x34F1 (n - 127)

/-! ### Job lists -/

/-- Two halves of a descriptor word. -/
def word2 (hi lo : Nat) : Nat := hi % 65536 * 65536 + lo % 65536

/-- The descriptors of one layer in a generated list (R149). -/
def Dev.genLayer (d : Dev) (o hx hy reg l : Nat) : List Desc :=
  let i := layIdx l
  let kind := d.rd i 2
  let (cx, cy, cw, ch) := d.crop l
  let dx := toSigned 32 (d.rd i 0x0B) - hx
  let dy := toSigned 32 (d.rd i 0x0C) - hy
  let (dw, dh) := (d.rd i 0x0D, d.rd i 0x0E)
  let num := match kind with
    | 0 => d.rd i 6
    | 1 => l
    | _ => 0
  let mode := if kind = 1 then d.rd i 0x10 else 0
  let n := srcIdx (d.rd i 6)
  let (rx, ry, rw, rh) := d.layerRect l o hx hy
  let fetch : Desc :=
    { op := 1, region := reg
      w := [kind * 2 ^ 30 + num, word2 cx cy, word2 cw ch, word2 (ofSigned 16 dx) (ofSigned 16 dy),
            word2 dw dh, d.rd i 0x1D]
      place := some (dx, dy) }
  let scale : List Desc :=
    if kind = 2 ∨ (cw = dw ∧ ch = dh) then []
    else [{ op := 2, region := reg, w := [d.rd i 0x14] }]
  let colour : List Desc :=
    if d.rd i 0x11 = 1 then
      let m := d.rdd i 0x13
      let c := fun k => fieldAt m (2 * k) 2
      [{ op := 5, region := reg, w := (List.range 6).map fun k => word2 (c (2 * k + 1)) (c (2 * k)) }]
    else
      let conv : List Desc :=
        if kind = 0 then
          [{ op := 3, region := reg
             w := [(if d.rd n 8 = 2 then 256 else 0) + (if d.rd n 0x0A = 0 then 0 else 1)] }]
        else []
      conv ++ [{ op := 4, region := reg
                 w := [(if d.rd (outIdx o) 9 = 0 then 256 else 0) + d.rd i 0x12] }]
  let blend : Desc := { op := 6, region := reg, w := [mode * 65536 + d.rd i 0x0F] }
  let mark : List Desc :=
    if kind = 0 then
      [{ op := 9, region := reg
         w := [d.policyOf (d.rd i 6) * 256 + d.rd i 6, word2 rx ry, word2 rw rh] }]
    else []
  [fetch] ++ scale ++ colour ++ [blend] ++ mark

/-- The tail of every list: DITHER, CHECK, WRITE. -/
def genTail : List Desc := [{ op := 7 }, { op := 8 }, { op := 10, last := true }]

/-- The list that curator firmware generates for an output (R149). -/
def Dev.genList (d : Dev) (o : Nat) : List Desc :=
  match d.canvasOf o with
  | none => genTail
  | some (_, hx, hy) =>
    let ls := d.headLayers o
    ((List.range ls.length).flatMap fun r => d.genLayer o hx hy r (ls.getD r 0)) ++ genTail

/-- A descriptor from its 32 bytes (Table 6.4). -/
def parseDesc (b : List Byte) : Desc :=
  let v := fieldAt b 0 4
  { op := v / 2 ^ 28, plane := v / 2 ^ 25 % 4, region := v / 2 ^ 16 % 32, last := v.testBit 27
    w := (List.range 7).map fun k => fieldAt b (4 * k + 4) 4 }

/-- The descriptors of an integrator job list. -/
def Dev.jobDescs (d : Dev) (j : Nat) : List Desc :=
  (chunks 32 ((d.rdd (0x4000 + j) 1).drop 32)).map parseDesc

/-- Target kind and number in a job list's header (R146). -/
def Dev.jobTarget (d : Dev) (j : Nat) : Nat × Nat :=
  let b := d.rdd (0x4000 + j) 1
  (byteAt b 2, fieldAt b 4 2)

/-- The enabled integrator job list that replaces an output's generated list (R150). -/
def Dev.outputJob (d : Dev) (o : Nat) : Option Nat :=
  (List.range 256).find? fun j => d.rdb (0x4000 + j) 2 && d.jobTarget j == (0, o)

/-- Bands of 16 rows (R16). -/
def bandCount (h : Nat) : Nat := ceilDiv h 16

/-- The bays of a mask, from bay 0 upwards. -/
def maskBays (m : Nat) : List Nat := (List.range 8).filter fun b => m.testBit b

/-- The jobs of `n` bands over a bay mask: bay, first band, number of bands (R152). -/
def jobsOf (mask n : Nat) : List (Nat × Nat × Nat) :=
  let bays := maskBays mask
  let m := bays.length
  (List.range m).map fun i => (bays.getD i 0, i * n / m, (i + 1) * n / m - i * n / m)

/-- The bay of the wing and the shelf that run a band (R16, R152). -/
def bandPlace (mask n band : Nat) : Nat × Nat :=
  match (jobsOf mask n).find? fun j => decide (j.2.1 ≤ band) && decide (band < j.2.1 + j.2.2) with
  | some (bay, first, _) => (bay, (band - first) % 8)
  | none => (0, 0)

/-! ### Slots and loans -/

/-- Base of the home memory of a wing (R7, Table 1.6). -/
def homeBase (w : Nat) : Nat := if w < 2 then 0 else 0x800000000

/-- 4 KiB pages of a wing's home memory that the device may allocate: those of HB0 end where the firmware
region and the guardian region begin (R332, R450). -/
def homePages (w : Nat) : Nat := if w < 2 then 0x5F4000 else 0x600000

/-- Registered buffers other than graphics slots, by kind: 1 source frame, 2 output frame, 3 decoder
picture and bitstream, 4 encoder picture and bitstream (Table 15.5). The device chooses where they
lie. -/
def bufferBase (w kind n k : Nat) : Nat :=
  homeBase w + Config.bufferPlace kind n k % homePages w * 4096

/-- Bytes of an output's frame (R155). -/
def Dev.outBytes (d : Dev) (o : Nat) : Nat :=
  (d.outSize o).1 * (d.outSize o).2 * fmtBytes (d.rd (outIdx o) 0x0C)

/-- Row pitch and size of a slot (R137). -/
def Dev.slotGeom (d : Dev) (l : Nat) : Nat × Nat :=
  let i := layIdx l
  let pitch := ceilDiv (d.rd i 0x16 * fmtBytes (d.rd i 0x15)) 256 * 256
  (pitch, round4k (pitch * d.rd i 0x17))

/-- Frees a layer's slots: at once, or when the last loan returns (R137). -/
def Dev.freeSlots (d : Dev) (l : Nat) : Dev :=
  let x := d.layer l
  d.setLayer l { x with slots := [], next := none
                        old := x.old ++ x.slots.filter fun s => s.loans != 0 }

/-- Allocates and clears a graphics layer's slots: slot 0 CURRENT, the others IDLE, placed where the
device chooses in home memory (R137). -/
def Dev.allocSlots (d : Dev) (l : Nat) : Dev :=
  if d.rd (layIdx l) 2 ≠ 1 then d
  else
    let x := d.layer l
    let (pitch, size) := d.slotGeom l
    let mk := fun k =>
      { num := k, gen := x.gen + 1, state := if k = 0 then 2 else 0, pitch := pitch, size := size, fmt := d.rd (layIdx l) 0x15
        base := homeBase (d.layWing l) +
          Config.place (l * 4 + k) (x.gen + 1) % (homePages (d.layWing l) - size / 4096) * 4096 : Slot }
    d.setLayer l { x with gen := x.gen + 1, slots := (List.range (d.rd (layIdx l) 0x18)).map mk }

/-- Changes the slots of a layer that match a number and an allocation. -/
def LayerRt.updSlot (x : LayerRt) (k g : Nat) (f : Slot → Slot) : LayerRt :=
  let h := fun s => if s.num = k ∧ s.gen = g then f s else s
  { x with slots := x.slots.map h, old := x.old.map h }

/-- A slot enters a state; its period of blocked writes starts again (R164). -/
def Slot.enter (s : Slot) (st : Nat) : Slot := { s with state := st, told := false }

/-- Takes a loan (R160). -/
def Dev.takeLoan (d : Dev) : Loan → Dev
  | .source n b => d.lend n b
  | .slot l k g => d.setLayer l ((d.layer l).updSlot k g fun s => { s with loans := s.loans + 1 })
  | .frame o c b => d.setOut o { d.out o with lent := (d.out o).lent ++ [(c, b)] }

/-- Returns a loan (R161): a RETIRING slot without loans is IDLE, a freed one is gone (Table 6.7). -/
def Dev.returnLoan (d : Dev) : Loan → Dev
  | .source n b => d.unlend n b
  | .slot l k g =>
    let x := (d.layer l).updSlot k g fun s =>
      let s := { s with loans := s.loans - 1 }
      if s.state = 3 ∧ s.loans = 0 then s.enter 0 else s
    d.setLayer l { x with old := x.old.filter fun s => s.loans != 0 }
  | .frame o c b => d.setOut o { d.out o with lent := (d.out o).lent.erase (c, b) }

/-- Makes slot `k` of a layer CURRENT; the former current slot retires (Table 6.7, R163). -/
def Dev.makeCurrent (d : Dev) (l k : Nat) : Dev :=
  let x := d.layer l
  d.setLayer l { x with slots := x.slots.map fun s =>
    if s.num = k then (if s.state = 2 then s else s.enter 2)
    else if s.state = 2 then s.enter (if s.loans = 0 then 0 else 3) else s }

/-- LAYER_CLAIM's effect (R162); a refusal raises CLAIM_REFUSED (Table 6.11). -/
def Dev.claimSlot (d : Dev) (l k : Nat) : Res :=
  let i := layIdx l
  let no := fun st => (d.event (uWing (d.layWing l)) 0x0605 l k).res st
  if d.rd i 0x1B = 1 ∨ (d.layer l).slots = [] then no stWrongState
  else match (d.layer l).slots.find? fun s => s.num == k with
    | none => no stRange
    | some s =>
      if s.state = 2 ∨ s.state = 3 then no stOnLoan
      else
        (d.setLayer l ((d.layer l).updSlot k s.gen fun s =>
          if s.state = 1 then s else s.enter 1)).res stOk

/-- A slot number written to 0x3200+l:1A; a claim that fails now is refused now, in Duplex protection too
(R162). -/
def Dev.claimWrite (d : Dev) (by_ : Requester) (layer slot : Nat) : Res :=
  let a := d.commandStatus by_ (layIdx layer) 0x1A (leBytes 1 slot)
  let r := d.claimSlot layer slot
  if a ≠ stOk then d.res a
  else if r.st ≠ stOk then r
  else d.command by_ (layIdx layer) 0x1A (leBytes 1 slot) (·.claimSlot layer slot)

/-- LAYER_CLAIM. -/
def execLayerClaim (t : Nat) (by_ : Requester) (layer slot : Nat) (s : State) :
    Host.Outcome State Fault Refusal :=
  onCommand t by_ (·.claimWrite by_ layer slot) s

/-! ### Selection -/

/-- A source's entry with its class, its hold and the limits of its policy at the selection (R168, R169, R174; Table
7.8). -/
def Dev.withLimits (d : Dev) (e : SrcRec) : SrcRec :=
  let p := d.policyOf e.source
  let j := 0x34C0 + p
  let c := d.rd (srcIdx e.source) 7
  { e with
    cls := d.rd (srcIdx e.source) 4, policy := p, held := d.holdBit e.source
    stale := d.rd j 1 * periodNum c * 1000000000 / periodDen c + d.rd j 2 * 1000000
    frozen := d.rd j 3, tokenLim := d.rd j 4 * 1000000, blank := d.rd j 5 * 1000000000
    recovery := d.rd j 6 }

/-- What a selection records of a source (R160, R167). -/
def Dev.srcRec (d : Dev) (n : Nat) : SrcRec :=
  match d.srcFrame n with
  | some (b, f) =>
    d.withLimits { source := n, buf := some b, seq := f.seq, capture := f.capture, run := f.run
                   adv := f.adv, complete := f.complete, flags := f.flags, gen := f.gen, crc := f.crc }
  | none => d.withLimits { source := n }

/-- The loan of a FETCH: the source's selected frame, or the layer's CURRENT slot (R160). -/
def Dev.fetchLoan (d : Dev) (f : Desc) : Option Loan :=
  let num := f.word 1 % 65536
  match f.word 1 / 2 ^ 30 with
  | 0 => (d.srcFrame num).map fun b => .source num b.1
  | 1 => ((d.layer num).slots.find? fun s => s.state == 2).map fun s => .slot num s.num s.gen
  | _ => none

/-- The loans of a list, one for each buffer it names (R160). -/
def Dev.listLoans (d : Dev) (ds : List Desc) : List Loan :=
  (ds.filter (·.op == 1)).foldl (fun acc f =>
    match d.fetchLoan f with
    | some l => if acc.contains l then acc else acc ++ [l]
    | none => acc) []

/-- The slot record entries of a layer's current slot (R178). -/
def Dev.slotRecs (d : Dev) (l : Nat) : List SrcRec :=
  match (d.layer l).slots.find? fun s => s.state == 2 with
  | some s => if s.byJob then s.recs.map d.withLimits else []
  | none => []

/-- Age in µs of content captured at `c` and shown at `t1`, rounded up (R167). -/
def ageUs (t1 c : Nat) : Nat := ceilDiv (t1 - c) 1000

/-- The conditions of one entry at `t1` (Table 7.2); bits 0 to 4, and bit 7 for a capture time from
arrival or clamped. -/
def SrcRec.conds (e : SrcRec) (gen t1 : Nat) : Nat :=
  match e.buf with
  | none => 16 + (if e.held then 4 else 0)
  | some _ =>
    let age := ageUs t1 e.capture
    let blank := e.blank != 0 && decide (e.blank < age * 1000)
    let stale := decide (e.stale < age * 1000) || decide (e.gen < gen)
    let frozen :=
      if e.cls = 0 then decide (e.frozen ≤ e.run)
      else if e.cls ≠ 1 then false
      else match e.adv with
        | none => true
        | some a => decide (e.tokenLim < t1 - a)
    (if stale then 1 else 0) + (if frozen then 2 else 0) + (if e.held then 4 else 0) +
      (if !e.complete || e.impaired then 8 else 0) + (if blank then 16 else 0) +
      (if e.flags % 4 != 0 then 128 else 0)

/-- A region is without signal at `t1`: an entry had no published frame, or is older than its blank limit (Table 7.2,
R178). -/
def Region.noSignal (r : Region) (gen t1 : Nat) : Bool := r.recs.any fun e => (e.conds gen t1).testBit 4

/-- The region of a layer on an output (R135, R166, R182). -/
def Dev.layerRegion (d : Dev) (o hx hy r l : Nat) : Region :=
  let i := layIdx l
  let (x, y, w, h) := d.layerRect l o hx hy
  let kind := match d.rd i 2 with
    | 0 => 0
    | 1 => if d.rd i 0x1B = 1 then 2 else 1
    | _ => 3
  let n := d.rd i 6
  { num := r, layer := l, kind := kind, policy := if kind = 0 then d.policyOf n else 0
    x := x, y := y, w := w, h := h
    isOpaque := (d.rd i 0x10 == 0 || d.rd i 2 != 1) && d.rd i 0x0F == 4096
    canvas := d.rd i 4, z := d.rd i 5
    recs := match kind with
      | 0 => [d.srcRec n]
      | 2 => d.slotRecs l
      | _ => [] }

/-- The regions of an integrator list's target, from its FETCH, BLEND and MARK descriptors. -/
def Dev.jobRegions (d : Dev) (w h : Nat) (ds : List Desc) : List Region :=
  (ds.filter (·.op == 1)).map fun f =>
    let num := f.word 1 % 65536
    let k := f.word 1 / 2 ^ 30
    let blend := (ds.find? fun e => e.op == 6 && e.region == f.region).getD { op := 6 }
    let mark := ds.find? fun e => e.op == 9 && e.region == f.region
    let (x, cw) := clipSpan (toSigned 16 (f.hi 4)) (f.hi 5) 0 w
    let (y, ch) := clipSpan (toSigned 16 (f.lo 4)) (f.lo 5) 0 h
    let recs := match k with
      | 0 => [d.srcRec num]
      | 1 => d.slotRecs num
      | _ => []
    { num := f.region, layer := if k = 1 then num else 0
      kind := match k with
        | 0 => 0
        | 1 => if recs.isEmpty then 1 else 2
        | _ => 3
      policy := match mark with
        | some m => m.word 1 / 256 % 256
        | none => 0
      x := match mark with
        | some m => m.hi 2
        | none => x
      y := match mark with
        | some m => m.lo 2
        | none => y
      w := match mark with
        | some m => m.hi 3
        | none => cw
      h := match mark with
        | some m => m.lo 3
        | none => ch
      isOpaque := (blend.word 1 / 65536 % 4 == 0 || k != 1) && blend.word 1 % 8192 == 4096
      recs := recs, byList := true }

/-- The tick in which the raster frame begins that a Racing selection at this instant feeds: the selection lies at its
lead before the first active line, to the ns counts on both sides (R157, R192, log entry 142). -/
def Dev.racingFrame (d : Dev) (o : Nat) : Option Nat :=
  match d.timing o with
  | none => none
  | some tm =>
    let lead := d.rd (outIdx o) 7
    let at_ := d.topLines o
    let t := lineTime tm (d.rd (outIdx o) 3)
    let n := d.tickOf (outWing o) (d.now + 2 + d.lines o lead - d.lines o at_)
    if ((Q.ofNat d.now).add (t.mul lead)).near 2 ((Q.ofNat (d.tickTime (outWing o) n)).add (t.mul at_)) then some n else none

/-- Objects that a layer's content is drawn with, by index: its source or its writer job list, its colour table and its
custom filter sets (Table 7.6). -/
def Dev.layerReads (d : Dev) (l : Nat) : List Nat :=
  let i := layIdx l
  let set := fun s => if 4 ≤ s then [0x4840 + s % 8 - 4] else []
  (if d.rd i 2 = 0 then [srcIdx (d.rd i 6)]
   else if d.rd i 2 = 1 ∧ d.rd i 0x1B = 1 then [0x4000 + d.rd i 0x1C] else []) ++
    [i, 0x4800 + d.rd i 0x12 % 64] ++ set (d.rd i 0x14 % 16) ++ set (d.rd i 0x14 / 16 % 16)

/-- Objects that a composition reads, by index (Table 7.6): its output, canvas, the canvas's layers with what they show
and are drawn with, and its job list with what its descriptors name; the policies of all entries of its regions. -/
def Dev.objsRead (d : Dev) (o : Nat) (ds : List Desc) (rs : List Region) (encTable : Nat) : List Nat :=
  let canvas := match d.canvasOf o with
    | some (c, _) => (0x3480 + c) ::
        ((List.range 512).filter fun l => d.rdb (layIdx l) 1 && d.rd (layIdx l) 4 == c).flatMap d.layerReads
    | none => []
  let job := match d.outputJob o with
    | some j => [0x4000 + j]
    | none => []
  [outIdx o, 0x4800 + encTable % 64, 0x34F0, 0x34F1, 0x34F2, 0x34F3, 0x34F4] ++ canvas ++ job ++
    (rs.flatMap fun r => (0x34C0 + r.policy) :: r.recs.map fun e => 0x34C0 + e.policy) ++
    ds.flatMap fun e =>
      let w := e.w.getD 0 0
      if e.op = 1 then
        if w / 2 ^ 30 = 0 then [srcIdx (w % 256)] else if w / 2 ^ 30 = 1 then d.layerReads (w % 512) else []
      else if e.op = 2 then
        (if 4 ≤ w % 16 then [0x4840 + w % 8 - 4] else []) ++ (if 4 ≤ w / 16 % 16 then [0x4840 + w / 16 % 8 - 4] else [])
      else if e.op = 4 then [0x4800 + w % 64]
      else []

/-- The Batch field of a composition's ledger entry: the highest number of a batch applied to an object that
it reads (Table 7.6). -/
def Dev.compBatch (d : Dev) (is : List Nat) : Nat := is.foldl (fun m i => max m (Tab.getD d.batchOf i 0)) 0

/-- The colour tables that a list and its target's encoding name, as they stand (R36). -/
def Dev.lutsNow (d : Dev) (ds : List Desc) (enc : Nat) : Tab (List Byte) :=
  (((ds.filter fun (e : Desc) => e.op == 4).map fun (e : Desc) => e.word 1 % 64) ++ [enc % 64]).foldl
    (fun m t => Tab.insert m t (d.rdd (0x4800 + t) 1)) []

/-- The custom filter sets that a list names, as they stand (R36). -/
def Dev.filtersNow (d : Dev) (ds : List Desc) : Tab (List Byte) :=
  (((ds.filter fun e => e.op == 2).flatMap fun (e : Desc) => [e.word 1 % 16, e.word 1 / 16 % 16]).filter (4 ≤ ·)).foldl
    (fun m t => Tab.insert m t (d.rdd (0x4840 + (t - 4)) 1)) []

/-- The marks that a marking list written now carries, with a placement (R183). -/
def Dev.marksNow (d : Dev) (place : Nat) : MarkSet :=
  { colours := (List.range 17).map fun s => d.rd 0x34F2 (s + 1)
    legends := if d.rd 0x34F5 2 = 1 then d.rdd 0x34F5 1 else [], place := place }

/-- An enabled encoder channel takes an output as its input: as kind 0, or as a head of the canvas that its rectangle
covers (R155, Table 9.1). -/
def Dev.encTakesOutput (d : Dev) (o : Nat) : Bool :=
  (List.range 16).any fun c =>
    let i := 0x3500 + c
    d.rdb i 1 &&
      ((d.rd i 6 == 0 && d.rd i 7 == o) ||
        (d.rd i 6 == 1 && (d.heads (d.rd i 7)).any fun h =>
          h.1 == o && decide (h.2.1 < d.rd i 8 + d.rd i 0x0A) && decide (d.rd i 8 < h.2.1 + (d.outSize o).1) &&
            decide (h.2.2 < d.rd i 9 + d.rd i 0x0B) && decide (d.rd i 9 < h.2.2 + (d.outSize o).2)))

/-- Frame buffers of an output (R155). -/
def Dev.bufCount (d : Dev) (o : Nat) : Nat := (if d.racing o then 1 else 2) + (d.encTakesOutput o).toNat

/-- The frame buffer that scan-out reads: that of the raster frame until its last active line has passed. -/
def Dev.scanBuf (d : Dev) (o : Nat) : Option Nat :=
  (d.out o).raster.bind fun r => r.comp.bind fun c =>
    let last := r.tm.elim 0 fun tm => lineNs tm r.code (r.offset + tm.top + tm.va)
    if d.now < r.base + last then some c.buf else none

/-- The frame buffer that a selected composition writes: in Racing mode the one that is scanned out; else one that is
neither scanned out nor on loan, and if it can one that no frame still to be shown lies in (R155, log entry 143). -/
def Dev.chooseBuf (d : Dev) (o : Nat) : Nat :=
  let x := d.out o
  if d.racing o then x.shown.elim 0 (·.buf)
  else
    let free := (List.range (d.bufCount o)).filter fun b => d.scanBuf o != some b && !x.lent.any fun e => e.2 == b
    ((free.find? fun b => !x.ready.any fun c => c.buf == b).orElse fun _ => free.head?).getD 0

/-- The composition that an output selects now, in tick `k` of its wing (R150, R152, R156, R157). -/
def Dev.outputComp (d : Dev) (o k : Nat) : Comp :=
  let d := d.seenBy (outWing o)
  let i := outIdx o
  let (w, h) := d.outSize o
  let led := d.ledBy (outWing o)
  let job := d.outputJob o
  let ds := match job with
    | some j => d.jobDescs j
    | none => led.genList o
  let hdr := match job with
    | some j => d.rdd (0x4000 + j) 1
    | none => []
  let regs := match job, led.canvasOf o with
    | some j, _ => d.jobRegions w h (d.jobDescs j)
    | none, some (_, hx, hy) =>
      let ls := led.headLayers o
      (List.range ls.length).map fun r => led.layerRegion o hx hy r (ls.getD r 0)
    | none, none => []
  let bg := match job, led.canvasOf o with
    | some _, _ => fieldAt hdr 8 4
    | none, some (c, _) => led.rd (0x3480 + c) 5
    | none, none => 0
  let enc := if job.isSome then byteAt hdr 12 else led.rd i 0x0A
  let work := if d.racing o then (d.racingFrame o).getD k else k
  let feeds := if d.racing o then work else k + 1
  { id := d.compId + 1, target := o, tick := k, racing := d.racing o, selAt := d.now, work := work
    luts := d.lutsNow ds enc, filters := d.filtersNow ds, marks := d.marksNow (d.rd 0x34F3 (o + 1))
    due := if d.racing o then d.rowTime o work 0 else d.tickTime (outWing o) (k + 1)
    line := if d.racing o then (d.timing o).elim ⟨0, 1⟩ fun tm => lineTime tm (d.rd i 3) else ⟨0, 1⟩
    buf := d.chooseBuf o
    wing := outWing o, mask := d.rd i 8, width := w, height := h, fmt := d.rd i 0x0C
    linear := d.rd i 9 == 1, background := bg
    encTable := enc, depth := d.rd i 0x0D, descs := ds, loans := d.listLoans ds
    regions := regs.map fun r => { r with dark := r.noSignal (d.rd 0x2200 0x0A) (d.rowTime o feeds r.y) }
    released := if d.racing o then [] else List.range (bandCount h), batch := d.compBatch (d.objsRead o ds regs enc)
    job := job }

/-- Selects for an output: loans are taken and the composition begins (R160). -/
def Dev.selectOutput (d : Dev) (o k : Nat) : Dev :=
  let c := d.outputComp o k
  let d := c.loans.foldl Dev.takeLoan d
  let x := d.out o
  { d.setOut o { x with comps := x.comps ++ [c] } with compId := d.compId + 1 }

/-- A writer job list selects: the layer's lowest IDLE slot is CLAIMED; without one the list does not
run in this tick (R151). -/
def Dev.selectLayer (d : Dev) (l j k : Nat) : Dev :=
  match (d.layer l).slots.find? fun s => s.state == 0 with
  | none => d.raise (uWing (d.layWing l)) 0x0604 l j sevDegraded
  | some s =>
    let i := layIdx l
    let ds := d.jobDescs j
    let hdr := d.rdd (0x4000 + j) 1
    let (w, h) := (d.rd i 0x16, d.rd i 0x17)
    let c : Comp :=
      { id := d.compId + 1, isLayer := true, target := l, tick := k, work := k, selAt := d.now, slot := s.num
        gen := s.gen, wing := d.layWing l, mask := d.rd (0x4000 + j) 3, width := w, height := h
        fmt := d.rd i 0x15, background := fieldAt hdr 8 4, encTable := byteAt hdr 12, descs := ds
        luts := (d.seenBy (d.layWing l)).lutsNow ds (byteAt hdr 12), filters := (d.seenBy (d.layWing l)).filtersNow ds
        due := d.tickTime (d.layWing l) (k + 1)
        regions := (d.seenBy (d.layWing l)).jobRegions w h ds, loans := d.listLoans ds
        released := List.range (bandCount h), job := some j }
    let d := c.loans.foldl Dev.takeLoan d
    let d := d.setLayer l ((d.layer l).updSlot s.num s.gen (·.enter 1))
    { d with compId := d.compId + 1, layerComps := d.layerComps ++ [c] }

/-! ### Bands -/

/-- BAND_RELEASE: a Racing band is released at its deadline minus the lead (R158). -/
def execBandRelease (t o band : Nat) (s : State) : Host.Outcome State Fault Refusal :=
  onDev t (fun d =>
    let x := d.out o
    match x.comps.find? fun c =>
        c.racing && !c.released.contains band && decide (band < bandCount c.height) &&
          decide (c.selAt + d.lines o (16 * band) ≤ d.now) with
    | some c =>
      let c' := { c with released := c.released ++ [band], readyAt := Tab.insert c.readyAt band d.now }
      d.setOut o { x with comps := x.comps.map fun e => if e.id = c.id then c' else e }
    | none => d) s

/-! ### Bands in order of their deadlines (R153) -/

/-- A band of a composition is ready: released and not written. -/
def Comp.ready (c : Comp) (band : Nat) : Bool := c.released.contains band && !c.written.contains band

/-- When a band of a composition became ready: with its selection, or a Racing band with its release. -/
def Comp.since (c : Comp) (band : Nat) : Nat := if c.racing then Tab.getD c.readyAt band 0 else c.selAt

/-- A band's deadline: the scan-out time of a Racing band's first row, T+0 of the next tick otherwise (R153). -/
def Comp.deadline (c : Comp) (band : Nat) : Nat := c.due + (c.line.mul (16 * band)).floor

/-- A band stands before another on a shelf: by deadline, then output number, then band number (R153); a layer counts
after the outputs (log entry 144). -/
def bandBefore (a b : Comp × Nat) : Bool :=
  let key := fun (e : Comp × Nat) => (e.1.deadline e.2, e.1.target + (if e.1.isLayer then 128 else 0), e.2, e.1.id)
  let (x, y) := (key a, key b)
  decide (x.1 < y.1) || x.1 == y.1 && (decide (x.2.1 < y.2.1) || x.2.1 == y.2.1 &&
    (decide (x.2.2.1 < y.2.2.1) || x.2.2.1 == y.2.2.1 && decide (x.2.2.2 < y.2.2.2)))

/-- The compositions that the bays of a wing work on. -/
def Dev.wingComps (d : Dev) (w : Nat) : List Comp :=
  ((List.range 128).filter fun o => outWing o == w).flatMap (fun o => (d.out o).comps) ++
    d.layerComps.filter fun c => c.wing == w

/-- The ready bands of a shelf. -/
def Dev.shelfBands (d : Dev) (w bay shelf : Nat) : List (Comp × Nat) :=
  (d.wingComps w).flatMap fun c =>
    let n := bandCount c.height
    ((List.range n).filter fun b => c.ready b && bandPlace c.mask n b == (bay, shelf)).map fun b => (c, b)

/-- Key of a shelf in `shelfIdle`. -/
def shelfKey (w bay shelf : Nat) : Nat := w * 64 + bay * 8 + shelf

/-- The band that a shelf runs: it took the first in order of those that were ready when it finished its previous one,
or else when the next became ready, and a started band is not interrupted (R153). -/
def Dev.running (d : Dev) (w bay shelf : Nat) : Option (Comp × Nat) :=
  let l := d.shelfBands w bay shelf
  let idle := Tab.getD d.shelfIdle (shelfKey w bay shelf) 0
  let first := fun (es : List (Comp × Nat)) => es.foldl
    (fun m e => some (m.elim e fun x => if bandBefore e x then e else x)) (none : Option (Comp × Nat))
  match (l.map fun e => e.1.since e.2).min? with
  | none => none
  | some next => first (l.filter fun e => decide (e.1.since e.2 ≤ max idle next))

/-- The composition of a target whose band its shelf runs (R37, R153, R154). -/
def Dev.bandComp (d : Dev) (cs : List Comp) (band : Nat) : Option Comp :=
  cs.find? fun c => c.ready band &&
    (let (bay, shelf) := bandPlace c.mask (bandCount c.height) band
     (d.running c.wing bay shelf).any fun e => e.1.id == c.id && e.2 == band)

/-- A shelf has finished a band. -/
def Dev.bandDone (d : Dev) (c : Comp) (band : Nat) : Dev :=
  let (bay, shelf) := bandPlace c.mask (bandCount c.height) band
  { d with shelfIdle := Tab.setD d.shelfIdle (shelfKey c.wing bay shelf) d.now 0 }

/-- The regions of a composition that overlap a band (R18). -/
def Comp.bandRegions (c : Comp) (band : Nat) : List Nat :=
  (c.regions.filter fun r => decide (r.y < 16 * band + 16) && decide (16 * band < r.y + r.h)).map (·.num)

/-- The pixels of a band, composed and stored (R136 to R145, R148). -/
def Dev.bandPixels (d : Dev) (mem : Mem) (c : Comp) (band : Nat) : Tab Nat :=
  let rows := min 16 (c.height - 16 * band)
  (List.range (rows * c.width)).foldl (fun p k =>
    let x := k % c.width
    let y := 16 * band + k / c.width
    Tab.setD p (y * c.width + x) (d.composePx mem c x y) 0) c.pix

/-- A composition with one more band written: its pixels, and the impairments that the band's checks
and fetches found (R18, R165, R175). -/
def Dev.writeBand (d : Dev) (mem : Mem) (c : Comp) (band : Nat) (b : BandObs) : Comp :=
  let bad := (if b.fault = 0 then [] else c.bandRegions band) ++ b.stampMismatch ++ b.poisoned
  { c with
    written := c.written ++ [band]
    impaired := c.impaired ++ bad
    bandFlags := if c.racing then c.bandFlags ++ bad.map fun r => (band, r) else c.bandFlags
    pix := d.bandPixels mem c band }

/-- Reports of a band: SHELF_FAULT (R18, R15) and SEQUENCE_MISMATCH (R165), against the bay. Parameter 1 of the
latter, which Table 6.11 calls the output, is the layer's number where the composition goes to a graphics layer
(DESIGN CHOICE, log entry 144). -/
def Dev.bandReports (d : Dev) (c : Comp) (band : Nat) (b : BandObs) : Dev :=
  let (bay, shelf) := bandPlace c.mask (bandCount c.height) band
  let u := uBay (c.wing * 8 + bay)
  let d := if b.fault = 0 then d
    else d.report { unit := u, code := 0x0101, p1 := shelf + b.leaf % 256 * 256, p2 := b.fault
                    sev := sevDegraded, time := d.now }
  b.stampMismatch.foldl (fun d r => d.raise u 0x0602 c.target r sevDegraded) d

/-- A run of an integrator job list is complete (0x4000+j:06). -/
def Dev.jobRun (d : Dev) : Option Nat → Dev
  | some j => d.wr (0x4000 + j) 6 ((d.rd (0x4000 + j) 6 + 1) % 2 ^ 64)
  | none => d

/-- All bands of a composition are written. -/
def Comp.complete (c : Comp) : Bool := decide (bandCount c.height ≤ c.written.length)

/-- The stored bytes of a written band, in a target at `base` with a row pitch (R148, R151, R155). -/
def Comp.storeBand (c : Comp) (base pitch band : Nat) (mem : Mem) : Mem :=
  let n := fmtBytes c.fmt
  (List.range (min 16 (c.height - 16 * band) * c.width)).foldl (fun m k =>
    let y := 16 * band + k / c.width
    m.writeBytes (base + y * pitch + k % c.width * n) (leBytes n (c.at (k % c.width) y))) mem

/-- Where a composition of an output stores its frame: base and row pitch (R155). -/
def Comp.place (c : Comp) : Nat × Nat := (bufferBase c.wing 2 c.target c.buf, c.width * fmtBytes c.fmt)

/-- BAND_WRITTEN on an output: the band lies in the output's buffer, and at the last band the frame is published with
its check value and its loans return (R148, R155, R156, R161). -/
def Dev.outputBand (d : Dev) (mem : Mem) (o band : Nat) (b : BandObs) : Dev × Mem :=
  let x := d.out o
  match d.bandComp x.comps band with
  | none => (d, mem)
  | some c =>
    let c' := d.writeBand mem c band b
    let d := (d.bandReports c band b).bandDone c band
    let mem := c'.storeBand c.place.1 c.place.2 band mem
    let put := fun (c' : Comp) (x : OutputRt) =>
      { x with
        comps := x.comps.map fun e => if e.id = c'.id then c' else e
        raster := x.raster.map fun r =>
          if r.comp.any (fun e => e.id == c'.id) then { r with comp := some c' } else r }
    if c'.complete then
      let c' := { c' with crc := crc32c c'.bytes }
      let d := (c'.loans.foldl Dev.returnLoan d).jobRun c.job
      let x := put c' (d.out o)
      if c'.racing then
        let fed := decide (c'.id ≤ x.lastFed)
        (d.setOut o { x with
          shown := if fed then some c' else x.shown
          comps := if fed then x.comps.filter (·.id != c'.id) else x.comps }, mem)
      else (d.setOut o { x with comps := x.comps.filter (·.id != c'.id), ready := x.ready ++ [c'] }, mem)
    else (d.setOut o (put c' (d.out o)), mem)

/-- The slot that a composition of a layer writes. -/
def Dev.compSlot (d : Dev) (c : Comp) : Option Slot :=
  ((d.layer c.target).slots ++ (d.layer c.target).old).find? fun s => s.num == c.slot && s.gen == c.gen

/-- BAND_WRITTEN on a graphics layer: at the last band the slot has its record and waits for the next
T+0 (R151, R178). -/
def Dev.layerBand (d : Dev) (mem : Mem) (l band : Nat) (b : BandObs) : Dev × Mem :=
  match d.bandComp (d.layerComps.filter fun c => c.target == l) band with
  | none => (d, mem)
  | some c =>
    let c' := d.writeBand mem c band b
    let d := (d.bandReports c band b).bandDone c band
    let mem := match d.compSlot c with
      | some s => c'.storeBand s.base s.pitch band mem
      | none => mem
    if c'.complete then
      let d := c'.loans.foldl Dev.returnLoan d
      let recs := c'.regions.flatMap fun r =>
        r.recs.map fun e => { e with impaired := e.impaired || c'.impaired.contains r.num }
      let x := (d.layer l).updSlot c.slot c.gen fun s =>
        { s with byJob := true, recs := recs, seq := c.tick }
      let cur := x.slots.any fun s => s.num == c.slot && s.gen == c.gen
      let d := d.setLayer l (if cur then { x with next := some c.slot } else x)
      let d := d.jobRun c.job
      ({ d with layerComps := d.layerComps.filter (·.id != c.id) }, mem)
    else
      ({ d with layerComps := d.layerComps.map fun e => if e.id = c.id then c' else e }, mem)

end Sys2Proof.Machine
end

