-- ==== Sys2Proof/Machine/Fresh.lean ====
section
/-! DEFINITION. Freshness: the evaluation of regions (R166 to R179), the marking geometry and the
Elytron plane (R175, R176, R180 to R184), and the source summary (R179). -/
namespace Sys2Proof.Machine

/-! ### Evaluation -/

/-- Condition bits of Table 7.7 that bear on a state. -/
def condState (c : Nat) : Nat :=
  if c.testBit 4 then 5 else if c.testBit 2 then 3 else if c.testBit 3 then 4
  else if c.testBit 1 then 2 else if c.testBit 0 then 1 else 0

/-- Rank of a state: its place in the order of precedence of Table 7.2, the highest first. -/
def stateRank : Nat → Nat
  | 5 => 5 | 3 => 4 | 4 => 3 | 2 => 2 | 1 => 1 | _ => 0

/-- Place of a region among the histories of its output or channel: its layer, or, for a region of an integrator
list, 512 and its number (R171). -/
def Region.slot (r : Region) : Nat := if r.byList then 512 + r.num else r.layer

/-- The history of a region, per output or channel; `key` is output × 1,024 + the region's place, and channels follow
the outputs. -/
def Dev.history (d : Dev) (key : Nat) : History := Tab.getD d.hist key {}

def Dev.setHistory (d : Dev) (key : Nat) (h : History) : Dev :=
  { d with hist := Tab.setD d.hist key h {} }

/-- The state of a region after a raster frame in which state `raw` results from its conditions, with
recovery over `r` frames (R171): the new history, the state shown, and whether it is recovering. -/
def History.advance (h : History) (raw r : Nat) : History × Nat × Bool :=
  if raw = 5 ∨ raw = 3 then
    let back := if h.state = 5 ∨ h.state = 3 then h.back else h.state
    ({ h with state := raw, back := back, clean := 0 }, raw, false)
  else
    let prev := if h.state = 5 ∨ h.state = 3 then h.back else h.state
    if raw = 0 ∧ prev ≠ 0 then
      if h.clean + 1 < r then ({ h with state := prev, clean := h.clean + 1 }, prev, true)
      else ({ h with state := 0, clean := 0 }, 0, false)
    else ({ h with state := raw, clean := 0 }, raw, false)

/-- The entry of a region that decides its state: the one of highest precedence, or, where all are
LIVE, the one with the oldest capture time (R178). -/
def decidingEntry (gen t1 : Nat) : List SrcRec → Option SrcRec
  | [] => none
  | e :: rest =>
    match decidingEntry gen t1 rest with
    | none => some e
    | some f =>
      let a := stateRank (condState (e.conds gen t1))
      let b := stateRank (condState (f.conds gen t1))
      if b < a then some e
      else if a < b then some f
      else if a = 0 then (if e.capture ≤ f.capture then some e else some f) else some e

/-- The evaluation of a region in a raster frame whose first row of the region is at `t1` (R166 to
R171, R178): every condition that holds for one of its entries, and the deciding entry's stamp. `impaired`: a fault, a
mismatch or poison was found in it (Table 7.2). -/
def Dev.evalRegion (d : Dev) (key : Nat) (r : Region) (t1 : Nat) (impaired : Bool) : RegEval × Dev :=
  let gen := d.rd 0x2200 0x0A
  match decidingEntry gen t1 r.recs with
  | none =>
    ({ num := r.num, state := 0xFF, conds := 0, kind := r.kind, policy := 0, layer := r.layer
       source := 0xFFFF, seq := 0, capture := 0, age := 0, firstRow := r.y, slot := r.slot },
     d.setHistory key { d.history key with state := 0, back := 0, clean := 0, kind := 0, source := 0, banded := false })
  | some e =>
    let held := r.recs.foldl (fun c x => c ||| x.conds gen t1 % 32) 0
    let c0 := held + e.conds gen t1 / 128 * 128
    let c := if impaired && !c0.testBit 3 then c0 + 8 else c0
    let old := d.history key
    -- R171: the history restarts when the layer's source, kind or canvas changes
    let sigSrc := if r.kind = 0 then e.source + 1 else 0
    let h := if old.source = sigSrc ∧ old.kind = r.kind + 1 ∧ old.canvas = r.canvas then old
      else { old with source := sigSrc, kind := r.kind + 1, canvas := r.canvas
                      state := 0, back := 0, clean := 0, banded := false }
    let (h', st, rec_) := h.advance (condState c) e.recovery
    ({ num := r.num, state := st, conds := c + (if rec_ then 32 else 0), kind := r.kind
       policy := e.policy, layer := r.layer, source := e.source
       seq := if e.buf.isSome then e.seq else 0, capture := if e.buf.isSome then e.capture else 0
       age := if e.buf.isSome then ageUs t1 e.capture else 0, firstRow := r.y, crc := e.crc
       slot := r.slot, drawn := st, again := h.banded },
     d.setHistory key { h' with banded := false })

/-- A region is found impaired while the bands of its raster frame are executed: it is IMPAIRED from this frame on,
unless a state that goes before stands (R170, R171, R175). -/
def History.bandFound (h : History) : History :=
  if h.state = 5 ∨ h.state = 3 then { h with banded := true } else { h with state := 4, clean := 0, banded := true }

/-- The evaluation of a supervised region that band `b` found impaired: bits 3 and 6 of its conditions, state 4 unless
one that goes before stands, and the band hatch from that band on. Where the frame before was so impaired too,
its full marking is drawn (R170, R175). -/
def RegEval.banded (e : RegEval) (b : Nat) : RegEval :=
  let c := e.conds ||| 72
  let st := if e.state = 5 ∨ e.state = 3 then e.state else 4
  { e with bandMark := some b, conds := if c.testBit 5 then c - 32 else c, state := st
           drawn := if e.again then st else e.drawn }

/-- The evaluation of every region of a composed frame, in region order; `s0` is the instant of the
frame's first row and `line` the time of a row (R167). -/
def Dev.evalRegions (d : Dev) (base : Nat) (rs : List Region) (bad : List Nat) (rowAt : Nat → Nat) :
    List RegEval × Dev :=
  rs.foldl (fun acc r =>
    let (e, d') := acc.2.evalRegion (base + r.slot) r (rowAt r.y) (bad.contains r.num)
    (acc.1 ++ [e], d')) ([], d)

/-! ### Source summary -/

/-- The contributions to the summary of a source by regions of enabled outputs: key and state. -/
def Dev.shownBy (d : Dev) (n : Nat) : List (Nat × Nat) :=
  d.hist.filterMap fun e =>
    if e.2.shown != 0 && e.2.shownSrc == n && decide (e.1 < 128 * 1024) then some (e.1, e.2.shown - 1)
    else none

/-- The worst state over the regions that show a source; 0xFF where none does (0x34F6). -/
def Dev.worstState (d : Dev) (n : Nat) : Nat :=
  match d.shownBy n with
  | [] => 0xFF
  | l => l.foldl (fun w e => if stateRank w < stateRank e.2 then e.2 else w) 0

/-- Raises FRESHNESS when a source's summary has changed (R179). -/
def Dev.summarise (d : Dev) (n : Nat) : Dev :=
  let w := d.worstState n
  if Tab.getD d.summary n 0xFF = w then d
  else { d with summary := Tab.setD d.summary n w 0xFF }.event uGuard 0x0701 n w

/-- The first row of a region is shown: its state counts towards the summary (R179). -/
def Dev.showState (d : Dev) (key : Nat) (e : RegEval) : Dev :=
  let h := d.history key
  let old := h.shownSrc
  let was := h.shown != 0
  let d := if e.state = 0xFF then d.setHistory key { h with shown := 0, shownSrc := 0 }
    else d.setHistory key { h with shown := e.state + 1, shownSrc := e.source }
  let d := if was && (e.state == 0xFF || old != e.source) then d.summarise old else d
  if e.state = 0xFF then d else d.summarise e.source

/-- Removes the contributions of the keys that a test picks, and summarises their sources. -/
def Dev.dropShown (d : Dev) (p : Nat → Bool) : Dev :=
  let hit := d.hist.filter fun e => p e.1 && e.2.shown != 0
  let d := hit.foldl (fun d e => d.setHistory e.1 { e.2 with shown := 0, shownSrc := 0 }) d
  hit.foldl (fun d e => d.summarise e.2.shownSrc) d

/-- The source summary of 0x34F6:01 (R179). -/
def Dev.summaryBytes (d : Dev) : List Byte :=
  (List.range 256).flatMap fun n =>
    let l := d.shownBy n
    let outs := (l.map fun e => e.1 / 1024).eraseDups.length
    leBytes 1 (d.worstState n) ++ leBytes 1 (min l.length 255) ++ leBytes 1 (min outs 255) ++ [0]

/-- Forgets the region histories of an output: its enable applied (R171, R179). -/
def Dev.forgetOutput (d : Dev) (o : Nat) : Dev :=
  let d := d.dropShown fun k => k / 1024 == o
  { d with hist := d.hist.filter fun e => e.1 / 1024 != o }

/-! ### The plane -/

/-- Legend text widths in ROM: STALE, FROZEN, HELD, IMPAIRED, NO SIGNAL, DEGRADED at 10 pixels a
character (R183, Table 7.3). -/
def romLegendWidth (i : Nat) : Nat := [50, 60, 40, 80, 90, 80].getD i 0

/-- The loaded set: width and offset of its bitmap for each legend (Table 7.9). -/
def legendEntry (b : List Byte) : Nat → Nat × Nat
  | 0 => (fieldAt b 16 2, 18)
  | i + 1 =>
    let (w, o) := legendEntry b i
    let n := o + 20 * ceilDiv w 8
    (fieldAt b n 2, n + 2)

/-- Width of legend `i` in pixels. -/
def MarkSet.legendWidth (m : MarkSet) (i : Nat) : Nat :=
  if m.legends.isEmpty then romLegendWidth i else (legendEntry m.legends i).1

/-- Whether legend `i` has ink at column `x`, row `y` of its bitmap, most significant bit first. -/
def MarkSet.legendInk (m : MarkSet) (i x y : Nat) : Bool :=
  if m.legends.isEmpty then Config.romGlyph i x y
  else
    let (w, o) := legendEntry m.legends i
    (byteAt m.legends (o + y * ceilDiv w 8 + x / 8)).testBit (7 - x % 8)

/-- The value of 0x34F2 sub `s`. -/
def MarkSet.colour (m : MarkSet) (s : Nat) : Nat := m.colours.getD (s - 1) 0

/-- What is drawn on a plane pixel: its class in the marking check value (Table 7.6), its colour, and
its alpha in 1/4096. -/
structure Mark where
  cls : Nat := 0
  colour : Nat := 0
  alpha : Nat := 0

/-- A hatch pixel of a state at (`x`, `y`) (Table 7.3, Table 7.5); DEGRADED stands as 6. -/
def MarkSet.hatch (m : MarkSet) (st x y : Nat) : Mark :=
  if (x + y) / 8 % 2 = 0 then ⟨1, m.colour (2 * st - 1), 4096⟩
  else ⟨2, m.colour (2 * st), 4096⟩

/-- Scale, legend corner and firefly corner of a placement (0x34F3). -/
def placeScale (p : Nat) : Nat := p / 16 % 4 + 1
def placeLegend (p : Nat) : Nat := p % 4
def placeFirefly (p : Nat) : Nat := p / 4 % 4

/-- The legend index of a state: 1 to 5 for the states in the order of the legends, 6 DEGRADED. -/
def legendOf (st : Nat) : Nat := st - 1

/-- A legend box of legend `i` with its top left corner at (`bx`, `by_`): what it draws at (`x`, `y`). -/
def MarkSet.legendBox (m : MarkSet) (i s bx by_ x y : Nat) : Mark :=
  let w := m.legendWidth i
  if bx ≤ x ∧ x < bx + (8 + w) * s ∧ by_ ≤ y ∧ y < by_ + 24 * s then
    let tx := x - bx
    let ty := y - by_
    if 4 * s ≤ tx ∧ tx < 4 * s + w * s ∧ 2 * s ≤ ty ∧ ty < 22 * s ∧
        m.legendInk i ((tx - 4 * s) / s) ((ty - 2 * s) / s) then
      ⟨3, m.colour 0x0D, 4096⟩
    else ⟨4, m.colour 0x0E, m.colour 0x0F⟩
  else {}

/-- The codes of Table 7.5 in the order of its rows: STALE 1, FROZEN 2, HELD 3, IMPAIRED 4, NO SIGNAL
5 are also the state codes of Table 7.2. What a region in state `st` draws at (`x`, `y`) of its own
rectangle (Table 7.3). -/
def MarkSet.regionMark (m : MarkSet) (r : Region) (st x y : Nat) : Mark :=
  let s := placeScale m.place
  let corner := placeLegend m.place
  let edge := x < r.x + 8 ∨ r.x + r.w ≤ x + 8 ∨ y < r.y + 8 ∨ r.y + r.h ≤ y + 8
  if r.w < 24 ∨ r.h < 24 ∨ edge then m.hatch st x y
  else
    let bw := (8 + m.legendWidth (legendOf st)) * s
    if r.w < 16 + bw ∨ r.h < 16 + 24 * s then {}
    else
      let bx := if corner % 2 = 0 then r.x + 8 else r.x + r.w - 8 - bw
      let by_ := if corner / 2 = 0 then r.y + 8 else r.y + r.h - 8 - 24 * s
      m.legendBox (legendOf st) s bx by_ x y

/-- A pixel lies in a region's rectangle. -/
def Region.holds (r : Region) (x y : Nat) : Bool :=
  decide (r.x ≤ x) && decide (x < r.x + r.w) && decide (r.y ≤ y) && decide (y < r.y + r.h)

/-- The marks of the regions at (`x`, `y`), from the bottom upwards (R175, R182). Unsupervised regions carry none
(R166). -/
def MarkList.regionMarks (m : MarkList) (x y : Nat) : Mark :=
  m.regions.foldl (fun acc re =>
    let (r, e) := re
    if r.holds x y then
      let st := if m.fault then 4 else e.drawn
      let own : Mark :=
        if e.state = 0xFF then {}
        else if e.bandMark.any fun b => decide (16 * b ≤ y) then { m.marks.hatch 4 x y with cls := 7 }
        else if st = 0 then {}
        else m.marks.regionMark r st x y
      if own.cls ≠ 0 then own else if r.isOpaque then {} else acc
    else acc) {}

/-- The firefly's 16 squares: the Gray code of the raster frame count, and the low byte of the output
check value (R184). -/
def fireflyBits (k crc : Nat) : Nat :=
  let n := k % 256
  (n ^^^ (n / 2)) + crc % 256 * 256

/-- What the plane draws at (`x`, `y`): region markings, then the DEGRADED strip, then the firefly
(R182, Table 7.3). -/
def MarkList.markAt (m : MarkList) (x y : Nat) : Mark :=
  let s := placeScale m.marks.place
  let low := placeLegend m.marks.place / 2 == 1
  let strip : Mark :=
    if m.degraded then
      let top := if low then m.height - 24 * s else 0
      if top ≤ y ∧ y < top + 24 * s then
        let bw := (8 + m.marks.legendWidth 5) * s
        let bx := if placeLegend m.marks.place % 2 = 0 then 0 else m.width - bw
        let l := m.marks.legendBox 5 s bx top x y
        if l.cls ≠ 0 then l else m.marks.hatch 6 x y
      else {}
    else {}
  let fly : Mark :=
    match m.firefly with
    | none => {}
    | some b =>
      let c := placeFirefly m.marks.place
      let fx := if c % 2 = 0 then 8 else m.width - 8 - 32 * s
      let fy := if c / 2 = 0 then 8 else m.height - 8 - 32 * s
      if fx ≤ x ∧ x < fx + 32 * s ∧ fy ≤ y ∧ y < fy + 32 * s then
        let i := (y - fy) / (8 * s) * 4 + (x - fx) / (8 * s)
        if b.testBit i then ⟨5, m.marks.colour 0x10, 4096⟩ else ⟨6, m.marks.colour 0x11, 4096⟩
      else {}
  if fly.cls ≠ 0 then fly
  else if strip.cls ≠ 0 then strip
  else m.regionMarks x y

/-- The marking check value over every active pixel, in raster order (Table 7.6). -/
def MarkList.markingCrc (m : MarkList) : Nat :=
  crc32c ((List.range (m.width * m.height)).map fun k =>
    BitVec.ofNat 8 (m.markAt (k % m.width) (k / m.width)).cls)

/-- A pixel shows black in place of content, as the region uppermost there shows NO SIGNAL and was composed with content
(R176). A region composed as black, and an opaque one above, show as composed. -/
def MarkList.black (m : MarkList) (x y : Nat) : Bool :=
  m.regions.foldl (fun acc re =>
    let (r, e) := re
    if r.holds x y then
      (if r.dark then false else if e.state = 5 then true else if r.isOpaque then false else acc)
    else acc) false

/-- An XRGB 2:10:10:10 colour reduced to a frame format by keeping its top bits (R180). -/
def reduceColour (fmt c : Nat) : Nat × Nat × Nat :=
  let (wr, wg, wb) := fmtBits fmt
  (c / 1048576 % 1024 / 2 ^ (10 - wr), c / 1024 % 1024 / 2 ^ (10 - wg), c % 1024 / 2 ^ (10 - wb))

/-- The components of a packed pixel in its own widths (Table 6.2). -/
def pxComps (fmt v : Nat) : Nat × Nat × Nat :=
  match fmt with
  | 0 => (v / 2048 % 32, v / 32 % 64, v % 32)
  | 3 => (v / 1048576 % 1024, v / 1024 % 1024, v % 1024)
  | _ => (v / 65536 % 256, v / 256 % 256, v % 256)

/-- Merges a plane pixel over a packed output value (R180). -/
def mergeMark (fmt v : Nat) (k : Mark) : Nat × Nat × Nat :=
  let (r, g, b) := pxComps fmt v
  let (er, eg, eb) := reduceColour fmt k.colour
  let mix := fun (e c : Nat) =>
    (freeRound ((e * k.alpha + c * (4096 - k.alpha) : Nat) : Int) 4096).toNat
  if k.cls = 0 then (r, g, b) else (mix er r, mix eg g, mix eb b)

/-! ### Legend set -/

/-- Whether a legend set has its format: six legends of width 10 to 160, and nothing after the
signature (R183, Table 7.9). -/
def legendFormatOk (b : List Byte) : Bool :=
  let widths := (List.range 6).map fun i => (legendEntry b i).1
  let (w5, o5) := legendEntry b 5
  byteAt b 1 == 6 && widths.all (fun w => decide (10 ≤ w) && decide (w ≤ 160)) &&
    b.length == o5 + 20 * ceilDiv w5 8 + 96

/-- Key number of the content-signing key in the boot ROM (R183). -/
def contentKey : Nat := 256

/-- A legend set is written to 0x34F5:01: verified, and refused with RANGE where it fails (R183). An
empty set returns to the ROM legends. -/
def Dev.loadLegends (d : Dev) (by_ : Requester) (set : List Byte) : Res :=
  let a := d.commandStatus by_ 0x34F5 1 set
  let n := set.length - 96
  let bad := if set = [] then 0
    else if !legendFormatOk set then 1
    else if !Config.ecdsaVerify contentKey (set.take n) (set.drop n) then 2
    else 0
  if a = stOk ∧ bad ≠ 0 then
    ((d.wr 0x34F5 2 2).raise uGuard 0x0704 0 bad sevInfo).res stRange
  else d.command by_ 0x34F5 1 set fun d =>
    ((d.wrd 0x34F5 1 set).wr 0x34F5 2 (if set = [] then 0 else 1)).res stOk

/-- LEGEND_SET_LOAD (R183). -/
def execLegendSetLoad (t : Nat) (by_ : Requester) (set : List Byte) (s : State) :
    Host.Outcome State Fault Refusal :=
  onCommand t by_ (·.loadLegends by_ set) s

end Sys2Proof.Machine
end

