-- ==== Sys2Proof/Machine/Scanout.lean ====
section
/-! DEFINITION. Scan-out (R192 to R214, R480, R481): output and port states, raster frames, lines and
underruns, events, ledger entries, IP packets, and DisplayPort links. -/
namespace Sys2Proof.Machine

/-! ### Output states -/

/-- The DisplayPort switches are closed (Table 16.2, R350). -/
def Dev.switchesClosed (d : Dev) : Bool :=
  if d.pwr.state = 3 ∨ d.pwr.state = 4 ∨ d.pwr.state = 5 then true
  else if d.dup.takeIn && !d.dup.ignored then true
  else if d.pwr.state ≠ 0 then true
  else if d.pwr.entry.any fun e => decide (3 ≤ e.step) then true
  else if !d.duplex || d.active then false
  else !d.posS

/-- What the block does at the pass-through balls of its DisplayPort ports: while the switches are open it terminates
each PTI lane pair, drives PTHPD, and terminates PTAUX, where it answers nothing; while they are closed it leaves the
balls to the switch, which joins them to the connector (R345). -/
inductive PtiBalls where
  | driven (laneOhms : Nat) (pthpd : Bool) (auxAnswers : Bool)
  | toSwitch
  deriving DecidableEq, Repr

/-- The pass-through balls of every port (R344, R345). -/
def Dev.pti (d : Dev) : PtiBalls := if d.switchesClosed then .toSwitch else .driven 100 true false

/-- The runtime record of DisplayPort port `p`. -/
def Dev.dp (d : Dev) (p : Nat) : DpRt := Tab.getD d.dps p {}

def Dev.setDp (d : Dev) (p : Nat) (x : DpRt) : Dev := { d with dps := Tab.setD d.dps p x {} }

/-- The legs an IP output sends on. -/
def Dev.outLegs (d : Dev) (o : Nat) : List Nat :=
  if d.rdb (outIdx o) 0x23 then [0x20, 0x24] else [0x20]

/-- The state an output shows (Table 8.3, R481). A standby's port transmits with adopted parameters
(R346). -/
def Dev.outState (d : Dev) (o : Nat) : Nat :=
  if !d.rdb (outIdx o) 1 then 0
  else if d.wingDown (outWing o) then d.rd (outIdx o) 0x10
  else if o < 64 then
    if d.switchesClosed then 6
    else if d.standby then (if (d.dp (o / 4)).adopted.isSome then 3 else 2)
    else (d.dp (o / 4)).link
  else if d.gatedSends then 8
  else if (d.outLegs o).any fun s => d.linkUp (d.rd (outIdx o) s) then 3
  else 7

/-- Recomputes an output's state; LINK for an IP output that changes while enabled (Table 8.4). A raster frame that the
output stops sending is not resumed: video returns with a frame start (Table 8.3). -/
def Dev.refreshOut (d : Dev) (o : Nat) : Dev :=
  let st := d.outState o
  if d.rd (outIdx o) 0x10 = st then d
  else
    let d := d.wr (outIdx o) 0x10 st
    let d := if st = 3 then d else
      d.setOut o { d.out o with raster := (d.out o).raster.map fun r => { r with sent := false } }
    if 64 ≤ o ∧ st ≠ 0 then d.raise (uOut o) 0x0805 o st sevInfo else d

/-- Recomputes every output's state. -/
def Dev.refreshOuts (d : Dev) : Dev := foldNat Dev.refreshOut 128 d

/-- A port enters a link state, with LINK (R197, Table 8.4). -/
def Dev.setLink (d : Dev) (p st : Nat) : Dev :=
  let d := if (d.dp p).link = st then d
    else
      let busy := if st = 2 ∨ (d.dp p).link = 2 then d.now else (d.dp p).busyAt
      (d.setDp p { d.dp p with link := st, busyAt := busy }).raise (uDp p) 0x0805 (4 * p) st
        (if st = 4 ∨ st = 5 then sevDegraded else sevInfo)
  foldNat (fun d m => d.refreshOut (4 * p + m)) 4 d

/-! ### Links -/

/-- The DSC slice count of a width: the smallest of 1, 2, 4 and 8 that gives slices of at most 2,048
pixels (R196). -/
def dscSlices (w : Nat) : Nat :=
  if w ≤ 2048 then 1 else if ceilDiv w 2 ≤ 2048 then 2 else if ceilDiv w 4 ≤ 2048 then 4 else 8

/-- MST time slots that stream `m` of DisplayPort port `p` needs: those of an enabled head of an MST port, none
otherwise (R204). Their number is opaque. -/
def Dev.timeSlots (d : Dev) (p m : Nat) : Nat :=
  let i := outIdx (4 * p)
  let o := outIdx (4 * p + m)
  if d.rd i 0x3A = 1 ∧ d.rdb o 1 = true then
    Config.timeSlots (d.rd i 0x38) (d.rd i 0x39) (d.rd o 2) (d.rd o 3) (d.rd o 0x0D)
      (if d.rdb o 0x30 then d.rd o 0x31 else 0) % 65
  else 0

/-- An output's stream takes the time slots that its configuration needs, in its vertical blanking: on an MST port
with the allocation change trigger (R204). -/
def Dev.newSlots (d : Dev) (o : Nat) : Dev :=
  let p := o / 4
  let x := d.dp p
  let n := d.timeSlots p (o % 4)
  if 64 ≤ o ∨ x.slots.getD (o % 4) 0 = n then d
  else
    let d := d.setDp p { x with busyAt := d.now, slots := (List.range 4).map fun m => if m = o % 4 then n else x.slots.getD m 0 }
    if d.rd (outIdx (4 * p)) 0x3A = 1 then d.send (.dp p "allocation-change" [o % 4, n]) else d

/-- Sink capabilities below the configuration (R197). -/
def Dev.sinkBelow (d : Dev) (p : Nat) : Bool :=
  match (d.dp p).caps with
  | none => false
  | some c =>
    let i := outIdx (4 * p)
    decide (c.rate < d.rd i 0x38) || decide (c.lanes < d.rd i 0x39) ||
      (d.rd i 0x3A == 1 && !c.mst) ||
      (List.range 4).any fun m =>
        let o := 4 * p + m
        d.outOn o && d.rdb (outIdx o) 0x30 &&
          !(c.dscSlices.contains (dscSlices (d.outSize o).1) &&
            c.dscDepths.contains (d.rd (outIdx o) 0x0D))

/-- A change of a port's streams is judged against its sink: below it the port sends no video, and no longer below it
trains (R197). -/
def Dev.rejudge (d : Dev) (p : Nat) (train : Dev → Nat → Dev) : Dev :=
  if !(d.dp p).hpd || d.standby then d
  else if d.sinkBelow p then (if (d.dp p).link = 5 then d else d.setLink p 5)
  else if (d.dp p).link = 5 then train d p else d

/-- Training of a port starts at the configured settings; a port whose sink is below them sends no
video (R197). -/
def Dev.train (d : Dev) (p : Nat) : Dev :=
  if !(d.dp p).hpd || d.standby then d
  else if d.sinkBelow p then d.setLink p 5
  else
    let i := outIdx (4 * p)
    (d.setLink p 2).send (.dp p "train" [d.rd i 0x38, d.rd i 0x39, d.rd i 0x3A])

/-- A field of a port's link counters: symbol errors of lanes 0 to 3, training failures, unplugs
(0x3400+4p:40). -/
def Dev.linkCount (d : Dev) (p f : Nat) : Dev := d.addf (outIdx (4 * p)) 0x40 f 1 4

/-- DP_HPD_HIGH: the port reads DPCD and EDID, then trains (R197). A standby's port reads nothing and
does not train (R346). -/
def Dev.hpdHigh (d : Dev) (p : Nat) (caps : SinkCaps) : Dev :=
  if (d.dp p).hpd then d
  else
    let d := d.setDp p { d.dp p with hpd := true }
    if d.standby then d
    else
      let d := d.setDp p { d.dp p with caps := some caps }
      let d := (d.wrd (outIdx (4 * p)) 0x3C (padTo 512 caps.dpcd)).wrd (outIdx (4 * p)) 0x3D
        (caps.edid.take 4096)
      d.train p

def execDpHpdHigh (t p : Nat) (caps : SinkCaps) (s : State) : Host.Outcome State Fault Refusal :=
  onDev t (·.hpdHigh p caps) s

/-- DP_UNPLUG: HPD low for 2 ms (R197). -/
def Dev.dpUnplug (d : Dev) (p : Nat) : Dev :=
  if !(d.dp p).hpd then d
  else
    let d := (d.setDp p { d.dp p with hpd := false, caps := none }).linkCount p 5
    d.setLink p 1

def execDpUnplug (t p : Nat) (s : State) : Host.Outcome State Fault Refusal :=
  onDev t (·.dpUnplug p) s

/-- Counts a retraining (0x3400+4p:3E) and trains. -/
def Dev.retrain (d : Dev) (p : Nat) : Dev :=
  (d.wr (outIdx (4 * p)) 0x3E ((d.rd (outIdx (4 * p)) 0x3E + 1) % 2 ^ 32)).train p

/-- The port reads the link status: the sink's symbol errors of lanes 0 to 3 are counted (0x3400+4p:40), and it retrains
where lock is lost (R197). -/
def Dev.dpIrq (d : Dev) (p : Nat) (lockLost : Bool) (errors : List Nat) : Dev :=
  if !(d.dp p).hpd || d.standby then d
  else
    let d := foldNat (fun d k => d.addf (outIdx (4 * p)) 0x40 k (errors.getD k 0) 4) 4 d
    if lockLost then d.retrain p else d

/-- DP_IRQ_HPD (R197). -/
def execDpIrqHpd (t p : Nat) (lockLost : Bool) (errors : List Nat) (s : State) : Host.Outcome State Fault Refusal :=
  onDev t (·.dpIrq p lockLost errors) s

/-- Training of a port ends: video resumes at the next frame start, and the parameters go to the
standby (R346); a failure is retried every 1 s (R197). -/
def Dev.trained (d : Dev) (p : Nat) (ok : Bool) (params : List Byte) : Dev :=
  if (d.dp p).link ≠ 2 then d
  else if ok then
    let d := foldNat (fun d m => d.newSlots (4 * p + m)) 4 ((d.setDp p { d.dp p with params := params }).setLink p 3)
    if d.duplex && d.active then d.send (.partner "link-parameters" (leBytes 1 p ++ params)) else d
  else
    let d := (d.setDp p { d.dp p with failedAt := d.now }).linkCount p 4
    d.setLink p 4

/-- DP_TRAINING_DONE (R197). -/
def execDpTrainingDone (t p : Nat) (ok : Bool) (params : List Byte) (s : State) :
    Host.Outcome State Fault Refusal :=
  onDev t (·.trained p ok params) s

/-- DP_TRAINING_RETRY: 1 s after a failed training (R197). -/
def execDpTrainingRetry (t p : Nat) (s : State) : Host.Outcome State Fault Refusal :=
  onDev t (fun d =>
    if (d.dp p).link = 4 ∧ (d.dp p).failedAt + 1000000000 ≤ d.now then d.train p else d) s

/-- DP_RETRAIN: 1 written to 0x3400+4p:3F. -/
def execDpRetrain (t : Nat) (by_ : Requester) (p : Nat) (s : State) :
    Host.Outcome State Fault Refusal :=
  onCommand t by_ (fun d =>
    d.command by_ (outIdx (4 * p)) 0x3F [1] fun d => (d.retrain p).res stOk) s

/-! ### Grid -/

/-- The tick in which an output's raster frame that begins now begins (R192). -/
def Dev.rasterTick (d : Dev) (o : Nat) : Nat :=
  d.tickOf (outWing o) (d.now + 1 - d.lines o (d.rd (outIdx o) 4))

/-- The start of line `n` of a raster frame (R192). -/
def Raster.lineAt (r : Raster) (n : Nat) : Nat := r.base + r.tm.elim 0 fun tm => lineNs tm r.code (r.offset + n)

/-- Its vertical sync and back porch in lines. -/
def Raster.top (r : Raster) : Nat := r.tm.elim 0 Timing.top

/-- The `j`th event time of an output (0x3400+o:11). -/
def Dev.setEventTime (d : Dev) (o j at_ : Nat) : Dev :=
  let b := padTo 40 (d.rdd (outIdx o) 0x11)
  d.wrd (outIdx o) 0x11 (slice b 0 (10 * j) ++ time48Bytes at_ ++ slice b (10 * j + 10) (30 - 10 * j))

/-- An output event, once in a raster frame: its instant is recorded, and NOTIFY follows the mask (R193). -/
def Dev.outEvent (d : Dev) (o j at_ p2 : Nat) : Dev :=
  if (d.out o).raster.any fun r => r.told.contains j then d
  else
    let d := d.setOut o { d.out o with raster := (d.out o).raster.map fun r => { r with told := r.told ++ [j] } }
    let d := d.setEventTime o j at_
    if (d.rd (outIdx o) 0x0F).testBit j then d.event (uOut o) (0x0801 + j) o (p2 % 2 ^ 32) else d

/-! ### Raster frames -/

/-- The key of region histories of an output. -/
def outKey (o : Nat) : Nat := o * 1024

/-- The evaluation of a raster frame's regions with the times of that frame (R167, R168). What a Racing frame's own
bands find is added as they are written (R175); a frame shown again has what they found. -/
def Dev.evalRaster (d : Dev) (o : Nat) (r : Raster) (c : Comp) (again : Bool) : List RegEval × Dev :=
  let bad := if c.racing && !again then [] else c.impaired
  d.evalRegions (outKey o) c.regions bad fun y => r.lineAt (r.top + y)

/-- The Racing composition that no raster frame has shown yet. -/
def OutputRt.dueRacing (x : OutputRt) : Option Comp := x.comps.find? fun c => c.racing && decide (x.lastFed < c.id)

/-- The newest Framed composition due for a raster frame of tick `n` (R156). -/
def OutputRt.dueFramed (x : OutputRt) (n : Nat) : Option Comp := (x.ready.filter fun c => decide (c.tick < n)).getLast?

/-- A raster frame takes a Racing composition. -/
def OutputRt.takeRacing (x : OutputRt) (c : Comp) : OutputRt :=
  { x with lastFed := c.id, unfed := false, shown := some c
           comps := if c.complete then x.comps.filter (·.id != c.id) else x.comps }

/-- A raster frame of tick `n` takes a Framed composition. -/
def OutputRt.takeFramed (x : OutputRt) (n : Nat) (c : Comp) : OutputRt :=
  { x with shown := some c, unfed := false, lastFed := max x.lastFed c.id
           ready := x.ready.filter fun e => !decide (e.tick < n) }

/-- What a raster frame of tick `n` shows (R159, R201, R203, R480): the composition, whether it is repeated (an
underrun frame), whether it is not fed as scheduled, whether it is a mode-change black frame, and
the output's record. A black frame of a mode change takes the place of what was due for it; a composition that selected
earlier feeds first. -/
def Dev.rasterPick (d : Dev) (o n : Nat) : Option Comp × Bool × Bool × Bool × OutputRt :=
  let x := d.out o
  let dueF := x.dueFramed n
  let dueR := x.dueRacing.filter fun c => dueF.all fun f => decide (c.id < f.id)
  if x.blackNext then
    let y := dueF.elim x (x.takeFramed n)
    let y := x.dueRacing.elim y y.takeRacing
    (none, false, false, true, { y with blackNext := false })
  else match dueR, dueF with
    | some c, _ => (some c, false, false, false, x.takeRacing c)
    | none, some c => (some c, false, decide (c.tick + 1 < n), false, x.takeFramed n c)
    | none, none =>
      if x.unfed then (none, false, false, true, { x with unfed := false })
      else
        let cur := x.shown.map fun c => (x.comps.find? (·.id == c.id)).getD c
        (cur, true, true, false, x)

/-- The check value of a Racing composition whose bands are not all written: that of the frame it composes (R148,
R184). -/
def Dev.frameCrc (d : Dev) (mem : Mem) (c : Comp) : Nat :=
  crc32c ((List.range (bandCount c.height)).foldl (fun (c : Comp) b => { c with pix := d.bandPixels mem c b })
    { c with pix := [] }).bytes

/-- The pictures that take a raster frame hold a loan on the composed frame that it shows, once it has one (R216). -/
def Dev.lendFed (d : Dev) (o k : Nat) (c : Comp) : Dev :=
  let l : Loan := .frame o c.id c.buf
  let fits := fun (p : EncPic) => p.loans.isEmpty && (match p.input with
    | .output n q => n == o && q.k == k
    | _ => false)
  d.encs.foldl (fun d e =>
    let n := (e.2.pics.filter fits).length
    let d := foldNat (fun d _ => d.takeLoan l) n d
    let pics := e.2.pics.map fun (p : EncPic) => if fits p then { p with loans := [l] } else p
    { d with encs := Tab.setD d.encs e.1 { e.2 with pics := pics } {} }) d

/-- The raster frame that waits for its composition shows what it is fed, and is evaluated; a list of its own has the
marks that stand now (R168, R183, R201, R480). -/
def Dev.feedRaster (d : Dev) (mem : Mem) (o : Nat) : Dev :=
  match (d.out o).raster with
  | none => d
  | some r =>
    if !r.waits then d
    else
      let (comp, rep, notFed, change, x) := d.rasterPick o r.tick
      let d := d.setOut o x
      let (evals, d) := match comp with
        | some c => d.evalRaster o r c notFed
        | none => ([], d)
      let own := comp.filter fun _ => !notFed
      let r := { r with
        value := (comp.filter fun c => c.racing && !c.complete).elim 0 (d.frameCrc mem)
        tick := comp.elim r.tick (·.tick), comp := comp, evals := evals
        marks := own.elim ((d.seenBy (outWing o)).marksNow ((d.seenBy (outWing o)).rd 0x34F3 (o + 1))) (·.marks)
        flagged := if notFed then comp.elim 0 (·.bandFlags.length) else 0
        modeChange := change || r.modeChange, notFed := notFed
        racing := comp.elim r.racing (·.racing), repeated := rep, waits := false }
      comp.elim id (fun c d => d.lendFed o r.k c) (d.setOut o { d.out o with raster := some r })

/-- The raster frame that begins in tick `n` is fed already (R159). -/
def Dev.fedAlready (d : Dev) (o n : Nat) : Bool :=
  (d.out o).raster.any fun r => !r.waits && r.base == d.tickTime (outWing o) n

/-- RACING_SELECTION: a Racing output of a running wing selects at its lead before the first active
line of the raster frame that it feeds, unless that frame is fed (R157, R159). A composition that has not written its
last band by then lets this one be omitted (R480). -/
def Dev.racingSelect (d : Dev) (mem : Mem) (o : Nat) : Dev :=
  if d.outOn o && d.racing o then
    match d.racingFrame o with
    | none => d
    | some n =>
      if d.fedAlready o n then d
      else
        let late := (d.out o).comps.any fun c => c.racing && !c.complete
        let d := if late then d else d.selectOutput o (d.tickOf (outWing o) d.now)
        d.feedRaster mem o
  else d

/-- RACING_SELECTION (R157). -/
def execRacingSelection (t o : Nat) (s : State) : Host.Outcome State Fault Refusal :=
  onDevMem t (fun mem d => (if d.alive then d.racingSelect mem o else d, mem)) s

/-- A raster frame of an output that begins in tick `n`, with the configuration that it keeps to its end (R36, R192,
R203). Its RTP timestamp counts from the exact instant (R210). -/
def Dev.newRaster (d : Dev) (o n : Nat) : Raster :=
  let i := outIdx o
  let w := outWing o
  let (wid, hei) := d.outSize o
  let r : Raster :=
    { k := (d.out o).count, tick := n, width := wid, height := hei, racing := d.racing o, base := d.tickTime w n
      offset := d.rd i 4, tm := d.timing o, code := d.rd i 3, fmt := d.rd i 0x0C, depth := d.rd i 0x0D
      colour := d.rd i 0x0B, payload := d.rd i 0x29, sampling := d.rd i 0x2A, waits := true
      rtp := count90k ((d.tickExact w n).add ((d.timing o).elim ⟨0, 1⟩ fun tm => (lineTime tm (d.rd i 3)).mul (d.rd i 4))) }
  { r with start := r.lineAt 0, s0 := r.lineAt r.top }

/-- Signalling of a head's stream: VSC SDP colorimetry, and for PQ and HLG the HDR static metadata SDP with its EOTF
(R194). -/
def Dev.sendSdps (d : Dev) (o : Nat) (r : Raster) : Dev :=
  let d := d.send (.dp (o / 4) "vsc-sdp" [o % 4, r.colour, r.depth])
  if r.colour = 2 ∨ r.colour = 3 then d.send (.dp (o / 4) "hdr-sdp" [o % 4, r.colour]) else d

/-- A raster frame of an enabled output begins (R192, R201, R203, R480; R177 for its DEGRADED state;
R181 for a marking list that fails its check). -/
def Dev.rasterStart (d : Dev) (mem : Mem) (o : Nat) (listFault : Bool) : Dev :=
  if !d.outOn o || decide (d.now + 1 < (d.out o).hold) then d
  else
    let i := outIdx o
    let r := d.newRaster o (d.rasterTick o)
    let d := d.wr i 0x12 (r.k % 2 ^ 64)
    let x0 := d.out o
    let deg := if 2 ≤ x0.badRun then true
      else if ceilDiv (periodDen (d.rate (outWing o))) (periodNum (d.rate (outWing o))) ≤ x0.cleanRun
      then false else x0.degraded
    let d := d.setOut o { x0 with degraded := deg, count := r.k + 1 }
    let d := if deg && !x0.degraded then d.raise (uOut o) 0x0702 o 1 sevDegraded
      else if !deg && x0.degraded then d.event (uOut o) 0x0702 o 0 else d
    let d := (d.refreshOut o).newSlots o
    let sent := d.rd i 0x10 == 3
    let d := if sent then d else d.incf i 0x15 0
    let p := d.dp (o / 4)
    let flagged := decide (o < 64) && p.flagged && !sent
    let d := if o < 64 ∧ p.flagged ∧ sent then d.setDp (o / 4) { p with flagged := false } else d
    let r := { r with modeChange := flagged, degraded := deg, listFault := listFault, sent := sent }
    let d := d.setOut o { d.out o with raster := some r }
    let d := if sent && decide (o < 64) then d.sendSdps o r else d
    let x := d.out o
    let wait := d.racing o && decide (d.rd i 7 < r.top) && !x.blackNext && x.dueRacing.isNone && (x.dueFramed r.tick).isNone
    let d := if wait then d else d.feedRaster mem o
    if listFault then d.raise (uOut o) 0x0703 o (r.k % 2 ^ 32) sevService else d

/-- The black frame's output check value (R203). -/
def blackCrc (w h fmt : Nat) : Nat := crc32c (List.replicate (w * h * fmtBytes fmt) 0)

/-- The first band that a raster frame finds flagged for a region (R175). -/
def Raster.firstFlag (r : Raster) (c : Comp) (num : Nat) : Option Nat :=
  (((c.bandFlags.drop r.flagged).filter fun f => f.2 == num).map (·.1)).min?

/-- The evaluations of a raster frame with what the bands of Racing mode found so far (R175); unsupervised regions are
never marked (R166). -/
def Raster.marked (r : Raster) : List RegEval :=
  match r.comp with
  | some c =>
    if c.racing then r.evals.map fun e =>
      if e.state = 0xFF then e
      else match r.firstFlag c e.num with
        | some b => e.banded b
        | none => e
    else r.evals
  | none => r.evals

/-- The check value of the composed frame that a raster frame shows (R148, R184, R203). -/
def Raster.check (r : Raster) : Nat :=
  match r.comp with
  | some c => if c.racing && !c.complete then r.value else c.crc
  | none => blackCrc r.width r.height r.fmt

/-- The marking list of a raster frame of an output. -/
def Raster.list (r : Raster) : MarkList :=
  { regions := r.comp.elim [] fun c => c.regions.zip r.marked
    width := r.width, height := r.height, marks := r.marks, degraded := r.degraded
    fault := r.listFault, firefly := some (fireflyBits r.k r.check) }

/-- What an output's plane shows: the raster frame's marking list, or, once the guardian pair has stopped, what it held
then (R26). -/
def Dev.plane (d : Dev) (o : Nat) (r : Raster) : MarkList :=
  if d.guardianStopped then (d.out o).plane.getD {} else r.list

/-- The merged pixel at (`x`, `y`) of a raster frame: its components in the frame format (R176, R180). -/
def Dev.rasterPx (d : Dev) (o : Nat) (r : Raster) (x y content : Nat) : Nat × Nat × Nat :=
  mergeMark r.fmt (if r.list.black x y then 0 else content) ((d.plane o r).markAt x y)

/-- A component of `w` bits at the link's depth `dep`: the top bits of a wider one; a narrower one is widened by
repeating its top bits (R195). -/
def linkComp (w dep v : Nat) : Nat := if dep ≤ w then v / 2 ^ (w - dep) else v * 2 ^ (dep - w) + v / 2 ^ (2 * w - dep)

/-- A pixel as a head's link carries it, ten bits for each component at most (R195). -/
def Raster.linkPx (r : Raster) (p : Nat × Nat × Nat) : Nat :=
  let (wr, wg, wb) := fmtBits r.fmt
  let n := r.depth
  linkComp wr n p.1 * 1048576 + linkComp wg n p.2.1 * 1024 + linkComp wb n p.2.2

/-! ### Lines and underruns -/

/-- Line `y` of a raster frame is an underrun line, with its first missing pixel (R199, R200). -/
def Raster.miss (r : Raster) (y from_ : Nat) : Raster :=
  { r with missed := Tab.insert r.missed y (from_ + 1) }

/-- Lines with underrun in the frame so far. -/
def Raster.underrunLines (r : Raster) : Nat := r.missed.length

/-- The composed content of a raster frame; black where it shows none. -/
def Raster.content (r : Raster) (x y : Nat) : Nat := r.comp.elim 0 (·.at x y)

/-- The pixel that scan-out delivers: on an underrun line, from the first missing pixel on, the last
one delivered before it (R199); 0 on the first active line. -/
def Raster.delivered (r : Raster) : Nat → Nat → Nat
  | 0, x =>
    match Tab.getD r.missed 0 0 with
    | 0 => r.content x 0
    | m + 1 => if x < m then r.content x 0 else if m = 0 then 0 else r.content (m - 1) 0
  | y + 1, x =>
    match Tab.getD r.missed (y + 1) 0 with
    | 0 => r.content x (y + 1)
    | m + 1 =>
      if x < m then r.content x (y + 1)
      else if m = 0 then r.delivered y (r.width - 1)
      else r.content (m - 1) (y + 1)

/-- Scan-out finds the first row of a Racing band unwritten: BAND_LATE, once per output per tick
(R158). -/
def Dev.bandLate (d : Dev) (o band : Nat) : Dev :=
  let n := d.tickOf (outWing o) d.now
  let x := d.out o
  if x.bandLateTick = some n then d
  else
    (d.setOut o { x with bandLateTick := some n }).raise (uWing (outWing o)) 0x0603 o band sevDegraded

/-- A region whose first row is `y` is shown: it counts towards the source summary (R179). -/
def Dev.showRow (d : Dev) (o y : Nat) (evals : List RegEval) : Dev :=
  evals.foldl (fun d e => if e.firstRow = y then d.showState (outKey o + e.slot) e else d) d

/-- Height of a DSC slice (R196). -/
def dscHeight : Nat := 16

/-- The stream of a head's active line `y`: its pixels, or with DSC, at the last line of each slice, the coded slices of
these lines: `dscSlices` side by side, of 16 lines, at the configured bits per pixel (R194, R196). -/
def Dev.sendLine (d : Dev) (o y : Nat) (r : Raster) (px : List Nat) : Dev :=
  if !d.rdb (outIdx o) 0x30 then d.send (.dp (o / 4) "line" ([o % 4, y] ++ px))
  else
    let rows := r.slice ++ [px]
    let whole := y % dscHeight + 1 = dscHeight ∨ y + 1 = r.height
    let d := d.setOut o { d.out o with raster := (d.out o).raster.map fun r => { r with slice := if whole then [] else rows } }
    if whole then
      let n := dscSlices r.width
      let w := ceilDiv r.width n
      let bpp := d.rd (outIdx o) 0x31
      foldNat (fun d k => d.send (.dp (o / 4) "dsc-slice" ([o % 4, y / dscHeight, k] ++
        (padTo (ceilDiv (w * dscHeight * bpp) 128) (Config.dscSlice bpp r.depth w
          (rows.map fun l => (l.drop (k * w)).take w))).map (·.toNat)))) n d
    else d

/-- RASTER_LINE: scan-out reaches raster line `line`; `missing` is the first pixel that is not
available (R192, R199). Heads send the merged line. -/
def Dev.rasterLine (d : Dev) (o line : Nat) (missing : Option Nat) : Dev :=
  match (d.out o).raster with
  | some r =>
    if line < r.top ∨ r.top + r.height ≤ line then d
    else
      let y := line - r.top
      let band := y / 16
      let late := r.comp.any fun c => c.racing && !c.written.contains band
      let miss := if late then some 0 else if r.comp.isSome then missing else none
      let d := if late && !r.repeated && y % 16 == 0 then d.bandLate o band else d
      let r' := match miss with
        | some m => if m < r.width then r.miss y m else r
        | none => r
      let d := d.setOut o { d.out o with raster := some r' }
      let d := d.showRow o y r.marked
      if o < 64 ∧ r.sent then
        d.sendLine o y r' ((List.range r.width).map fun x => r'.linkPx (d.rasterPx o r' x y (r'.delivered y x)))
      else d
  | none => d

/-- RASTER_LINE (R199). -/
def execRasterLine (t o line : Nat) (missingFrom : Option Nat) (s : State) :
    Host.Outcome State Fault Refusal :=
  onDev t (·.rasterLine o line missingFrom) s

/-- START_OF_BLANKING: the first front-porch line of an output begins (R193); an MST stream takes its new time slots
(R204). -/
def execStartOfBlanking (t o : Nat) (s : State) : Host.Outcome State Fault Refusal :=
  onDev t (fun d =>
    match (d.out o).raster with
    | some r => (d.outEvent o 0 (r.lineAt (r.top + r.height)) r.k).newSlots o
    | none => d) s

/-- LINE_MATCH: raster line 0x3400+o:0E begins (R193). -/
def execLineMatch (t o : Nat) (s : State) : Host.Outcome State Fault Refusal :=
  onDev t (fun d =>
    let line := d.rd (outIdx o) 0x0E
    match (d.out o).raster with
    | some r => d.outEvent o 1 (r.lineAt line) line
    | none => d) s

/-! ### Frame done and the ledger -/

/-- A raster frame of an output at its frame-done: its check values and what the bands of Racing mode found (R175,
R186). -/
def Dev.closeRaster (d : Dev) (o : Nat) (r : Raster) : Raster :=
  let r := { r with evals := r.marked, crc := r.check, doneAt := d.now }
  { r with marking := (d.plane o r).markingCrc }

/-- The regions that a Racing frame's bands found impaired: their histories, and their states in the source summary
(R171, R175, R179). -/
def Dev.bandsFound (d : Dev) (o : Nat) (evals : List RegEval) : Dev :=
  (evals.filter (·.bandMark.isSome)).foldl (fun d e =>
    let k := outKey o + e.slot
    (d.setHistory k (d.history k).bandFound).showState k e) d

/-- A raster frame is an underrun frame (R202). -/
def Raster.underrun (r : Raster) : Bool := r.repeated || r.underrunLines != 0

/-- The pictures that take a raster frame keep it as it was carried (R219). -/
def Dev.keepRaster (d : Dev) (o : Nat) (r : Raster) : Dev :=
  let keep := fun (p : EncPic) => match p.input with
    | .output n q => if n = o ∧ q.k = r.k then { p with input := .output o r } else p
    | _ => p
  { d with encs := d.encs.map fun e => (e.1, { e.2 with pics := e.2.pics.map keep }) }

/-- HEAD_FRAME_DONE: the last active pixel, or packet, of a raster frame has left (R193, R202, R177). -/
def Dev.frameDone (d : Dev) (o : Nat) : Dev :=
  match (d.out o).raster with
  | none => d
  | some r0 =>
    if r0.told.contains 2 then d
    else
    let i := outIdx o
    let x := d.out o
    let r := d.closeRaster o { r0 with
      comp := r0.comp.map fun c => ((x.comps ++ x.shown.toList).find? (·.id == c.id)).getD c }
    let d := d.setOut o { x with
      entry := some r
      badRun := if r.underrun then x.badRun + 1 else 0
      cleanRun := if r.underrun then 0 else x.cleanRun + 1 }
    let d := (d.keepRaster o r).bandsFound o r.evals
    let d := if r.underrun then
        let d := (d.incf i 0x13 0).addf i 0x14 0 r.underrunLines 8
        let d := d.setEventTime o 3 d.now
        let d := if (d.rd i 0x0F).testBit 3 then d.event (uOut o) 0x0804 o r.underrunLines else d
        d.report { unit := uOut o, code := 0x0804, p1 := o, p2 := r.underrunLines, sev := sevInfo
                   time := d.now }
      else d
    d.outEvent o 2 d.now r.k

/-- HEAD_FRAME_DONE (R193). -/
def execHeadFrameDone (t o : Nat) (s : State) : Host.Outcome State Fault Refusal :=
  onDev t (·.frameDone o) s

/-- A region record of a ledger entry (Table 7.7). -/
def RegEval.bytes (e : RegEval) : List Byte :=
  leBytes 1 e.num ++ leBytes 1 e.state ++ leBytes 1 e.conds ++ leBytes 1 (e.kind + e.policy * 4) ++
    leBytes 2 e.layer ++ leBytes 2 e.source ++ leBytes 8 e.seq ++ time48Bytes e.capture ++
    leBytes 4 (min e.age (2 ^ 32 - 1)) ++ leBytes 2 e.firstRow

/-- The flags of a ledger entry (Table 7.6 byte 3). -/
def Raster.flags (r : Raster) : Nat :=
  r.underrun.toNat + r.modeChange.toNat * 2 + r.notFed.toNat * 4 + r.degraded.toNat * 8 +
    r.racing.toNat * 16 + r.listFault.toNat * 32

/-- A ledger entry (Tables 7.6, 7.7): `pair` is byte 56. -/
def Raster.entryBytes (r : Raster) (o pair : Nat) : List Byte :=
  let evals := r.evals
  let head := leBytes 2 o ++ leBytes 1 evals.length ++ leBytes 1 r.flags ++ leBytes 8 r.tick ++
    leBytes 4 r.k ++ time48Bytes r.s0 ++ leBytes 2 (min r.underrunLines 0xFFFF) ++ leBytes 4 r.crc ++
    leBytes 4 r.marking ++ leBytes 2 (fireflyBits r.k r.crc) ++ leBytes 2 0 ++
    leBytes 4 (r.comp.elim 0 (·.batch)) ++ leBytes 12 0
  let recs := evals.flatMap RegEval.bytes
  head ++ leBytes 1 pair ++ leBytes 3 0 ++ leBytes 4 (crc32c (head ++ recs)) ++ recs

/-- Sends ledger entries of an output to the sessions that subscribe to them (R81 kind 3): the
subscription's reference tick, in which frame-done fell, must be a multiple of its period. -/
def Dev.sendLedger (d : Dev) (o doneAt : Nat) (entry : List Byte) : Dev :=
  sessionNumbers.foldl (fun d n =>
    match d.session n with
    | none => d
    | some x => x.subs.foldl (fun d b =>
        let k := d.tickOf b.wing doneAt
        if b.kind = 3 ∧ b.param = o ∧ k % max b.period 1 = 0 then
          d.sendDev n 0x18 0 (leBytes 1 b.num ++ leBytes 1 3 ++ leBytes 1 b.wing ++ [0] ++
            leBytes 8 k ++ entry)
        else d) d) d

/-- LEDGER_ENTRY: the guardian pair writes the entry of the last raster frame that is done, in slot
`k mod 16` of the output's window (R186 to R188); none while the pair is stopped (R26). -/
def Dev.ledgerWrite (d : Dev) (o : Nat) : Dev :=
  match (d.out o).entry with
  | none => d
  | some r =>
    let d := d.setOut o { d.out o with entry := none }
    -- R179: a layer that the raster frame does not show contributes nothing
    let d := d.dropShown fun k => k / 1024 == o && !r.evals.any fun e => e.slot == k % 1024
    if d.guardianStopped then d
    else
      let b := r.entryBytes o (if d.duplex then 0 else 4)
      let w := 0x5000 + o
      let d := (d.wrc w 1 (r.k % 16) b).wr w 2 (r.k % 2 ^ 32)
      let d := d.wr w 3 ((d.rd w 3 + 1) % 2 ^ 64)
      d.sendLedger o r.doneAt b

/-! ### IP outputs -/

/-- Bytes and pixels of a pgroup: sampling 0 RGB, 1 YCbCr-4:2:2; depth 10 for frame format 3, else 8
(R208). -/
def pgroup (sampling fmt : Nat) : Nat × Nat :=
  if sampling = 0 then (if fmt = 3 then (15, 4) else (3, 1)) else (if fmt = 3 then (5, 2) else (4, 2))

/-- Packets of a line of width `w` (R208). -/
def linePackets (w payload pgB pgP : Nat) : Nat := ceilDiv (w * pgB) (payload * pgP)

/-- Bits, most significant first, packed into bytes. -/
def packBits (n : Nat) (vs : List Nat) : List Byte :=
  let total := vs.foldl (fun a v => a * 2 ^ n + v % 2 ^ n) 0
  let len := n * vs.length
  let padded := total * 2 ^ ((8 - len % 8) % 8)
  beBytes (ceilDiv len 8) padded

/-- A merged RGB pixel as narrow-range Y, Cb, Cr (R208): BT.709 for colorimetry 0 and 4, BT.2020
otherwise; `dep` bits. -/
def toYcc (m dep : Nat) (p : Nat × Nat × Nat) : Nat × Nat × Nat :=
  let (kr, kb) := lumaCoef m
  let kg := 10000 - kr - kb
  let top := 2 ^ dep - 1
  let sc := 2 ^ (dep - 8)
  let yn := kr * p.1 + kg * p.2.1 + kb * p.2.2
  let y := freeRound ((219 * sc * yn : Nat) : Int) (10000 * top) + 16 * sc
  let cb := freeRound (((224 * sc : Nat) : Int) * ((10000 * p.2.2 : Nat) - (yn : Int)))
    (2 * (10000 - kb) * top) + 128 * sc
  let cr := freeRound (((224 * sc : Nat) : Int) * ((10000 * p.1 : Nat) - (yn : Int)))
    (2 * (10000 - kr) * top) + 128 * sc
  (clampTo top y, clampTo top cb, clampTo top cr)

/-- The samples of pixels `x0` to `x0 + n - 1` of row `y` in the order of the payload (R208). Pixels that are not
available are the no-content pattern, merged with the plane (R200). -/
def Dev.ipSamples (d : Dev) (o : Nat) (r : Raster) (y x0 n : Nat) (missing : Bool) : List Nat :=
  let dep := if r.fmt = 3 then 10 else 8
  let m := if r.colour = 0 ∨ r.colour = 4 then 0 else 1
  let px := fun x =>
    if missing && decide (x0 ≤ x) && decide (x < x0 + n) then
      let (pr, pg, pb) := reduceColour r.fmt (r.marks.hatch 5 x y).colour
      mergeMark r.fmt (packPx r.fmt pr pg pb) ((d.plane o r).markAt x y)
    else d.rasterPx o r x y (r.content x y)
  if r.sampling = 0 then
    (List.range n).flatMap fun j => let (a, b, c) := px (x0 + j); [a, b, c]
  else
    let ycc := fun x => toYcc m dep (px x)
    (List.range (n / 2)).flatMap fun j =>
      let x := x0 + 2 * j
      let l := ycc (x - 1)
      let c := ycc x
      let h := ycc (min (x + 1) (r.width - 1))
      let avg := fun (a b e : Nat) => (a + 2 * b + e + 2) / 4
      [avg l.2.1 c.2.1 h.2.1, c.1, avg l.2.2 c.2.2 h.2.2, (ycc (x + 1)).1]

/-- An RTP header: version 2, payload type, marker, sequence, timestamp, SSRC (RFC 3550). -/
def rtpHeader (pt : Nat) (marker : Bool) (seq ts ssrc : Nat) : List Byte :=
  [0x80] ++ leBytes 1 (pt % 128 + if marker then 128 else 0) ++ beBytes 2 seq ++ beBytes 4 ts ++
    beBytes 4 ssrc

/-- Packet `j` of a raster frame of an IP output: row, first pixel, pixels (R208). -/
def Raster.packet (r : Raster) (j : Nat) : Nat × Nat × Nat :=
  let (pb, pp) := pgroup r.sampling r.fmt
  let n := linePackets r.width r.payload pb pp
  let per := r.payload / pb * pp
  let x0 := j % max n 1 * per
  (j / max n 1, x0, min per (r.width - x0))

/-- Packets of a frame, `N_pk` (R209). -/
def Raster.packets (r : Raster) : Nat :=
  let (pb, pp) := pgroup r.sampling r.fmt
  r.height * linePackets r.width r.payload pb pp

/-- The launch time of packet `j`: the first active line's start, and `j` times `T_rs`, which divides the time of the
active lines among the packets of the frame (R209). -/
def Raster.launchAt (r : Raster) (j : Nat) : Q :=
  (Q.ofNat r.s0).add ((r.tm.elim ⟨0, 1⟩ fun tm => ⟨(lineTime tm r.code).n * r.height * j,
    (lineTime tm r.code).d * max r.packets 1⟩))

/-- IP_PACKET_LAUNCH: packet `j` of the raster frame launches at its scheduled time, within 50 ns, on each leg whose
port is up (R208 to R211); `missing`: its pixels are not available (R200). -/
def Dev.ipLaunch (d : Dev) (o j : Nat) (missing : Bool) : Dev :=
  match (d.out o).raster with
  | some r =>
    let i := outIdx o
    let (y, x0, n) := r.packet j
    if o < 64 ∨ r.height ≤ y ∨ !(r.launchAt j).near 51 (Q.ofNat d.now) then d
    else
      let band := y / 16
      let late := r.comp.any fun c => c.racing && !c.written.contains band
      let miss := late || (missing && r.comp.isSome)
      let d := if late && !r.repeated && y % 16 == 0 && x0 == 0 then d.bandLate o band else d
      let r' := if miss then r.miss y x0 else r
      let d := d.setOut o { d.out o with raster := some r' }
      let d := if x0 = 0 then d.showRow o y r.marked else d
      -- R210, R355: the sequence counts scheduled packets, sent or not
      let seq := (d.out o).sendSeq
      let d := d.setOut o { d.out o with sendSeq := (seq + 1) % 2 ^ 32 }
      let led := d.ledBy (outWing o)
      if d.rd i 0x10 ≠ 3 ∨ !led.rdb i 1 then d
      else
        let last := decide (y + 1 = r.height) && decide (r.width ≤ x0 + n)
        let dep := if r.fmt = 3 then 10 else 8
        let (pb, pp) := pgroup r.sampling r.fmt
        let pay := packBits dep (d.ipSamples o r' y x0 n miss)
        let srd := beBytes 2 (seq / 65536) ++ beBytes 2 (n * pb / pp) ++ beBytes 2 y ++ beBytes 2 x0
        let msg := rtpHeader (led.rd i 0x28) last (seq % 65536) r.rtp (led.rd i 0x2D) ++ srd ++ pay
        (led.outLegs o).foldl (fun d s => d.sendMedia (led.rd i s) (led.rdd i (s + 1)) (led.rd i (s + 2)) (led.rd i 0x27)
          (led.rd i 0x2B) "st2110-20" msg) d
  | none => d

/-- IP_PACKET_LAUNCH (R209). -/
def execIpPacketLaunch (t o j : Nat) (missing : Bool) (s : State) :
    Host.Outcome State Fault Refusal :=
  onDev t (·.ipLaunch o j missing) s

/-! ### Applying a change -/

/-- The end of the raster frame in progress, in its own timing (R203). -/
def Dev.rasterEnd (d : Dev) (o : Nat) : Nat :=
  (d.out o).raster.elim 0 fun r => r.tm.elim 0 fun tm => r.lineAt tm.vt

/-- The timing block of 0x3400+o:17 (R191). -/
def Dev.timingBytes (d : Dev) (o : Nat) : List Byte :=
  match d.timing o with
  | none => List.replicate 24 0
  | some tm =>
    let c := d.rd (outIdx o) 3
    let den := if periodNum c = 1 then 1 else 1001
    let num := if periodNum c = 1 then 1 else 1000
    let hz := (2 * tm.clk * num + den) / (2 * den)
    let ps := (2 * tm.ht * 1000000000000 * den + tm.clk * num) / (2 * (tm.clk * num))
    leBytes 2 tm.ht ++ leBytes 2 tm.vt ++ leBytes 2 tm.ha ++ leBytes 2 tm.va ++ leBytes 1 tm.vf ++
      leBytes 1 tm.vs ++ leBytes 1 tm.vb ++ [0] ++ leBytes 8 hz ++ leBytes 4 ps

/-- OUTPUT_COUNTER_RESET: 1 written to 0x3400+o:16 clears subs 13 to 15. -/
def execOutputCounterReset (t : Nat) (by_ : Requester) (o : Nat) (s : State) :
    Host.Outcome State Fault Refusal :=
  onCommand t by_ (fun d =>
    d.command by_ (outIdx o) 0x16 [1] fun d =>
      (((d.wr (outIdx o) 0x13 0).wr (outIdx o) 0x14 0).wr (outIdx o) 0x15 0).res stOk) s

end Sys2Proof.Machine
end

