-- ==== Sys2Proof/Machine/Encoder.lean ====
section
/-! DEFINITION. Encoder channels: their times (R225), states (Table 9.4), pictures and their selection
(R215 to R218, R222), the converted input (R219), and the raster frame start that feeds kind 0
channels. -/
namespace Sys2Proof.Machine

/-! ### Channels -/

/-- Index of the channel object, and of its rate-control object. -/
def encIdx (c : Nat) : Nat := 0x3500 + c
def rcIdx (c : Nat) : Nat := 0x3520 + c

/-- The encoder's wing (R10). -/
def encWing (c : Nat) : Nat := c / 4

def Dev.enc (d : Dev) (c : Nat) : EncRt := Tab.getD d.encs c {}

def Dev.setEnc (d : Dev) (c : Nat) (x : EncRt) : Dev := { d with encs := Tab.setD d.encs c x {} }

/-- State of a channel (Table 9.4). -/
def Dev.encState (d : Dev) (c : Nat) : Nat := d.rd (encIdx c) 0x23

/-- Enters a channel state, with ENC_STATE (Table 9.9). -/
def Dev.setEncState (d : Dev) (c st : Nat) : Dev :=
  if d.encState c = st then d
  else (d.wr (encIdx c) 0x23 st).event (uEnc (encWing c)) 0x0901 c st

/-- The subs of the ports a channel sends on. -/
def Dev.encLegs (d : Dev) (c : Nat) : List Nat :=
  if d.rdb (encIdx c) 0x18 then [0x15, 0x19] else [0x15]

/-- The state of a channel that codes pictures (Table 9.4, R481): FOLLOWING lasts until following ends
or the role becomes active. -/
def Dev.codingState (d : Dev) (c : Nat) : Nat :=
  if d.standby then (if d.encState c = 3 then 3 else 4)
  else if (d.encLegs c).any fun s => d.linkUp (d.rd (encIdx c) s) then 2
  else 5

/-- Recomputes the state of a channel that codes pictures. -/
def Dev.refreshEnc (d : Dev) (c : Nat) : Dev :=
  if d.encState c < 2 then d else d.setEncState c (d.codingState c)

def Dev.refreshEncs (d : Dev) : Dev := foldNat Dev.refreshEnc 16 d

/-! ### Times and sizes -/

/-- CTU size of a codec (Table 9.2). -/
def ctuSize (codec : Nat) : Nat := if codec = 2 then 128 else 64

/-- CTU rows and columns of a picture. -/
def EncPic.ctu (p : EncPic) : Nat := ctuSize p.codec
def EncPic.nRows (p : EncPic) : Nat := ceilDiv p.height p.ctu
def EncPic.nCols (p : EncPic) : Nat := ceilDiv p.width p.ctu

/-- The tick period of a wing in ns, exactly. -/
def Dev.period (d : Dev) (w : Nat) : Q := ⟨periodNum (d.rate w) * 1000000000, periodDen (d.rate w)⟩

/-- The input line time of a channel (Table 9.1). -/
def Dev.encTin (d : Dev) (c : Nat) : Q :=
  let i := encIdx c
  let p := d.period (encWing c)
  if d.rd i 6 = 0 then
    match d.timing (d.rd i 7) with
    | some tm => ⟨p.n, p.d * tm.vt⟩
    | none => ⟨0, 1⟩
  else ⟨p.n * 15, p.d * 16 * max (d.rd i 0x0B) 1⟩

/-- The row input time and the fixed delay of a channel (R225). -/
def Dev.encTrow (d : Dev) (c : Nat) : Q := (d.encTin c).mul (ctuSize (d.rd (encIdx c) 2))
def Dev.encDelay (d : Dev) (c : Nat) : Q :=
  ((d.encTrow c).mul (d.rd (encIdx c) 0x0C)).add (Q.ofNat 112000)

/-- A picture's row input time. -/
def EncPic.trow (p : EncPic) : Q := p.tin.mul p.ctu

/-- The instants of row `r` of a picture: its decision, its release and its deadline (R225, R239). -/
def EncPic.vAt (p : EncPic) (r : Nat) : Q := p.ts.add (p.tin.mul (min ((r + 1) * p.ctu) p.height))
def EncPic.uAt (p : EncPic) (r : Nat) : Q := (p.vAt r).add (p.trow.mul 4)
def EncPic.dAt (p : EncPic) (r : Nat) : Q := (p.ts.add (p.trow.mul (r + p.delay))).add (Q.ofNat 112000)

/-- The stream position of the schedule at an instant (R238). -/
def schedule (rate : Nat) (t0 t : Q) : Nat :=
  let e := t.sub t0
  rate * 1000 * e.n / (e.d * 1000000000)

/-- The CPB size of 0x3520+c:05 (R240). -/
def Dev.cpbSize (d : Dev) (c : Nat) : Nat :=
  let i := encIdx c
  let e := ((d.period (encWing c)).add (d.encDelay c)).sub ((d.encTin c).mul (d.rd i 0x0B))
  ceilDiv (d.rd i 0x10 * 1000 * e.n) (e.d * 1000000000)

/-! ### Refresh -/

/-- The first and the end column of the refresh column of picture `i` of a cycle (R222). -/
def refreshCols (i period cols : Nat) : Nat × Nat := (i * cols / period, (i + 1) * cols / period)

/-! ### Selection -/

/-- History keys of channels follow those of the outputs. -/
def encKey (c : Nat) : Nat := (128 + c) * 1024

/-- A region of a kind 1 picture: a layer's rectangle on the canvas, or a region of a job list's output at
(`hx`, `hy`), clipped to the channel's rectangle (R218). -/
def Dev.encRegion (d : Dev) (c num : Nat) (r : Region) (hx hy : Int) : Region :=
  let i := encIdx c
  let j := layIdx r.layer
  let (wid, hei) := (d.rd i 0x0A, d.rd i 0x0B)
  let (x, w) := if r.byList then clipSpan (hx + r.x) r.w 0 wid
    else clipSpan (toSigned 32 (d.rd j 0x0B)) (d.rd j 0x0D) (d.rd i 8) wid
  let (y, h) := if r.byList then clipSpan (hy + r.y) r.h 0 hei
    else clipSpan (toSigned 32 (d.rd j 0x0C)) (d.rd j 0x0E) (d.rd i 9) hei
  { r with num := num, x := x, y := y, w := w, h := h
           canvas := if r.byList then r.canvas else d.rd j 4 }

/-- The newest published composed frame of an output. -/
def OutputRt.newest (x : OutputRt) : Option Comp :=
  match x.ready.getLast? with
  | some c => some c
  | none => x.shown.bind fun c => if c.complete then some c else none

/-- The heads of a canvas that a channel's rectangle covers, with the head's position relative to the
rectangle and its newest composed frame (Table 9.1). -/
def Dev.encHeads (d : Dev) (c : Nat) : List (Comp × Int × Int) :=
  let i := encIdx c
  (d.heads (d.rd i 7)).filterMap fun h =>
    let (w, hh) := d.outSize h.1
    let meets := decide (h.2.1 < d.rd i 8 + d.rd i 0x0A) && decide (d.rd i 8 < h.2.1 + w) &&
      decide (h.2.2 < d.rd i 9 + d.rd i 0x0B) && decide (d.rd i 9 < h.2.2 + hh)
    if meets then
      (d.out h.1).newest.map fun k => (k, (h.2.1 : Int) - d.rd i 8, (h.2.2 : Int) - d.rd i 9)
    else none

/-- Inserts a region in stacking order: by z-order, then by layer, behind its equals (R135). -/
def insertRegion (r : Region × Int × Int) : List (Region × Int × Int) → List (Region × Int × Int)
  | [] => [r]
  | e :: rest =>
    if r.1.z < e.1.z ∨ (r.1.z = e.1.z ∧ r.1.layer < e.1.layer) then r :: e :: rest else e :: insertRegion r rest

/-- The layers that the composed frames of a canvas region show, in stacking order, each with its first region among
them, and every region of a job list's output; with the position of its head (R135, R218). -/
def regionLayers (heads : List (Comp × Int × Int)) : List (Region × Int × Int) :=
  ((heads.flatMap fun h => h.1.regions.map fun r => (r, h.2)).foldl
    (fun acc r => if !r.1.byList && acc.any (fun e => !e.1.byList && e.1.layer == r.1.layer) then acc
      else acc ++ [r]) []).foldl (fun acc r => insertRegion r acc) []

/-- A composed frame that a canvas region shows was found impaired in this region: in the layer at any head, or in the
region of the head's own list (R161, R165, R166). -/
def regionImpaired (heads : List (Comp × Int × Int)) (r : Region × Int × Int) : Bool :=
  heads.any fun h => h.1.regions.any fun q =>
    h.1.impaired.contains q.num && q.byList == r.1.byList && q.layer == r.1.layer &&
      (!r.1.byList || (q.num == r.1.num && h.2 == r.2))

/-- The rate-control state of a channel (Table 10.4), from which `count` is the next picture. -/
def EncRt.stateBytes (x : EncRt) (count : Nat) : List Byte :=
  leBytes 4 x.kappa ++ leBytes 4 0 ++ leBytes 8 (x.zEnd - x.kEnd) ++ leBytes 8 x.kEnd ++ leBytes 8 count

/-- 0x3520+c:06 shows the channel's rate-control state (R252). -/
def Dev.showRc (d : Dev) (c count : Nat) : Dev := d.wrd (rcIdx c) 6 ((d.enc c).stateBytes count)

/-- The picture that a channel takes next, by its configuration: the counts of R215, the cycle of R222. -/
def Dev.newPicture (d : Dev) (c tick ref : Nat) (ts : Q) : EncPic :=
  let i := encIdx c
  let x := d.enc c
  let codec := d.rd i 2
  let fresh := x.begin_ != 0
  let idr := fresh && codec == 1
  let pos := if fresh then 0 else x.pos
  let period := if pos = 0 && !idr then d.rd i 0x0E else x.period
  let cols := ceilDiv (d.rd i 0x0A) (ctuSize codec)
  let (ra, rb) := if idr then (0, cols) else refreshCols pos period cols
  let qmaxTop := if codec = 2 then 63 else 51
  { count := d.rd i 0x24, tick := tick, ref := ref, ts := ts, tin := d.encTin c, kind := d.rd i 6
    codec := codec, width := d.rd i 0x0A, height := d.rd i 0x0B, delay := d.rd i 0x0C
    rate := d.rd i 0x10, qmin := d.rd (rcIdx c) 1
    qmax := if d.rd (rcIdx c) 2 = 0xFF then qmaxTop else d.rd (rcIdx c) 2
    epoch := x.epoch + fresh.toNat, is420 := !(codec == 1 && d.rd i 3 == 2)
    matrix := if d.rd i 0x0F = 0 then 0 else 1, carriage := d.rd i 0x11
    thr := d.rd (rcIdx c) 3, roi := d.rdd (0x3510 + c) 1, input := .source none
    marks := d.marksNow (d.rd i 0x22), idr := idr, restart := x.begin_ == 2
    pos := if idr then none else some pos, period := period, refA := ra, refB := rb
    kappa0 := if fresh then 65536 else x.kappa
    profile := d.rd i 3, level := d.rd i 4, tier := d.rd i 5, colour := d.rd i 0x0F
    effort := d.rd 0x2020 (encWing c + 1), cpb := d.cpbSize c
    poc := if idr || x.begin_ == 1 then 0 else x.poc }

/-- Stream position 0 of a coded video sequence: its first bit leaves when its first row is released, and after a
restart not before the last old allotment ends (R238, R251). -/
def EncRt.origin (x : EncRt) (p : EncPic) : Q :=
  if x.begin_ = 1 then p.uAt 0
  else if x.begin_ = 2 then (if Q.le (p.uAt 0) x.lastDue then x.lastDue else p.uAt 0)
  else x.t0

/-- The picture target G (R238). -/
def EncRt.pictureTarget (x : EncRt) (p : EncPic) (period : Q) : Nat :=
  let due := p.dAt (p.nRows - 1)
  if x.begin_ = 1 then schedule p.rate (Q.ofNat 0) period
  else if x.begin_ = 2 then schedule p.rate x.lastDue due
  else schedule p.rate x.t0 due - x.zLast

/-- A channel takes a picture into work: its target, and the schedule and the cycle go on (R222, R238, R242, R251). At a
start and a restart the stream positions, κ, and what is known of earlier pictures begin anew. -/
def EncRt.begin (x : EncRt) (p : EncPic) (period : Q) : EncRt :=
  let fresh := x.begin_ != 0
  let t0 := x.origin p
  let due := p.dAt (p.nRows - 1)
  let next := match p.pos with
    | none => 0
    | some k => (k + 1) % max p.period 1
  { x with
    begin_ := 0, pics := x.pics ++ [{ p with target := x.pictureTarget p period }], t0 := t0
    zLast := schedule p.rate t0 due, lastDue := due, epoch := p.epoch, poc := (p.poc + 1) % 2 ^ 32
    t0Old := if fresh then x.t0 else x.t0Old, kOld := if fresh then x.kEnd else x.kOld
    kEnd := if fresh then 0 else x.kEnd, zEnd := if fresh then 0 else x.zEnd, kappa := p.kappa0
    prevW := if fresh then [] else x.prevW, prevY := if fresh then [] else x.prevY
    period := p.period, pos := next }

/-- A channel takes its next picture (R215, R222, R234, R253). `mk` fills in what the picture takes in. -/
def Dev.startPicture (d : Dev) (c tick ref : Nat) (ts : Q) (mk : EncPic → EncPic) : Dev :=
  let i := encIdx c
  let x := d.enc c
  let p := mk (d.newPicture c tick ref ts)
  let d := d.setEnc c (x.begin p (d.period (encWing c)))
  let d := (d.wr i 0x24 ((p.count + 1) % 2 ^ 64)).wr i 0x2A (p.pos.getD 0xFFFF)
  let d := if x.begin_ = 0 then d else d.showRc c p.count
  let d := d.incf i 0x28 0
  let d := if p.restart then
      (d.incf i 0x28 2).raise (uEnc (encWing c)) 0x0902 c (p.count % 2 ^ 32) sevInfo
    else d
  -- R253, R362: following starts at a cycle start
  if d.standby && x.followWanted && p.pos == some 0 then
    let d := (d.setEnc c { d.enc c with followWanted := false, followCycle := some p.count }).wr (rcIdx c) 8 1
    d.setEncState c 3
  else d.setEncState c (d.codingState c)

/-- A channel takes pictures now: enabled, its wing running, and its start instant reached (R215). -/
def Dev.encTakes (d : Dev) (c at_ : Nat) : Bool :=
  d.rdb (encIdx c) 1 && d.encState c != 0 && !d.wingDown (encWing c) &&
    ((d.enc c).begin_ != 1 || decide ((d.enc c).from_ ≤ at_))

/-- The tick whose selection instant *s* is now: T+0 of the tick + input offset, to the ns counts on both sides
(R216). -/
def Dev.encTick (d : Dev) (c : Nat) : Option Nat :=
  let w := encWing c
  let off := d.rd (encIdx c) 0x0D
  let n := d.tickOf w (d.now + 2 - off)
  if (Q.ofNat d.now).near 2 ((d.tickExact w n).add (Q.ofNat off)) then some n else none

/-- What a kind 1 or 2 channel takes in at its selection: the input, its regions with those found impaired, and the
loans (R216, R218). -/
def Dev.encInput (d : Dev) (c : Nat) : EncInput × List Region × List Nat × List Loan :=
  let i := encIdx c
  let w := encWing c
  if d.rd i 6 = 2 then
    let n := d.rd i 7
    let e := (d.seenBy w).srcRec n
    let r : Region :=
      { num := 0, layer := 0, kind := 0, policy := e.policy, x := 0, y := 0, w := d.rd i 0x0A
        h := d.rd i 0x0B, isOpaque := true, recs := [e] }
    (.source ((d.srcFrame n).map (·.2)), [r], [], e.buf.toList.map fun b => .source n b)
  else
    let heads := (d.seenBy w).encHeads c
    let rs := regionLayers heads
    let placed := (List.range rs.length).filterMap fun k =>
      (rs[k]?).map fun r => (d.encRegion c k r.1 r.2.1 r.2.2, regionImpaired heads r)
    let placed := placed.filter fun r => r.1.w != 0 && r.1.h != 0
    (.region heads, placed.map (·.1), (placed.filter (·.2)).map (·.1.num),
      heads.map fun h => .frame h.1.target h.1.id h.1.buf)

/-- ENCODER_SELECTION: at its selection instant a kind 1 or 2 channel takes its input loans and its marking list (R216
to R218), one picture in each tick (R215). -/
def Dev.encSelect (d : Dev) (c : Nat) (fault : Bool) : Dev :=
  let i := encIdx c
  match d.encTick c with
  | none => d
  | some tick =>
    if d.rd i 6 = 0 ∨ !d.encTakes c d.now ∨ (d.enc c).pics.any (·.tick == tick) then d
    else
      let ts := (d.tickExact (encWing c) tick).add (Q.ofNat (d.rd i 0x0D + 128000))
      let tin := d.encTin c
      let (input, regions, bad, loans) := d.encInput c
      let d := loans.foldl Dev.takeLoan d
      let (evals, d) := d.evalRegions (encKey c) regions bad fun y => (ts.add (tin.mul y)).floor
      let d := if fault then d.raise (uEnc (encWing c)) 0x0703 c (d.rd i 0x24 % 2 ^ 32) sevService else d
      d.startPicture c tick d.now ts fun p =>
        { p with input := input, regions := regions, evals := evals, listFault := fault, loans := loans
                 rtp := count90k ((d.tickExact (encWing c) tick).add (Q.ofNat (d.rd i 0x0D)))
                 inRef := match input with
                   | .source (some f) => f.seq % 2 ^ 32
                   | _ => 0 }

/-- ENCODER_SELECTION (R216). -/
def execEncoderSelection (t c : Nat) (listFault : Bool) (s : State) :
    Host.Outcome State Fault Refusal :=
  onDev t (·.encSelect c listFault) s

/-- The exact instant of the first active line of a raster frame (R192). -/
def Dev.firstLine (d : Dev) (o : Nat) (r : Raster) : Q :=
  let n := d.tickOf (outWing o) (r.base + 1)
  (d.tickExact (outWing o) n).add (r.tm.elim ⟨0, 1⟩ fun tm => (lineTime tm r.code).mul (r.offset + r.top))

/-- A kind 0 channel takes the raster frame of its output, with a loan on the composed frame that it shows (R216). -/
def Dev.takeRaster (d : Dev) (o : Nat) (r : Raster) (c : Nat) : Dev :=
  let i := encIdx c
  if d.rd i 6 = 0 ∧ d.rd i 7 = o ∧ d.encTakes c r.s0 then
    let loans := r.comp.toList.map fun k => Loan.frame o k.id k.buf
    (loans.foldl Dev.takeLoan d).startPicture c (d.tickOf (encWing c) r.start) r.start (d.firstLine o r) fun p =>
      { p with input := .output o r, inRef := r.k % 2 ^ 32, loans := loans, rtp := r.rtp }
  else d

/-- The kind 0 channels of an output take its raster frame (R216). -/
def Dev.encRaster (d : Dev) (o : Nat) : Dev :=
  match (d.out o).raster with
  | none => d
  | some r => foldNat (·.takeRaster o r) 16 d

/-- RASTER_FRAME_START: a raster frame of an output begins, and the channels that code the output
take it (R192, R216). -/
def Dev.rasterFrameStart (d : Dev) (mem : Mem) (o : Nat) (listFault : Bool) : Dev :=
  let n := (d.out o).count
  let d := d.rasterStart mem o listFault
  if (d.out o).count = n then d else d.encRaster o

/-- RASTER_FRAME_START (R192). -/
def execRasterFrameStart (t o : Nat) (listFault : Bool) (s : State) :
    Host.Outcome State Fault Refusal :=
  onDevMem t (fun mem d => (if d.alive then d.rasterFrameStart mem o listFault else d, mem)) s

/-! ### Converted input -/

/-- Narrow-range YCbCr of 10 bits from 16-bit RGB codes, rounded half up (R219). -/
def encYcc (m : Nat) (p : Nat × Nat × Nat) : Nat × Nat × Nat :=
  let (kr, kb) := lumaCoef m
  let kg := 10000 - kr - kb
  let yn : Nat := kr * p.1 + kg * p.2.1 + kb * p.2.2
  let half := fun (n : Int) (den : Nat) => (2 * n + den) / (2 * den : Nat)
  let y := half ((876 * yn : Nat) : Int) (10000 * 65535) + 64
  let cb := half (896 * (((10000 * p.2.2 : Nat) : Int) - yn)) (2 * (10000 - kb) * 65535) + 512
  let cr := half (896 * (((10000 * p.1 : Nat) : Int) - yn)) (2 * (10000 - kr) * 65535) + 512
  (clampTo 1023 y, clampTo 1023 cb, clampTo 1023 cr)

/-- A packed output pixel's components widened to 16 bits (R136). -/
def widenComps (fmt : Nat) (v : Nat × Nat × Nat) : Nat × Nat × Nat :=
  let (wr, wg, wb) := fmtBits fmt
  (widen wr v.1, widen wg v.2.1, widen wb v.2.2)

/-- A sample of a source's frame in 10 bits: 12-bit samples are rounded half up (R219). -/
def to10 (depth v : Nat) : Nat := if depth = 12 then min 1023 ((v + 2) / 4) else v

/-- The marking list of a kind 1 or 2 picture (R218). -/
def EncPic.list (p : EncPic) : MarkList :=
  { regions := p.regions.zip p.evals, width := p.width, height := p.height, marks := p.marks, fault := p.listFault
    firefly := some (fireflyBits p.count p.prior) }

/-- What a channel's plane shows: the picture's marking list, or, once the guardian pair has stopped, what it held then
(R26). -/
def Dev.encPlane (d : Dev) (c : Nat) (p : EncPic) : MarkList :=
  if d.guardianStopped then ((d.enc c).plane).getD {} else p.list

/-- A picture's raster frame as it stands: its output's while that runs, and from its frame-done what was kept (R219).
-/
def Dev.inputRaster (d : Dev) (o : Nat) (r : Raster) : Raster :=
  match (d.out o).raster with
  | some q => if q.k = r.k then q else r
  | none => r

/-- Pixel (`x`, `y`) of a picture as 10-bit Y, Cb, Cr in 4:4:4, with its marking merged (R180, R219). -/
def Dev.encContent (d : Dev) (c : Nat) (p : EncPic) (x y : Nat) : Nat × Nat × Nat :=
  let m := p.matrix
  match p.input with
  | .output o r =>
    let r := d.inputRaster o r
    encYcc m (widenComps r.fmt (d.rasterPx o r x y (r.delivered y x)))
  | .region heads =>
    let hit := heads.find? fun h =>
      decide (h.2.1 ≤ (x : Int)) && decide ((x : Int) < h.2.1 + h.1.width) &&
        decide (h.2.2 ≤ (y : Int)) &&
        decide ((y : Int) < h.2.2 + h.1.height)
    let k := (d.encPlane c p).markAt x y
    match hit with
    | some (f, hx, hy) =>
      let v := if p.list.black x y then 0
        else f.at ((x : Int) - hx).toNat ((y : Int) - hy).toNat
      encYcc m (widenComps f.fmt (mergeMark f.fmt v k))
    | none => encYcc m (widenComps 3 (mergeMark 3 0 k))
  | .source f =>
    let k := (d.encPlane c p).markAt x y
    let base := match f with
      | some fr =>
        if p.list.black x y then encYcc m (0, 0, 0)
        else if fr.sampling = 2 then
          let q := fr.px x y
          encYcc m (q.c0, q.c1, q.c2)
        else if is422 fr.sampling fr.depth then
          let o := 2 * (y * fr.width + (x - x % 2))
          (fr.sample (2 * (y * fr.width + x) + 1), fr.sample o, fr.sample (o + 2))
        else
          let o := 3 * (y * fr.width + x)
          (to10 fr.depth (fr.sample o), to10 fr.depth (fr.sample (o + 1)),
            to10 fr.depth (fr.sample (o + 2)))
      | none => encYcc m (0, 0, 0)
    if k.cls = 0 then base
    else
      let q := pxOfColour k.colour
      let e := encYcc m (q.c0, q.c1, q.c2)
      let mix := fun (a b : Nat) =>
        (freeRound ((a * k.alpha + b * (4096 - k.alpha) : Nat) : Int) 4096).toNat
      (mix e.1 base.1, mix e.2.1 base.2.1, mix e.2.2 base.2.2)

/-- The same, with code 0 in every component where the pixel's word is poisoned (R313). -/
def Dev.encPixel (d : Dev) (c : Nat) (p : EncPic) (x y : Nat) : Nat × Nat × Nat :=
  if d.poisonedAt (fun _ => Config.inputWord p.kind p.ref (y * p.width + x)) then (0, 0, 0)
  else d.encContent c p x y

/-- 4:2:2 chroma at an even pixel: the filter of R208 over 4:4:4 chroma; stored 4:2:2 chroma is used
unchanged (R219). -/
def Dev.encChroma (d : Dev) (c : Nat) (p : EncPic) (cr : Bool) (x y : Nat) : Nat :=
  let v := fun x => let q := d.encPixel c p x y; if cr then q.2.2 else q.2.1
  let direct := match p.input with
    | .source (some f) => is422 f.sampling f.depth
    | _ => false
  if direct then v x else (v (x - 1) + 2 * v x + v (min (x + 1) (p.width - 1)) + 2) / 4

/-- The first input line of a CTU row, and its lines. -/
def EncPic.rowLines (p : EncPic) (row : Nat) : Nat × Nat := (row * p.ctu, min p.ctu (p.height - row * p.ctu))

/-- The converted luma of a CTU row, by line (R219). -/
def Dev.rowLuma (d : Dev) (c : Nat) (p : EncPic) (row : Nat) : List (List Nat) :=
  let d := d.seenBy (encWing c)
  let (y0, n) := p.rowLines row
  (List.range n).map fun j => (List.range p.width).map fun x => (d.encPixel c p x (y0 + j)).1

/-- The converted chroma of a CTU row, by line: 4:2:2, or the mean of two lines of it, rounded half up (R219). -/
def Dev.rowChroma (d : Dev) (c : Nat) (p : EncPic) (row : Nat) (cr : Bool) : List (List Nat) :=
  let d := d.seenBy (encWing c)
  let (y0, n) := p.rowLines row
  let line := fun y => (List.range (p.width / 2)).map fun x => d.encChroma c p cr (2 * x) y
  if p.is420 then
    (List.range (n / 2)).map fun j =>
      List.zipWith (fun a b => (a + b + 1) / 2) (line (y0 + 2 * j)) (line (y0 + 2 * j + 1))
  else (List.range n).map fun j => line (y0 + j)

/-- A picture's converted plane from its rows. -/
def EncPic.plane (p : EncPic) (f : RowRt → List (List Nat)) : List (List Nat) := p.rows.flatMap f

/-- The input check value of a picture: its Y, Cb and Cr planes (R219). -/
def EncPic.inputCrc (p : EncPic) : Nat :=
  crc32c ((p.plane (·.y) ++ p.plane (·.cb) ++ p.plane (·.cr)).flatMap fun l => l.flatMap (leBytes 2))

/-- A multiple of 8 at or above a size: the coded size (R219). -/
def coded8 (n : Nat) : Nat := ceilDiv n 8 * 8

/-- A list made `n` long by repeating its last element. -/
def repeatLast {α : Type} (n : Nat) (xs : List α) : List α :=
  match xs.getLast? with
  | some e => xs ++ List.replicate (n - xs.length) e
  | none => xs

/-- Lines padded to `w` columns and `h` lines by repeating the last column and the last row (R219). -/
def padPlane (w h : Nat) (rows : List (List Nat)) : List (List Nat) := repeatLast h (rows.map (repeatLast w))

/-- The lines that a CTU row has in the coded picture. -/
def EncPic.codedLines (p : EncPic) (row : Nat) : Nat := min p.ctu (coded8 p.height - row * p.ctu)

/-! ### Enable and restart -/

/-- Enable 1 applies to a channel: counts, window and rate-control state restart (R215, R237, R243). -/
def Dev.encEnable (d : Dev) (c : Nat) : Dev :=
  let i := encIdx c
  let d := (d.setEnc c { d.enc c with
    begin_ := 1, from_ := d.now, pos := 0, seq := 0, prevCrc := 0, kappa := 65536, kEnd := 0, zEnd := 0, owed := 0
    recon := [] }).wr i 0x24 0
  let d := d.showRc c 0
  let d := (foldNat (fun d k => d.wrc (0x3540 + c) 1 k []) 16 d).wr (0x3540 + c) 3 0
  let d := { d with hist := d.hist.filter fun e => e.1 / 1024 != 128 + c }
  let d := d.setEncState c 1
  -- a raster frame in progress whose first row enters from now on is the first picture
  let o := d.rd i 7
  match (d.out o).raster with
  | some r => if d.now ≤ r.s0 then d.takeRaster o r c else d
  | none => d

/-- Enable 0 applies: pictures whose input has started are completed and sent, and no other is coded (R215); the loans
of the others return. -/
def Dev.encDisable (d : Dev) (c : Nat) : Dev :=
  let i := encIdx c
  let x := d.enc c
  let starts := fun (p : EncPic) => !Q.le (Q.ofNat d.now) p.ts
  let keep := x.pics.filter starts
  let n := x.pics.length - keep.length
  let d := ((x.pics.filter fun p => !starts p).flatMap (·.loans)).foldl Dev.returnLoan (d.setEnc c { x with pics := keep })
  let d := (d.wr i 0x24 (d.rd i 0x24 - n)).wrf i 0x28 0 (d.rdf i 0x28 0 - n)
  d.setEncState c 0

/-- The channel restarts with its next picture (R234, R251, R264). -/
def Dev.encRestart (d : Dev) (c : Nat) : Dev :=
  if (d.enc c).begin_ = 0 ∧ d.encState c ≠ 0 then d.setEnc c { d.enc c with begin_ := 2 } else d

/-- ENCODER_COUNTER_RESET: 1 written to 0x3500+c:29 clears sub 28. -/
def execEncoderCounterReset (t : Nat) (by_ : Requester) (c : Nat) (s : State) :
    Host.Outcome State Fault Refusal :=
  onCommand t by_ (fun d =>
    d.command by_ (encIdx c) 0x29 [1] fun d => (d.clearFields (encIdx c) 0x28 8).res stOk) s

end Sys2Proof.Machine
end

