-- ==== Sys2Proof/Machine/Audio.lean ====
section
/-! DEFINITION. Audio ports and streams (R275 to R288). -/
namespace Sys2Proof.Machine

/-! ### Positions and rings -/

/-- A rate in Hz from its code. -/
def audHz (code : Nat) : Nat := if code = 1 then 96000 else 48000

/-- The sample position at an instant (R277). -/
def audPos (hz t : Nat) : Nat := t * hz / 1000000000

/-- The first position at or after an instant (R281). -/
def audPosFrom (hz t : Nat) : Nat := ceilDiv (t * hz) 1000000000

/-- The newest position whose start, truncated to the ns (R255), is at or before an instant. -/
def audFramePos (hz t : Nat) : Nat := ceilDiv ((t + 1) * hz) 1000000000 - 1

def ringKey (ch pos : Nat) : Nat := ch * 65536 + pos % 65536

/-- The sample a channel holds at a position, if it is written and not poisoned (R276, R313). -/
def Dev.audRead (d : Dev) (ch pos : Nat) : Option Nat :=
  let e := Tab.getD d.aud.rings (ringKey ch pos) (0, 0)
  if e.1 = pos + 1 ∧ !d.poisonedAt (fun _ => Config.audioWord ch (pos % 65536)) then some e.2 else none

/-- Writes a channel's sample at a position (R276). -/
def Dev.audWrite (d : Dev) (ch pos v : Nat) : Dev :=
  { d with aud := { d.aud with
      rings := Tab.setD d.aud.rings (ringKey ch pos) (pos + 1, v % 2 ^ 24) (0, 0) } }

/-- What a reader takes from a channel at a position: an unwritten one is 0 and is counted (R283). -/
def Dev.audTake (d : Dev) (ch pos : Nat) : Nat × Bool × Dev :=
  match d.audRead ch pos with
  | some v => (v, false, d)
  | none =>
    let x := d.aud
    (0, true, { d with aud := { x with
        zeros := Tab.setD x.zeros ch (satInc 32 (Tab.getD x.zeros ch 0)) 0
        zeroAt := Tab.setD x.zeroAt ch (d.now + 1) 0 } })

/-- Samples a reader takes of several channels at a position, with the number of zero samples. -/
def Dev.audTakes (d : Dev) (pos : Nat) : List Nat → List Nat × Nat × Dev
  | [] => ([], 0, d)
  | ch :: r =>
    let (v, z, d) := d.audTake ch pos
    let (vs, n, d) := d.audTakes pos r
    (v :: vs, n + z.toNat, d)

/-- A frame carries the IEC 61937 burst preamble in a pair of channels (R284). -/
def burstPreamble (l r : Nat) : Bool := l / 256 % 65536 == 0xF872 && r / 256 % 65536 == 0x4E1F

/-- A frame of a pair counts towards its mute: the preamble mutes it, and the mute is released at the end of the
4,096th consecutive frame without it (R284). -/
def Dev.audPair (d : Dev) (ch l r : Nat) : Dev :=
  let m := Tab.getD d.aud.mute ch 0
  let set := fun (d : Dev) v => { d with aud := { d.aud with mute := Tab.setD d.aud.mute ch v 0 } }
  if burstPreamble l r then
    let d := set d 4096
    if m = 0 then d.raise uAudio 0x0C04 ch 1 sevInfo else d
  else if m = 0 then d
  else if m = 1 then (set d 0).raise uAudio 0x0C04 ch 0 sevInfo
  else set d (m - 1)

/-- Whether a channel belongs to a muted pair of a writer whose first channel is `f`. -/
def Dev.audMuted (d : Dev) (f c : Nat) : Bool := Tab.getD d.aud.mute (f + c / 2 * 2) 0 != 0

/-- A writer writes one frame of its channels, `f` upwards, at a position (R284). -/
def Dev.audFrame (d : Dev) (f pos : Nat) (vs : List Nat) : Dev :=
  let at_ := fun k => vs.getD k 0
  let mutes := fun k => burstPreamble (at_ (2 * k)) (at_ (2 * k + 1))
  let quiet := fun c => c / 2 * 2 + 1 < vs.length && (d.audMuted f c || mutes (c / 2))
  let e := foldNat (fun e c => e.audWrite (f + c) pos (if quiet c then 0 else at_ c)) vs.length d
  foldNat (fun e k => e.audPair (f + 2 * k) (at_ (2 * k)) (at_ (2 * k + 1))) (vs.length / 2) e

/-! ### Ports -/

def audIdx (a : Nat) : Nat := 0x3601 + a

def Dev.audPort (d : Dev) (a : Nat) : AudPort := Tab.getD d.aud.ports a {}

def Dev.setAudPort (d : Dev) (a : Nat) (x : AudPort) : Dev :=
  { d with aud := { d.aud with ports := Tab.setD d.aud.ports a x {} } }

/-- State of a port (Table 12.1). -/
def Dev.audState (d : Dev) (a : Nat) : Nat := d.rd (audIdx a) 0x0A

/-- Enters a port state, with AUD_STATE. -/
def Dev.setAudState (d : Dev) (a st : Nat) : Dev :=
  if d.audState a = st then d else (d.wr (audIdx a) 0x0A st).event (uAud a) 0x0C01 a st

def Dev.audPortHz (d : Dev) (a : Nat) : Nat := audHz (d.rd (audIdx a) 3)

/-- A port runs from a position (R281). -/
def Dev.audRun (d : Dev) (a pos : Nat) : Dev :=
  (d.setAudPort a { d.audPort a with from_ := pos }).setAudState a 2

/-- A port runs, or goes on, from the first position at or after now (R280 to R282). -/
def Dev.audRunNow (d : Dev) (a : Nat) : Dev := d.audRun a (audPosFrom (d.audPortHz a) d.now)

/-- State of a group: 0 idle, 1 armed, 2 started (0x3610+g:07). -/
def Dev.audGroup (d : Dev) (g : Nat) : Nat := d.rd (0x3610 + g) 7

/-- A port's enable applies (Table 12.1, R281). -/
def Dev.audEnable (d : Dev) (a : Nat) : Dev :=
  let g := d.rd (audIdx a) 6
  if g = 0 ∨ d.audGroup g = 2 then d.audRunNow a else d.setAudState a 1

/-- A port's disable applies: its pins are released. -/
def Dev.audDisable (d : Dev) (a : Nat) : Dev := d.setAudState a 0

/-- Whether a port is an input. -/
def Dev.audInput (d : Dev) (a : Nat) : Bool := d.rd (audIdx a) 2 == 0

/-! #### Pins (R278, R279, Table 12.1) -/

/-- The frequency of AUD_MCLK0 or AUD_MCLK1 in Hz, 0 where it is held low; a change acts from the next reset (R278). -/
def Dev.audMclkHz (d : Dev) (k : Nat) : Nat :=
  [0, 12288000, 24576000, 49152000].getD (d.bootRd 0x3600 (1 + k)) 0

/-- The bit clock of a port: 64 periods in a frame (R279). -/
def Dev.audBclkHz (d : Dev) (a : Nat) : Nat := 64 * d.audPortHz a

/-- The first BCLK edge of the frame of position `n` on a master port, which is its WS edge, on the time base (R278). -/
def Dev.audWsAt (d : Dev) (a n : Nat) : Nat := n * 1000000000 / d.audPortHz a

/-- The pins of a port. -/
inductive AudPins where
  /-- High-impedance. -/
  | released
  /-- BCLK and WS are driven by the port (`clocks`) or received; SD is an input, is driven, or is held low. -/
  | active (clocks : Bool) (sdInput sdLow : Bool)
  /-- SD held low, the others high-impedance: the clamp of a resting device (Table 20.4). -/
  | clamped
  deriving DecidableEq, Repr

/-- What a port does at its pins in its state (Table 12.1), and in a resting device (Table 20.4). -/
def Dev.audPins (d : Dev) (a : Nat) : AudPins :=
  let out := !d.audInput a
  if 1 ≤ d.pwr.state ∧ d.pwr.state ≤ 3 then .clamped
  else if d.audState a = 0 then .released
  else .active (d.rd (audIdx a) 5 == 0) (!out) (out && d.audState a != 2)

/-- The 24 bits of a sample, MSB first. -/
def audBits (v : Nat) : List Nat := (List.range 24).map fun k => v / 2 ^ (23 - k) % 2

/-- The levels of SD and of WS in the 64 BCLK periods from the WS edge that begins a frame: two slots of 32 bits, left
first. In I2S, with WS low for left, the MSB follows the edge by one period; left-justified, with WS high for left, it
coincides with the edge (R279). -/
def audSlots (format l r : Nat) : List Nat × List Nat :=
  let slot := fun v => if format = 1 then audBits v ++ List.replicate 8 0 else 0 :: audBits v ++ List.replicate 7 0
  let ws := if format = 1 then 1 else 0
  (slot l ++ slot r, List.replicate 32 ws ++ List.replicate 32 (1 - ws))

/-- A frame of an output port: samples at position `n` − d of its source channels (R282); there is none before
position 0. -/
def Dev.audPlay (d : Dev) (a n : Nat) : Dev :=
  let delay := d.rd (audIdx a) 9
  let one := fun (d : Dev) ch =>
    if ch = 0xFF then (0, false, d) else if n < delay then (0, true, d) else d.audTake ch (n - delay)
  let (l, zl, d) := one d (d.rd (audIdx a) 7)
  let (r, zr, d) := one d (d.rd (audIdx a) 8)
  let x := d.audPort a
  (d.setAudPort a { x with zeros := x.zeros + zl.toNat + zr.toNat }).send
    (.pin ("AUD" ++ decStr a ++ "_SD") (n :: (audSlots (d.rd (audIdx a) 4) l r).1))

/-- A frame of a port in RUNNING (R279, R282). -/
def Dev.audioFrame (d : Dev) (a l r bclks : Nat) : Dev :=
  let x := d.audPort a
  let n := audFramePos (d.audPortHz a) d.now
  let broken := d.rd (audIdx a) 5 == 1 && bclks != 64
  if d.audState a ≠ 2 ∨ n < x.from_ then d
  else
    let d := if broken then d.setAudPort a { x with framing := x.framing + 1 } else d
    if !d.audInput a then d.audPlay a n
    else if broken then d
    else d.audFrame (2 * a) n [l % 2 ^ 24, r % 2 ^ 24]

/-- AUDIO_FRAME (R282). -/
def execAudioFrame (t a left right bclks : Nat) (s : State) : Host.Outcome State Fault Refusal :=
  onDev t (·.audioFrame a left right bclks) s

/-- AUD_UNDERRUN: at most once per second per output port (R283). -/
def Dev.audUnderrun (d : Dev) (a : Nat) : Dev :=
  let x := d.audPort a
  let due := match x.told with
    | none => true
    | some t => decide (t + 1000000000 ≤ d.now)
  if x.zeros = 0 ∨ !due then d
  else (d.setAudPort a { x with zeros := 0, told := some d.now }).raise (uAud a) 0x0C02 a x.zeros
    sevInfo

def execAudUnderrun (t a : Nat) (s : State) : Host.Outcome State Fault Refusal :=
  onDev t (·.audUnderrun a) s

/-- Whether a port is an enabled slave. -/
def Dev.audSlave (d : Dev) (a : Nat) : Bool := d.audState a != 0 && d.rd (audIdx a) 5 == 1

/-- A slave port enters FAULT, with FOREIGN_CLOCK (R280). -/
def Dev.audFault (d : Dev) (a drift : Nat) : Dev :=
  if d.audState a = 3 then d
  else (d.setAudState a 3).raise (uAud a) 0x0C03 a drift sevDegraded

/-- AUDIO_DRIFT_GATE: `edges` BCLK edges in a 1 s gate of the media clock (R280). -/
def Dev.audGate (d : Dev) (a edges : Nat) : Dev :=
  let n := 64 * d.audPortHz a
  let drift := ofSigned 32 (freeRound (((edges : Int) - n) * 100000000) n)
  let bad := decide (n * 50 < ((edges : Int) - n).natAbs * 1000000)
  if !d.audSlave a then d
  else
    let d := (d.wr (audIdx a) 0x0B drift).setAudPort a { d.audPort a with gateOk := !bad }
    if bad then d.audFault a drift else d

def execAudioDriftGate (t a edges : Nat) (s : State) : Host.Outcome State Fault Refusal :=
  onDev t (·.audGate a edges) s

/-- BCLK_STOPPED: BCLK has stopped for 1 ms (R280). -/
def execBclkStopped (t a : Nat) (s : State) : Host.Outcome State Fault Refusal :=
  onDev t (fun d => if d.audSlave a then d.audFault a 0x7FFFFFFF else d) s

/-- Whether re-arm is accepted (R280). -/
def Dev.audRearmStatus (d : Dev) (a : Nat) : Nat :=
  if d.audState a = 3 ∧ (d.audPort a).gateOk then stOk else stWrongState

/-- Re-arm: the port runs from the first position at or after now (R280). -/
def Dev.audRearm (d : Dev) (a : Nat) : Res :=
  if d.audState a = 3 then (d.audRunNow a).res stOk else d.res stWrongState

/-- AUDIO_PORT_REARM: 1 written to 0x3601+a:0C (R280). -/
def execAudioPortRearm (t : Nat) (by_ : Requester) (a : Nat) (s : State) :
    Host.Outcome State Fault Refusal :=
  onCommand t by_ (fun d =>
    d.commandPre by_ (audIdx a) 0x0C [1] (d.audRearmStatus a) (·.audRearm a)) s

/-! ### Groups -/

/-- The enabled ports of a group. -/
def Dev.audMembers (d : Dev) (g : Nat) : List Nat :=
  (List.range 16).filter fun a => d.rd (audIdx a) 6 == g && d.rdb (audIdx a) 1

/-- The trigger instant of a group (R281). -/
def Dev.audTrigger (d : Dev) (g : Nat) : Nat :=
  let i := 0x3610 + g
  if d.rd i 1 = 0 then ofTime48 (d.rd i 2) else d.tickTime (d.rd i 3) (d.rd i 4)

/-- The rate code of a group's first port. -/
def Dev.audGroupRate (d : Dev) (g : Nat) : Nat :=
  match d.audMembers g with
  | a :: _ => d.rd (audIdx a) 3
  | [] => 0

/-- What arming a group refuses (R281). -/
def Dev.audArmStatus (d : Dev) (g : Nat) : Nat :=
  let at_ := d.audTrigger g
  if d.audGroup g ≠ 0 then stWrongState
  else if (d.audMembers g).any fun a => d.rd (audIdx a) 3 != d.audGroupRate g then stRange
  else if at_ < d.now + 10000000 then stTooLate
  else if d.now + 600000000000 < at_ then stTooFar
  else stOk

/-- Arming fixes the start position (R281). -/
def Dev.audArm (d : Dev) (g : Nat) : Res :=
  if d.audGroup g ≠ 0 then d.res stWrongState
  else
    let n0 := audPosFrom (audHz (d.audGroupRate g)) (d.audTrigger g)
    ((d.wr (0x3610 + g) 6 n0).wr (0x3610 + g) 7 1).res stOk

/-- AUDIO_GROUP_ARM: 1 written to 0x3610+g:05, `g` from 1 to 8 (R281). -/
def execAudioGroupArm (t : Nat) (by_ : Requester) (g : Nat) (s : State) :
    Host.Outcome State Fault Refusal :=
  onCommand t by_ (fun d =>
    d.commandPre by_ (0x3610 + g) 5 [1] (d.audArmStatus g) (·.audArm g)) s

/-- Stopping a group returns its running ports to STOPPED (R281). -/
def Dev.audStop (d : Dev) (g : Nat) : Res :=
  let d := d.wr (0x3610 + g) 7 0
  ((d.audMembers g).foldl (fun d a => if d.audState a = 2 then d.setAudState a 1 else d) d).res stOk

/-- AUDIO_GROUP_STOP: 2 written to 0x3610+g:05 (R281). -/
def execAudioGroupStop (t : Nat) (by_ : Requester) (g : Nat) (s : State) :
    Host.Outcome State Fault Refusal :=
  onCommand t by_ (fun d => d.command by_ (0x3610 + g) 5 [2] (·.audStop g)) s

/-- AUDIO_GROUP_START: the start position of an armed group is reached (R281). -/
def Dev.audStart (d : Dev) (g : Nat) : Dev :=
  let n0 := d.rd (0x3610 + g) 6
  if d.audGroup g = 1 ∧ n0 ≤ audFramePos (audHz (d.audGroupRate g)) d.now then
    let d := d.wr (0x3610 + g) 7 2
    (d.audMembers g).foldl (fun d a => if d.audState a = 1 then d.audRun a n0 else d) d
  else d

def execAudioGroupStart (t g : Nat) (s : State) : Host.Outcome State Fault Refusal :=
  onDev t (·.audStart g) s

/-! ### Receive streams -/

def recvIdx (st : Nat) : Nat := 0x3620 + st
def sendIdx (st : Nat) : Nat := 0x3630 + st

def Dev.audIn (d : Dev) (st : Nat) : AudIn := Tab.getD d.aud.ins st {}

def Dev.setAudIn (d : Dev) (st : Nat) (x : AudIn) : Dev :=
  { d with aud := { d.aud with ins := Tab.setD d.aud.ins st x {} } }

/-- Enters a stream state, with AUD_STREAM; journaled on entering silent (Table 12.7). `n`: 0 to 15
receive, 16 to 31 send. -/
def Dev.setAudStream (d : Dev) (n st : Nat) : Dev :=
  let i := if n < 16 then recvIdx n else sendIdx (n - 16)
  if d.rd i 0x12 = st then d
  else
    let d := d.wr i 0x12 st
    if st = 3 then d.raise uAudio 0x0C05 n st sevInfo else d.event uAudio 0x0C05 n st

/-- The value congruent to `v` modulo 2^w nearest to `near`. -/
def extendNear (w : Nat) (near : Int) (v : Nat) : Int :=
  near + toSigned w (((v : Int) - near) % 2 ^ w).toNat

/-- The bytes of one sample of an encoding. -/
def audSampleBytes (enc : Nat) : Nat := if enc = 1 then 2 else 3

/-- A sample from its network bytes; 16-bit samples occupy bits 23 to 8 (R277). -/
def audSample (b : List Byte) : Nat :=
  if b.length = 2 then leNat b.reverse * 256 else leNat b.reverse

/-- Writes the frames of a stream from a position: those further than 32,768 positions from the current
one are policed (R285). -/
def Dev.audFrames (d : Dev) (st cur : Nat) (pos : Int) : List (List Nat) → Dev
  | [] => d
  | vs :: r =>
    let d :=
      if pos < 0 ∨ 32768 < (pos - cur).natAbs then d.addf (recvIdx st) 0x13 2 vs.length 8
      else d.audFrame (d.rd (recvIdx st) 0x0C) pos.toNat vs
    d.audFrames st cur (pos + 1) r

/-- What a sequence number does to a stream: the new state, whether it is a copy already taken, and the
packets now known lost on every leg (R115). -/
def AudIn.take (x : AudIn) (twoLegs : Bool) (leg seq : Nat) : AudIn × Bool × Nat :=
  let hi := max (x.hiA.getD 0) (x.hiB.getD 0)
  let none_ := x.hiA.isNone && x.hiB.isNone
  let e := if none_ then seq + 65536 else (extendNear 16 hi seq).toNat
  let copy := !none_ && decide (e ≤ hi) && !x.missing.contains e
  let gap := if none_ ∨ e ≤ hi then [] else ((List.range (e - hi - 1)).map (· + hi + 1)).take 1024
  let miss := (x.missing.filter (· != e)) ++ gap
  let x := if leg = 0 then { x with hiA := some (max (x.hiA.getD 0) e) }
    else { x with hiB := some (max (x.hiB.getD 0) e) }
  let top := max hi e
  let passed := fun q =>
    (decide (q < x.hiA.getD 0) || (leg = 1 && !twoLegs)) && (!twoLegs || decide (q < x.hiB.getD 0)) ||
      decide (q + 512 < top)
  ({ x with missing := miss.filter fun q => !passed q }, copy, (miss.filter passed).length)

/-- A packet of a kind-0 receive stream (R285). -/
def Dev.audPacket (d : Dev) (st : Nat) (p : AudioPacket) : Dev :=
  let i := recvIdx st
  let two := d.rd i 0x0E != 0xFF
  let port := ((d.audLegs st).map (·.port)).getD p.leg 8
  if !d.rdb i 1 ∨ d.rd i 2 ≠ 0 ∨ (p.leg ≠ 0 ∧ !two) ∨ 1440 < p.payload.length ∨ !d.linkUp port then d
  else
    let (x, copy, lost) := (d.audIn st).take two p.leg p.seq
    let d := (d.setAudIn st { x with last := d.now }).incf i 0x13 0
    let d := (d.addf i 0x13 1 lost 8).setAudStream st 2
    if copy then d
    else
      let hz := audHz (d.rd i 9)
      let cur := audPos hz d.now
      let n := audSampleBytes (d.rd i 8)
      let frames := chunks (d.rd i 0x0A) ((chunks n p.payload).map audSample)
      d.audFrames st cur (extendNear 32 cur p.ts - d.rd i 0x0D)
        (frames.filter fun f => f.length == d.rd i 0x0A)

/-- AUDIO_PACKET_RECEIVED (R285). -/
def execAudioPacketReceived (t st : Nat) (p : AudioPacket) (s : State) :
    Host.Outcome State Fault Refusal :=
  onDev t (·.audPacket st p) s

/-- A PES is of the PID that receive stream `st` names, on an enabled transport 5 source (R286). -/
def Dev.pesOf (d : Dev) (st : Nat) (p : AudioPes) : Bool :=
  p.source == d.rd (recvIdx st) 0x10 && p.pid == d.rd (recvIdx st) 0x11 && d.srcOn p.source &&
    d.rd (srcIdx p.source) 3 == 5

/-- A 302M PES of a kind-1 receive stream, which takes the PID that it names of a transport 5 source: its anchor is set
at the first PES and after a PTS step of more than 100 ms (R286). -/
def Dev.audPes (d : Dev) (st : Nat) (p : AudioPes) : Dev :=
  let i := recvIdx st
  if !d.rdb i 1 ∨ d.rd i 2 ≠ 1 ∨ !d.pesOf st p then d
  else if !p.is302m ∨ !(([2, 4, 6, 8] : List Nat).contains p.channels) then d.incf i 0x13 3
  else
    let x := d.audIn st
    let frames := chunks p.channels p.samples
    let fresh : Int × Int := (audPos 48000 p.arrival, p.pts)
    let (pos0, pts0, pts) : Int × Int × Int := match x.anchor with
      | none => (fresh.1, fresh.2, fresh.2)
      | some (a, b, want) =>
        let e := extendNear 33 want p.pts
        if 9000 < (e - want).natAbs then (fresh.1, fresh.2, fresh.2) else (a, b, e)
    let next := pts + freeRound ((frames.length : Int) * 15) 8
    let d := (d.setAudIn st { x with anchor := some (pos0, pts0, next), last := d.now }).incf i 0x13 0
    (d.setAudStream st 2).audFrames st (audPos 48000 d.now)
      (pos0 + freeRound ((pts - pts0) * 8) 15) (frames.map fun f => f.take (d.rd i 0x0A))

/-- AUDIO_PES_RECEIVED (R286). -/
def execAudioPesReceived (t st : Nat) (p : AudioPes) (s : State) :
    Host.Outcome State Fault Refusal :=
  onDev t (·.audPes st p) s

/-- AUD_STREAM_SILENT: 100 ms without a packet (Table 12.6). -/
def execAudStreamSilent (t st : Nat) (s : State) : Host.Outcome State Fault Refusal :=
  onDev t (fun d =>
    if d.rdb (recvIdx st) 1 ∧ !d.bankHeld 4 ∧ (d.audIn st).last + 100000000 ≤ d.now then d.setAudStream st 3
    else d) s

/-- A receive stream's enable applies: it joins (R103, R285). -/
def Dev.recvEnable (d : Dev) (st : Nat) : Dev :=
  ((d.audLegs st).foldl (·.sendJoin true ·) (d.setAudIn st { last := d.now })).setAudStream st 1

/-- A receive stream's disable applies. The legs are those it had. -/
def Dev.recvDisable (d : Dev) (st : Nat) (legs : List Leg) : Dev :=
  (legs.foldl (·.sendJoin false ·) (d.setAudIn st {})).setAudStream st 0

/-! ### Send streams -/

def Dev.audOut (d : Dev) (st : Nat) : AudOut := Tab.getD d.aud.outs st {}

def Dev.setAudOut (d : Dev) (st : Nat) (x : AudOut) : Dev :=
  { d with aud := { d.aud with outs := Tab.setD d.aud.outs st x {} } }

/-- A send stream's state: only the active device sends (R287). -/
def Dev.refreshSend (d : Dev) (st : Nat) : Dev :=
  let want := if !d.rdb (sendIdx st) 1 || d.bankHeld 4 then 0 else if d.gatedSends then 4 else 2
  d.setAudStream (16 + st) want

def Dev.refreshSends (d : Dev) : Dev := foldNat Dev.refreshSend 16 d

/-- Samples per packet: 1 ms or 125 µs (R285). -/
def audPerPacket (hz time : Nat) : Nat := if time = 1 then hz / 8000 else hz / 1000

/-- The frames a packet carries: `m` positions from `p`, taken channel by channel (R283, R287). -/
def Dev.audGather (d : Dev) (chs : List Nat) (p : Nat) : Nat → List (List Nat) × Dev
  | 0 => ([], d)
  | m + 1 =>
    let (vs, _, d) := d.audTakes p chs
    let (r, d) := d.audGather chs (p + 1) m
    (vs :: r, d)

/-- A sample in network order. -/
def audBytes (enc v : Nat) : List Byte := if enc = 1 then beBytes 2 (v / 256) else beBytes 3 v

/-- The packet of a send stream whose launch time has come: it carries the `m` positions that ended a
link offset ago (R287). -/
def Dev.audSend (d : Dev) (st : Nat) : Dev :=
  let i := sendIdx st
  let hz := audHz (d.rd i 9)
  let m := audPerPacket hz (d.rd i 0x0B)
  let link := d.rd i 0x0D * 1000
  let end_ := audFramePos hz (d.now - link) / m * m
  let x := d.audOut st
  if d.rd i 0x12 ≠ 2 ∨ d.now < link ∨ end_ < m ∨ end_ ≤ x.done then d
  else
    let p := end_ - m
    let chs := (List.range (d.rd i 0x0A)).map (· + d.rd i 0x0C)
    let (fs, d) := d.audGather chs p m
    let msg := rtpHeader (d.rd i 7) false (x.seq % 65536) (p % 2 ^ 32) (Config.audioSsrc st % 2 ^ 32)
      ++ fs.flatten.flatMap (audBytes (d.rd i 8))
    let d := d.setAudOut st { seq := x.seq + 1, done := end_ }
    let send := fun (d : Dev) port dst =>
      d.sendMedia port dst (d.rd i 6) (Config.audioSrcPort st % 2 ^ 16) (Config.audioMarking st % 256) "rtp-audio" msg
    let d := send d (d.rd i 3) (d.rdd i 4)
    if d.rd i 0x0E = 0xFF then d else send d (d.rd i 0x0E) (d.rdd i 0x0F)

/-- AUDIO_PACKET_SEND (R287). -/
def execAudioPacketSend (t st : Nat) (s : State) : Host.Outcome State Fault Refusal :=
  onDev t (·.audSend st) s

/-! ### The block -/

/-- The writer of a channel: 0 none, 1 port, 2 receive stream; its number; its rate code (R275). -/
def Dev.audWriter (d : Dev) (ch : Nat) : Nat × Nat × Nat :=
  if ch < 32 then
    let a := ch / 2
    if d.rdb (audIdx a) 1 ∧ d.audInput a then (1, a, d.rd (audIdx a) 3) else (0, 0, 0xFF)
  else
    match (List.range 16).find? fun st =>
        d.rdb (recvIdx st) 1 && decide (d.rd (recvIdx st) 0x0C ≤ ch) &&
          decide (ch < d.rd (recvIdx st) 0x0C + d.rd (recvIdx st) 0x0A) with
    | some st => (2, st, if d.rd (recvIdx st) 2 = 1 then 0 else d.rd (recvIdx st) 9)
    | none => (0, 0, 0xFF)

/-- The first channel of a writer. -/
def Dev.audFirst (d : Dev) (kind n : Nat) : Nat :=
  if kind = 2 then d.rd (recvIdx n) 0x0C else 2 * n

/-- The 8 bytes of a channel in 0x3600:04. -/
def Dev.audChannelBytes (d : Dev) (ch : Nat) : List Byte :=
  let (k, n, rate) := d.audWriter ch
  let f := d.audFirst k n
  let muted := k != 0 && d.audMuted f (ch - f)
  let z := Tab.getD d.aud.zeroAt ch 0
  let recent := z != 0 && decide (d.now < z - 1 + 1000000000)
  let bad := k == 1 && d.audState n == 3
  leBytes 1 k ++ leBytes 1 n ++ leBytes 1 rate ++
    leBytes 1 (muted.toNat + 2 * recent.toNat + 4 * bad.toNat) ++
    leBytes 4 (Tab.getD d.aud.zeros ch 0)

/-- The channel status of 0x3600:04. -/
def Dev.audStatusBytes (d : Dev) : List Byte := (List.range 160).flatMap d.audChannelBytes

/-- All audio counters return to 0 (0x3600:05). -/
def Dev.audCounters (d : Dev) : Dev :=
  let d := { d with aud := { d.aud with zeros := [] } }
  let d := foldNat (fun d a => d.setAudPort a { d.audPort a with framing := 0 }) 16 d
  foldNat (fun d st => d.clearFields (recvIdx st) 0x13 4) 16 d

/-- AUDIO_COUNTER_RESET: 1 written to 0x3600:05. -/
def execAudioCounterReset (t : Nat) (by_ : Requester) (s : State) :
    Host.Outcome State Fault Refusal :=
  onCommand t by_ (fun d => d.command by_ 0x3600 5 [1] fun d => d.audCounters.res stOk) s

/-- A step of the time base makes every slot unwritten (R276). Every port goes on from the new
position. -/
def Dev.audStep (d : Dev) : Dev :=
  let d := { d with aud := { d.aud with rings := [] } }
  let d := foldNat (fun d a => if d.audState a = 2 then d.audRunNow a else d) 16 d
  foldNat (fun d st => d.setAudOut st { d.audOut st with done := 0 }) 16 d

end Sys2Proof.Machine
end

