-- ==== Sys2Proof/Machine/RateCtl.lean ====
section
/-! DEFINITION. Row rate control: the bit model (R242, R243), floor coding (R244), the row budget
(R246), the row engine (R248, R249), exhaustion (R250), slice release (R239), row record sets and
following (R252 to R254). -/
namespace Sys2Proof.Machine

/-! ### Fixed-point arithmetic -/

/-- The greatest `y` below 2^`bits` whose `k`th power is at most `x`. -/
def rootFloor (k x : Nat) : Nat → Nat
  | 0 => 0
  | bits + 1 => rootStep k x bits 0
where
  /-- Settles the bits from `b` down. -/
  rootStep (k x : Nat) : Nat → Nat → Nat
    | 0, y => if (y + 1) ^ k ≤ x then y + 1 else y
    | b + 1, y => rootStep k x b (if (y + 2 ^ (b + 1)) ^ k ≤ x then y + 2 ^ (b + 1) else y)

/-- The `k`th root of `num / den`, exact where it is a whole number, else one of its two neighbours (R243). -/
def encRoot (k num den bits : Nat) : Nat :=
  let y := rootFloor k (num / den) bits
  if y ^ k * den = num then y else if Config.encRoundUp (num / den) then y + 1 else y

/-! ### Bit model -/

/-- 2^(e/6) in 16.16, for `e` of at least 0 (R243). -/
def pow2Of (e : Nat) : Nat := encRoot 6 (2 ^ (e % 6) * 65536 ^ 6) 1 18 * 2 ^ (e / 6)

/-- Estimated bits of complexity `c` at QP `q` (R243): c × κ × 2^((30 − q)/6). -/
def estBits (c kappa q : Nat) : Nat :=
  (freeRound ((c * kappa * pow2Of (90 - q) : Nat) : Int) (2 ^ 32 * 2 ^ 10)).toNat

/-- The ROI rectangle that holds a CTU's centre: mode and value (R229). -/
def EncPic.roiAt (p : EncPic) (r k : Nat) : Option (Nat × Nat) :=
  let cx := k * p.ctu + p.ctu / 2
  let cy := r * p.ctu + p.ctu / 2
  (chunks 12 p.roi).findSome? fun b =>
    let mode := byteAt b 8
    let (x, y) := (fieldAt b 0 2, fieldAt b 2 2)
    let (w, h) := (fieldAt b 4 2, fieldAt b 6 2)
    if mode ≠ 0 ∧ x ≤ cx ∧ cx < x + w ∧ y ≤ cy ∧ cy < y + h then some (mode, byteAt b 9) else none

/-- A CTU's QP from a row QP and its δ: ROI offset or quality floor, and the channel's range (R229,
R243, R248). -/
def EncPic.ctuQp (p : EncPic) (r k : Nat) (base : Int) : Nat :=
  let lim := fun (v : Int) => if v < p.qmin then p.qmin else min v.toNat p.qmax
  match p.roiAt r k with
  | some (1, v) => lim (base + toSigned 8 v)
  | some (2, v) => lim (if (v : Int) < base then v else base)
  | _ => lim base

/-- E of a row whose complexities are known (R243). -/
def EncPic.estRow (p : EncPic) (kappa r q : Nat) (cs : List Nat) : Nat :=
  (List.range cs.length).foldl (fun a k => a + estBits (cs.getD k 0) kappa (p.ctuQp r k q)) 0

/-! ### Floor coding -/

/-- The boundary column of a picture (R244). -/
def EncPic.boundary (p : EncPic) : Option Nat :=
  match p.pos with
  | some (i + 1) =>
    let col := (i + 1) * p.nCols / max p.period 1
    if 0 < col ∧ col * p.ctu < p.width then some (col - 1) else none
  | _ => none

/-- A CTU that floor coding codes as intra: in the refresh column or the boundary column (R244). -/
def EncPic.floorIntra (p : EncPic) (k : Nat) : Bool :=
  (decide (p.refA ≤ k) && decide (k < p.refB)) || p.boundary == some k

/-- Slice overhead and reserve of a CTU (Table 10.1). -/
def sliceOverhead (codec : Nat) : Nat := if codec = 2 then 160 else 128
def EncPic.ctuReserve (p : EncPic) (k : Nat) : Nat :=
  if p.floorIntra k then (if p.codec = 2 then 64 else 48) else 8

/-- Reserve of the CTUs from `k` to the end of a row. -/
def EncPic.reserveFrom (p : EncPic) (k : Nat) : Nat :=
  (List.range (p.nCols - k)).foldl (fun a j => a + p.ctuReserve (k + j)) 0

/-- Floor reserve of a row (R244). -/
def EncPic.floorReserve (p : EncPic) : Nat := sliceOverhead p.codec + p.reserveFrom 0

/-! ### Positions -/

/-- The slice bits of a row once they are known: those of its imported record, else its own (R253). -/
def RowRt.known (r : RowRt) : Option Nat := r.counts.orElse fun _ => r.actual

/-- Bits a row counts with: its actual bits once it is settled, else its budget (R246). -/
def RowRt.count (r : RowRt) (v : Q) : Nat :=
  if Q.le r.u v then r.known.getD r.budget else r.budget

/-- The end position of a chain of slices from `k`, as of instant `v` (R239). -/
def slicesEnd (v : Q) (k : Nat) (rs : List RowRt) : Nat :=
  rs.foldl (fun k r => max k r.zu + r.header + r.count v) k

/-- The end of the newest settled slice, and the instant of position 0, of a coded video sequence. -/
def EncRt.kOf (x : EncRt) (epoch : Nat) : Nat := if epoch = x.epoch then x.kEnd else x.kOld
def EncRt.t0Of (x : EncRt) (epoch : Nat) : Q := if epoch = x.epoch then x.t0 else x.t0Old

/-- The slices before row `row` of a picture whose end is not yet in `kOf`. -/
def EncRt.openBefore (x : EncRt) (p : EncPic) (row : Nat) : List RowRt :=
  (x.pics.filter fun e => e.epoch == p.epoch && decide (e.count ≤ p.count)).flatMap fun e =>
    e.rows.filter fun r => !r.settled && (decide (e.count < p.count) || decide (r.row < row))

/-- The end of the slice before row `row` of a picture, as of instant `v`. -/
def EncRt.endBefore (x : EncRt) (p : EncPic) (row : Nat) (v : Q) : Nat :=
  slicesEnd v (x.kOf p.epoch) (x.openBefore p row)

/-- κ × (A / E)^(1/8) in 16.16 (R243). -/
def kappaStep (k a e : Nat) : Nat := encRoot 8 (k ^ 8 * a) e 40

/-- One settled row updates κ, unless it was floor-coded (R243). A row with fewer bits than its overhead, and one whose
estimate is 0, leave the value open (log entry 133). -/
def kappaAfter (p : EncPic) (r : RowRt) (k : Nat) : Nat :=
  if r.exhausted || r.imported then k
  else
    let a : Int := ((r.actual.getD 0 : Nat) : Int) - (sliceOverhead p.codec : Nat)
    min (256 * 65536) (max 256 (if a < 0 ∨ r.est = 0 then Config.kappaOpen k a r.est else kappaStep k a.toNat r.est))

/-- Settles every row whose release instant has come by `v` and whose bits are known: κ and the end of
the newest settled slice (R243, R246). -/
def EncRt.settle (x : EncRt) (v : Q) : EncRt :=
  x.pics.foldl (fun x p =>
    p.rows.foldl (fun x r =>
      if !r.settled && Q.le r.u v && r.known.isSome then
        let k := max (x.kOf p.epoch) r.zu + r.header + r.known.getD 0
        let x := if p.epoch = x.epoch then
            { x with kEnd := k, zEnd := schedule p.rate x.t0 (p.dAt r.row), kappa := kappaAfter p r x.kappa }
          else { x with kOld := k }
        { x with pics := x.pics.map fun e =>
            if e.count = p.count ∧ e.ts = p.ts then
              { e with rows := e.rows.map fun q => if q.row = r.row then { q with settled := true } else q }
            else e }
      else x) x) x

/-- Replaces a picture of a channel. -/
def EncRt.setPic (x : EncRt) (p : EncPic) : EncRt :=
  { x with pics := x.pics.map fun e => if e.count = p.count ∧ e.ts = p.ts then p else e }

/-! ### Row budget -/

/-- What rate control decides for a row (R246): QP, budget, whether it is exhausted, and E. -/
def rowBudget (p : EncPic) (kappa r cap f : Nat) (s : Int) (cs prevW : List Nat) :
    Nat × Nat × Bool × Nat :=
  let rows := p.nRows
  let n := (rows - r) * p.nCols
  if s < (p.thr * n : Nat) then (p.qmax, f, true, 0)
  else
    let later := fun q => (List.range (rows - 1 - r)).foldl (fun a j =>
      a + estBits (prevW.getD (r + 1 + j) 0) kappa q) 0
    let fits := fun q => decide (((p.estRow kappa r q cs + later q : Nat) : Int) ≤ s)
    let q := match ((List.range (p.qmax + 1 - p.qmin)).map (p.qmin + ·)).find? fits with
      | some q => q
      | none => p.qmax
    let e := p.estRow kappa r q cs
    (q, min (min (max e f) cap) (f + s.toNat), false, e)

/-- Rate control's own decision for a row whose input has entered (R246). -/
def EncRt.decideRow (x : EncRt) (p : EncPic) (b : RowRt) : RowRt :=
  let v := p.vAt b.row
  let zu := schedule p.rate (x.t0Of p.epoch) b.u
  let z := schedule p.rate (x.t0Of p.epoch) (p.dAt b.row)
  let pos := max (x.endBefore p b.row v) zu + b.header
  let prior := p.rows.filter fun r => decide (r.row < b.row)
  let used : Nat := prior.foldl (fun a r => a + r.header + r.count v) 0
  let f := p.floorReserve
  let s : Int := (p.target : Int) - used - b.header - (f * (p.nRows - b.row) : Nat)
  let (q, bud, ex, e) := rowBudget p x.kappa b.row (z - pos) f s b.cplx x.prevW
  { b with zu := zu, q := q, budget := bud, exhausted := ex, est := e, imported := false, awaits := false }

/-- The rows that wait for a record are decided by the channel itself, in order (R254). -/
def EncRt.ownRows (x : EncRt) : EncRt :=
  x.pics.foldl (fun x p => p.rows.foldl (fun x r =>
    if r.awaits then
      match x.pics.find? fun e => e.count == p.count && e.ts == p.ts with
      | some q => x.setPic { q with rows := q.rows.map fun e => if e.row = r.row then x.decideRow q e else e }
      | none => x
    else x) x) x

/-- A row takes the partner's record (R253). -/
def RowRt.take (r : RowRt) (m : RowRec) : RowRt :=
  { r with q := m.qp, budget := m.budget, exhausted := m.flags.testBit 0, imported := true, awaits := false
           qps := m.map, floorFrom := if m.firstFloor = 0xFFFF then none else some m.firstFloor
           counts := some m.actual }

/-- The imported record of a row, if it has arrived: the partner's picture is that of the same tick (R253). -/
def EncRt.import_ (x : EncRt) (tick row : Nat) : Option (RowRecordSet × RowRec) :=
  x.imports.findSome? fun s =>
    if s.tick = tick then (s.rows.find? fun r => r.row == row).map fun r => (s, r) else none

/-- A row of a picture is exhausted: where it is the first, its number, BUDGET_EXHAUSTED and its count. Rows are judged
in their order, as they are released (R250). -/
def Dev.exhaust (d : Dev) (c row : Nat) (p : EncPic) : EncPic × Dev :=
  if p.exhaustedRow.isSome then (p, d)
  else
    ({ p with exhaustedRow := some row },
     (d.incf (rcIdx c) 9 0).raise (uEnc (encWing c)) 0x0A01 (c + row * 256) (p.count % 2 ^ 32) sevInfo)

/-! ### Complexity -/

/-- A sign of the 8×8 Hadamard transform: minus where `u` and `x` share an odd number of bits. -/
def hadamardSign (u x : Nat) : Int :=
  let v := u &&& x
  if (v % 2 + v / 2 % 2 + v / 4 % 2) % 2 = 0 then 1 else -1

/-- Sum of the absolute 8×8 Hadamard coefficients of a block (R242). -/
def satd (f : Nat → Nat → Int) : Nat :=
  (List.range 64).foldl (fun a k =>
    a + ((List.range 64).foldl (fun s j =>
      s + hadamardSign (k % 8) (j % 8) * hadamardSign (k / 8) (j / 8) * f (j % 8) (j / 8)) (0 : Int)).natAbs) 0

/-- A sample of a plane of lines; beyond its edges the last one stands (R219). -/
def sampleAt (rows : List (List Nat)) (x y : Nat) : Nat :=
  let line := rows.getD (min y (rows.length - 1)) []
  line.getD (min x (line.length - 1)) 0

/-- Luma downsampled 2:1 in each direction (R242). -/
def halfLuma (rows : List (List Nat)) : List (List Nat) :=
  (List.range ((rows.length + 1) / 2)).map fun y => (List.range (((rows.headD []).length + 1) / 2)).map fun x =>
    Config.halve (sampleAt rows (2 * x) (2 * y)) (sampleAt rows (2 * x + 1) (2 * y)) (sampleAt rows (2 * x) (2 * y + 1))
      (sampleAt rows (2 * x + 1) (2 * y + 1))

/-- The complexity of a CTU of a row, from the halved luma of the row and of the previous picture's: over its 8×8
blocks, the residual against the co-located block or, where its sum is smaller or `dc` says so, against the DC
prediction (R242). -/
def ctuComplexity (cur prev : List (List Nat)) (dc : Bool) (ctu k : Nat) : Nat :=
  let n := ctu / 16
  let sum := (List.range (n * n)).foldl (fun a b =>
    let bx := k * n + b % n
    let by_ := b / n
    if (cur.headD []).length ≤ 8 * bx ∨ cur.length ≤ 8 * by_ then a
    else
      let at_ := fun x y => (sampleAt cur (8 * bx + x) (8 * by_ + y) : Int)
      let intra := satd fun x y => at_ x y - (Config.dcPrediction cur bx by_ : Int)
      let inter := satd fun x y => at_ x y - (sampleAt prev (8 * bx + x) (8 * by_ + y) : Int)
      a + if dc || prev.isEmpty then intra else min inter intra) 0
  1 + (freeRound (sum : Int) 64).toNat

/-- The complexities of the CTUs of a row (R242): `y` its luma, `prev` the previous input picture's. -/
def EncPic.complexity (p : EncPic) (row : Nat) (y prev : List (List Nat)) : List Nat :=
  let lines := p.codedLines row
  let cur := halfLuma (padPlane (coded8 p.width) lines y)
  let old := halfLuma (padPlane (coded8 p.width) lines ((prev.drop (row * p.ctu)).take y.length))
  (List.range p.nCols).map fun k => ctuComplexity cur (if prev.isEmpty then [] else old) (p.floorIntra k) p.ctu k

/-! ### Access-unit headers -/

/-- A GDR picture (Table 9.2). -/
def EncPic.gdr (p : EncPic) : Bool := p.codec == 2 && p.pos == some 0

/-- The picture carries parameter sets: an IDR, a GDR picture or a cycle start (R221). -/
def EncPic.hasSets (p : EncPic) : Bool := p.idr || p.pos == some 0

/-- HRD parameters of a picture's coded video sequence (R240, R241). -/
def EncPic.hrd (p : EncPic) : Config.Hrd := { cbr := true, rate := p.rate * 1000, size := p.cpb }

/-- The sequence parameter set of a picture's coded video sequence (R219, R220, R241). -/
def EncPic.sps (p : EncPic) : Config.Sps :=
  { profile := p.profile, level := p.level, tier := p.tier, width := coded8 p.width, height := coded8 p.height
    cropRight := coded8 p.width - p.width, cropBottom := coded8 p.height - p.height, is420 := p.is420
    colour := p.colour, pocBits := 16, references := 1, hrd := p.hrd }

/-- Removal times of a picture's decoding units, spaced as its d_r (R241). -/
def EncPic.removals (p : EncPic) : List (Nat × Nat) :=
  (List.range p.nRows).map fun r => let q := p.trow.mul r; (q.n, q.d)

/-- The header NAL units of an access unit, in order (R221, R223, R241). -/
def EncPic.headerNals (p : EncPic) : List Config.HeaderNal :=
  [.aud (p.idr || p.gdr)] ++
    (if p.hasSets then (if p.codec = 2 then [] else [.vps p.profile p.level p.tier]) ++ [.sps p.sps, .pps p.ctu p.nRows]
     else []) ++
    (if p.codec = 1 ∧ p.pos = some 0 then [.recoveryPoint (p.period - 1) true false] else []) ++
    (if p.hasSets then [.bufferingPeriod p.hrd] else []) ++ [.pictureTiming p.nRows 1 p.removals]

/-- NAL units of at most `n` bytes together. -/
def fitBytes : Nat → List (List Byte) → List (List Byte)
  | _, [] => []
  | n, b :: rest => b.take n :: fitBytes (n - b.length) rest

/-- The header NAL units as bytes: within 4,096 bits (R245). -/
def EncPic.headerBytes (p : EncPic) : List (List Byte) :=
  (fitBytes 512 (p.headerNals.map (Config.headerNal p.codec))).filter (· != [])

/-! ### What a row is coded from -/

/-- Luma columns of a reference strip. -/
def stripCols : Nat := 16

/-- The reference that a VVC start predicts from, in strips: every sample 512 (R223). -/
def flatReference (p : EncPic) : List (List Nat) :=
  List.replicate (ceilDiv (coded8 p.width) stripCols)
    (List.replicate (stripCols * coded8 p.height * (if p.is420 then 3 else 4) / 2) 512)

/-- What a picture's rows are coded from, with the samples of the first `cols` luma columns of some rows and a part of
the reference (R223, R235). -/
def EncPic.sliceIn (p : EncPic) (row : Nat) (rows : List RowRt) (cols : Nat) (reference : List (List Nat)) :
    Config.SliceIn :=
  let w := coded8 p.width
  let cw := w / 2
  let cut := fun (lines n w : Nat) (pl : List (List Nat)) => ((padPlane w lines pl).flatMap (·.take n) : List Nat)
  { codec := p.codec, profile := p.profile, level := p.level, tier := p.tier, effort := p.effort
    width := w, height := coded8 p.height, is420 := p.is420, poc := p.poc, idr := p.idr
    recovery := if p.gdr then some (p.period - 1) else none, refA := p.refA, refB := p.refB, row := row
    input := rows.flatMap fun r =>
      let n := p.codedLines r.row
      let cn := if p.is420 then n / 2 else n
      cut n cols w r.y ++ cut cn (cols / 2) cw r.cb ++ cut cn (cols / 2) cw r.cr
    reference := reference }

/-- The reference that the clean area may see: the strips left of 16 samples before the clean boundary of the picture
before (R223). -/
def EncPic.cleanReference (p : EncPic) (reference : List (List Nat)) : List (List Nat) :=
  reference.take ((p.refA * p.ctu - 16) / stripCols)

/-- What CTU `k` of a row is coded from: in the clean area the clean reference and no samples right of the refresh
column, in the refresh column no reference, elsewhere everything (R223). -/
def EncPic.ctuIn (p : EncPic) (r : RowRt) (reference : List (List Nat)) (k : Nat) : Config.SliceIn :=
  let lim := p.refB * p.ctu
  if k < p.refA then p.sliceIn r.row [r] lim (p.cleanReference reference)
  else if k < p.refB then p.sliceIn r.row [r] lim []
  else p.sliceIn r.row [r] (coded8 p.width) reference

/-- The reconstructed picture in strips: what lies left of 16 samples before its clean boundary depends on the clean
area alone (R223). -/
def EncPic.strips (p : EncPic) (reference : List (List Nat)) : List (List Nat) :=
  let lim := p.refB * p.ctu
  let rows := p.rows.map (·.ctus)
  (List.range (ceilDiv (coded8 p.width) stripCols)).map fun j =>
    if (j + 1) * stripCols + 16 ≤ lim then
      Config.codedStrip (p.sliceIn 0 p.rows lim (p.cleanReference reference)) (rows.map (·.take p.refB)) j
    else Config.codedStrip (p.sliceIn 0 p.rows (coded8 p.width) reference) rows j

/-! ### Inside a row -/

/-- clamp(round(6 × log2(x / y)), −2, +6): the largest n whose 2^(2n − 1) is at most (x/y)^12 (R248). -/
def qpDelta (x y : Nat) : Int :=
  if x = 0 ∨ y = 0 then 0
  else
    let a := x ^ 12
    let b := y ^ 12
    ([6, 5, 4, 3, 2, 1].find? fun n => decide (2 ^ (2 * n - 1) * b ≤ a)).elim
      (if b ≤ 2 * a then 0 else if b ≤ 8 * a then -1 else -2) fun (n : Nat) => (n : Int)

/-- What the row engine has coded so far: bits spent, its CTUs, and from where the row is floor-coded. -/
structure RowCode where
  bits : Nat := 0
  ctus : List Config.CtuCode := []
  floorFrom : Option Nat := none

/-- One CTU of a row (R226, R244, R248, R249): `source` says what it is coded from, `late` is the first CTU that is
ended at the deadline. -/
def codeCtu (p : EncPic) (r : RowRt) (source : Nat → Config.SliceIn) (late : Option Nat) (s : RowCode) (k : Nat) : RowCode :=
  let total := r.cplx.foldl (· + ·) 0
  let before := (r.cplx.take k).foldl (· + ·) 0
  let isLate := match late with
    | some l => decide (l ≤ k)
    | none => false
  let qp := if r.imported then r.qps.getD k r.q
    else p.ctuQp r.row k ((r.q : Int) + if k = 0 then 0 else qpDelta (s.bits * total) (r.budget * before))
  let refresh := decide (p.refA ≤ k) && decide (k < p.refB)
  let spend := fun (t : Config.CtuCode) (most : Option Nat) =>
    let n := Config.ctuBits (source k) s.ctus t
    { s with bits := s.bits + most.elim n (min n ·), ctus := s.ctus ++ [t] }
  let left := r.budget - sliceOverhead p.codec - s.bits
  let plain := spend ⟨qp, .decided⟩ none
  let floors := s.floorFrom.isSome ||
    (!r.imported && decide (left < plain.bits - s.bits + p.reserveFrom (k + 1))) ||
    (r.imported && r.floorFrom == some k)
  if isLate then spend ⟨qp, if refresh then .lateIntra else .lateInter⟩ (some (p.ctuReserve k))
  else if floors then
    { spend ⟨p.qmax, if p.floorIntra k then .floorIntra else .floorSkip⟩ (some (p.ctuReserve k)) with
      floorFrom := some (s.floorFrom.getD k) }
  else plain

/-- A whole row coded by its engine. -/
def codeRow (p : EncPic) (r : RowRt) (source : Nat → Config.SliceIn) (late : Option Nat) : RowCode :=
  (List.range p.nCols).foldl (codeCtu p r source late) { floorFrom := if r.exhausted then some 0 else none }

/-- The NAL unit header of a picture's slices: HEVC IDR_N_LP or TRAIL_R, VVC GDR_NUT or TRAIL_NUT (Table 9.2). -/
def EncPic.sliceHead (p : EncPic) : List Byte :=
  if p.codec = 2 then (if p.gdr then [0x00, 0x51] else [0x00, 0x01]) else if p.idr then [0x28, 0x01] else [0x02, 0x01]

/-- A row's slice NAL unit, within its overhead and the bits of its CTUs (R247, Table 10.1). -/
def EncPic.sliceNal (p : EncPic) (r : RowRt) (reference : List (List Nat)) (code : RowCode) : List Byte :=
  (p.sliceHead ++ Config.sliceData (p.sliceIn r.row [r] (coded8 p.width) reference) code.ctus).take
    ((sliceOverhead p.codec + code.bits) / 8)

/-! ### Release -/

/-- A filler data NAL unit of `n` bytes (R231). -/
def fillerNal (codec n : Nat) : List Byte :=
  if n < 3 then []
  else (if codec = 2 then [0x00, 0x69] else [0x4C, 0x01]) ++ List.replicate (n - 3) 0xFF ++ [0x80]

/-- A NAL unit of a picture that joins the queue of the channel. -/
def EncPic.out (p : EncPic) (nal : List Byte) : OutNal :=
  { pic := p.count, ts := p.rtp, bytes := nal, codec := p.codec, carriage := p.carriage }

/-- The end-of-sequence NAL unit (R221): HEVC type 36, VVC type 21. -/
def eosNal (codec : Nat) : List Byte := if codec = 2 then [0x00, 0xA9] else [0x48, 0x01]

/-- Filler for some more bits after the latest slice of a picture (R231); `ends`: the end of sequence follows it, in
their place as far as they reach (R221, R234). Bits that no filler NAL unit holds yet, whole bytes of at least its
least size, stay due. Answers the filler bytes too. -/
def EncRt.fill (x : EncRt) (p : EncPic) (bits : Nat) (ends : Bool) : EncRt × EncPic × Nat :=
  let due := x.owed + bits
  let tail := if ends then eosNal p.codec else []
  let filler := fillerNal p.codec (due / 8 - tail.length)
  let nals := [filler, tail].filter (· != [])
  let sent := 8 * (filler.length + tail.length)
  let p := { p with fillerBits := p.fillerBits + sent, bytes := p.bytes ++ nals.flatten, ended := p.ended || ends }
  ({ x.setPic p with owed := due - sent, nals := x.nals ++ nals.map p.out }, p, filler.length)

/-- The filler bits that follow a picture's last slice (R231, R239): up to the release of the next
picture's row 0, which comes one period after its own where the channel goes on; after the last picture of
a coded video sequence up to its last allotment's end, and on to the new sequence's first slice where that
is known (R234, R251). -/
def Dev.closeGap (d : Dev) (c : Nat) (p : EncPic) : Nat :=
  let x := d.enc c
  let z := schedule p.rate (x.t0Of p.epoch)
  let due := p.dAt (p.nRows - 1)
  let k := x.endBefore p p.nRows due
  match x.pics.find? fun e => decide (p.count < e.count) with
  | some e =>
    if e.epoch = p.epoch then z (e.uAt 0) - k else (z due - k) + schedule e.rate due (e.uAt 0)
  | none =>
    if d.encState c = 0 ∨ x.begin_ ≠ 0 then z due - k
    else z ((p.uAt 0).add (d.period (encWing c))) - k

/-- The picture's coded video sequence ends with it, as far as is known (R234). -/
def EncRt.endsWith (x : EncRt) (p : EncPic) : Bool :=
  match x.pics.find? fun e => decide (p.count < e.count) with
  | some e => e.epoch != p.epoch
  | none => x.begin_ == 2

/-- Closes a picture's access unit with its filler, and the end of sequence before a restart (R221, R231). -/
def Dev.closeUnit (d : Dev) (c : Nat) (p : EncPic) : Dev :=
  let x := d.enc c
  if p.ended || (p.closed && !x.endsWith p) then d
  else
    let (x, q, n) := x.fill p (if p.closed then 0 else d.closeGap c p) (x.endsWith p)
    (d.setEnc c (x.setPic { q with closed := true })).addf (encIdx c) 0x28 5 n 8

/-- A row record (Table 10.3). -/
def RowRt.record (r : RowRt) (beyond : Nat) : List Byte :=
  let flags := (if r.exhausted then 1 else 0) + (if r.floorFrom.isSome && !r.exhausted then 2 else 0) +
    (if r.late.isSome then 4 else 0) + (if r.imported then 8 else 0)
  leBytes 2 r.row ++ leBytes 1 flags ++ leBytes 1 r.q ++ leBytes 4 r.budget ++
    leBytes 4 (r.actual.getD beyond) ++ leBytes 4 r.w ++ leBytes 2 (r.floorFrom.getD 0xFFFF) ++
    leBytes 2 r.header ++ pad4 (r.qps.map (BitVec.ofNat 8 ·))

/-- The row record set of a picture, with the rows that have been released (R252). -/
def EncPic.recordSet (p : EncPic) : List Byte :=
  leBytes 8 p.count ++ leBytes 8 p.tick ++ leBytes 8 p.start ++ leBytes 4 p.kappa0 ++
    leBytes 2 p.nRows ++ leBytes 2 p.nCols ++
    (p.rows.filter (·.actual.isSome)).flatMap (RowRt.record · 0)

/-- The stream goes on to a row's slice: after row 0 of a picture the unit before is closed, with its end of sequence
where another coded video sequence begins; else filler follows the slice before where the stream has passed its end
(R231, R234, R239). -/
def Dev.fillBefore (d : Dev) (c : Nat) (p : EncPic) (r : RowRt) : Dev :=
  let x := d.enc c
  let gap := r.zu - x.endBefore p r.row r.u
  let prev := if r.row = 0 then (x.pics.filter fun e => decide (e.count < p.count)).getLast? else some p
  let d := match prev with
    | some q =>
      if q.epoch != p.epoch then d.closeUnit c q
      else if gap = 0 ∨ q.closed then d
      else
        let (x, _, n) := x.fill q gap false
        (d.setEnc c x).addf (encIdx c) 0x28 5 n 8
    | none => d
  if r.row = 0 then
    d.setEnc c { d.enc c with pics := (d.enc c).pics.map fun e =>
      if e.count < p.count then { e with closed := true } else e }
  else d

/-- A picture's reference: the one before it, or what the standard generates at a start (R223, Table 9.2). -/
def EncRt.reference (x : EncRt) (p : EncPic) : List (List Nat) :=
  if p.idr then [] else if p.restart || p.count == 0 then flatReference p else x.recon

/-- The row's coding, and its slice NAL unit. -/
def EncRt.codeSlice (x : EncRt) (p : EncPic) (r : RowRt) (late : Option Nat) : RowCode × List Byte :=
  let ref := x.reference p
  let code := codeRow p r (p.ctuIn r ref) late
  (code, p.sliceNal r ref code)

/-- A row as its slice leaves: `n` bytes with this coding (R239, R247). -/
def RowRt.coded (r : RowRt) (p : EncPic) (code : RowCode) (n : Nat) (late : Option Nat) : RowRt :=
  { r with
    actual := some (8 * n), qps := code.ctus.map (·.qp), ctus := code.ctus, floorFrom := code.floorFrom, late := late
    lateCtus := late.elim 0 (p.nCols - ·) }

/-- A row of a picture joins the queue: before row 0 the header NAL units, each of its own; the picture's bytes grow
by them (R221, R230, R237). -/
def EncRt.queue (x : EncRt) (p : EncPic) (r : RowRt) (nal : List Byte) : EncRt :=
  let heads := r.heads.map p.out
  let tail : OutNal := { p.out nal with lastSlice := r.row + 1 == p.nRows }
  let unit := match heads ++ [tail] with
    | n :: rest => { n with first := r.row == 0 } :: rest
    | [] => []
  { x with nals := x.nals ++ unit }

/-- SLICE_RELEASE: the row's slice follows the previous one in the stream, after filler where the
stream has passed that one's end (R239). -/
def Dev.sliceRelease (d : Dev) (c row : Nat) (o : SliceObs) : Dev :=
  match (d.enc c).pics.find? fun p => p.rows.any fun r => r.row == row && r.actual.isNone && !r.awaits with
  | none => d
  | some p0 =>
    match p0.rows.find? (·.row == row) with
    | none => d
    | some r =>
      let w := encWing c
      let d := d.fillBefore c p0 r
      let x := d.enc c
      let p := (x.pics.find? fun e => e.count == p0.count && e.ts == p0.ts).getD p0
      let (code, nal) := x.codeSlice p r o.late
      let r' := r.coded p code nal.length o.late
      let p := { p with rows := p.rows.map fun q => if q.row = row then r' else q
                        bytes := p.bytes ++ r.heads.flatten ++ nal
                        start := if row = 0 ∧ !r.imported then max (x.endBefore p 0 r.u) r.zu else p.start }
      let (p, d) := if code.floorFrom.isSome then d.exhaust c row p else (p, d)
      let nFloor := code.floorFrom.elim 0 (p.nCols - ·)
      let d := (d.addf (rcIdx c) 0x0A 0 (if r.exhausted then 1 else 0) 8).addf (rcIdx c) 0x0B 0 nFloor 8
      let d := d.addf (encIdx c) 0x28 6 r'.lateCtus 8
      let x := ((x.setPic p).queue p r nal).settle r.u
      let last := row + 1 = p.nRows
      let x := if last then { x with recon := p.strips (x.reference p) } else x
      let d := d.setEnc c x
      let set := p.recordSet
      let st := x.stateBytes (p.count + 1)
      let d := if last then d.wrd (rcIdx c) 7 set else d
      let d := if p.epoch = x.epoch then d.wrd (rcIdx c) 6 st else d
      let d := if o.fault = 0 then d
        else d.report { unit := uEnc w, code := 0x0102, p1 := row % 4 + o.leaf % 256 * 256, p2 := c
                        sev := sevDegraded, time := d.now }
      if d.duplex && d.active then d.send (.partner "row-records" (leBytes 1 c ++ st ++ set)) else d

/-- SLICE_RELEASE (R239). -/
def execSliceRelease (t c row : Nat) (obs : SliceObs) (s : State) : Host.Outcome State Fault Refusal :=
  onDev t (·.sliceRelease c row obs) s

/-! ### Row decisions -/

/-- The encoded check value of the picture before one (R218): of its record, or, while that is not written, of the
access unit that its rows give, as far as they are decided (log entry 145). -/
def Dev.priorCrc (d : Dev) (c : Nat) (p : EncPic) : Nat :=
  if p.count = 0 then 0
  else match (d.enc c).pics.find? fun q => q.count + 1 == p.count with
    | none => (d.enc c).prevCrc
    | some q =>
      let d := (List.range q.nRows).foldl (fun d row => d.sliceRelease c row ⟨none, 0, 0⟩) d
      let find := fun (d : Dev) => ((d.enc c).pics.find? fun e => e.count == q.count).getD q
      crc32c (find (d.closeUnit c (find d))).bytes

/-- A row as its input has entered: its samples, the complexities of its CTUs and, before row 0, the header NAL units
(R219, R221, R242). -/
def Dev.rowInput (d : Dev) (c : Nat) (p : EncPic) (row : Nat) : RowRt :=
  let x := d.enc c
  let u := p.uAt row
  let heads := if row = 0 then p.headerBytes else []
  let y := d.rowLuma c p row
  let cs := p.complexity row y x.prevY
  { row := row, u := u, zu := schedule p.rate (x.t0Of p.epoch) u, header := 8 * heads.flatten.length, heads := heads
    y := y, cb := d.rowChroma c p row false, cr := d.rowChroma c p row true, w := cs.foldl (· + ·) 0, cplx := cs }

/-- ROW_DECISION: the last input line of a row has entered, and the row's QP and budget are fixed
(R239, R246), or taken from the partner's record (R253). -/
def Dev.rowDecide (d : Dev) (c row : Nat) : Dev :=
  let x := d.enc c
  match x.pics.find? fun p => p.rows.length == row && decide (row < p.nRows) with
  | none => d
  | some p =>
    let x := x.settle (p.vAt row)
    let p := (x.pics.find? fun e => e.count == p.count && e.ts == p.ts).getD p
    let p := if row = 0 then { p with kappa0 := x.kappa, prior := d.priorCrc c p } else p
    let base := d.rowInput c p row
    -- R242: at a start or restart every row of the previous picture counts as row 0
    let x := { x with prevW := if x.prevW = [] then List.replicate p.nRows base.w else x.prevW }
    let p := if row = 0 then { p with start := max (x.endBefore p 0 (p.vAt 0)) base.zu } else p
    let following := d.encState c == 3
    let (rt, x) := match following, x.import_ p.tick row with
      | true, some (st, r) =>
        (base.take r,
         { x with kappa := if row = 0 then st.kappa else x.kappa
                  kEnd := if row = 0 then st.start else x.kEnd })
      | true, none => ({ base with imported := true, awaits := true }, x)
      | false, _ => (x.decideRow p base, x)
    let last := row + 1 = p.nRows
    let p := { p with rows := p.rows ++ [rt], imported := p.imported || following, loans := if last then [] else p.loans }
    let x := x.setPic p
    -- the newest picture becomes the previous one (R242)
    let x := if last then { x with prevW := p.rows.map (·.w), prevY := p.plane (·.y) } else x
    -- R216: loans return when the last input row has been read
    let lent := (((d.enc c).pics.find? fun e => e.count == p.count && e.ts == p.ts).elim [] (·.loans))
    (if last then lent else []).foldl Dev.returnLoan (d.setEnc c x)

/-- ROW_DECISION (R246). -/
def execRowDecision (t c row : Nat) (s : State) : Host.Outcome State Fault Refusal :=
  onDev t (·.rowDecide c row) s

/-! ### Following -/

/-- The channel's stream positions become those of an imported set (R253): its rate-control state names the
position by which its newest row must end. -/
def EncRt.align (x : EncRt) (p : EncPic) (m : RowRecordSet) : EncRt :=
  match m.rows.getLast? with
  | none => x
  | some r =>
    let z := m.stateEnd + m.stateLead
    { x with t0 := (p.dAt r.row).sub ⟨z * 1000000, p.rate⟩ }

/-- The rate-control state that a channel takes as its own when following completes: κ, the positions, the
previous picture's complexities and the picture count (R252, R254). -/
def EncRt.adopt (x : EncRt) (p : EncPic) (m : RowRecordSet) : EncRt :=
  let pics := x.pics.map fun (e : EncPic) =>
    let e := { e with count := e.count + m.count - p.count }
    if e.count ≤ m.count then { e with rows := e.rows.map fun r => { r with settled := true } } else e
  { x with
    kappa := m.stateKappa, kEnd := m.stateEnd, zEnd := m.stateEnd + m.stateLead, pics := pics, prevW := m.rows.map (·.complexity)
    nals := x.nals.map fun n => { n with pic := n.pic + m.count - p.count }
    followCycle := none, imports := [] }

/-- ROW_RECORD_RECEIVED: rows of the partner arrive; the last row of the picture that completes the
first full refresh cycle ends following, and the channel decides the rows after it (R253, R254). -/
def Dev.rowRecords (d : Dev) (c : Nat) (m : RowRecordSet) : Dev :=
  let i := encIdx c
  let x : EncRt := d.enc c
  if d.encState c ≠ 3 then d
  else
    let imports := (x.imports.filter fun s => s.tick != m.tick && decide (m.tick < s.tick + 4)) ++ [m]
    let pics := x.pics.map fun (p : EncPic) =>
      if p.tick = m.tick then
        { p with rows := p.rows.map fun (r : RowRt) =>
            match r.awaits, m.rows.find? (fun (q : RowRec) => q.row == r.row) with
            | true, some q => r.take q
            | _, _ => r }
      else p
    let first := x.pics.any fun p => p.tick == m.tick && p.rows.any fun r => r.awaits && r.row == 0
    let x : EncRt := { x with imports := imports, pics := pics }
    let x : EncRt := if first then { x with kappa := m.kappa, kEnd := m.start } else x
    match x.pics.find? (·.tick == m.tick) with
    | none => d.setEnc c x
    | some p =>
      let x := x.align p m
      let done := p.pos == some (p.period - 1) && x.followCycle.isSome &&
        m.rows.any fun r => r.row + 1 == p.nRows
      if done then
          let d := ((d.setEnc c (x.adopt p m).ownRows).showRc c (m.count + 1)).wr (rcIdx c) 8 2
        let d := d.wr i 0x24 ((d.rd i 0x24 + m.count - p.count) % 2 ^ 64)
        let d := d.setEncState c 4
        d.raise (uEnc (encWing c)) 0x0A03 c ((m.count + 1) % 2 ^ 32) sevInfo
      else d.setEnc c x

/-- FOLLOW_LOST: a row's record has not arrived within 2 periods of its release instant (R254). -/
def Dev.followLost (d : Dev) (c : Nat) : Dev :=
  let x := d.enc c
  let lim := (d.period (encWing c)).mul 2
  match x.pics.find? fun p => p.rows.any fun r => r.awaits && Q.le (r.u.add lim) (Q.ofNat d.now) with
  | none => d
  | some p =>
    if d.encState c ≠ 3 then d
    else
      let again := d.rd 0x2100 7 == 0
      let x := { x.ownRows with followCycle := none, imports := [], followWanted := again }
      let d := (d.setEnc c x).wr (rcIdx c) 8 3
      let d := d.setEncState c 4
      d.raise (uEnc (encWing c)) 0x0A02 c (p.count % 2 ^ 32) sevDegraded

/-- RATE_CONTROL_COUNTER_RESET: 1 written to 0x3520+c:0C clears subs 09 to 0B. -/
def execRateControlCounterReset (t : Nat) (by_ : Requester) (c : Nat) (s : State) :
    Host.Outcome State Fault Refusal :=
  onCommand t by_ (fun d =>
    d.command by_ (rcIdx c) 0x0C [1] fun d =>
      (((d.wr (rcIdx c) 9 0).wr (rcIdx c) 0x0A 0).wr (rcIdx c) 0x0B 0).res stOk) s

end Sys2Proof.Machine
end

