-- ==== Sys2Proof/Machine/EncSend.lean ====
section
/-! DEFINITION. What leaves an encoder channel: RTP packets (R230, R231), the transport stream (R232),
and picture records (R237) with ROW_LATE (R226). -/
namespace Sys2Proof.Machine

/-! ### RTP -/

/-- The payload of the next packet of a NAL unit and how many of its bytes it takes: a whole NAL unit
that fits, or a fragmentation unit (R230; RFC 7798 type 49, RFC 9328 type 29, whose P bit marks the end of
a picture's last slice). -/
def nextFragment (payload : Nat) (n : OutNal) : List Byte × Nat :=
  let codec := n.codec
  if n.sent = 0 ∧ n.bytes.length ≤ payload then (n.bytes, n.bytes.length)
  else
    let h0 := byteAt n.bytes 0
    let h1 := byteAt n.bytes 1
    let from_ := max n.sent 2
    let take := min (payload - 3) (n.bytes.length - from_)
    let s := if n.sent = 0 then 128 else 0
    let e := if from_ + take = n.bytes.length then 64 else 0
    let hdr := if codec = 2 then leBytes 1 h0 ++ leBytes 1 (29 * 8 + h1 % 8) ++ leBytes 1 (s + e + (if e = 64 ∧ n.lastSlice then 32 else 0) + h1 / 8)
      else leBytes 1 (h0 % 2 + h0 / 128 * 128 + 49 * 2) ++ leBytes 1 h1 ++ leBytes 1 (s + e + h0 / 2 % 64)
    (hdr ++ slice n.bytes from_ take, from_ + take)

/-- A channel sends now: its role, a link and its wing allow it (Table 9.4, R236). -/
def Dev.encSends (d : Dev) (c : Nat) : Bool :=
  !d.gatedSends && !d.wingDown (encWing c) && (d.ledBy (encWing c)).rdb (encIdx c) 1

/-- Sends an RTP packet of a channel on its legs and counts it; with no leg up it is discarded and
counted (Tables 9.4, 9.7). The sequence counts scheduled packets (R230, R355). -/
def Dev.encRtp (d : Dev) (c : Nat) (marker : Bool) (ts : Nat) (what : String) (payload : List Byte) :
    Dev :=
  let i := encIdx c
  let x := d.enc c
  let led := d.ledBy (encWing c)
  let msg := rtpHeader (led.rd i 0x1D) marker (x.seq % 65536) ts (led.rd i 0x20) ++ payload
  let d := d.setEnc c { x with seq := (x.seq + 1) % 2 ^ 32 }
  if !d.encSends c then d
  else if (led.encLegs c).any fun s => d.linkUp (led.rd i s) then
    let d := (d.incf i 0x28 3).addf i 0x28 4 msg.length 8
    (led.encLegs c).foldl (fun d s =>
      d.sendMedia (led.rd i s) (led.rdd i (s + 1)) (led.rd i (s + 2)) (led.rd i 0x1C) (led.rd i 0x1F) what msg) d
  else d.incf i 0x28 7

/-- The next RTP packet of an RTP channel: a fragment of the oldest waiting NAL unit. The last one of a
picture carries the marker, and first closes the access unit. -/
def Dev.encPacketRtp (d : Dev) (c : Nat) : Dev :=
  let i := encIdx c
  match (d.enc c).nals with
  | [] => d
  | n :: rest =>
    let (pay, upto) := nextFragment ((d.ledBy (encWing c)).rd i 0x1E) n
    let ends := decide (n.bytes.length ≤ upto)
    let lastNal := ends && !rest.any fun m => m.pic == n.pic
    let pic := (d.enc c).pics.find? fun p => p.count == n.pic
    let whole := match pic with
      | some p => p.rows.length == p.nRows && p.rows.all fun r => r.actual.isSome
      | none => true
    let d := match pic with
      | some p => if lastNal && whole then d.closeUnit c p else d
      | none => d
    -- filler may have joined the queue behind this NAL unit
    let x := d.enc c
    let rest := x.nals.drop 1
    let lastNal := ends && !rest.any fun m => m.pic == n.pic
    if lastNal && !whole then d
    else
      let d := d.setEnc c { x with nals := if ends then rest else { n with sent := upto } :: rest }
      d.encRtp c lastNal n.ts "rtp-video" pay

/-! ### Transport stream -/

/-- A TS packet header with the continuity counter of its PID; `start`: payload unit start. -/
def tsHeader (pid cc afc : Nat) (start : Bool) : List Byte :=
  [0x47] ++ leBytes 1 ((if start then 64 else 0) + pid / 256) ++ leBytes 1 (pid % 256) ++
    leBytes 1 (afc * 16 + cc)

/-- CRC-32/MPEG-2 of PSI sections (ISO/IEC 13818-1). -/
def psiCrc (b : List Byte) : Nat :=
  b.foldl (fun c x =>
    (List.range 8).foldl (fun c k =>
      let top := (c / 2 ^ 31 % 2) ^^^ ((x.toNat / 2 ^ (7 - k)) % 2)
      let c := c * 2 % 2 ^ 32
      if top = 1 then c ^^^ 0x04C11DB7 else c) c) 0xFFFFFFFF

/-- A PSI section in one TS packet. -/
def psiPacket (pid cc : Nat) (section_ : List Byte) : List Byte :=
  let body := section_ ++ beBytes 4 (psiCrc section_)
  padFF (tsHeader pid cc 1 true ++ [0] ++ body)
where
  /-- Stuffs a packet to 188 bytes. -/
  padFF (b : List Byte) : List Byte := b.take 188 ++ List.replicate (188 - b.length) 0xFF

/-- The PAT: one program, its PMT on PID 0x0020 (R232). -/
def patSection : List Byte :=
  [0x00, 0xB0, 0x0D, 0x00, 0x01, 0xC1, 0x00, 0x00, 0x00, 0x01, 0xE0, 0x20]

/-- The PMT: video on 0x0100 with the PCR, audio on 0x0101 with its registration descriptor (R232). -/
def pmtSection (codec : Nat) (audio : Bool) : List Byte :=
  let es := [if codec = 2 then 0x33 else 0x24, 0xE1, 0x00, 0xF0, 0x00] ++
    (if audio then [0x06, 0xE1, 0x01, 0xF0, 0x06, 0x05, 0x04, 0x42, 0x53, 0x53, 0x44] else [])
  [0x02, 0xB0] ++ leBytes 1 (13 + es.length) ++ [0x00, 0x01, 0xC1, 0x00, 0x00, 0xE1, 0x00, 0xF0, 0x00] ++ es

/-- A null packet (R232). -/
def nullPacket : List Byte := tsHeader 0x1FFF 0 1 false ++ List.replicate 184 0xFF

/-- The PCR field: the time base in 27 MHz units. -/
def pcrBytes (now : Nat) : List Byte :=
  let t := now * 27 / 1000
  beBytes 6 (t / 300 % 2 ^ 33 * 2 ^ 15 + 63 * 2 ^ 9 + t % 300)

/-- The PTS of a picture (R232). -/
def EncPic.pts (p : EncPic) (margin : Nat) : Nat :=
  let l := p.dAt (p.nRows - 1)
  (ceilDiv ((l.n + margin * 1000 * l.d) * 90000) (l.d * 1000000000)) % 2 ^ 33

/-- A PES header of a video access unit, with a PTS only (R232). -/
def pesHeader (pts : Nat) : List Byte :=
  [0x00, 0x00, 0x01, 0xE0, 0x00, 0x00, 0x80, 0x80, 0x05] ++
    leBytes 1 (0x21 + pts / 2 ^ 30 * 2) ++ beBytes 2 (pts / 2 ^ 15 % 2 ^ 15 * 2 + 1) ++
    beBytes 2 (pts % 2 ^ 15 * 2 + 1)

/-- The continuity counter of a PID, and the channel with it advanced. -/
def EncRt.nextCc (x : EncRt) (pid : Nat) : Nat × EncRt :=
  let c := Tab.getD x.cc pid 0
  (c, { x with cc := Tab.setD x.cc pid ((c + 1) % 16) 0 })

/-- A PES of SMPTE 302M: PTS of its first sample, then the packed pairs, in TS packets of PID 0x0101
(R232). The grouping of samples into a PES of 5 ms is the model's. -/
def Dev.audTsPackets (d : Dev) (c pts : Nat) (frames : List (List Nat)) : List (List Byte) × Dev :=
  let n := (frames.headD []).length
  let rev := fun v => (List.range 24).map fun k => v / 2 ^ k % 2
  let body := packBits 1 (frames.flatMap fun f => f.flatMap fun v => rev v ++ [0, 0, 0, 0])
  let head := beBytes 4 (body.length * 2 ^ 16 + (n / 2 - 1) * 2 ^ 14 + 2 * 2 ^ 4)
  let es := head ++ body
  let pes := [0x00, 0x00, 0x01, 0xBD] ++ beBytes 2 (8 + es.length) ++ (pesHeader pts).drop 6 ++ es
  let parts := chunks 184 pes
  (List.range parts.length).foldl (fun (acc : List (List Byte) × Dev) k =>
    let (out, d) := acc
    let b := parts.getD k []
    let (cc, x) := (d.enc c).nextCc 0x101
    let stuff := 184 - b.length
    let adapt : List Byte := if stuff = 0 then [] else if stuff = 1 then [0]
      else leBytes 1 (stuff - 1) ++ [0] ++ List.replicate (stuff - 2) 0xFF
    (out ++ [tsHeader 0x101 cc (if adapt = [] then 1 else 3) (k == 0) ++ adapt ++ b], d.setEnc c x))
    ([], d)

/-- The audio channels of a TS channel (R232). -/
def Dev.tsAudio (d : Dev) (c : Nat) : List Nat :=
  ((d.rdd (encIdx c) 0x13).map (·.toNat)).filter (· != 0xFF)

/-- Takes the audio of the last 5 ms into TS packets; an unwritten position is 0 (R283). A sample's PTS
stands on the offset from capture that a picture's has (R232). -/
def Dev.audFill (d : Dev) (c : Nat) : Dev :=
  let chs := d.tsAudio c
  let x := d.enc c
  let cur := audPos 48000 d.now
  let start := if x.audNext = 0 ∨ x.audNext + 4800 < cur ∨ cur < x.audNext then cur / 240 * 240
    else x.audNext
  if chs = [] then d
  else if cur < start + 240 then d.setEnc c { x with audNext := start }
  else
    let (fs, d) := d.audGather chs start 240
    let rows := match x.pics.head? with
      | some p => (p.dAt (p.nRows - 1)).sub p.ts
      | none => d.encDelay c
    let m := d.rd (encIdx c) 0x14 * 1000
    let pts := ceilDiv ((start * rows.d * 62500 + 3 * (rows.n + m * rows.d)) * 90000)
      (rows.d * 3000000000) % 2 ^ 33
    let (ps, d) := d.audTsPackets c pts fs
    d.setEnc c { d.enc c with audNext := start + 240, audTs := (d.enc c).audTs ++ ps }

/-- The next TS packet of a channel: PAT and PMT, PCR, audio, then video, and a null packet where nothing waits (R232).
PAT and PMT, and PCR, are due when half of the time has passed that may lie between two of them. The order among packets
that are due together is the model's (log entry 17). -/
def Dev.tsPacket (d : Dev) (c : Nat) : List (List Byte) × Dev :=
  let i := encIdx c
  let x := d.enc c
  let due := fun (last : Option Nat) (every : Nat) => match last with
    | none => true
    | some a => decide (a + every ≤ d.now)
  if due x.psiAt 25000000 then
    let (c0, x) := x.nextCc 0
    let (c1, x) := x.nextCc 0x20
    let audio := (d.rdd i 0x13).any (· != 0xFF)
    ([psiPacket 0 c0 patSection, psiPacket 0x20 c1 (pmtSection (x.nals.head?.elim (d.rd i 2) (·.codec)) audio)],
     d.setEnc c { x with psiAt := some d.now })
  else
    let pcr := due x.pcrAt 10000000
    match (if pcr then [] else x.audTs) with
    | a :: r => ([a], d.setEnc c { x with audTs := r })
    | [] =>
    match x.nals.filter (·.carriage == 1) with
    | [] =>
      if pcr then
        ([tsHeader 0x100 (Tab.getD x.cc 0x100 0) 2 false ++ [183, 0x10] ++ pcrBytes d.now ++
          List.replicate 176 0xFF], d.setEnc c { x with pcrAt := some d.now })
      else ([nullPacket], d)
    | n :: rest =>
      let (cc, x) := x.nextCc 0x100
      let first := n.sent == 0 && n.first
      let pes := if first then
          match x.pics.find? (·.count == n.pic) with
          | some p => pesHeader (p.pts (d.rd i 0x14))
          | none => []
        else []
      let startCode : List Byte := if n.sent = 0 then [0, 0, 0, 1] else []
      let head := pes ++ startCode
      let room := 184 - (if pcr then 8 else 0) - head.length
      let take := min room (n.bytes.length - n.sent)
      let stuff := room - take
      let body := head ++ slice n.bytes n.sent take
      let adapt : List Byte :=
        if pcr then leBytes 1 (7 + stuff) ++ [0x10] ++ pcrBytes d.now ++ List.replicate stuff 0xFF
        else if stuff = 0 then []
        else if stuff = 1 then [0]
        else leBytes 1 (stuff - 1) ++ [0] ++ List.replicate (stuff - 2) 0xFF
      let pkt := tsHeader 0x100 cc (if adapt = [] then 1 else 3) first ++ adapt ++ body
      let upto := n.sent + take
      let x := { x with
        nals := (if n.bytes.length ≤ upto then rest else { n with sent := upto } :: rest) ++
          x.nals.filter (·.carriage != 1)
        pcrAt := if pcr then some d.now else x.pcrAt }
      ([pkt], d.setEnc c x)

/-- Seven TS packets in one RTP packet (R232). -/
def Dev.encPacketTs (d : Dev) (c : Nat) : Dev :=
  let d := d.audFill c
  let (pk, d) := (List.range 7).foldl (fun (acc : List (List Byte) × Dev) _ =>
    if 7 ≤ acc.1.length then acc
    else
      let (p, d') := acc.2.tsPacket c
      if 7 < acc.1.length + p.length then (acc.1 ++ [nullPacket], acc.2) else (acc.1 ++ p, d'))
    ([], d)
  d.encRtp c false (count90k (Q.ofNat d.now)) "rtp-ts" (pk.flatMap id)

/-- ENCODER_PACKET_SEND: the next packet of a channel leaves, by the carriage of the picture it is of (R231,
R234). -/
def execEncoderPacketSend (t c : Nat) (s : State) : Host.Outcome State Fault Refusal :=
  onDev t (fun d =>
    if (d.enc c).nals.head?.elim (d.rd (encIdx c) 0x11) (·.carriage) = 1 then
      (if d.encState c = 0 ∧ (d.enc c).nals = [] then d else d.encPacketTs c)
    else d.encPacketRtp c) s

/-! ### Picture records -/

/-- The flags of a picture record (Table 9.5). -/
def EncPic.flags (p : EncPic) : Nat :=
  p.idr.toNat + (p.pos == some 0).toNat * 2 + (p.pos == some (p.period - 1)).toNat * 4 +
    p.exhaustedRow.isSome.toNat * 8 + p.restart.toNat * 16 +
    (p.rows.any fun r => r.late.isSome).toNat * 32 + p.imported.toNat * 64 + p.listFault.toNat * 128

/-- Bits of a picture, filler included. -/
def EncPic.bits (p : EncPic) : Nat :=
  p.rows.foldl (fun a r => a + r.header + r.actual.getD 0) 0 + p.fillerBits

/-- The QPs of a picture. -/
def EncPic.allQps (p : EncPic) : List Nat := p.rows.flatMap (·.qps)

/-- A picture record (Table 9.5): `pair` is byte 56. -/
def EncPic.recordBytes (p : EncPic) (c inCrc outCrc pair : Nat) : List Byte :=
  let recs := (p.evals.flatMap RegEval.bytes)
  let qs := p.allQps
  let head := leBytes 1 c ++ leBytes 1 p.kind ++ leBytes 1 p.evals.length ++ leBytes 1 p.flags ++
    leBytes 8 p.count ++ leBytes 8 p.tick ++ time48Bytes p.ref ++ leBytes 2 (p.pos.getD 0xFFFF) ++
    leBytes 4 inCrc ++ leBytes 4 outCrc ++ leBytes 4 p.bits ++ leBytes 2 p.refA ++ leBytes 2 p.refB ++
    leBytes 4 p.inRef ++ leBytes 2 (p.exhaustedRow.getD 0xFFFF) ++
    leBytes 1 (qs.foldl min (qs.headD 0)) ++ leBytes 1 (qs.foldl max 0)
  head ++ leBytes 1 pair ++ leBytes 3 0 ++ leBytes 4 (crc32c (head ++ recs)) ++ recs

/-- The oldest picture whose rows have all been released. -/
def EncRt.donePic (x : EncRt) : Option EncPic :=
  x.pics.head?.bind fun p =>
    if p.rows.length = p.nRows ∧ p.rows.all (·.actual.isSome) then some p else none

/-- PICTURE_RECORD: the record of the oldest picture whose last row has left (R237); ROW_LATE for a
picture with rows ended at their deadline (R226). Answers the picture with its check values. -/
def Dev.pictureRecord (d : Dev) (c : Nat) : Dev × Option (EncPic × Nat × Nat) :=
  match (d.enc c).donePic with
  | none => (d, none)
  | some p0 =>
    if d.wingDown (encWing c) || !Q.le (p0.dAt (p0.nRows - 1)) (Q.ofNat d.now) then (d, none)
    else
      let d := d.closeUnit c p0
      let x := d.enc c
      let p := (x.pics.head?).getD p0
      let inCrc := p.inputCrc
      let outCrc := crc32c p.bytes
      let x := x.settle (p.dAt (p.nRows - 1))
      let d := d.setEnc c { x with pics := x.pics.drop 1, prevCrc := outCrc }
      let w := 0x3540 + c
      let b := p.recordBytes c inCrc outCrc (if d.duplex then 0 else 4)
      let d := ((d.wrc w 1 (p.count % 16) b).wr w 2 (p.count % 2 ^ 32)).wr w 3 ((d.rd w 3 + 1) % 2 ^ 64)
      let d := if d.encSends c && (d.encLegs c).any (fun s => d.linkUp (d.rd (encIdx c) s)) then
          d.incf (encIdx c) 0x28 1
        else d
      let late := p.rows.filter fun r => r.late.isSome
      let d := match late with
        | [] => d
        | r :: _ =>
          let n := late.foldl (fun a r => a + r.lateCtus) 0
          let p1 := c + r.row * 256
          (d.event (uEnc (encWing c)) 0x0903 p1 n).report
            { unit := uEnc (encWing c), code := 0x0903, p1 := p1, p2 := n, sev := sevService
              time := r.u.floor }
      (d, some (p, inCrc, outCrc))

end Sys2Proof.Machine
end

