-- ==== Sys2Proof/Machine/Launch.lean ====
section
/-! DEFINITION. Event inputs (R266, R267, R406, R407), PPS_OUT (R268) and timed launch (R269 to
R274). -/
namespace Sys2Proof.Machine

/-! ### Ports 0 to 9 -/

/-- Whether port 0 to 7 (NET) or 8 to 9 (MGT) is up. -/
def Dev.anyPortUp (d : Dev) (p : Nat) : Bool :=
  if p < 8 then d.linkUp p else d.rd 0x2046 7 / 4 ^ (p - 8) % 4 == 2

/-- Sends on port 0 to 7 (NET) or 8 to 9 (MGT). -/
def Dev.sendAny (d : Dev) (p : Nat) (what : String) (b : List Byte) : Dev :=
  if p < 8 then d.send (.net p what b) else d.send (.mgt (p - 8) what b)

/-! ### Launches -/

def launchIdx (e : Nat) : Nat := 0x2240 + e

/-- State of a launch entry (Table 11.6). -/
def Dev.launchState (d : Dev) (e : Nat) : Nat := d.rd (launchIdx e) 9

/-- The launch time of an armed or pending entry (R269). -/
def Dev.launchDue (d : Dev) (e : Nat) : Nat := Tab.getD d.due e 0

def Dev.setDue (d : Dev) (e t : Nat) : Dev := { d with due := Tab.setD d.due e t 0 }

/-- Whether an entry is bound to an input (R269). -/
def Dev.launchBound (d : Dev) (e : Nat) : Bool := d.rd (launchIdx e) 2 != 0

/-- A launch fails with a status (R274). -/
def Dev.launchFail (d : Dev) (e st : Nat) : Dev :=
  ((d.wr (launchIdx e) 9 4).wr (launchIdx e) 0x0B st).raise uTime 0x0B05 e st sevInfo

/-- A launch is done (Table 11.6): an absolute entry is LAUNCHED, a bound one ARMED again. `acts`:
this device carried it out. -/
def Dev.launchOk (d : Dev) (e : Nat) (acts : Bool) : Dev :=
  let i := launchIdx e
  let d := (d.wr i 9 (if d.launchBound e then 1 else 3)).wr i 0x0B stOk
  if acts then (d.wr i 0x0A (time48 d.now)).incf i 0x0C 0 else d

/-- The wait of a bound SLOT launch after its launch time (R273). -/
def Dev.slotWait (d : Dev) (e : Nat) : Nat :=
  if !d.launchBound e then 0 else if d.duplex then 2000000 else 1000000

/-- Whether an EtherType stands in a frame, after at most one VLAN tag: its offset. -/
def etherOffset (b : List Byte) : Nat :=
  if byteAt b 12 = 0x81 ∧ byteAt b 13 = 0 then 16 else 12

def etherType (b : List Byte) : Nat :=
  byteAt b (etherOffset b) * 256 + byteAt b (etherOffset b + 1)

/-- A frame with bytes replaced from an offset. -/
def overwrite (b : List Byte) (o : Nat) (v : List Byte) : List Byte :=
  b.take o ++ v ++ b.drop (o + v.length)

/-- The UDP checksum of an IPv4 UDP frame set to 0 (R272). -/
def clearUdpSum (b : List Byte) : List Byte :=
  let o := etherOffset b + 2
  if etherType b = 0x0800 ∧ byteAt b (o + 9) = 17 then
    overwrite b (o + byteAt b o % 16 * 4 + 6) [0, 0]
  else b

/-- The template of a PACKET entry. -/
def Dev.launchTemplate (d : Dev) (e : Nat) : List Byte := d.rdd 0x2280 (d.rd (launchIdx e) 6 + 1)

/-- The frame a PACKET entry sends, with its scheduled launch time written in (R272). -/
def Dev.launchFrame (d : Dev) (e : Nat) : List Byte :=
  let b := d.launchTemplate e
  let o := d.rd (launchIdx e) 7
  if o = 0xFFFF then b else clearUdpSum (overwrite b o (time48Bytes (d.launchDue e)))

/-- Launched bytes of a port in the ms that ends now. -/
def Dev.launchedIn (d : Dev) (p : Nat) : List (Nat × Nat) :=
  (Tab.getD d.launched p []).filter fun x => decide (d.now < x.1 + 1000000)

/-- A PACKET launch (R272, R274). The frame counts with its FCS. -/
def Dev.launchPacket (d : Dev) (e : Nat) : Dev :=
  let p := d.rd (launchIdx e) 5
  let b := d.launchFrame e
  let n := b.length + 4
  let sent := d.launchedIn p
  if d.gatedSends then d.launchOk e false
  else if !d.anyPortUp p then d.launchFail e stWrongState
  else if 12500 < sent.foldl (fun a x => a + x.2) n then d.launchFail e stBusy
  else
    ({ d with launched := Tab.setD d.launched p (sent ++ [(d.now, n)]) [] }.sendAny p "launch"
      b).launchOk e true

/-- PPS_OUT is high until an instant; pulses that overlap merge (R271). -/
def Dev.ppsRise (d : Dev) (end_ : Nat) : Dev :=
  let x := d.pps
  if x.high then { d with pps := { x with until_ := max x.until_ end_ } }
  else { d with pps := { high := true, until_ := end_ } }.send (.pin "PPS_OUT" [1])

/-- A PULSE launch (R271); outside mode 2 PPS_OUT carries none (R268). -/
def Dev.launchPulse (d : Dev) (e : Nat) : Dev :=
  if d.rd 0x2239 1 = 2 then
    (d.ppsRise (d.launchDue e + d.rd (launchIdx e) 6 * 1000)).launchOk e true
  else d.launchOk e false

/-- Whether an entry waits for its launch time: armed and absolute, or pending. -/
def Dev.launchWaits (d : Dev) (e : Nat) : Bool :=
  !d.bankHeld 6 && (d.launchState e == 2 || (d.launchState e == 1 && !d.launchBound e))

/-- LAUNCH_TIME: the launch time of a PULSE or PACKET entry is reached. A SLOT entry acts at the next
tick of its layer's home wing (R273). -/
def execLaunchTime (t e : Nat) (s : State) : Host.Outcome State Fault Refusal :=
  onDev t (fun d =>
    if d.launchWaits e ∧ d.launchDue e ≤ d.now then
      match d.rd (launchIdx e) 1 with
      | 0 => d.launchOk e false
      | 1 => d.launchPulse e
      | 2 => d.launchPacket e
      | _ => d
    else d) s

/-- A SLOT launch at T+0 of tick `k` of wing `w` (R273). -/
def Dev.launchSlot (d : Dev) (k e : Nat) : Dev :=
  let l := d.rd (launchIdx e) 5
  let n := d.rd (launchIdx e) 6
  let own := match (d.layer l).slots.find? fun s => s.num == n with
    | some s => s.state == 1 || s.state == 2
    | none => false
  if !d.rdb (layIdx l) 1 ∨ d.rd (layIdx l) 2 ≠ 1 ∨ d.rd (layIdx l) 0x1B = 1 ∨ !own then
    d.launchFail e stWrongState
  else if d.batches.any fun b => d.batchDue b (d.layWing l) k &&
      b.recs.any fun r => r.idx == layIdx l && r.sub == 0x19 then
    d.launchFail e stConflict
  else ((d.wr (layIdx l) 0x19 n).makeCurrent l n).launchOk e true

/-- The SLOT launches that act at T+0 of tick `k` of wing `w`, raised at `at_` (R273). -/
def Dev.launchSlots (d : Dev) (w k at_ : Nat) : Dev :=
  foldNat (fun d e =>
    if d.rd (launchIdx e) 1 = 3 ∧ d.launchWaits e ∧ d.layWing (d.rd (launchIdx e) 5) = w ∧
        d.launchDue e + d.slotWait e ≤ at_ then d.launchSlot k e else d) 64 d

/-- What arming refuses (R269, R271, R272). -/
def Dev.armStatus (d : Dev) (e : Nat) : Nat :=
  let i := launchIdx e
  let kind := d.rd i 1
  let due := ofTime48 (d.rd i 3)
  let trg := d.rd i 2
  let filter := d.rd (0x2220 + (trg - 1)) 3
  let o := d.rd i 7
  if kind = 1 ∧ (d.rd i 5 ≠ 0 ∨ d.rd i 6 = 0 ∨ d.rd 0x2239 1 ≠ 2) then stRange
  else if kind = 2 ∧ (9 < d.rd i 5 ∨ 15 < d.rd i 6) then stRange
  else if kind = 3 ∧ (511 < d.rd i 5 ∨ 3 < d.rd i 6) then stRange
  else if kind = 2 ∧ o ≠ 0xFFFF ∧
      ((d.launchTemplate e).length < o + 10 ∨ etherType (d.launchTemplate e) = 0x86DD) then stRange
  else if trg ≠ 0 then
    if kind = 1 ∧ d.rd i 4 < filter + 1000 then stRange
    else if kind = 2 ∧ d.rd i 4 < filter + 20000 then stRange
    else stOk
  else
    let lead := if kind ≠ 3 then 1000000 else if d.duplex then 6000000 else 4000000
    if kind ≠ 0 ∧ due < d.now + lead then stTooLate
    else if d.now + 600000000000 < due then stTooFar
    else stOk

/-- Arms an entry (Table 11.6). -/
def Dev.arm (d : Dev) (e : Nat) : Res :=
  let i := launchIdx e
  if d.launchState e = 1 ∨ d.launchState e = 2 then d.res stOk
  else
    let d := if d.launchBound e then d else d.setDue e (ofTime48 (d.rd i 3))
    (d.wr i 9 1).res stOk

/-- LAUNCH_ARM: 1 written to 0x2240+e:08 (R269). -/
def execLaunchArm (t : Nat) (by_ : Requester) (e : Nat) (s : State) :
    Host.Outcome State Fault Refusal :=
  onCommand t by_ (fun d =>
    d.commandPre by_ (launchIdx e) 8 [1] (d.armStatus e) (·.arm e)) s

/-- Disarms an entry (Table 11.6). -/
def Dev.disarm (d : Dev) (e : Nat) : Res := (d.wr (launchIdx e) 9 0).res stOk

/-- LAUNCH_DISARM: 0 written to 0x2240+e:08 (R269). -/
def execLaunchDisarm (t : Nat) (by_ : Requester) (e : Nat) (s : State) :
    Host.Outcome State Fault Refusal :=
  onCommand t by_ (fun d => d.command by_ (launchIdx e) 8 [0] (·.disarm e)) s

/-- A time step fails the launches whose time lies before the new time (R264). -/
def Dev.launchStep (d : Dev) : Dev :=
  foldNat (fun d e =>
    if d.launchWaits e ∧ d.launchDue e < d.now then d.launchFail e stTooLate else d) 64 d

/-! ### PPS_OUT -/

/-- Whether mode 1 sends pulses: in generation 0, HOLDOVER and EXCURSION only where 0x2239:04 is
true (R268). -/
def Dev.ppsSends (d : Dev) : Bool :=
  d.rd 0x2239 1 == 1 &&
    (d.rdb 0x2239 4 || (d.rd 0x2200 0x0A != 0 && d.rd 0x2200 1 != 4 && d.rd 0x2200 1 != 5))

/-- PPS_OUT_PULSE: a pulse starts at a whole second of the time base plus the offset (R268). -/
def execPpsOutPulse (t : Nat) (s : State) : Host.Outcome State Fault Refusal :=
  onDev t (fun d =>
    if d.ppsSends ∧ ((d.now : Int) - d.rdi 32 0x2239 3) % 1000000000 = 0 then
      d.ppsRise (d.now + d.rd 0x2239 2 * 1000)
    else d) s

/-- PPS_OUT falls. -/
def Dev.ppsFall (d : Dev) : Dev :=
  if d.pps.high then { d with pps := {} }.send (.pin "PPS_OUT" [0]) else d

/-- PULSE_END: the pulse, or the last of merged pulses, ends (R271). -/
def execPulseEnd (t : Nat) (s : State) : Host.Outcome State Fault Refusal :=
  onDev t (fun d => if d.pps.until_ ≤ d.now then d.ppsFall else d) s

/-! ### Capture -/

def evtIdx (i : Nat) : Nat := 0x2220 + i

def Dev.evt (d : Dev) (i : Nat) : EvtRt := Tab.getD d.evts i {}

def Dev.setEvt (d : Dev) (i : Nat) (x : EvtRt) : Dev := { d with evts := Tab.setD d.evts i x {} }

/-- A bit of the input status (0x2220+i:0C). -/
def Dev.evtBit (d : Dev) (i b : Nat) : Bool := (d.rd (evtIdx i) 0x0C).testBit b

def Dev.setEvtBit (d : Dev) (i b : Nat) (v : Bool) : Dev :=
  d.wr (evtIdx i) 0x0C (setBit (d.rd (evtIdx i) 0x0C) b v)

/-- Whether the input stands at its active level (R407). -/
def Dev.evtActive (d : Dev) (i : Nat) : Bool := d.evtBit i 0 == (d.rd (evtIdx i) 5 == 1)

/-- A capture record (R266). -/
def evtRecord (at_ edge flags merged : Nat) : List Byte :=
  time48Bytes at_ ++ leBytes 1 edge ++ leBytes 1 flags ++ leBytes 2 merged ++ leBytes 2 0

/-- Writes a new record to the capture ring (R266). -/
def Dev.newRecord (d : Dev) (i at_ edge flags : Nat) : Dev :=
  let n := d.rd (evtIdx i) 9
  ((d.wrc (evtIdx i) 8 (n % 256) (evtRecord at_ edge flags 0)).wr (evtIdx i) 9
    ((n + 1) % 2 ^ 64)).wr (evtIdx i) 0x0A (time48 at_)

/-- Merges an edge into the newest record (R406). -/
def Dev.mergeEdge (d : Dev) (i : Nat) : Dev :=
  let slot := (d.rd (evtIdx i) 9 - 1) % 256
  let b := padTo 16 (d.rdc (evtIdx i) 8 slot)
  let b := slice b 0 11 ++ leBytes 1 (setBit (byteAt b 11) 0 true) ++
    leBytes 2 (satInc 16 (fieldAt b 12 2)) ++ slice b 14 2
  let x := d.evt i
  let from_ := if x.merged = 0 then d.now else x.mergeFrom
  ((d.wrc (evtIdx i) 8 slot b).setEvtBit i 2 true).setEvt i
    { x with merged := x.merged + 1, mergeFrom := from_ }

/-- The signed offset of a capture from the nearest whole second (R267). -/
def ppsOffset (at_ : Nat) : Int :=
  let r := at_ % 1000000000
  if r < 500000000 then r else (r : Int) - 1000000000

/-- A capture launches the armed entries bound to its input (R269, R270, R274). -/
def Dev.evtLaunch (d : Dev) (i at_ : Nat) : Dev :=
  foldNat (fun d e =>
    let o := launchIdx e
    let kind := d.rd o 1
    if d.rd o 2 ≠ i + 1 then d
    else if d.launchState e = 1 then
      if d.standby ∧ (kind = 2 ∨ kind = 3) then d
      else
        let due := at_ + d.rd o 4
        let d := (d.setDue e due).wr o 9 2
        if kind = 3 ∧ d.duplex then
          let l := d.rd o 5
          let w := d.layWing l
          d.send (.partner "mirrored-write" (leBytes 2 (layIdx l) ++ leBytes 1 0x19 ++
            leBytes 1 (d.rd o 6) ++ leBytes 1 w ++ leBytes 8 (d.tickFrom w (due + 2000000))))
        else d
    else if d.launchState e = 2 then
      let n := (d.rd o 0x0D + 1) % 2 ^ 32
      (d.wr o 0x0D n).raise uTime 0x0B06 e n sevInfo
    else d) 64 d

/-- Whether an edge merges into the newest record (R406). -/
def Dev.evtMerges (d : Dev) (i at_ : Nat) : Bool :=
  !(d.evt i).resumed &&
    decide ((at_ - ofTime48 (d.rd (evtIdx i) 0x0A)) * d.rd (evtIdx i) 4 < 1000000000)

/-- An accepted edge of the selected polarity (R266, R267, R406). -/
def Dev.evtCapture (d : Dev) (i at_ : Nat) (level : Bool) : Dev :=
  let d := if i = 24 ∧ level then d.wr 0x2238 0x0D (ofSigned 32 (ppsOffset at_)) else d
  if d.evtMerges i at_ then d.mergeEdge i
  else
    let d := (d.newRecord i at_ (if level then 0 else 1) 0).setEvtBit i 2 false
    let x := d.evt i
    let d := d.setEvt i { x with resumed := false, inTick := x.inTick + 1 }
    d.evtLaunch i at_

/-- An input's level changed at `at_`: a pulse shorter than the glitch filter is discarded; an
accepted level of the selected polarity is captured (R266); a stuck input waits for its release
(R407). The capture time has 2 ns resolution. -/
def Dev.evtEdge (d : Dev) (i : Nat) (level : Bool) (at_ : Nat) : Dev :=
  if !d.rdb (evtIdx i) 1 ∨ 24 < i then d
  else if d.now < at_ + d.rd (evtIdx i) 3 then d.incf (evtIdx i) 0x0B 0
  else if d.evtBit i 1 then d
  else
    let d := (d.setEvtBit i 0 level).setEvt i { d.evt i with since := at_ }
    if (d.rd (evtIdx i) 2).testBit (if level then 0 else 1) then
      d.evtCapture i (at_ - at_ % 2) level
    else d

/-- EVT_EDGE (R266). -/
def execEvtEdge (t i : Nat) (level : Bool) (at_ : Nat) (s : State) :
    Host.Outcome State Fault Refusal :=
  onDev t (·.evtEdge i level at_) s

/-- EVT_MERGING: a second with merged edges ends (R406). -/
def execEvtMerging (t i : Nat) (s : State) : Host.Outcome State Fault Refusal :=
  onDev t (fun d =>
    let x := d.evt i
    if x.merged = 0 then d
    else
      let d := d.report { unit := uTime, code := 0x1204, p1 := i, p2 := x.merged % 2 ^ 32
                          sev := sevInfo, time := d.now }
      let d := d.setEvt i { x with merged := 0, mergeFrom := 0 }
      if d.evtMerges i d.now then d else d.setEvtBit i 2 false) s

/-- EVT_STUCK: the input has held its active level for its stuck time (R407). -/
def Dev.evtStuck (d : Dev) (i : Nat) : Dev :=
  let at_ := (d.evt i).since + d.rd (evtIdx i) 6 * 1000000
  if d.rdb (evtIdx i) 1 ∧ !d.evtBit i 1 ∧ d.evtActive i ∧ at_ ≤ d.now then
    let d := (d.newRecord i at_ (if d.evtBit i 0 then 0 else 1) 2).setEvtBit i 1 true
    d.report { unit := uTime, code := 0x1205, p1 := i, p2 := d.rd (evtIdx i) 6
               sev := sevDegraded, time := d.now }
  else d

def execEvtStuck (t i : Nat) (s : State) : Host.Outcome State Fault Refusal :=
  onDev t (·.evtStuck i) s

/-- EVT_RELEASED: a stuck input has held its inactive level for its glitch filter time; the time it
was active counts to the nearest ms (R407, Table 18.10). -/
def Dev.evtReleased (d : Dev) (i : Nat) : Dev :=
  if d.evtBit i 1 then
    let x := d.evt i
    let edge := d.now - d.rd (evtIdx i) 3
    let ms := min ((2 * (edge - x.since) + 1000000) / 2000000) (2 ^ 32 - 1)
    let d := ((d.setEvtBit i 1 false).setEvtBit i 0 (d.rd (evtIdx i) 5 == 0)).setEvt i
      { x with since := edge, resumed := true }
    d.report { unit := uTime, code := 0x1206, p1 := i, p2 := ms, sev := sevInfo, time := d.now }
  else d

def execEvtReleased (t i : Nat) (s : State) : Host.Outcome State Fault Refusal :=
  onDev t (·.evtReleased i) s

/-- EVT_CAPTURE at a W0 tick, for each notifying input that captured since the last (Table 11.10). -/
def Dev.evtTick (d : Dev) : Dev :=
  foldNat (fun d i =>
    let x := d.evt i
    if x.inTick = 0 then d
    else
      let d := if d.rdb (evtIdx i) 7 then d.event uTime 0x0B04 i x.inTick else d
      d.setEvt i { x with inTick := 0 }) 25 d

end Sys2Proof.Machine
end

