-- ==== Sys2Proof/Machine/Time.lean ====
section
/-! DEFINITION. PTP ports and best-master selection (R257, R258), the servo and its states (R260 to
R262), the time commands (R263) and the effects of a step (R264). -/
namespace Sys2Proof.Machine

/-! ### State of the time unit -/

/-- State of the time unit (0x2200:01, Table 11.2): 0 FREE, 1 ACQUIRING, 2 LOCKING, 3 LOCKED,
4 HOLDOVER, 5 EXCURSION. -/
def Dev.timeState (d : Dev) : Nat := d.rd 0x2200 1

/-- Enters a state, with TIME_STATE; 0x2200:0C shows since when it is LOCKED. -/
def Dev.setTimeState (d : Dev) (st : Nat) : Dev :=
  let old := d.timeState
  if old = st then d
  else
    let d := { (d.wr 0x2200 1 st).wr 0x2200 0x0C (if st = 3 then time48 d.now else 0) with
      time := { d.time with good := 0, bad := 0, calm := 0, slewing := false } }
    d.event uTime 0x0B01 old st

/-- The filtered offset: the median of the latest 8 samples; of an even number the mean of the middle
two, whose rounding is free. -/
def filteredOffset (xs : List Int) : Int :=
  let s := xs.mergeSort (fun a b => decide (a ≤ b))
  let n := s.length
  if n = 0 then 0
  else if n % 2 = 1 then s.getD (n / 2) 0
  else freeRound (s.getD (n / 2 - 1) 0 + s.getD (n / 2) 0) 2

/-- The filtered offset in force (0x2200:03). -/
def Dev.offset (d : Dev) : Int := d.rdi 64 0x2200 3

/-- A signed number of µs in 32 bits, saturating (R262). -/
def offsetUs (ns : Int) : Nat :=
  ofSigned 32 (max (-(2 ^ 31 - 1)) (min (2 ^ 31 - 1) (freeRound ns 1000)))

/-! ### PTP ports -/

def ptpIdx (p : Nat) : Nat := 0x2202 + p

def Dev.ptp (d : Dev) (p : Nat) : PtpRt := Tab.getD d.time.ports p {}

def Dev.setPtp (d : Dev) (p : Nat) (x : PtpRt) : Dev :=
  { d with time := { d.time with ports := Tab.setD d.time.ports p x {} } }

/-! #### Timestamps (R259) -/

/-- Timestamp mode of a PTP port (Tables 11.1, 4.1; R93); none for an absent port. -/
def Dev.ptpMode (d : Dev) (p : Nat) : Option Nat :=
  if p < 8 then if d.portExists p then some (d.laneMode (p / 2)) else none
  else some (3 + d.bootRd 0x2046 (p - 7))

/-- The correction of Table 11.1 in ps. -/
def stampCorrection (rx : Bool) (mode : Nat) : Int :=
  if rx then [168700, 141300, 132800, 340000, 372000].getD mode 0
  else [96400, 84200, 79600, 212000, 236000].getD mode 0

/-- The calibrated residual of a port's mode in ps: taps of 0.25 ns, transmit before receive, within ±32 taps (R408). -/
def Dev.stampResidual (d : Dev) (p : Nat) (rx : Bool) (mode : Nat) : Int :=
  let v := (d.calInst 6 p).values.getD (2 * (if p < 8 then mode else mode - 3) + rx.toNat) 0
  250 * max (-32) (min 32 v)

/-- What lies between a port's reference plane and its MAC, in ps: the correction of its mode, the residual, and its
external ingress or egress latency. -/
def Dev.stampPath (d : Dev) (p : Nat) (rx : Bool) : Int :=
  (match d.ptpMode p with
    | some m => stampCorrection rx m + d.stampResidual p rx m
    | none => 0) + d.rdi 32 (ptpIdx p) (if rx then 3 else 4)

/-- The corrected timestamp in ps of a message that the MAC received, with the latency of RS-FEC codeword alignment. -/
def Dev.rxStamp (d : Dev) (p : Nat) (mac : Int) (fec : Nat) : Int := mac - d.stampPath p true - fec

/-- The corrected timestamp in ps of a message that the MAC sent. -/
def Dev.txStamp (d : Dev) (p : Nat) (mac : Int) : Int := mac + d.stampPath p false

/-- A stamp in ps as TIME48, truncated to the ns (R255). -/
def stampBytes (ps : Int) : List Byte := time48Bytes (ps / 1000).toNat

/-- What a Sync took on its way in ps by both clocks, less the port's delay asymmetry. -/
def Dev.syncPath (d : Dev) (p : Nat) (m : PtpSync) : Int :=
  d.rxStamp p m.mac m.fec - m.origin - d.rdi 32 (ptpIdx p) 5

/-- The offset in ns that a Sync gives: slave minus master, with the mean path delay (R260). -/
def Dev.syncOffset (d : Dev) (p : Nat) (m : PtpSync) : Int :=
  freeRound (d.syncPath p m) 1000 - d.rd (ptpIdx p) 8

/-- The mean path delay in ns from the Sync's way out and the Delay_Req's way back. -/
def meanPath (path back : Int) : Nat := (freeRound (path + back) 2000).toNat % 2 ^ 32

/-- State of a PTP port (1588 portState): 1 initializing, 3 disabled, 4 listening, 6 master, 7 passive,
9 slave. -/
def Dev.ptpState (d : Dev) (p : Nat) : Nat := d.rd (ptpIdx p) 7

/-- The data set the device would announce on its own: its clock is the grandmaster (R258). -/
def Dev.ownDataSet (d : Dev) : Announce :=
  { domain := d.rd 0x2201 1, sender := d.rdd 0x2201 0x0A, senderPort := 0, p1 := d.rd 0x2201 2
    cls := d.rd 0x2201 0x0B, accuracy := Config.freeNat d.fresh % 256
    variance := Config.freeNat (d.fresh + 1) % 65536, p2 := d.rd 0x2201 3, gm := d.rdd 0x2201 0x0A
    steps := 0, timeSource := d.rd 0x2201 0x0C, flags := Config.freeNat (d.fresh + 2) % 65536
    tlv := [] }

/-- The order of best-master selection (IEEE 1588). -/
def annRank (a : Announce) : List Nat :=
  [a.p1, a.cls, a.accuracy, a.variance, a.p2, leNat a.gm.reverse, a.steps, leNat a.sender.reverse,
   a.senderPort]

/-- Lexicographic order of ranks. -/
def rankLt : List Nat → List Nat → Bool
  | x :: xs, y :: ys => if x < y then true else if y < x then false else rankLt xs ys
  | _, _ => false

def annBetter (a b : Announce) : Bool := rankLt (annRank a) (annRank b)

/-- The port whose Announce is best, among the enabled ports. -/
def Dev.bestPort (d : Dev) : Option (Nat × Announce) :=
  (List.range 10).foldl (fun best p =>
    if !d.rdb (ptpIdx p) 1 then best
    else match (d.ptp p).ann, best with
      | none, _ => best
      | some a, none => some (p, a)
      | some a, some (q, b) => if annBetter a b then some (p, a) else some (q, b)) none

/-- The device takes its time from another clock. -/
def Dev.followsClock (d : Dev) (a : Announce) : Bool :=
  d.rdb 0x2201 4 || (decide (128 ≤ d.rd 0x2201 0x0B) && annBetter a d.ownDataSet)

/-- The state of an enabled port that is not SLAVE. -/
def Dev.idlePortState (d : Dev) (best : Option (Nat × Announce)) (p : Nat) : Nat :=
  if d.rdb 0x2201 4 then 4
  else match best, (d.ptp p).ann with
    | some (_, b), some a => if a.gm = b.gm ∨ annBetter a d.ownDataSet then 7 else 6
    | _, _ => 6

/-- The parent is lost (Table 11.2, R262). -/
def Dev.loseParent (d : Dev) : Dev :=
  let d := { (d.wr 0x2200 7 0xFF).wrd 0x2200 6 (List.replicate 8 0) with
    time := { d.time with newParent := false, calm := 0 } }
  match d.timeState with
  | 1 => { d with time := { d.time with samples := [], taken := 0 } }.setTimeState 0
  | 2 => d.setTimeState 4
  | 3 => d.setTimeState 4
  | _ => d

/-- A parent is selected on a port (Table 11.2): in generation 0 ACQUIRING starts; otherwise its first
sample decides. -/
def Dev.takeParent (d : Dev) (p : Nat) (a : Announce) : Dev :=
  let d := d.setPtp p { d.ptp p with path := none, reqAt := none }
  let d : Dev := { (d.wr 0x2200 7 p).wrd 0x2200 6 a.sender with
    time := { d.time with samples := [], taken := 0, newParent := true, parent := some a } }
  if d.timeState = 0 ∧ d.rd 0x2200 0x0A = 0 then d.setTimeState 1 else d

/-- Best-master selection: port states and the parent (R257). -/
def Dev.bmca (d : Dev) : Dev :=
  let best := d.bestPort
  let slave := match best with
    | some (p, a) => if d.followsClock a then some (p, a) else none
    | none => none
  let d := foldNat (fun d p =>
    let st := if !d.rdb (ptpIdx p) 1 then (if d.ptpState p = 1 then 1 else 3)
      else match slave with
        | some (q, _) => if q = p then 9 else d.idlePortState best p
        | none => d.idlePortState best p
    d.wr (ptpIdx p) 7 st) 10 d
  let was := d.rd 0x2200 7
  match slave with
  | none => if was = 0xFF then d else d.loseParent
  | some (p, a) =>
    let same := was == p && (d.time.parent.any fun b => b.sender == a.sender && b.senderPort == a.senderPort)
    if same then { d with time := { d.time with parent := some a } } else d.takeParent p a

/-- A PTP object has changed: ports that are disabled forget what they heard; with none enabled the
state is FREE (Table 11.2). -/
def Dev.ptpRefresh (d : Dev) : Dev :=
  let d := foldNat (fun d p => if d.rdb (ptpIdx p) 1 then d else d.setPtp p {}) 10 d
  let d := d.bmca
  if (List.range 10).any fun p => d.rdb (ptpIdx p) 1 then d else d.setTimeState 0

/-- Counts in field `f` of 0x2202+p:09. -/
def Dev.ptpCount (d : Dev) (p f : Nat) : Dev := d.addf (ptpIdx p) 9 f 1 4

/-- PTP_ANNOUNCE_RECEIVED (R257): a port keeps the best Announce it hears; those of other domains and
the device's own are not taken. -/
def Dev.ptpAnnounce (d : Dev) (p : Nat) (a : Announce) : Dev :=
  if !d.rdb (ptpIdx p) 1 ∨ 9 < p then d
  else
    let d := d.ptpCount p 1
    if a.domain ≠ d.rd 0x2201 1 ∨ a.sender = d.rdd 0x2201 0x0A then d
    else
      let x := d.ptp p
      let keep := match x.ann with
        | none => true
        | some b => (a.sender == b.sender && a.senderPort == b.senderPort) || annBetter a b
      if keep then (d.setPtp p { x with ann := some a, annAt := d.now }).bmca else d

def execPtpAnnounceReceived (t port : Nat) (a : Announce) (s : State) :
    Host.Outcome State Fault Refusal :=
  onCurator t (·.ptpAnnounce port a) s

/-- The receipt timeout of a port in ns (0x2201:06, 09). -/
def Dev.ptpTimeout (d : Dev) : Nat :=
  d.rd 0x2201 9 * (1000000000 * 2 ^ (d.rdi 8 0x2201 6 + 8).toNat / 256)

/-- PTP_ANNOUNCE_TIMEOUT: no Announce or Sync within announceReceiptTimeout (Table 11.2). -/
def execPtpAnnounceTimeout (t port : Nat) (s : State) : Host.Outcome State Fault Refusal :=
  onCurator t (fun d =>
    let x := d.ptp port
    if x.ann.isSome ∧ max x.annAt x.syncAt + d.ptpTimeout ≤ d.now then
      (d.setPtp port { x with ann := none }).bmca
    else d) s

/-- PTP_DELAY_RESP_RECEIVED: a Delay_Resp gives the mean path delay (R257). `stamp`: the master's receive timestamp less
the correction field, in ps. The asymmetry, of the other sign on the way back, falls out. -/
def Dev.ptpDelayResp (d : Dev) (p : Nat) (stamp : Int) : Dev :=
  if d.ptpState p ≠ 9 ∨ 9 < p then d
  else
    let d := d.ptpCount p 3
    match (d.ptp p).path, (d.ptp p).reqAt with
    | some path, some at_ =>
      let v := meanPath path (stamp - at_ + d.rdi 32 (ptpIdx p) 5)
      (d.wr (ptpIdx p) 8 v).wr 0x2200 5 v
    | _, _ => d

def execPtpDelayRespReceived (t port : Nat) (stamp : Int) (s : State) : Host.Outcome State Fault Refusal :=
  onCurator t (·.ptpDelayResp port stamp) s

/-- PTP_DELAY_REQ_RECEIVED: a master port answers with a Delay_Resp that carries the corrected timestamp (R257, R259). -/
def execPtpDelayReqReceived (t port : Nat) (mac : Int) (fec : Nat) (req : List Byte) (s : State) :
    Host.Outcome State Fault Refusal :=
  onCurator t (fun d =>
    if d.ptpState port = 6 ∧ port < 10 then
      d.sendAny port "ptp-delay-resp" (req ++ stampBytes (d.rxStamp port mac fec))
    else d) s

/-- The data set a master port announces: the parent's while a parent is selected, otherwise the
device's own; traceability is cleared in HOLDOVER and EXCURSION (R258). -/
def Dev.announced (d : Dev) : Announce :=
  let a := if d.rd 0x2200 7 = 0xFF then d.ownDataSet
    else match d.time.parent with
      | some a => { a with steps := a.steps + 1 }
      | none => d.ownDataSet
  let clear := d.timeState == 4 || d.timeState == 5
  { a with flags := if clear then setBit (setBit a.flags 4 false) 5 false else a.flags }

/-- An Announce as its fields in order. -/
def annBytes (a : Announce) : List Byte :=
  leBytes 1 a.domain ++ beBytes 2 a.flags ++ leBytes 1 a.p1 ++ leBytes 1 a.cls ++
    leBytes 1 a.accuracy ++ beBytes 2 a.variance ++ leBytes 1 a.p2 ++ a.gm ++ beBytes 2 a.steps ++
    leBytes 1 a.timeSource ++ a.tlv

/-- PTP_MESSAGE_INTERVAL: a master port sends two-step Sync or Announce, the slave port Delay_Req
(R257, R258). `mac`: the MAC's timestamp in ps of an event message. -/
def Dev.ptpInterval (d : Dev) (p : Nat) (m : PtpMsg) (mac : Int) : Dev :=
  match m with
  | .sync =>
    if d.ptpState p = 6 then
      ((d.ptpCount p 4).sendAny p "ptp-sync" []).sendAny p "ptp-follow-up" (stampBytes (d.txStamp p mac))
    else d
  | .announce =>
    if d.ptpState p = 6 then
      { (d.ptpCount p 5).sendAny p "ptp-announce" (annBytes d.announced) with fresh := d.fresh + 3 }
    else d
  | .delayReq =>
    if d.ptpState p = 9 then
      ((d.ptpCount p 2).setPtp p { d.ptp p with reqAt := some (d.txStamp p mac) }).sendAny p
        (if d.rdb (ptpIdx p) 6 then "ptp-delay-req-unicast" else "ptp-delay-req") []
    else d

def execPtpMessageInterval (t port : Nat) (msg : PtpMsg) (mac : Int) (s : State) :
    Host.Outcome State Fault Refusal :=
  onCurator t (fun d => if port < 10 then d.ptpInterval port msg mac else d) s

/-! ### A step -/

/-- The first instant from `at_` on that a tick of wing `w` falls at (R32). -/
def Dev.tickInstantFrom (d : Dev) (w at_ : Nat) : Nat := d.tickTime w (d.tickFrom w at_)

/-- An instant restated after a step. -/
def shiftTime (delta : Int) (t : Nat) : Nat := ((t : Int) + delta).toNat

/-- The same of a field that is 0 where it holds no instant. -/
def shiftSome (delta : Int) (t : Nat) : Nat := if t = 0 then 0 else shiftTime delta t

def Q.shift (delta : Int) (q : Q) : Q := ⟨((q.n : Int) + delta * q.d).toNat, q.d⟩

/-- The entries of a table changed one by one. -/
def tabMap {α : Type} (f : α → α) (t : Tab α) : Tab α := t.map fun e => (e.1, f e.2)

def Comp.restate (delta : Int) (c : Comp) : Comp :=
  { c with
    selAt := shiftSome delta c.selAt, due := shiftSome delta c.due
    readyAt := c.readyAt.map fun e => (e.1, shiftSome delta e.2) }

def Raster.restate (delta : Int) (r : Raster) : Raster :=
  let t := shiftTime delta
  { r with start := t r.start, s0 := t r.s0, base := t r.base, doneAt := shiftSome delta r.doneAt }

def EncRt.restate (delta : Int) (x : EncRt) : EncRt :=
  { x with
    from_ := shiftSome delta x.from_, t0 := x.t0.shift delta, t0Old := x.t0Old.shift delta
    lastDue := x.lastDue.shift delta, psiAt := x.psiAt.map (shiftTime delta)
    pcrAt := x.pcrAt.map (shiftTime delta)
    pics := x.pics.map fun p => { p with
      ts := p.ts.shift delta, rows := p.rows.map fun r => { r with u := r.u.shift delta } } }

def SourceRt.restate (delta : Int) (x : SourceRt) : SourceRt :=
  let t := shiftTime delta
  { x with
    droppedAt := shiftSome delta x.droppedAt, policedAt := x.policedAt.map t
    rateA := x.rateA.map fun e => (t e.1, e.2), rateB := x.rateB.map fun e => (t e.1, e.2)
    vrxA := (x.vrxA.1, shiftSome delta x.vrxA.2), vrxB := (x.vrxB.1, shiftSome delta x.vrxB.2)
    lastA := x.lastA.map t, lastB := x.lastB.map t
    frames := x.frames.map fun f => { f with first := t f.first }
    units := x.units.map fun f => { f with first := t f.first } }

def Surf.restate (delta : Int) (x : Surf) : Surf :=
  { x with
    contacts := x.contacts.map fun c => { c with since := shiftSome delta c.since }
    elems := tabMap (fun e => { e with since := shiftSome delta e.since }) x.elems }

/-- The instants of the dictionary's and the transports' timers, restated (log entry 41). -/
def Dev.restateHost (d : Dev) (delta : Int) : Dev :=
  let t := shiftTime delta
  let z := shiftSome delta
  { d with
    sessions := tabMap (·.map fun x => { x with openedAt := t x.openedAt, lastValid := t x.lastValid }) d.sessions
    authFails := tabMap (·.map t) d.authFails, blocked := tabMap z d.blocked
    tpdos := tabMap (fun e => (e.1, z e.2)) d.tpdos, emcyAt := d.emcyAt.map t
    longOps := tabMap (fun x => { x with lastProgress := z x.lastProgress }) d.longOps
    joinRepeats := d.joinRepeats.map fun r => { r with due := t r.due }
    launched := tabMap (·.map fun e => (t e.1, e.2)) d.launched, pps := { d.pps with until_ := z d.pps.until_ }
    -- the newest record is one of the former time: the next edge makes a record of its own
    evts := tabMap (fun x => { x with since := z x.since, mergeFrom := z x.mergeFrom, resumed := true }) d.evts }

/-- The instants of the picture, audio and touch units, restated. -/
def Dev.restateMedia (d : Dev) (delta : Int) : Dev :=
  let t := shiftTime delta
  let z := shiftSome delta
  { d with
    sources := tabMap (·.restate delta) d.sources
    decs := tabMap (fun x => { x with
      pics := x.pics.map fun p => { p with first := t p.first }
      ahead := x.ahead.map fun h => { h with at_ := t h.at_ } }) d.decs
    layerComps := d.layerComps.map (·.restate delta)
    outputs := tabMap (fun x => { x with comps := x.comps.map (·.restate delta), entry := x.entry.map (·.restate delta) }) d.outputs
    shelfIdle := tabMap z d.shelfIdle
    dps := tabMap (fun x => { x with failedAt := z x.failedAt, busyAt := z x.busyAt }) d.dps
    encs := tabMap (·.restate delta) d.encs
    aud := { d.aud with
      zeroAt := tabMap z d.aud.zeroAt
      ports := tabMap (fun x => { x with told := x.told.map t }) d.aud.ports
      ins := tabMap (fun x => { x with last := z x.last }) d.aud.ins }
    touch := { d.touch with
      lostAt := z d.touch.lostAt, startAt := z d.touch.startAt, endAt := z d.touch.endAt
      nodes := tabMap (fun x => { x with since := z x.since }) d.touch.nodes
      surfs := tabMap (·.restate delta) d.touch.surfs } }

/-- The instants of memory, pair, ring, calibration and power, restated. -/
def Dev.restateUnits (d : Dev) (delta : Int) : Dev :=
  let t := shiftTime delta
  let z := shiftSome delta
  let x := d.dup
  let p := d.pwr
  { d with
    pcs := tabMap (fun x => { x with queue := x.queue.map fun q => { q with at_ := t q.at_ } }) d.pcs
    hbms := tabMap (fun x => { x with lately := x.lately.map t, told := z x.told, rowAt := z x.rowAt }) d.hbms
    parts := tabMap (fun x => { x with asked := z x.asked }) d.parts
    dup := { x with
      takeInAt := z x.takeInAt, claimAt := z x.claimAt, edgeAt := z x.edgeAt, beatFrom := z x.beatFrom
      own := x.own.map fun e => (e.1, t e.2), theirs := x.theirs.map fun e => (e.1, t e.2)
      inDiv := tabMap (fun e => (e.1.map t, z e.2)) x.inDiv }
    ring := { d.ring with
      sides := tabMap (fun x => { x with failedAt := z x.failedAt, late := x.late.map t, told := z x.told, slotAt := 0 })
        d.ring.sides
      tx := tabMap (fun x => { x with since := z x.since }) d.ring.tx
      urgent := (d.ring.urgent.1, z d.ring.urgent.2) }
    cal := { d.cal with itemAt := z d.cal.itemAt, groups := tabMap (fun e => (z e.1, e.2)) d.cal.groups }
    pwr := { p with
      releasedAt := z p.releasedAt, enteredAt := z p.enteredAt, coolFrom := z p.coolFrom
      wake := p.wake.map fun w => { w with began := t w.began, stepAt := t w.stepAt } } }

/-- A step's effect on an output: the active lines in progress complete; the next raster frame is black
and starts at least 1 ms later (R264). -/
def Dev.outStep (d : Dev) (delta : Int) (o : Nat) : Dev :=
  if !d.outOn o then d
  else
    let x := d.out o
    let r := x.raster.map (·.restate delta)
    let activeEnd := match r, d.timing o with
      | some r, some tm => r.start + d.lines o (tm.top + tm.va)
      | _, _ => 0
    d.setOut o { x with raster := r, hold := max activeEnd (d.now + 1000000), blackNext := true }

/-- Steps the time base by `delta` (R260, R264). -/
def Dev.timeStep (d : Dev) (delta : Int) : Dev :=
  let gen := (d.rd 0x2200 0x0A + 1) % 2 ^ 32
  let x := d.time
  let d := { d with now := shiftTime delta d.now
                    time := { x with
                      samples := x.samples.map (· + delta), rhoAt := shiftTime delta x.rhoAt
                      ports := tabMap (fun y => { y with
                        annAt := shiftSome delta y.annAt, syncAt := shiftSome delta y.syncAt
                        path := y.path.map (· + 1000 * delta), reqAt := y.reqAt.map (· + 1000 * delta) }) x.ports } }
  let d := ((d.restateHost delta).restateMedia delta).restateUnits delta
  let d := ((d.wr 0x2200 0x0A gen).wr 0x2200 8 ((d.rd 0x2200 8 + 1) % 2 ^ 32)).wr 0x2200 9
    (ofSigned 64 delta)
  let d := foldNat (fun d w =>
    d.setWing w { d.wing w with raised := false, quietUntil := d.tickInstantFrom w (d.now + 1000000) }) 4 d
  let d := foldNat (fun d o => d.outStep delta o) 128 d
  let d := foldNat Dev.encRestart 16 d
  let d := d.launchStep.audStep
  d.raise uTime 0x0B03 (offsetUs delta) gen sevInfo

/-- Steps by Δ = −(filtered offset), to LOCKING (R260). -/
def Dev.stepNow (d : Dev) : Dev :=
  let f := d.offset
  let d := d.timeStep (-f)
  (d.wr 0x2200 3 0).setTimeState 2

/-! ### Samples -/

/-- A new rate adjustment of the servo: nothing fixes it but its limits of ±10 ppm and of 0.1 ppm per
second (R255, R261). -/
def Dev.servo (d : Dev) : Dev :=
  let (v, d) := d.free
  let old := d.rdi 32 0x2200 4
  let room : Int := ((d.now - d.time.rhoAt) * 65536 / 10000000000 : Nat)
  let want : Int := (v % 1310721 : Nat) - 655360
  let new := max (max (-655360) (old - room)) (min (min 655360 (old + room)) want)
  { d.wr 0x2200 4 (ofSigned 32 new) with time := { d.time with rhoAt := d.now } }

/-- EXCURSION begins, with TIME_EXCURSION (R262). -/
def Dev.beginExcursion (d : Dev) : Dev :=
  let f := d.offset
  let id := leNat ((d.rdd 0x2200 6).reverse.take 4)
  (d.setTimeState 5).raise uTime 0x0B02 (offsetUs f) id sevService

/-- What a sample does to the counts of consecutive filtered offsets. -/
def TimeRt.counts (x : TimeRt) (f : Int) : TimeRt :=
  let a := f.natAbs
  { x with good := if a ≤ 1000 then x.good + 1 else 0
           bad := if 1000 < a then x.bad + 1 else 0
           calm := if a ≤ 1000000 then x.calm + 1 else 0 }

/-- An offset sample of the slave port (Table 11.2, R260 to R262). -/
def Dev.sample (d : Dev) (offset : Int) : Dev :=
  let x := d.time
  let xs := (x.samples ++ [offset])
  let xs := xs.drop (xs.length - 8)
  let f := filteredOffset xs
  let first := x.newParent
  let d := { d with time := ({ x with samples := xs, newParent := false, taken := x.taken + 1 }.counts f) }
  let d := d.wr 0x2200 3 (ofSigned 64 f)
  let far := decide (1000000 < f.natAbs)
  match d.timeState with
  | 0 => if far then d.beginExcursion else d.setTimeState 2
  | 1 => if 16 ≤ d.time.taken then d.stepNow else d
  | 2 =>
    if far then d.beginExcursion
    else if 16 ≤ d.time.good then d.servo.setTimeState 3
    else d.servo
  | 3 =>
    if far then d.beginExcursion
    else if 16 ≤ d.time.bad then d.servo.setTimeState 2
    else d.servo
  | 4 => if !first then d else if far then d.beginExcursion else d.setTimeState 2
  | _ =>
    if 16 ≤ d.time.calm then d.setTimeState 2
    else if d.time.slewing then d.servo
    else d

/-- PTP_SYNC_RECEIVED: a Sync exchange on the slave port gives an offset sample (R259, R260). -/
def execPtpSyncReceived (t port : Nat) (m : PtpSync) (s : State) : Host.Outcome State Fault Refusal :=
  onCurator t (fun d =>
    if d.ptpState port = 9 ∧ port < 10 then
      ((d.ptpCount port 0).setPtp port { d.ptp port with syncAt := d.now, path := some (d.syncPath port m) }).sample
        (d.syncOffset port m)
    else d) s

/-! ### Time commands -/

/-- Whether the state accepts a time command (Table 11.3). -/
def Dev.timeAccepts (d : Dev) (cmd : Nat) : Bool :=
  d.timeState == 5 || (cmd == 1 && (d.timeState == 2 || d.timeState == 3))

/-- A time command acts; a device whose state does not accept it ignores it (R263). -/
def Dev.timeAct (d : Dev) (cmd : Nat) : Dev :=
  if !d.timeAccepts cmd then d.raise uTime 0x0B07 cmd d.timeState sevInfo
  else if cmd = 1 then d.stepNow
  else { d with time := { d.time with slewing := cmd == 2 } }

/-- A time command written to 0x2200:0B (R263). -/
def Dev.timeCommand (d : Dev) (by_ : Requester) (cmd : Nat) : Res :=
  d.commandPre by_ 0x2200 0x0B [BitVec.ofNat 8 cmd]
    (if d.timeAccepts cmd then stOk else stWrongState) fun d => (d.timeAct cmd).res stOk

/-- TIME_RESTEP: steps by the filtered offset (Table 11.3). -/
def execTimeRestep (t : Nat) (by_ : Requester) (s : State) : Host.Outcome State Fault Refusal :=
  onCommand t by_ (fun d => d.timeCommand by_ 1) s

/-- TIME_SLEW: the servo resumes in EXCURSION (Table 11.3). -/
def execTimeSlew (t : Nat) (by_ : Requester) (s : State) : Host.Outcome State Fault Refusal :=
  onCommand t by_ (fun d => d.timeCommand by_ 2) s

/-- TIME_HOLD: the rate adjustment stays (Table 11.3). -/
def execTimeHold (t : Nat) (by_ : Requester) (s : State) : Host.Outcome State Fault Refusal :=
  onCommand t by_ (fun d => d.timeCommand by_ 3) s

end Sys2Proof.Machine
end

