-- ==== Sys2Proof/Machine/Touch.lean ====
section
/-! DEFINITION. Console touch sensing (R289 to R302). -/
namespace Sys2Proof.Machine

/-! ### Surfaces and nodes -/

def surfIdx (k : Nat) : Nat := 0x3701 + k
def reportIdx (k : Nat) : Nat := 0x3711 + k

def Dev.surf (d : Dev) (k : Nat) : Surf := Tab.getD d.touch.surfs k {}

def Dev.setSurf (d : Dev) (k : Nat) (x : Surf) : Dev :=
  { d with touch := { d.touch with surfs := Tab.setD d.touch.surfs k x {} } }

/-- State of a surface: 0 DISABLED, 1 ACQUIRING, 2 RUNNING (0x3701+k:0F). -/
def Dev.surfState (d : Dev) (k : Nat) : Nat := d.rd (surfIdx k) 0x0F

/-- Enters a surface state, with TOUCH_STATE. -/
def Dev.setSurfState (d : Dev) (k st : Nat) : Dev :=
  if d.surfState k = st then d else (d.wr (surfIdx k) 0x0F st).event uTouch 0x0D01 k st

/-- Counts in field `f` of 0x3701+k:11. -/
def Dev.touchCount (d : Dev) (k f n : Nat) : Dev := d.addf (surfIdx k) 0x11 f n 4

/-- The nodes of a surface, drive-major and relative to it. -/
def Dev.surfNodes (d : Dev) (k : Nat) : List (Nat × Nat) :=
  (List.range (d.rd (surfIdx k) 4)).flatMap fun a =>
    (List.range (d.rd (surfIdx k) 6)).map fun b => (a, b)

/-- The key of a surface's node: drive × 48 + sense. -/
def Dev.nodeKey (d : Dev) (k : Nat) (n : Nat × Nat) : Nat :=
  (d.rd (surfIdx k) 3 + n.1) * 48 + d.rd (surfIdx k) 5 + n.2

def Dev.node (d : Dev) (key : Nat) : TNode := Tab.getD d.touch.nodes key {}

def Dev.setNode (d : Dev) (key : Nat) (n : TNode) : Dev :=
  { d with touch := { d.touch with nodes := Tab.setD d.touch.nodes key n {} } }

/-- The delta of a surface's node. -/
def Dev.delta (d : Dev) (k : Nat) (n : Nat × Nat) : Int := (d.node (d.nodeKey k n)).delta

/-- Scans per tick at a rate code (Table 13.1). -/
def scansPerTick (code : Nat) : Nat := if code ≤ 4 then 8 else if code ≤ 8 then 4 else 2

/-- The divisor N of the baseline's movement (R295). -/
def Dev.baseDivisor (d : Dev) (k : Nat) : Nat :=
  let c := d.rate (d.rd 0x3700 1)
  max 1 (roundNear (d.rd (surfIdx k) 0x0A * scansPerTick c * periodDen c) (1000 * periodNum c))

/-! ### Trims (R294, R408, R414) -/

/-- The frequency points of the front-end trims in Hz with their places among the values: those of Table 13.2 and four
more (R408). -/
def trimPoints : List (Nat × Nat) :=
  [(12500, 8), (25000, 9), (50000, 10), (100000, 11), (200000, 0), (225000, 1), (250000, 2), (275000, 3), (300000, 4),
   (350000, 5), (400000, 6), (450000, 7)]

/-- A trim at a frequency of `n` / `den` Hz: interpolated linearly between the two nearest points, that of the end point
outside them (R408). -/
def trimAt (v : Nat → Int) (n den : Nat) : List (Nat × Nat) → Int
  | [] => 0
  | [p] => v p.2
  | p :: q :: r =>
    if n ≤ p.1 * den then v p.2
    else if n ≤ q.1 * den then
      v p.2 + freeRound ((v q.2 - v p.2) * ((n : Int) - (p.1 * den : Nat))) ((q.1 - p.1) * den)
    else trimAt v n den (q :: r)

/-- A sense channel's count normalised by its trims at the drive frequency (R294). -/
def normCount (vals : List Int) (drive : Nat × Nat) (sense : Nat) : Nat :=
  let at_ := fun k => trimAt (fun p => vals.getD (2 * p + k) 0) drive.1 drive.2 trimPoints
  Config.touchCount (at_ 0) (at_ 1) sense % 65536

/-- A node's normalised count in the latest scan. -/
def Dev.rawCount (d : Dev) (key sense : Nat) : Nat := normCount (d.calInst 7 (key % 48)).values d.touch.drive sense

/-! ### Acquisition -/

/-- A surface starts to acquire (R296). -/
def Dev.acquire (d : Dev) (k : Nat) : Dev :=
  let d := (d.surfNodes k).foldl (fun d n => d.setNode (d.nodeKey k n) {}) d
  (d.setSurf k { d.surf k with acq := 32, contacts := [], large := [] }).setSurfState k 1

/-- A surface's disable applies. -/
def Dev.surfOff (d : Dev) (k : Nat) : Dev := (d.setSurf k {}).setSurfState k 0

/-- The end of acquisition: baselines are the means; a node whose reference exceeds its baseline by the
touch threshold is flagged (R296). -/
def Dev.acquired (d : Dev) (k : Nat) : Dev :=
  let thr := d.rd (surfIdx k) 7
  let d := (d.surfNodes k).foldl (fun d n =>
    let key := d.nodeKey k n
    let x := d.node key
    let ref := Tab.getD d.touch.ref key 0
    let base := x.sum * 8
    d.setNode key { x with base := base, st := 0, delta := 0
                           flagged := ref != 0 && decide ((base : Int) + thr * 256 ≤ (ref - 1 : Nat) * 256) }) d
  let f := ((d.surfNodes k).filter fun n => (d.node (d.nodeKey k n)).flagged).length
  let d := d.setSurfState k 2
  if f = 0 then d else d.raise uTouch 0x0D02 k f sevInfo

/-! ### Nodes in a scan -/

/-- A node's raw count in a scan (Table 13.3, R295, R297): the new node, and whether it is an
anti-touch. -/
def TNode.scan (n : TNode) (raw now thr rel neg divisor : Nat) (rebase : Bool) : TNode × Bool :=
  let n := { n with raw := raw }
  if rebase then ({ n with base := raw * 256, st := 0, delta := 0 }, false)
  else
    let dl : Int := (n.base / 256 : Nat) - raw
    let n := { n with delta := dl }
    let n := if n.st ≠ 0 ∧ dl < rel then { n with st := 0 } else n
    if n.st ≠ 0 then (n, false)
    else if dl ≥ thr then ({ n with st := 1, since := now }, false)
    else if dl ≤ -(neg : Int) then
      ({ n with base := raw * 256, delta := 0, flagged := false }, true)
    else
      ({ n with base := ((n.base : Int) + freeRound ((raw * 256 : Nat) - (n.base : Int)) divisor).toNat },
       false)

/-- The nodes of a surface in a scan, with ANTI_TOUCH (R294 to R297). -/
def Dev.scanNodes (d : Dev) (k : Nat) (sense : Nat → Nat) (rebase : Bool) : Dev :=
  let i := surfIdx k
  let n := d.baseDivisor k
  (d.surfNodes k).foldl (fun d q =>
    let key := d.nodeKey k q
    let (x, anti) := (d.node key).scan (d.rawCount key (sense key)) d.now (d.rd i 7) (d.rd i 8) (d.rd i 9) n rebase
    let d := d.setNode key { x with sense := sense key }
    if anti then
      ((d.touchCount k 1 1).raise uTouch 0x0D03 k (key / 48 * 256 + key % 48) sevInfo)
    else d) d

/-- Nodes of a touch that has reached the stuck time enter LONG (R298). -/
def Dev.nodesLong (d : Dev) (k : Nat) (ns : List (Nat × Nat)) : Dev :=
  ns.foldl (fun d q =>
    let key := d.nodeKey k q
    let x := d.node key
    if x.st = 1 then d.setNode key { x with st := 2 } else d) d

/-- Nodes touched for the stuck time enter LONG (Table 13.3). -/
def Dev.stuckNodes (d : Dev) (k : Nat) : Dev :=
  let t := d.rd (surfIdx k) 0x0B * 1000000000
  d.nodesLong k ((d.surfNodes k).filter fun q => decide ((d.node (d.nodeKey k q)).since + t ≤ d.now))

/-! ### Control surfaces -/

/-- Element `e` of a surface's table: kind and nodes. -/
def Dev.element (d : Dev) (k e : Nat) : Nat × List (Nat × Nat) :=
  let b := slice (d.rdd (surfIdx k) 0x0D) (36 * e) 36
  (byteAt b 0, (List.range (byteAt b 1)).map fun j => (byteAt b (4 + 2 * j), byteAt b (5 + 2 * j)))

/-- Number of elements of a surface. -/
def Dev.elementCount (d : Dev) (k : Nat) : Nat := (d.rdd (surfIdx k) 0x0D).length / 36

/-- The position of the largest value, the first of equals. -/
def peakOf (ds : List Int) : Nat :=
  (List.range ds.length).foldl (fun p j => if ds.getD p 0 < ds.getD j 0 then j else p) 0

/-- Division of integers to the nearest. -/
def roundInt (a : Int) (b : Nat) : Int := (2 * a + b) / (2 * b : Nat)

/-- The position of a slider or wheel (R300). -/
def elementPos (wheel : Bool) (ds : List Int) (p : Nat) : Nat :=
  let n := ds.length
  let at_ := fun j => max 0 (ds.getD j 0)
  let prev := if wheel then at_ ((p + n - 1) % n) else at_ (p - 1)
  let next := if wheel then at_ ((p + 1) % n) else at_ (min (p + 1) (n - 1))
  let sum := prev + at_ p + next
  let num := (p : Int) * sum + (next - prev)
  if sum ≤ 0 then 0
  else if wheel then (roundInt (1024 * num) (sum.toNat * n) % 1024).toNat
  else clampTo 1023 (roundInt (1023 * num) (sum.toNat * (n - 1)))

/-- An element in a scan (R298, R300, R301). -/
def Dev.scanElement (d : Dev) (k e : Nat) : Dev :=
  let i := surfIdx k
  let (kind, ns) := d.element k e
  let ds := ns.map (d.delta k)
  let p := peakOf ds
  let v := if kind = 0 then ds.foldl (· + ·) 0 else ds.getD p 0
  let x := d.surf k
  let el := Tab.getD x.elems e {}
  let store := fun (d : Dev) (el : TElem) =>
    let el := if el.st ≠ 0 ∧ kind ≠ 0 then { el with pos := elementPos (kind == 2) ds p } else el
    let d := d.setSurf k { d.surf k with elems := Tab.setD (d.surf k).elems e el {} }
    d.wr (reportIdx k) (0x10 + e) (el.st * 2 ^ 30 + el.presses * 2 ^ 16 + el.pos)
  if el.st = 0 then
    if v ≥ d.rd i 7 then
      store (d.touchCount k 0 1) { el with st := 1, presses := (el.presses + 1) % 256, since := d.now }
    else store d el
  else if v < d.rd i 8 then store d { el with st := 0 }
  else if el.st = 1 ∧ el.since + d.rd i 0x0B * 1000000000 ≤ d.now then
    store (((d.nodesLong k ns).touchCount k 2 1).raise uTouch 0x0D04 k e sevInfo) { el with st := 2 }
  else store d el

/-! ### Panels -/

/-- Nodes next to each other along one line. -/
def adjacent (a b : Nat × Nat) : Bool :=
  (a.1 == b.1 && (a.2 + 1 == b.2 || b.2 + 1 == a.2)) ||
    (a.2 == b.2 && (a.1 + 1 == b.1 || b.1 + 1 == a.1))

/-- A group grown by the nodes connected to it, and the nodes that are left. -/
def growGroup : Nat → List (Nat × Nat) → List (Nat × Nat) →
    List (Nat × Nat) × List (Nat × Nat)
  | 0, g, r => (g, r)
  | f + 1, g, r =>
    let near := r.filter fun x => g.any (adjacent x)
    if near.isEmpty then (g, r) else growGroup f (g ++ near) (r.filter fun x => !g.any (adjacent x))

/-- The 4-connected groups of a list of nodes (R302). -/
def groupsOf : Nat → List (Nat × Nat) → List (List (Nat × Nat))
  | 0, _ => []
  | _, [] => []
  | f + 1, x :: r =>
    let (g, r') := growGroup r.length [x] r
    g :: groupsOf f r'

/-- The contact of a group: the delta-weighted centroid of the 3 × 3 nodes around its peak (R302). -/
def Dev.groupContact (d : Dev) (k : Nat) (g : List (Nat × Nat)) : Contact :=
  let p := g.getD (peakOf (g.map (d.delta k))) (0, 0)
  let around := (d.surfNodes k).filter fun n =>
    decide (n.1 ≤ p.1 + 1) && decide (p.1 ≤ n.1 + 1) && decide (n.2 ≤ p.2 + 1) &&
      decide (p.2 ≤ n.2 + 1)
  let w := fun n => max 0 (d.delta k n)
  let sum := around.foldl (fun a n => a + w n) 0
  let mean := fun (f : Nat × Nat → Nat) =>
    (freeRound (64 * around.foldl (fun a n => a + w n * f n) 0) sum.toNat).toNat
  { id := 0, x := mean (·.2), y := mean (·.1), peak := clampTo 65535 (d.delta k p), since := d.now
    nodes := g }

/-- Square of the distance of two contacts. -/
def Contact.dist (a b : Contact) : Nat :=
  let dx : Int := (a.x : Int) - b.x
  let dy : Int := (a.y : Int) - b.y
  (dx * dx + dy * dy).toNat

/-- Matches contacts with groups, the nearest pairs first, within 4 node pitches (R302): pairs of an old
identifier and a group's position. -/
def matchContacts (old new : List Contact) : List (Nat × Nat) :=
  let pairs := old.flatMap fun a => (List.range new.length).filterMap fun j =>
    match new[j]? with
    | some b => if a.dist b < 65536 then some (a.dist b, a.id, j) else none
    | none => none
  let sorted := pairs.mergeSort fun a b => decide (a.1 ≤ b.1)
  sorted.foldl (fun acc p =>
    if acc.any fun q => q.1 == p.2.1 || q.2 == p.2.2 then acc else acc ++ [(p.2.1, p.2.2)]) []

/-- A contact's report word (Table 13.6). -/
def Contact.word (c : Contact) : Nat :=
  c.id * 2 ^ 56 + (c.isNew.toNat + 2 * c.isLong.toNat + 4 * c.ended.toNat + 8 * c.rejected.toNat) * 2 ^ 48 +
    c.peak * 2 ^ 32 + c.y % 65536 * 65536 + c.x % 65536

/-- Whether two groups share a node. -/
def overlap (a b : List (Nat × Nat)) : Bool := a.any b.contains

/-- A panel in a scan (R298, R302). -/
def Dev.scanPanel (d : Dev) (k : Nat) : Dev :=
  let i := surfIdx k
  let hot := (d.surfNodes k).filter fun n => decide ((d.delta k n) ≥ d.rd i 7)
  let gs := groupsOf hot.length hot
  let isLarge := fun (g : List (Nat × Nat)) => decide (d.rd i 0x0C < g.length)
  let large := gs.filter isLarge
  let new := (gs.filter fun g => !isLarge g).map (d.groupContact k)
  let old := (d.surf k).contacts.filter fun c => !c.ended
  let rejected := old.filter fun c => large.any (overlap c.nodes)
  let old := old.filter fun c => !large.any (overlap c.nodes)
  let ms := matchContacts old new
  let kept := ms.filterMap fun m =>
    match old.find? (·.id == m.1), new[m.2]? with
    | some a, some b => some { b with id := a.id, since := a.since, isNew := false, isLong := a.isLong }
    | _, _ => none
  let ended := (old.filter fun c => !ms.any fun m => m.1 == c.id).map fun c =>
    { c with ended := true, isNew := false }
  let ended := ended ++ rejected.map fun c => { c with ended := true, rejected := true, isNew := false }
  let fresh := (List.range new.length).filter fun j => !ms.any fun m => m.2 == j
  let used := (kept ++ ended).map (·.id)
  let ids := (List.range 10).filter fun id => !used.contains id
  let born := (fresh.zip ids).filterMap fun p => new[p.1]?.map fun c => { c with id := p.2 }
  let d := (d.touchCount k 0 born.length).touchCount k 4 (fresh.length - ids.length)
  -- long contacts
  let due := fun (c : Contact) => !c.isLong && decide (c.since + d.rd i 0x0B * 1000000000 ≤ d.now)
  let d := (kept.filter due).foldl (fun d c =>
    ((d.nodesLong k c.nodes).touchCount k 2 1).raise uTouch 0x0D04 k (0x100 + c.id) sevInfo) d
  let kept := kept.map fun c => if due c then { c with isLong := true } else c
  -- large objects
  let d := (large.filter fun g => !(d.surf k).large.any (overlap g)).foldl (fun d g =>
    (d.touchCount k 3 1).event uTouch 0x0D05 k g.length) d
  let cs := kept ++ ended ++ born
  let d := d.setSurf k { d.surf k with contacts := cs, large := large }
  foldNat (fun d id =>
    d.wr (reportIdx k) (3 + id) (match cs.find? (·.id == id) with
      | some c => c.word
      | none => 0xFF * 2 ^ 56)) 10 d

/-! ### A scan -/

/-- The nodes of the enabled surfaces. -/
def Dev.touchNodes (d : Dev) : Nat :=
  (List.range 8).foldl (fun a k =>
    if d.rdb (surfIdx k) 1 then a + d.rd (surfIdx k) 4 * d.rd (surfIdx k) 6 else a) 0

/-- Whether the configuration asks for quiet mode (R291). -/
def Dev.wantsQuiet (d : Dev) : Bool := d.rd 0x3700 2 != 0xFF && decide (d.touchNodes ≤ 256)

/-- The noise mode from the next scan on: hopping while the head is DISABLED, with SYNC_LOST; quiet again
from the first start of blanking after it is enabled (R292). -/
def Dev.touchMode (d : Dev) : Dev :=
  let o := d.rd 0x3700 2
  let x := d.touch
  let set := fun (d : Dev) q => (d.wr 0x3700 4 (if q then 0 else 1)).wr 0x3700 5
    (if q then 0xFF else d.touch.freq)
  if !d.wantsQuiet then set { d with touch := { x with lostAt := 0 } } false
  else if !d.outOn o then
    if x.lostAt ≠ 0 then set d false
    else (set { d with touch := { x with lostAt := d.now + 1 } } false).raise uTouch 0x0D06 o 1
      sevDegraded
  else if x.lostAt = 0 then set d true
  else if x.lostAt ≤ ofTime48 (fieldAt (d.rdd (outIdx o) 0x11) 0 10) then
    (set { d with touch := { x with lostAt := 0 } } true).event uTouch 0x0D06 o 0
  else set d false

/-- Whether scans run: a surface is enabled and the reference wing raises ticks (R290). -/
def Dev.touchRuns (d : Dev) : Bool :=
  !d.bankHeld 5 && (List.range 8).any (fun k => d.rdb (surfIdx k) 1) &&
    decide ((d.wing (d.rd 0x3700 1)).quietUntil ≤ d.now) && !(d.wing (d.rd 0x3700 1)).stopped

/-- The trims of some sense channels take effect: the baselines of their nodes move by the change in count that they
cause, so that deltas stay (R414). -/
def Dev.applyTrims (d : Dev) : Dev :=
  let cs := d.cal.trimmed
  let d : Dev := { d with cal := { d.cal with trimmed := [] } }
  cs.foldl (fun d c =>
    (List.range 32).foldl (fun d r =>
      let key := r * 48 + c.1
      let x := d.node key
      let moved : Int := d.rawCount key x.sense - (normCount c.2 d.touch.drive x.sense : Nat)
      if x = {} then d else d.setNode key { x with base := ((x.base : Int) + 256 * moved).toNat }) d) d

/-! #### When scans run (R290, R292, R293) -/

/-- The hopping frequencies in Hz (Table 13.2). -/
def hopHz (f : Nat) : Nat := [200000, 225000, 250000, 275000, 300000, 350000, 400000, 450000].getD f 200000

/-- The line time of the quiet-sync head. -/
def Dev.quietLine (d : Dev) : Q :=
  let o := d.rd 0x3700 2
  match d.timing o with
  | some tm => lineTime tm (d.rd (outIdx o) 3)
  | none => ⟨0, 1⟩

/-- Starts of scans near now: `n` in each tick of the reference wing from its T+0, or in each raster frame of the head
from its start of blanking. -/
def Dev.scanGrid (d : Dev) (quiet : Bool) : List Q :=
  let ref := d.rd 0x3700 1
  let n := scansPerTick (d.rate ref)
  let o := d.rd 0x3700 2
  let w := if quiet then outWing o else ref
  let off : Q := if quiet then
      match d.timing o with
      | some tm => d.quietLine.mul (d.rd (outIdx o) 4 + tm.top + tm.va)
      | none => ⟨0, 1⟩
    else ⟨0, 1⟩
  let p : Q := ⟨periodNum (d.rate w) * 1000000000, periodDen (d.rate w) * n⟩
  let k := d.tickOf w d.now
  ([k - 2, k - 1, k, k + 1].eraseDups).flatMap fun j =>
    (List.range n).map fun i => ((d.tickExact w j).add off).add (p.mul i)

/-- Whether a scan starts now, in the mode that applies to it, and none has started at this instant. -/
def Dev.scanDue (d : Dev) : Bool :=
  (d.scanGrid (d.touchMode.rd 0x3700 4 == 0)).any (·.near 1 (Q.ofNat d.now)) &&
    (d.touch.startAt == 0 || decide (d.touch.startAt + 2 ≤ d.now))

/-- Drive lines of the enabled surfaces (R290). -/
def Dev.driveLines (d : Dev) : Nat :=
  ((List.range 32).filter fun l => (List.range 8).any fun k => d.rdb (surfIdx k) 1 &&
    decide (d.rd (surfIdx k) 3 ≤ l) && decide (l < d.rd (surfIdx k) 3 + d.rd (surfIdx k) 4)).length

/-- A scan starts in the mode in force: its drive frequency, and its end, after every drive line's pulses and, when
hopping, a listen slot of 16 periods. -/
def Dev.scanTimes (d : Dev) : Dev :=
  let x := d.touch
  if d.rd 0x3700 4 = 0 then
    let span := d.quietLine.mul (2 * d.rd 0x3700 3 * d.driveLines)
    { d with touch := { x with startAt := d.now + 1, endAt := d.now + ceilDiv span.n span.d
                               drive := (1000000000 * d.quietLine.d, 2 * d.quietLine.n) } }
  else
    { d with touch := { x with
        startAt := d.now + 1, drive := (hopHz x.freq, 1)
        endAt := d.now + ceilDiv (16 * d.driveLines * 1000000000) (hopHz x.freq) +
          ceilDiv (16 * 1000000000) (hopHz (x.listen % 8)) } }

/-- TOUCH_SCAN: a scan starts. A hop, a change of noise mode and waiting re-baselines take effect (R292,
R293, R299). -/
def Dev.touchScan (d : Dev) : Dev :=
  if !d.touchRuns ∨ !d.scanDue then d
  else
    let x := d.touch
    let d := if x.hopTo = 0 then d
      else { d.wr 0x3700 0x0A ((d.rd 0x3700 0x0A + 1) % 2 ^ 32) with
        touch := { x with freq := x.hopTo - 1, hopTo := 0, beyond := 0, hopAt := d.rd 0x3700 9 + 1 } }
    let d := d.touchMode.scanTimes.applyTrims
    let d := foldNat (fun d k =>
      let y := d.surf k
      d.setSurf k { y with rebaseNow := y.rebase, rebase := false }) 8 d
    { d with touch := { d.touch with scanning := true } }

def execTouchScan (t : Nat) (s : State) : Host.Outcome State Fault Refusal :=
  onDev t (·.touchScan) s

/-- The noise of a frequency (0x3700:06). -/
def Dev.noise (d : Dev) (f : Nat) : Nat := d.rdf 0x3700 6 f

/-- A listen slot's measurement, and whether the block hops at the next scan (R293). -/
def Dev.touchListen (d : Dev) (noise : Nat) : Dev :=
  if d.rd 0x3700 4 = 0 then d
  else
    let x := d.touch
    let f := x.listen % 8
    let scan := d.rd 0x3700 9
    let d := d.wrf 0x3700 6 f (noise % 65536)
    let beyond := if f = x.freq then (if d.rd 0x3700 7 < noise then x.beyond + 1 else 0) else x.beyond
    let heard := Tab.setD x.heard f (scan + 1) 0
    let fit := (List.range 8).filter fun g =>
      g != x.freq && Tab.getD heard g 0 != 0 && decide (scan < Tab.getD heard g 0 + 8) &&
        decide (2 * d.noise g ≤ d.noise x.freq)
    let best := fit.foldl (fun b g => match b with
      | none => some g
      | some h => if d.noise g < d.noise h then some g else some h) none
    let rested := x.hopAt = 0 || decide (x.hopAt - 1 + 8 ≤ scan)
    let hop := if 2 ≤ beyond ∧ rested then (match best with | some g => g + 1 | none => 0) else 0
    { d with touch := { x with listen := (f + 1) % 8, heard := heard, beyond := beyond, hopTo := hop } }

/-- A surface at the end of a scan (R294 to R302). -/
def Dev.scanSurface (d : Dev) (k : Nat) (sense : Nat → Nat) : Dev :=
  let x := d.surf k
  let d :=
    if d.surfState k ≠ 1 then d
    else
      let d := (d.surfNodes k).foldl (fun d n =>
        let key := d.nodeKey k n
        let y := d.node key
        let raw := d.rawCount key (sense key)
        d.setNode key { y with raw := raw, sum := y.sum + raw, sense := sense key }) d
      let d := d.setSurf k { x with acq := x.acq - 1 }
      if x.acq ≤ 1 then d.acquired k else d
  if d.surfState k ≠ 2 then d
  else
    let d := if x.rebaseNow then d.touchCount k 5 1 else d
    let d := (d.scanNodes k sense x.rebaseNow).stuckNodes k
    let d := d.setSurf k { d.surf k with rebaseNow := false }
    let d := if d.rd (surfIdx k) 2 = 1 then d.scanPanel k
      else foldNat (fun d e => d.scanElement k e) (d.elementCount k) d
    let flagged := (d.surfNodes k).any fun n => (d.node (d.nodeKey k n)).flagged
    (d.wr (reportIdx k) 1 (d.rd 0x3700 9 % 2 ^ 32)).wr (reportIdx k) 2
      (flagged.toNat + 2 * (!(d.surf k).large.isEmpty).toNat)

/-- TOUCH_REPORT: a scan has ended and the reports of the surfaces are written. `raw`: the sense counts by node key, before
the trims; `listen`: the peak-to-peak sense value of the listen slot (R293, R294). -/
def Dev.touchReport (d : Dev) (raw : List (Nat × Nat)) (listen : Nat) : Dev :=
  if !d.touch.scanning ∨ d.now < d.touch.endAt then d
  else
    let d := { d with touch := { d.touch with scanning := false } }
    let d := d.wr 0x3700 9 ((d.rd 0x3700 9 + 1) % 2 ^ 64)
    let d := d.touchListen listen
    let val := fun key => ((raw.find? fun e => e.1 == key).map (·.2 % 65536)).getD 0
    foldNat (fun d k => if d.rdb (surfIdx k) 1 then d.scanSurface k val else d) 8 d

def execTouchReport (t : Nat) (raw : List (Nat × Nat)) (listen : Nat) (s : State) :
    Host.Outcome State Fault Refusal :=
  onDev t (·.touchReport raw listen) s

/-- What a re-baseline refuses (R299). -/
def Dev.rebaseStatus (d : Dev) (k : Nat) : Nat := if d.surfState k = 1 then stWrongState else stOk

/-- TOUCH_REBASELINE: 1 written to 0x3701+k:0E; it waits for the next scan (R299). -/
def execTouchRebaseline (t : Nat) (by_ : Requester) (sf : Nat) (s : State) :
    Host.Outcome State Fault Refusal :=
  onCommand t by_ (fun d =>
    d.commandPre by_ (surfIdx sf) 0x0E [1] (d.rebaseStatus sf) fun d =>
      (d.setSurf sf { d.surf sf with rebase := true }).res stOk) s

/-- Node data of a surface (0x3701+k:10). -/
def Dev.nodeBytes (d : Dev) (k : Nat) : List Byte :=
  (d.surfNodes k).flatMap fun n =>
    let x := d.node (d.nodeKey k n)
    leBytes 2 x.raw ++ leBytes 2 (x.base / 256) ++
      leBytes 2 (ofSigned 16 (max (-32768) (min 32767 x.delta))) ++
      leBytes 1 (x.st + (if x.flagged then 128 else 0)) ++ [0]

end Sys2Proof.Machine
end

