-- ==== Sys2Proof/Machine/Admit.lean ====
section
/-! DEFINITION. Admission: what a configuration demands of every resource of Table 2.2, and whether
it fits (R38 to R43, R52). -/
namespace Sys2Proof.Machine

/-! ### Exact sums -/

/-- A quotient in lowest terms. -/
def Q.norm (a : Q) : Q :=
  let g := Nat.gcd a.n a.d
  if g = 0 then ⟨0, 1⟩ else ⟨a.n / g, a.d / g⟩

def Q.plus (a b : Q) : Q := (a.add b).norm

/-- A quotient times `n / m`. -/
def Q.scale (a : Q) (n m : Nat) : Q := ⟨a.n * n, a.d * m⟩

/-- A demand on an instance of a resource class, per second or, for memory, in bytes. Class 4 names an
HBM device here, whose traffic its 8 groups share equally (Table 2.2). -/
structure Dem where
  cls : Nat
  inst : Nat
  q : Q
  deriving DecidableEq, Repr

/-- Frames or ticks per second at a rate code (Table 2.1). -/
def fps (code : Nat) : Q := ⟨periodDen code, periodNum code⟩

/-- Bytes per second between a wing and an HBM device: the device's groups and the wing's home or remote
link (Table 2.2, R27). -/
def traffic (w m : Nat) (q : Q) : List Dem :=
  [⟨4, m, q⟩, ⟨5, 2 * w + (if m = w / 2 then 0 else 1), q⟩]

/-- Bytes allocated on an HBM device. -/
def held (m bytes : Nat) : Dem := ⟨8, m, ⟨bytes, 1⟩⟩

/-- Overhead bytes per packet of a port (R116). -/
def Dev.packetOver (d : Dev) (port : Nat) : Nat := if d.rd (netIdx port) 6 = 0 then 86 else 90

/-! ### Intake and decoders -/

/-- Declared bits per second of a source's leg on a port (R116). -/
def Dev.legBits (d : Dev) (n port : Nat) : Q :=
  let i := srcIdx n
  let pay := d.rd i 0x19
  let h := d.packetOver port
  if d.rd i 3 = 1 then
    (fps (d.rd i 7)).mul (d.framePackets n * (pay + h) * 8)
  else ⟨d.rd i 0x1A * 1000 * (pay + h), pay⟩

/-- Bytes of a frame of a source, before rounding (R100). -/
def Dev.srcRawBytes (d : Dev) (n : Nat) : Nat :=
  let i := srcIdx n
  frameBytes (d.rd i 5) (d.rd i 6) (d.rd i 8) (d.rd i 9)

/-- What an enabled source demands (R116). -/
def Dev.srcDems (d : Dev) (n : Nat) : List Dem :=
  if !d.srcOn n then []
  else
    let i := srcIdx n
    let w := d.srcWing n
    let legs := (d.srcLegs n).flatMap fun b =>
      let p := (d.leg n b).port
      let q := d.legBits n p
      [⟨6, 2 * p, q⟩, ⟨6, 16 + w, q⟩]
    let frames : List Dem :=
      if d.rd i 3 = 1 then traffic w (w / 2) ((fps (d.rd i 7)).mul (d.srcRawBytes n)) else []
    legs ++ frames ++ [held (w / 2) (d.rd i 0x0C * d.srcFrameBytes n)]

/-- Whether a batch replaces the pool of a source that stays enabled: a change of format, depth, transport
or owning wing (R111). -/
def Dev.poolChanges (old new : Dev) (n : Nat) : Bool :=
  old.srcOn n && new.srcOn n &&
    [2, 3, 5, 6, 8, 9, 0x0C].any fun s => old.rd (srcIdx n) s != new.rd (srcIdx n) s

/-- The frame of the old format that a pool change keeps (R111), and a held frame of a configuration
that no longer stands (R111, R174). -/
def Dev.oldPoolDems (old new : Dev) (n : Nat) : List Dem :=
  (if Dev.poolChanges old new n then [held (old.srcWing n / 2) (old.srcFrameBytes n)] else []) ++
    match (new.src n).held with
    | none => []
    | some b =>
      match (new.src n).buf b with
      | some x => if x.old then [held (new.srcWing n / 2) x.bytes] else []
      | none => []

/-- Bytes of a native picture of a decoder session for its source (R130). -/
def Dev.nativeBytes (d : Dev) (n : Nat) : Nat :=
  let i := srcIdx n
  let c := if d.rd i 8 = 0 then 2 else 3
  let s := if d.rd i 9 = 8 then 1 else 2
  round4k (d.rd i 5 * d.rd i 6 * c * s)

/-- The sources of transports 2 to 5 that name a session (R123). -/
def Dev.namers (d : Dev) (k : Nat) : List Nat :=
  (List.range 256).filter fun n =>
    d.srcOn n && d.rd (srcIdx n) 3 != 1 && d.rd (srcIdx n) 0x1B == k

/-- What an enabled decoder session demands (R129, R130). -/
def Dev.decDems (d : Dev) (k : Nat) : List Dem :=
  if !d.rdb (decIdx k) 1 then []
  else
    let w := k / 32
    (d.namers k).flatMap fun n =>
      let i := srcIdx n
      let r := fps (d.rd i 7)
      let nb := d.nativeBytes n
      let perPic := r.mul (2 * nb + d.srcRawBytes n)
      let stream : Q := ⟨2 * d.rd i 0x1A * 1000, 8⟩
      [⟨3, w, r.mul (d.rd i 5 * d.rd i 6)⟩,
        held (w / 2) (d.rd (decIdx k) 5 * 1024 + (d.rd (decIdx k) 6 + 1) * nb)] ++
        traffic w (w / 2) (perPic.plus stream)

/-! ### Composition -/

/-- Cost of an operation in leaf-cycles per output pixel, by op code (Table 2.3). -/
def opCost (op : Nat) : Nat := [0, 24, 112, 28, 80, 32, 20, 16, 8, 12, 22].getD op 0

/-- The rows and the width that a descriptor produces in its target, and its cost (R41, R150). -/
structure Span where
  cost : Nat
  w : Nat
  y : Nat
  h : Nat

/-- The clipped destination of a FETCH: x, width, y, height. -/
def fetchRect (w h : Nat) (f : Desc) : Nat × Nat × Nat × Nat :=
  let (dx, dy) := f.place.getD (toSigned 16 (f.hi 4), toSigned 16 (f.lo 4))
  let (x, cw) := clipSpan dx (f.hi 5) 0 w
  let (y, ch) := clipSpan dy (f.lo 5) 0 h
  (x, cw, y, ch)

/-- The spans of a list of descriptors on a target of `w` × `h` pixels. -/
def spansOf (w h : Nat) (ds : List Desc) : List Span :=
  (ds.foldl (fun (a : Tab (Nat × Nat × Nat) × List Span) e =>
    let c := opCost e.op
    if e.op = 1 then
      let (_, cw, y, ch) := fetchRect w h e
      (Tab.insert a.1 e.plane (cw, y, ch), a.2 ++ [⟨c, cw, y, ch⟩])
    else if e.op = 7 ∨ e.op = 8 ∨ e.op = 10 then (a.1, a.2 ++ [⟨c, w, 0, h⟩])
    else if e.op = 9 then
      let (_, cw) := clipSpan (e.hi 2) (e.hi 3) 0 w
      let (y, ch) := clipSpan (e.lo 2) (e.lo 3) 0 h
      (a.1, a.2 ++ [⟨c, cw, y, ch⟩])
    else
      let (cw, y, ch) := Tab.getD a.1 e.plane (0, 0, 0)
      (a.1, a.2 ++ [⟨c, cw, y, ch⟩])) ([], [])).2

/-- Leaf-cycles of the rows `a` to `a + n - 1` of a target. -/
def rowsCost (ss : List Span) (a n : Nat) : Nat :=
  ss.foldl (fun t s => t + s.cost * s.w * (clipSpan s.y s.h a n).2) 0

/-- The bay demand of a target of `h` rows, per second (R40, R41, R152). -/
def bayDems (w mask h : Nat) (ss : List Span) (r : Q) : List Dem :=
  (jobsOf mask (bandCount h)).map fun j =>
    let a := 16 * j.2.1
    ⟨1, 8 * w + j.1, r.mul (rowsCost ss a (min (16 * (j.2.1 + j.2.2)) h - a))⟩

/-- The bytes that a FETCH reads in each run, counted over the part of its destination that is
composed (log entry 18), and the HBM device that holds them. -/
def Dev.fetchBytes (d : Dev) (w h : Nat) (f : Desc) : Option (Nat × Q) :=
  let num := f.word 1 % 65536
  let (_, cw, _, ch) := fetchRect w h f
  let area := f.hi 5 * f.lo 5
  let px := f.hi 3 * f.lo 3
  if area = 0 then none
  else match f.word 1 / 2 ^ 30 with
    | 0 =>
      let i := srcIdx num
      let b : Q := if is422 (d.rd i 8) (d.rd i 9) then ⟨8, 3⟩ else ⟨6, 1⟩
      some (d.srcWing num / 2, b.scale (px * cw * ch) area)
    | 1 => some (d.layWing num / 2, (Q.ofNat (fmtBytes (d.rd (layIdx num) 0x15))).scale (px * cw * ch) area)
    | _ => none

/-- The memory traffic of the FETCHes of a list that wing `w0` composes. -/
def Dev.fetchDems (d : Dev) (w0 w h : Nat) (ds : List Desc) (r : Q) : List Dem :=
  (ds.filter (·.op == 1)).flatMap fun f =>
    match d.fetchBytes w h f with
    | some (m, q) => traffic w0 m ((r.scale q.n q.d).norm)
    | none => []

/-- The descriptors an output composes (R149, R150). -/
def Dev.outDescs (d : Dev) (o : Nat) : List Desc :=
  match d.outputJob o with
  | some j => d.jobDescs j
  | none => d.genList o

/-- The packets per second and bytes per packet of an IP output's leg, as bits per second (R212). -/
def Dev.ipBits (d : Dev) (o port : Nat) : Q :=
  let i := outIdx o
  let (w, h) := d.outSize o
  let pg := pgroup (d.rd i 0x2A) (d.rd i 0x0C)
  let pay := d.rd i 0x29
  (fps (d.rd i 3)).mul (h * linePackets w pay pg.1 pg.2 * (pay + d.packetOver port) * 8)

/-- What an enabled output demands: its composition (R41, R150, R152), its buffers (R155), scan-out and
its packets (R212). For the tick of a mask change, a Racing output's bays count both divisions (R154). -/
def Dev.outDems (old d : Dev) (o : Nat) : List Dem :=
  if !d.outOn o then []
  else
    let i := outIdx o
    let w := outWing o
    let (aw, ah) := d.outSize o
    let r := fps (d.rate w)
    let ds := d.outDescs o
    let ss := spansOf aw ah ds
    let bytes := d.outBytes o
    let bufs := d.bufCount o
    let masks := if old.outOn o ∧ d.racing o ∧ old.rd i 8 ≠ d.rd i 8 then [old.rd i 8, d.rd i 8]
      else [d.rd i 8]
    masks.flatMap (fun m => bayDems w m ah ss r) ++ d.fetchDems w aw ah ds r ++
      traffic w (w / 2) (r.mul (2 * bytes)) ++ [held (w / 2) (bufs * round4k bytes)] ++
      (if o < 64 then []
       else (if d.rdb i 0x23 then [0x20, 0x24] else [0x20]).map fun s =>
        ⟨6, 2 * d.rd i s + 1, d.ipBits o (d.rd i s)⟩)

/-- Whether a batch changes the slots of an enabled layer (R137). -/
def Dev.slotsChange (old new : Dev) (l : Nat) : Bool :=
  old.rdb (layIdx l) 1 && new.rdb (layIdx l) 1 &&
    [2, 3, 0x15, 0x16, 0x17, 0x18, 0x1B].any fun s => old.rd (layIdx l) s != new.rd (layIdx l) s

/-- The slots of an enabled graphics layer (R137). -/
def Dev.slotDem (d : Dev) (l : Nat) : List Dem :=
  if d.rdb (layIdx l) 1 ∧ d.rd (layIdx l) 2 = 1 then
    [held (d.layWing l / 2) (d.rd (layIdx l) 0x18 * (d.slotGeom l).2)]
  else []

/-- The enabled job list that draws a graphics layer (R151). -/
def Dev.writerOf (d : Dev) (l : Nat) : Option Nat :=
  let j := d.rd (layIdx l) 0x1C
  if d.rdb (layIdx l) 1 ∧ d.rd (layIdx l) 2 = 1 ∧ d.rd (layIdx l) 0x1B = 1 ∧ j < 256 ∧
      d.rdb (0x4000 + j) 2 ∧ d.jobTarget j = (1, l) then some j else none

/-- What a layer demands: its slots, for a change the old ones too, and its writer job list. -/
def Dev.layDems (old d : Dev) (l : Nat) : List Dem :=
  let job := match d.writerOf l with
    | none => []
    | some j =>
      let w := d.layWing l
      let (lw, lh) := (d.rd (layIdx l) 0x16, d.rd (layIdx l) 0x17)
      let ds := d.jobDescs j
      let r := fps (d.rate w)
      bayDems w (d.rd (0x4000 + j) 3) lh (spansOf lw lh ds) r ++ d.fetchDems w lw lh ds r ++
        traffic w (w / 2) (r.mul (lw * lh * fmtBytes (d.rd (layIdx l) 0x15)))
  d.slotDem l ++ (if Dev.slotsChange old d l then old.slotDem l else []) ++ job

/-- The home memory of a job list: of the wing that runs it. -/
def Dev.jobHome (d : Dev) (j : Nat) : Nat :=
  let t := d.jobTarget j
  (if t.1 = 0 then outWing (t.2 % 128) else d.layWing (t.2 % 512)) / 2

/-- The memory of a job list's content (Table 2.2). -/
def Dev.jobDems (d : Dev) (j : Nat) : List Dem :=
  match d.rdd (0x4000 + j) 1 with
  | [] => []
  | b => [held (d.jobHome j) b.length]

/-! ### Encoders, audio, check-value units -/

/-- Codec factor, and effort factor in sevenths and thirds as a quotient (Table 2.2). -/
def effortFactor (e : Nat) : Q :=
  match e with
  | 2 => ⟨8, 7⟩
  | 3 => ⟨4, 3⟩
  | 4 => ⟨2, 1⟩
  | _ => ⟨1, 1⟩

/-- Bytes of an encoder picture buffer (R228). -/
def Dev.encBufBytes (d : Dev) (c : Nat) : Nat :=
  let i := encIdx c
  let s := ctuSize (d.rd i 2)
  let area := ceilDiv (d.rd i 0x0A) s * s * (ceilDiv (d.rd i 0x0B) s * s)
  round4k (if d.rd i 2 = 1 ∧ d.rd i 3 = 2 then ceilDiv (area * 35) 12 else area * 2 + area / 4)

/-- The input bytes of a picture, each part with the HBM device that holds it (R228). -/
def Dev.encInBytes (d : Dev) (c : Nat) : List (Nat × Nat) :=
  let i := encIdx c
  let n := d.rd i 7
  match d.rd i 6 with
  | 0 => [(outWing n / 2, d.outBytes n)]
  | 1 =>
    let hs := d.heads n
    match hs with
    | [] => []
    | h0 :: _ =>
      let b := fmtBytes (d.rd (outIdx h0.1) 0x0C)
      let part := fun h : Nat × Nat × Nat =>
        let (w, hh) := d.outSize h.1
        (clipSpan (d.rd i 8) (d.rd i 0x0A) h.2.1 w).2 * (clipSpan (d.rd i 9) (d.rd i 0x0B) h.2.2 hh).2
      let parts := hs.map fun h => (outWing h.1 / 2, part h * b)
      let rest := d.rd i 0x0A * d.rd i 0x0B * b - parts.foldl (fun t p => t + p.2) 0
      parts ++ [(outWing h0.1 / 2, rest)]
  | _ => [(d.srcWing n / 2, d.srcRawBytes n)]

/-- Bits per second that a channel sends on a port (R233). -/
def Dev.encBits (d : Dev) (c port : Nat) : Q :=
  let i := encIdx c
  let h := if d.rd (netIdx port) 6 = 0 then 78 else 82
  if d.rd i 0x11 = 1 then ⟨d.rd i 0x12 * 1000 * (1316 + h), 1316⟩
  else ⟨d.rd i 0x10 * 1000 * (d.rd i 0x1E + h), d.rd i 0x1E⟩

/-- What an enabled encoder channel demands (R227, R228, R233). For the tick of a rate change, each leg
counts the higher of the old and the new rate (R251). -/
def Dev.encDems (old d : Dev) (c : Nat) : List Dem :=
  if !d.rdb (encIdx c) 1 then []
  else
    let i := encIdx c
    let w := encWing c
    let r := fps (d.rate w)
    let f := effortFactor (d.rd 0x2020 (w + 1))
    let px := d.rd i 0x0A * d.rd i 0x0B * (if d.rd i 2 = 2 then 2 else 1)
    let buf := d.encBufBytes c
    let inputs := (d.encInBytes c).flatMap fun p => traffic w p.1 (r.mul p.2)
    let own := (r.mul (2 * buf)).plus ⟨2 * d.rd i 0x10 * 1000, 8⟩
    let legs := (d.encLegs c).map fun s =>
      let p := d.rd i s
      let new := d.encBits c p
      let before := old.encBits c p
      (⟨6, 2 * p + 1, if old.rdb i 1 ∧ new.le before then before else new⟩ : Dem)
    [⟨2, w, (r.mul px).scale f.n f.d⟩, held (w / 2) (3 * buf + 4 * 2 ^ 20)] ++ inputs ++
      traffic w (w / 2) own ++ legs

/-- Bits per second of an audio stream's packets on a port (R288). -/
def Dev.audBits (d : Dev) (i port : Nat) : Q :=
  let hz := audHz (d.rd i 9)
  let m := audPerPacket hz (d.rd i 0x0B)
  let pay := m * d.rd i 0x0A * audSampleBytes (d.rd i 8)
  ⟨hz * (pay + d.packetOver port) * 8, m⟩

/-- What the audio streams demand, in direction 0 receive or 1 send (R288). -/
def Dev.audDems (d : Dev) : List Dem :=
  (List.range 16).flatMap (fun st =>
    (if d.rdb (recvIdx st) 1 then
      (d.audLegs st).map fun l => ⟨6, 2 * l.port, d.audBits (recvIdx st) l.port⟩ else []) ++
    (if d.rdb (sendIdx st) 1 then
      (d.rd (sendIdx st) 3 :: if d.rd (sendIdx st) 0x0E = 0xFF then []
        else [d.rd (sendIdx st) 0x0E]).map fun p => ⟨6, 2 * p + 1, d.audBits (sendIdx st) p⟩ else []))

/-- What an enabled check-value unit demands: its DMA rate on both devices and both spine links
(R405). -/
def Dev.cvuDems (d : Dev) (u : Nat) : List Dem :=
  if d.rdb (0x2410 + u) 1 then
    let q : Q := ⟨d.rd (0x2410 + u) 3 * 1000000, 1⟩
    [⟨4, 0, q⟩, ⟨4, 1, q⟩, ⟨5, 8, q⟩, ⟨5, 9, q⟩]
  else []

/-- A memory test that runs on an HBM device (R53, R316). -/
def Dev.testRuns (d : Dev) (m : Nat) : Bool :=
  (List.range 64).any fun k => d.runningKind k == 7 && (d.longOp k).arg == m

/-- Fixed demands: the rings (R288), every configured port's launches (R272), the guardian region (R332)
and the firmware region (R450), a memory test, and a snapshot from its admission (R53), and the ring's slots. -/
def Dev.fixedDems (d : Dev) : List Dem :=
  [held 0 (40 * 2 ^ 20), ⟨5, 8, ⟨250000000, 1⟩⟩, held 0 (64 * 2 ^ 20), held 0 (128 * 2 ^ 20)] ++
    ((List.range 8).filter d.portExists).map (fun p => ⟨6, 2 * p + 1, ⟨100000000, 1⟩⟩) ++
    ((List.range 2).filter d.testRuns).map (fun m => held m (64 * 2 ^ 20)) ++
    (if 1 ≤ d.rd 0x2130 3 ∧ d.rd 0x2130 3 ≤ 4 then [held 0 (64 * 2 ^ 20)] else []) ++
    (List.range 4).map (fun k => ⟨7, k, Q.ofNat (d.ringOcc.getD k 0)⟩)

/-- Every demand of a configuration; `old` is the one that stands before the batch. -/
def Dev.demands (old d : Dev) : List Dem :=
  let old := old.allRunning
  let d := d.allRunning
  (List.range 256).flatMap d.srcDems ++ (List.range 256).flatMap (Dev.oldPoolDems old d) ++
    (List.range 128).flatMap d.decDems ++ (List.range 128).flatMap (Dev.outDems old d) ++
    (List.range 512).flatMap (Dev.layDems old d) ++ (List.range 256).flatMap d.jobDems ++
    (List.range 16).flatMap (Dev.encDems old d) ++ d.audDems ++ (List.range 32).flatMap d.cvuDems ++
    d.fixedDems

/-! ### Capacities and the check -/

/-- The Tempered profile (0x2000:01). -/
def Dev.tempered (d : Dev) : Bool := d.rd 0x2000 1 == 1

/-- The capacity of an instance (Table 2.2). -/
def Dev.capacity (d : Dev) (cls inst : Nat) : Nat :=
  match cls with
  | 1 => if d.tempered then 128000000000 else 179200000000
  | 2 => if d.tempered then 3333000000 else 4444000000
  | 3 => 4444000000
  | 4 => 130560000000
  | 5 => if 8 ≤ inst then 128000000000 else if inst % 2 = 0 then 512000000000 else 256000000000
  | 6 => if 16 ≤ inst then 200000000000 else d.portGbps (inst / 2) * 1000000000
  | 7 => 256
  | 8 => 24 * 2 ^ 30
  | _ => 200

/-- The demand on an instance. -/
def demandOn (ds : List Dem) (cls inst : Nat) : Q :=
  let key := if cls = 4 then inst / 8 else inst
  let q := ds.foldl (fun a e => if e.cls = cls ∧ e.inst = key then a.plus e.q else a) (Q.ofNat 0)
  if cls = 4 then q.scale 1 8 else q

/-- Lanes of the DisplayPort ports with at least one enabled output (Table 22.11). -/
def Dev.powerLanes (d : Dev) : Nat :=
  (List.range 16).foldl (fun a p =>
    if (List.range 4).any (fun k => d.outOn (4 * p + k)) then a + d.rd (outIdx (4 * p)) 0x39
    else a) 0

/-- The estimated power in W (R467, Table 22.11). -/
def Dev.power (d : Dev) (ds : List Dem) : Q :=
  let sum := fun cls n (w : Q) => (List.range n).foldl (fun a k =>
    let x := demandOn ds cls k
    a.plus (w.scale x.n (x.d * d.capacity cls k))) (Q.ofNat 0)
  let hbm := (((demandOn ds 4 0).plus (demandOn ds 4 8)).scale 8 1)
  let recv := (List.range 8).foldl (fun a p => a.plus (demandOn ds 6 (2 * p))) (Q.ofNat 0)
  let fixed : Q := ⟨732 + (if d.bootRd 0x2110 2 ≠ 0 then 48 else 0) +
    (if d.bootRd 0x2044 1 ≠ 0 then 14 else 0), 10⟩
  ((((((fixed.plus ⟨15 * d.powerLanes, 100⟩).plus (sum 1 32 ⟨13, 10⟩)).plus (sum 2 4 ⟨75, 10⟩)).plus
    (sum 3 4 ⟨66, 10⟩)).plus (hbm.scale 38 1000000000000)).plus (recv.scale 15 1000000000000))

/-- The instances that exist, by class and then by number (Table 2.2, R52). -/
def Dev.instances (d : Dev) : List (Nat × Nat) :=
  let all := fun c n => (List.range n).map fun k => (c, k)
  all 1 32 ++ all 2 4 ++ all 3 4 ++ all 4 16 ++ all 5 10 ++
    ((all 6 16).filter fun x => d.portExists (x.2 / 2)) ++ (all 6 20).drop 16 ++
    (if d.bootRd 0x2110 2 ≠ 0 then all 7 4 else []) ++ all 8 2 ++
    (if d.tempered then [(9, 0)] else [])

/-- The demand on an instance, the estimated power included. -/
def Dev.demandAt (d : Dev) (ds : List Dem) (x : Nat × Nat) : Q :=
  if x.1 = 9 then d.power ds else demandOn ds x.1 x.2

/-- Whether a demand lies above the ceiling: 90 %, and 100 % for estimated power (R39). -/
def Dev.beyond (d : Dev) (x : Nat × Nat) (q : Q) : Bool :=
  if x.1 = 9 then decide (200 * q.d < q.n)
  else decide (d.capacity x.1 x.2 * 9 * q.d < q.n * 10)

/-- A demand in ‰ of capacity; the spec does not state its rounding. -/
def Dev.permille (d : Dev) (x : Nat × Nat) (q : Q) : Nat :=
  (freeRound (q.n * 1000 : Nat) (q.d * d.capacity x.1 x.2)).toNat

/-- A resource above its ceiling: class, instance and demand in ‰. -/
structure Excess where
  cls : Nat
  inst : Nat
  permille : Nat
  deriving DecidableEq, Repr

/-- The band check of a Racing output (R42): the bays whose band is over, by band. -/
def Dev.bandExcess (d : Dev) (o : Nat) : List Excess :=
  match d.timing o with
  | none => []
  | some tm =>
    if !d.outOn o || !d.racing o then []
    else
      let i := outIdx o
      let ss := spansOf tm.ha tm.va (d.outDescs o)
      let f := if d.tempered then 1000000000 else 1400000000
      let num1 := if periodNum (d.rd i 3) = 1 then 1 else 1000
      -- capacity of a band in leaf-cycles: 16 × f_bay × min(L, 128) × t_line
      let cap : Q := ⟨16 * f * min (d.rd i 7) 128 * tm.ht * periodNum (d.rd i 3), tm.clk * num1⟩
      (List.range (bandCount tm.va)).filterMap fun b =>
        let q := rowsCost ss (16 * b) (min 16 (tm.va - 16 * b))
        if cap.n * 9 < q * 10 * cap.d then
          some ⟨1, 8 * outWing o + (bandPlace (d.rd i 8) (bandCount tm.va) b).1,
            (freeRound (q * 1000 * cap.d : Nat) cap.n).toNat⟩
        else none

/-- The excess of the lowest instance; the earlier of two on the same. -/
def lowestExcess (es : List Excess) : Option Excess :=
  es.foldl (fun a e => match a with
    | some x => if e.inst < x.inst then some e else a
    | none => some e) none

/-- The first resource that a configuration takes above its ceiling, by class and instance (R39, R42,
R47). -/
def Dev.excess (old d : Dev) : Option Excess :=
  let ds := Dev.demands old d
  let plain := d.instances.findSome? fun x =>
    let q := d.demandAt ds x
    if d.beyond x q then some ⟨x.1, x.2, d.permille x q⟩ else none
  let band := lowestExcess ((List.range 128).flatMap d.bandExcess)
  match plain, band with
  | some p, some b => if p.cls = 1 ∧ p.inst ≤ b.inst then some p else some b
  | some p, none => some p
  | none, b => b

/-- The demand records of 0x2031 (R52). -/
def Dev.demandBytes (d : Dev) : List Byte :=
  let d := d.allRunning
  let ds := Dev.demands d d
  d.instances.flatMap fun x =>
    let q := d.permille x (d.demandAt ds x)
    leBytes 1 x.1 ++ leBytes 1 x.2 ++ leBytes 2 0 ++ leBytes 2 q ++
      leBytes 2 (max q (Tab.getD d.peak (x.1 * 256 + x.2) 0))

/-- Remembers the highest admitted demands (R52). -/
def Dev.keepPeaks (d : Dev) : Dev :=
  let c := d.allRunning
  let ds := Dev.demands c c
  c.instances.foldl (fun e x =>
    let q := c.permille x (d.demandAt ds x)
    let k := x.1 * 256 + x.2
    if Tab.getD e.peak k 0 < q then { e with peak := Tab.setD e.peak k q 0 } else e) d

/-! ### Pending batches -/

/-- The instant of a batch's named tick. -/
def Dev.batchTime (d : Dev) (b : Batch) : Nat := d.tickTime b.wing b.tick

/-- Batches by the instant of their named tick, then by acceptance. -/
def Dev.inOrder (d : Dev) (bs : List Batch) : List (Nat × Batch) :=
  (bs.map fun b => (d.batchTime b, b)).mergeSort fun a b => decide (a.1 ≤ b.1)

/-- Records of the batches of one tick together, tick by tick. -/
def byTick : List (Nat × Batch) → List (List Rec)
  | [] => []
  | [e] => [e.2.recs]
  | e :: f :: r =>
    if e.1 = f.1 then
      match byTick (f :: r) with
      | [] => [e.2.recs]
      | g :: gs => (e.2.recs ++ g) :: gs
    else e.2.recs :: byTick (f :: r)

/-- The memory demand of a device lies within the ceiling (R39). -/
def Dev.memoryHolds (old d : Dev) (m : Nat) : Bool := !d.beyond (8, m) (demandOn (Dev.demands old d) 8 m)

/-- The same in each configuration that pending batches lead to. -/
def memoryHoldsAll (m : Nat) : Dev → List (List Rec) → Bool
  | _, [] => true
  | old, g :: gs => Dev.memoryHolds old (old.setRecs g) m && memoryHoldsAll m (old.setRecs g) gs

/-- Memory that an operation asks for fits, now and at every later tick of a pending batch: it is admitted like a
batch (R43, R53). -/
def Dev.memoryFits (d : Dev) (m : Nat) : Bool :=
  Dev.memoryHolds d d m && memoryHoldsAll m d (byTick (d.inOrder d.batches))

end Sys2Proof.Machine
end

