-- ==== Sys2Proof/Machine/JobCheck.lean ====
section
/-! DEFINITION. The checks of an integrator job list (R149, Table 6.6). -/
namespace Sys2Proof.Machine

/-- A failed check: its code of Table 6.6 and the index of the failing descriptor; 0 where no descriptor
fails. -/
abbrev JobFail := Option (Nat × Nat)

/-- A check over the descriptors, from the first: the code where one fails. -/
def firstBad (code : Nat) (p : Nat → Desc → Bool) (ds : List Desc) : JobFail :=
  ((List.range ds.length).find? fun k => p k (ds.getD k { op := 0 })).map fun k => (code, k)

/-- A check of the whole list. -/
def whole (code : Nat) (bad : Bool) : JobFail := if bad then some (code, 0) else none

/-- Check 1: version, count and length. -/
def badHeader (b : List Byte) : Bool :=
  byteAt b 0 != 1 || decide (byteAt b 1 < 2) || b.length != 32 + 32 * byteAt b 1

/-- The reserved bytes of the header and the values Table 6.4's header does not define. -/
def badHeaderFields (b : List Byte) : Bool :=
  decide (1 < byteAt b 2) || byteAt b 3 != 0 || fieldAt b 6 2 != 0 || decide (63 < byteAt b 12) ||
    !allZero (slice b 13 19) || decide ((if byteAt b 2 = 0 then 127 else 511) < fieldAt b 4 2)

/-- Check 2: an unknown op code or field value, or a reserved field that is not 0 (Tables 6.4, 6.5). -/
def badFields (b : List Byte) (k : Nat) (e : Desc) : Bool :=
  let w0 := fieldAt b (32 + 32 * k) 4
  let zeroFrom := fun n => (List.range (8 - n)).any fun j => e.word (n + j) != 0
  let w1 := e.word 1
  w0 % 65536 != 0 || w0 / 2 ^ 21 % 16 != 0 ||
    match e.op with
    | 1 => w1 / 65536 % 16384 != 0 || w1 / 2 ^ 30 == 3 || zeroFrom 7 ||
        (w1 / 2 ^ 30 != 2 && e.word 6 != 0)
    | 2 => decide (255 < w1) || w1.testBit 3 || w1.testBit 7 || zeroFrom 2
    | 3 => decide (511 < w1) || decide (1 < w1 / 16 % 16) || decide (1 < w1 % 16) || zeroFrom 2
    | 4 => decide (511 < w1) || w1 / 64 % 4 != 0 || zeroFrom 2
    | 5 => zeroFrom 7
    | 6 => w1 / 2 ^ 18 != 0 || w1 / 2 ^ 13 % 8 != 0 || decide (4096 < w1 % 8192) ||
        w1 / 65536 % 4 == 3 || zeroFrom 2
    | 7 => zeroFrom 1
    | 8 => zeroFrom 1
    | 9 => decide (65535 < w1) || zeroFrom 4
    | 10 => zeroFrom 1
    | _ => true

/-- What stands open on a plane: its FETCH and the rank of its latest descriptor. -/
structure OpenPlane where
  fetch : Desc
  index : Nat
  rank : Nat := 1
  scaled : Bool := false

/-- Rank of an op within its plane (check 5). -/
def planeRank (op : Nat) : Nat := match op with
  | 2 => 2 | 3 => 3 | 4 => 4 | 5 => 5 | 6 => 6 | _ => 0

/-- Whether an op may follow a plane's latest one: ranks rise, and MATRIX stands with neither CONVERT nor
LUT. -/
def mayFollow (rank op : Nat) : Bool :=
  decide (rank < planeRank op) && !(op == 5 && (rank == 3 || rank == 4))

/-- Whether a ratio lies outside 1/16 to 16 (R140). -/
def badRatio (dest crop : Nat) : Bool := decide (dest * 16 < crop) || decide (crop * 16 < dest) ||
  crop == 0 || dest == 0

/-- Checks 4, 5, 6 and the CONVERT clause of 11, in one walk: the failure of the lowest code. -/
def planeWalk (ds : List Desc) : List (Nat × Nat) :=
  ((List.range ds.length).foldl (fun (a : Tab (Option OpenPlane) × List (Nat × Nat)) k =>
    let e := ds.getD k { op := 0 }
    let cur := Tab.getD a.1 e.plane none
    let set := fun (p : Option OpenPlane) bad => (Tab.insert a.1 e.plane p, a.2 ++ bad)
    let solid := fun (f : Desc) => f.word 1 / 2 ^ 30 == 2
    if e.op = 1 then
      let bad : List (Nat × Nat) := if cur.isSome then [(4, k)] else []
      let ratio := e.word 1 / 2 ^ 30 != 2 &&
        (badRatio (e.hi 5) (e.hi 3) || badRatio (e.lo 5) (e.lo 3))
      set (some { fetch := e, index := k }) (bad ++ if ratio then [(6, k)] else [])
    else if 2 ≤ e.op ∧ e.op ≤ 6 then
      match cur with
      | none => (a.1, a.2 ++ [(4, k)])
      | some p =>
        let order : List (Nat × Nat) := if mayFollow p.rank e.op then [] else [(5, k)]
        let one := e.op == 2 && (solid p.fetch ||
          (p.fetch.word 3 == p.fetch.word 5))
        let conv := e.op == 3 && p.fetch.word 1 / 2 ^ 30 != 0
        let p' := { p with rank := planeRank e.op, scaled := p.scaled || e.op == 2 }
        let missing := e.op == 6 && !solid p.fetch && !p'.scaled && p.fetch.word 3 != p.fetch.word 5
        let bad := order ++ (if one then [(6, k)] else []) ++ (if missing then [(6, p.index)] else []) ++
          (if conv then [(11, k)] else [])
        set (if e.op = 6 then none else some p') bad
    else a) ([], [])).2

/-- Check 7: more than 32 BLENDs, or two of one region. -/
def badBlends (ds : List Desc) : JobFail :=
  firstBad 7 (fun k e => e.op == 6 &&
    (let before := (ds.take k).filter (·.op == 6)
     decide (32 ≤ before.length) || before.any fun x => x.region == e.region)) ds

/-- Check 8: a source's FETCH without the MARK of its region after its BLEND and before DITHER. -/
def badMarks (ds : List Desc) : JobFail :=
  firstBad 8 (fun k e => e.op == 1 && e.word 1 / 2 ^ 30 == 0 &&
    (let rest := (ds.drop (k + 1)).takeWhile (·.op != 7)
     let after := (rest.dropWhile fun x => !(x.op == 6 && x.plane == e.plane)).drop 1
     !after.any fun x => x.op == 9 && x.region == e.region && x.word 1 % 256 == e.word 1 % 65536)) ds

/-- Check 9: DITHER, CHECK and WRITE once each, in that order, after the last BLEND. -/
def badTail (ds : List Desc) : Bool :=
  let tail := ds.filter fun e => e.op == 7 || e.op == 8 || e.op == 10
  let after := (ds.dropWhile fun e => e.op != 7).any (·.op == 6)
  tail.map (·.op) != [7, 8, 10] || after

/-- Size of what a FETCH reads; none where it is solid. -/
def Dev.fetchContent (d : Dev) (f : Desc) : Option (Nat × Nat) :=
  let n := f.word 1 % 65536
  match f.word 1 / 2 ^ 30 with
  | 0 => some (d.rd (srcIdx n) 5, d.rd (srcIdx n) 6)
  | 1 => some (d.rd (layIdx n) 0x16, d.rd (layIdx n) 0x17)
  | _ => none

/-- Check 10: a crop outside its content, or a destination wholly outside the target. -/
def Dev.badPlace (d : Dev) (w h : Nat) (e : Desc) : Bool :=
  e.op == 1 &&
    (let (_, cw, _, ch) := fetchRect w h e
     cw == 0 || ch == 0 ||
       match d.fetchContent e with
       | some (sw, sh) => decide (sw < e.hi 2 + e.hi 3) || decide (sh < e.lo 2 + e.lo 3)
       | none => false)

/-- Check 11: a source that is not enabled, or a layer that is not graphics. -/
def Dev.badContent (d : Dev) (e : Desc) : Bool :=
  let n := e.word 1 % 65536
  e.op == 1 && match e.word 1 / 2 ^ 30 with
    | 0 => decide (255 < n) || !d.srcOn n
    | 1 => decide (511 < n) || d.rd (layIdx n) 2 != 1
    | _ => false

/-- Check 12: MATRIX or LUT encode on a linear-light target, or LUT without encode on another. -/
def badBlendSpace (linear : Bool) (e : Desc) : Bool :=
  if linear then e.op == 5 || (e.op == 4 && (e.word 1).testBit 8)
  else e.op == 4 && !(e.word 1).testBit 8

/-- Check 13: the target. -/
def Dev.badTarget (d : Dev) (j : Nat) : Bool :=
  let t := d.jobTarget j
  let other := (List.range 256).any fun k =>
    k != j && d.rdb (0x4000 + k) 2 && d.jobTarget k == t
  other || if t.1 = 0 then !d.outOn t.2
    else !d.rdb (layIdx t.2) 1 || d.rd (layIdx t.2) 2 != 1 || d.rd (layIdx t.2) 0x1B != 1 ||
      d.rd (layIdx t.2) 0x1C != j

/-- Width, height and linear-light blend space of a job list's target. -/
def Dev.jobSize (d : Dev) (j : Nat) : Nat × Nat × Bool :=
  let t := d.jobTarget j
  if t.1 = 0 then ((d.outSize t.2).1, (d.outSize t.2).2, d.rd (outIdx t.2) 9 == 1)
  else (d.rd (layIdx t.2) 0x16, d.rd (layIdx t.2) 0x17, false)

/-- The check result of a job list: the failure of the lowest code, at its first descriptor
(Table 6.6). -/
def Dev.jobCheck (d : Dev) (j : Nat) : JobFail :=
  let b := d.rdd (0x4000 + j) 1
  if badHeader b then some (1, 0)
  else
    let ds := d.jobDescs j
    let (w, h, linear) := d.jobSize j
    let walk := planeWalk ds
    let fromWalk := fun c => walk.find? fun x => x.1 == c
    let last := ds.length - 1
    ([whole 2 (badHeaderFields b), firstBad 2 (badFields b) ds,
      firstBad 3 (fun k e => (e.last && k != last) || (k == last && (!e.last || e.op != 10))) ds,
      fromWalk 4, fromWalk 5, fromWalk 6, badBlends ds, badMarks ds, whole 9 (badTail ds),
      firstBad 10 (fun _ e => d.badPlace w h e) ds, firstBad 11 (fun _ e => d.badContent e) ds,
      fromWalk 11, firstBad 12 (fun _ e => badBlendSpace linear e) ds, whole 13 (d.badTarget j)] :
      List JobFail).findSome? id

/-- The job lists that a batch enables or whose content it changes, in number order (R149). -/
def jobsTouched (d : Dev) (recs : List Rec) : List Nat :=
  (List.range 256).filter fun j =>
    recs.any fun r => r.idx == 0x4000 + j && (r.sub == 1 || (r.sub == 2 && d.rdb (0x4000 + j) 2))

end Sys2Proof.Machine
end

