-- ==== Sys2Proof/Machine/Checks.lean ====
section
/-! DEFINITION. What refuses a batch for its values: every RANGE, WRONG_STATE, MODE_RATE and UNCOUPLED
check that a rule makes of the configuration a batch would produce. `old` is the configuration that
holds before the batch at its named tick, `new` the one it would produce. -/
namespace Sys2Proof.Machine

/-- Some number below `n` fails. -/
def anyOf (n : Nat) (p : Nat → Bool) : Bool := (List.range n).any p

/-- Some pair of numbers below `n`, the first the smaller, fails. -/
def anyPair (n : Nat) (p : Nat → Nat → Bool) : Bool := anyOf n fun b => anyOf b fun a => p a b

/-- Two spans overlap. -/
def spansMeet (a la b lb : Nat) : Bool := decide (a < b + lb) && decide (b < a + la)

/-! ### Ports and sources -/

/-- The lane plan: mode 2 for both wings of a pair, on the C2M interface (R94, Table 4.8). -/
def Dev.badLanes (d : Dev) : Bool :=
  anyOf 2 (fun k => (d.laneMode (2 * k) == 2) != (d.laneMode (2 * k + 1) == 2)) ||
    anyOf 4 fun w => d.laneMode w == 2 && d.rd 0x2037 (w + 5) != 2

/-- The ports a configuration uses: source legs, IP outputs, channels and audio streams (R95). -/
def Dev.usedPorts (d : Dev) : List Nat :=
  ((List.range 256).flatMap fun n =>
    if d.srcOn n then (d.srcLegs n).map fun b => (d.leg n b).port else []) ++
  ((List.range 64).flatMap fun k =>
    if d.outOn (64 + k) then (d.outLegs (64 + k)).map fun s => d.rd (outIdx (64 + k)) s else []) ++
  ((List.range 16).flatMap fun c =>
    if d.rdb (encIdx c) 1 then (d.encLegs c).map fun s => d.rd (encIdx c) s else []) ++
  ((List.range 16).flatMap fun st =>
    (if d.rdb (recvIdx st) 1 then (d.audLegs st).map (·.port) else []) ++
    (if d.rdb (sendIdx st) 1 then d.rd (sendIdx st) 3 ::
      (if d.rd (sendIdx st) 0x0E = 0xFF then [] else [d.rd (sendIdx st) 0x0E]) else []))

/-- A port that the lane plan does not provide is used, the in-band WDP transport included (R95). -/
def Dev.badPorts (d : Dev) : Bool :=
  d.usedPorts.any (fun p => !d.portExists p) ||
    (d.bootRd 0x2042 7 != 0xFF && !d.portExists (d.bootRd 0x2042 7))

/-- A stream that starts to send in Duplex protection lacks the service address of its destination's
family, or the service MAC address (R97). -/
def Dev.badService (old new : Dev) : Bool :=
  let bad := fun p dst => allZero (new.rdd (netIdx p) 0x0F) ||
    (if (mappedV4 dst).isSome then new.rd (netIdx p) 0x0D == 0 else allZero (new.rdd (netIdx p) 0x0E))
  let starts := fun i => new.rdb i 1 && !old.rdb i 1
  new.duplex &&
    (anyOf 64 (fun k =>
      let o := 64 + k
      starts (outIdx o) && (new.outLegs o).any fun s =>
        bad (new.rd (outIdx o) s) (new.rdd (outIdx o) (s + 1))) ||
    anyOf 16 (fun c => starts (encIdx c) && (new.encLegs c).any fun s =>
      bad (new.rd (encIdx c) s) (new.rdd (encIdx c) (s + 1))) ||
    anyOf 16 fun st => starts (sendIdx st) &&
      (bad (new.rd (sendIdx st) 3) (new.rdd (sendIdx st) 4) ||
        (new.rd (sendIdx st) 0x0E != 0xFF &&
          bad (new.rd (sendIdx st) 0x0E) (new.rdd (sendIdx st) 0x0F))))

/-- The legs of the enabled sources, with their source. -/
def Dev.allLegs (d : Dev) : List Leg :=
  (List.range 256).flatMap fun n => if d.srcOn n then (d.srcLegs n).map (d.leg n) else []

/-- A list holds some element twice. -/
def hasDup {α : Type} [DecidableEq α] : List α → Bool
  | [] => false
  | x :: r => r.contains x || hasDup r

/-- Checks of a source: a transport 5 source with ANC tokens, enabled or not (R123); and of an enabled one: class and
token (R106), strip (Table 4.6), session (R118, R123). -/
def Dev.badSource (d : Dev) (n : Nat) : Bool :=
  let i := srcIdx n
  let k := d.rd i 0x1B
  (d.rd i 3 == 5 && d.rd i 0x1C == 1) || d.srcOn n &&
    ((d.rd i 4 == 1 && d.rd i 0x1C == 0) ||
      (d.rd i 0x1C == 2 && (decide (d.rd i 5 < d.rd i 0x1E + 16) || decide (d.rd i 6 ≤ d.rd i 0x1F))) ||
      (d.rd i 3 != 1 && decide (k < 128) &&
        (k / 32 != d.srcWing n ||
          (d.rd i 8 == 2 && !(d.rd (decIdx k) 2 == 3 && d.rd (decIdx k) 3 == 2)))))

/-- An enabled session is named by no enabled source or by two (R123). A JPEG XS session has profiles 1
and 2 only, and an H.264 session a level of at most 52 (Table 5.4). -/
def Dev.badSession (d : Dev) (k : Nat) : Bool :=
  d.rdb (decIdx k) 1 &&
    ((d.namers k).length != 1 || (d.rd (decIdx k) 2 == 3 && d.rd (decIdx k) 3 == 3) ||
      (d.rd (decIdx k) 2 != 3 && decide (maxLevel (d.rd (decIdx k) 2) < d.rd (decIdx k) 4)))

/-- A held source's pool is below 3 (R174). -/
def Dev.badHold (d : Dev) (n : Nat) : Bool :=
  (d.rd 0x34F4 (n / 32 + 1)).testBit (n % 32) && decide (d.rd (srcIdx n) 0x0C < 3)

/-! ### Canvases, layers and outputs -/

/-- The checks of an enabled canvas's head list (R132, R133, R206). -/
def Dev.badCanvas (d : Dev) (c : Nat) : Bool :=
  let i := 0x3480 + c
  let hs := d.heads c
  let size := fun (h : Nat × Nat × Nat) => d.outSize h.1
  let key := fun (h : Nat × Nat × Nat) => [2, 3, 5, 6, 7].map fun s => d.rd (outIdx h.1) s
  d.rdb i 1 &&
    ((d.rdd i 4).length % 8 != 0 ||
      ((chunks 8 (d.rdd i 4)).any fun r => byteAt r 1 != 0 || fieldAt r 6 2 != 0) ||
      hs.any (fun h => decide (127 < h.1)) || hasDup (hs.map (·.1)) ||
      hs.any (fun h => decide (d.rd i 2 < h.2.1 + (size h).1) || decide (d.rd i 3 < h.2.2 + (size h).2)) ||
      (match hs with
       | [] => false
       | h0 :: r => r.any (fun h => key h != key h0) || (!r.isEmpty && d.rd (outIdx h0.1) 5 == 0)) ||
      anyPair hs.length fun a b =>
        let x := hs.getD a (0, 0, 0)
        let y := hs.getD b (0, 0, 0)
        spansMeet x.2.1 (size x).1 y.2.1 (size y).1 && spansMeet x.2.2 (size x).2 y.2.2 (size y).2)

/-- A head lies on two enabled canvases (R132). -/
def Dev.badHeads (d : Dev) : Bool :=
  hasDup ((List.range 64).flatMap fun c => if d.rdb (0x3480 + c) 1 then (d.heads c).map (·.1) else [])

/-- Checks of an enabled layer: crop (R134), ratio (R140), slot and filter numbers (Table 6.9), matrix
mode on a linear-light head (R144). -/
def Dev.badLayer (d : Dev) (l : Nat) : Bool :=
  let i := layIdx l
  let (cx, cy, cw, ch) := d.crop l
  let (w, h) := d.contentSize l
  d.rdb i 1 &&
    (decide (7 < d.rd i 0x14 % 16) || decide (7 < d.rd i 0x14 / 16) ||
      (d.rd i 2 != 2 &&
        (decide (w < cx + cw) || decide (h < cy + ch) || badRatio (d.rd i 0x0D) cw ||
          badRatio (d.rd i 0x0E) ch)) ||
      (d.rd i 2 == 1 && decide (d.rd i 0x18 ≤ d.rd i 0x19)) ||
      (d.rd i 0x11 == 1 && d.rdb (0x3480 + d.rd i 4) 1 &&
        (d.heads (d.rd i 4)).any fun hd => d.rd (outIdx hd.1) 9 == 1 &&
          (let r := d.layerRect l hd.1 hd.2.1 hd.2.2; r.2.2.1 != 0 && r.2.2.2 != 0)))

/-- A filter phase of a custom set does not sum to 4,096 (R141); a set that none has written is the copy of set 0,
which does. -/
def Dev.badFilter (d : Dev) (k : Nat) : Bool :=
  match Tab.getD d.doms (domKey (0x4840 + k) 1 0) [] with
  | [] => false
  | b => !filterSums b

/-- Two colours differ by less than 256 codes in every component (R185). -/
def tooClose (a b : Nat) : Bool :=
  anyOf 3 (fun k =>
    let x := a / 1024 ^ k % 1024
    let y := b / 1024 ^ k % 1024
    decide (x + 256 ≤ y) || decide (y + 256 ≤ x)) == false

/-- The marking colours (R185). -/
def Dev.badColours (d : Dev) (recs : List Rec) : Bool :=
  recs.any (·.idx == 0x34F2) &&
    ([(1, 2), (3, 4), (5, 6), (7, 8), (9, 0x0A), (0x0B, 0x0C), (0x0D, 0x0E), (0x10, 0x11)].any fun p =>
      tooClose (d.rd 0x34F2 p.1) (d.rd 0x34F2 p.2))

/-- Checks of an output: its timing (R190) and raster offset, and, when it is enabled, its mask (R152),
Racing lead (R181), DSC (R195), frame format and payload (R208), and regions (R135). -/
def Dev.badOutput (d : Dev) (o : Nat) : Bool :=
  let i := outIdx o
  match d.timing o with
  | none => true
  | some tm =>
    let pg := pgroup (d.rd i 0x2A) (d.rd i 0x0C)
    decide (tm.vt ≤ d.rd i 4) || (decide (o < 64) && tm.dscOnly && !d.rdb i 0x30) ||
      (decide (64 ≤ o) && (d.rd i 0x0C == 0 || d.rd i 0x29 % pg.1 != 0)) ||
      (d.outOn o &&
        (d.rd i 8 == 0 || (d.racing o && decide (d.lines o (d.rd i 7) < 110000)) ||
          decide (32 < (d.headLayers o).length)))

/-- Link rate of a code in Mb/s, and the payload share of its coding (R195). -/
def linkMbps (code : Nat) : Nat := [1620, 2700, 5400, 8100, 10000, 13500, 20000].getD code 0
def linkShare (code : Nat) : Q := if code < 4 then ⟨8, 10⟩ else ⟨128, 132⟩

/-- Bits per second of a head's stream (R195). -/
def Dev.streamBits (d : Dev) (o : Nat) : Q :=
  let i := outIdx o
  match d.timing o with
  | none => ⟨0, 1⟩
  | some tm =>
    let clk : Q := if periodNum (d.rd i 3) = 1 then ⟨tm.clk, 1⟩ else ⟨tm.clk * 1000, 1001⟩
    if d.rdb i 0x30 then clk.scale (d.rd i 0x31) 16 else clk.mul (3 * d.rd i 0x0D)

/-- The streams of a port exceed its payload capacity, or an SST port carries another output than 4p
(R195). -/
def Dev.badPort (d : Dev) (p : Nat) : Bool :=
  let i := outIdx (4 * p)
  let mst := d.rd i 0x3A == 1
  let on := ((List.range 4).map (4 * p + ·)).filter d.outOn
  let need := on.foldl (fun (a : Q) o => a.plus (d.streamBits o)) (Q.ofNat 0)
  let s := linkShare (d.rd i 0x38)
  let cap := (Q.ofNat (d.rd i 0x39 * linkMbps (d.rd i 0x38) * 1000000)).scale s.n s.d
  let cap := if mst then cap.scale 63 64 else cap
  (!mst && on.any (· != 4 * p)) || !need.le cap

/-- Members of a genlock group differ in format, rate code or raster offset, or lie on wings that are not
tick-coupled (R206). -/
def Dev.badGroup (d : Dev) (g : Nat) : Bool :=
  let ms := (List.range 128).filter fun o => d.rd (outIdx o) 5 == g + 1
  let key := fun o => [2, 3, 4].map fun s => d.rd (outIdx o) s
  match ms with
  | [] => false
  | m :: r => r.any fun o => key o != key m || !d.coupled (outWing o) (outWing m)

/-! ### Encoder channels -/

/-- Limits of a level: luma picture size, luma samples per second, and kbit/s of the Main and High
tiers. -/
structure LevelLimit where
  ps : Nat
  sr : Nat
  main : Nat
  high : Nat

/-- The limits of a level of HEVC (H.265 Table A.8, A.9) or VVC (H.266 Table A.1, A.2), which the spec
names and does not repeat (PRESUMED, log entry 19); a tier that a level does not have is none. -/
def levelLimit (codec level : Nat) : Option LevelLimit :=
  let row := fun (a b c e : Nat) => some (⟨a, b, c, e⟩ : LevelLimit)
  let step := if codec = 2 then 16 else 30
  let sub := 3
  let major := level / step
  let minor := (level % step) / sub
  if (level % step) % sub ≠ 0 then none
  else match major, minor with
    | 1, 0 => row 36864 552960 128 0
    | 2, 0 => row 122880 3686400 1500 0
    | 2, 1 => row 245760 7372800 3000 0
    | 3, 0 => row 552960 16588800 6000 0
    | 3, 1 => row 983040 33177600 10000 0
    | 4, 0 => row 2228224 66846720 12000 30000
    | 4, 1 => row 2228224 133693440 20000 50000
    | 5, 0 => row 8912896 267386880 25000 100000
    | 5, 1 => row 8912896 534773760 40000 160000
    | 5, 2 => row 8912896 1069547520 60000 240000
    | 6, 0 => if codec = 2 then row 35651584 1069547520 80000 320000
        else row 35651584 1069547520 60000 240000
    | 6, 1 => row 35651584 2139095040 120000 480000
    | 6, 2 => if codec = 2 then none else row 35651584 4278190080 240000 800000
    | _, _ => none

/-- A channel exceeds its level and tier (R220). -/
def Dev.badLevel (d : Dev) (c : Nat) : Bool :=
  let i := encIdx c
  match levelLimit (d.rd i 2) (d.rd i 4) with
  | none => true
  | some x =>
    let (w, h) := (d.rd i 0x0A, d.rd i 0x0B)
    let r := fps (d.rate (encWing c))
    let br := if d.rd i 5 = 1 then x.high else x.main
    let factor := if d.rd i 2 = 1 ∧ d.rd i 3 = 2 then 1667 else 1000
    decide (x.ps < w * h) || decide (8 * x.ps < w * w) || decide (8 * x.ps < h * h) ||
      decide (x.sr * r.d < w * h * r.n) || decide (br * factor < d.rd i 0x10 * 1000)

/-- The minimum bit rate of a channel in kbit/s (R245). -/
def Dev.minBitRate (d : Dev) (c : Nat) : Nat :=
  let i := encIdx c
  let codec := d.rd i 2
  let cols := ceilDiv (d.rd i 0x0A) (ctuSize codec)
  let n := min cols (ceilDiv cols (max (d.rd i 0x0E) 1) + 1)
  let f := sliceOverhead codec + (cols - n) * 8 + n * (if codec = 2 then 64 else 48)
  let t := d.encTrow c
  if t.n = 0 then 0 else ceilDiv (ceilDiv ((4096 + f) * t.d * 1000000000) t.n) 1000

/-- A record of an ROI table that R229 and Table 9.8 refuse, on a picture of `w` × `h`. -/
def badRoi (w h qmax : Nat) (r : List Byte) : Bool :=
  let v := byteAt r 9
  let mode := byteAt r 8
  decide (2 < mode) || fieldAt r 10 2 != 0 ||
    decide (w < fieldAt r 0 2 + fieldAt r 4 2) || decide (h < fieldAt r 2 2 + fieldAt r 6 2) ||
    (mode == 1 && decide (12 < v) && decide (v < 244)) || (mode == 2 && decide (qmax < v))

/-- Checks of a channel: QP range (Table 10.5), ROI table (R229), bit rate (R245), and, when it is enabled, its picture
(R217), level (R220), delay and offset (Table 9.7) and carriage (R232). -/
def Dev.badEncoder (d : Dev) (c : Nat) : Bool :=
  let i := encIdx c
  let codec := d.rd i 2
  let qtop := if codec = 2 then 63 else 51
  let qmax := if d.rd (rcIdx c) 2 = 0xFF then qtop else d.rd (rcIdx c) 2
  let (w, h) := (d.rd i 0x0A, d.rd i 0x0B)
  let n := d.rd i 7
  let cv := 0x3480 + n % 64
  let p := d.period (encWing c)
  let aud := d.tsAudio c
  let audBits := 1440 * aud.length
  decide (qtop < qmax) || decide (qmax < d.rd (rcIdx c) 1) ||
    (chunks 12 (d.rdd (0x3510 + c) 1)).any (badRoi w h qtop) || decide (d.rd i 0x10 < d.minBitRate c) ||
    (d.rdb i 1 &&
      (w % 2 != 0 || h % 2 != 0 || decide (h < if codec = 2 then 897 else 449) ||
        (codec == 2 && d.rd i 3 != 1) ||
        (d.rd i 6 == 0 && (decide (127 < n) || !d.outOn n || d.outSize n != (w, h))) ||
        (d.rd i 6 == 1 && (decide (63 < n) || decide (d.rd cv 2 < d.rd i 8 + w) ||
          decide (d.rd cv 3 < d.rd i 9 + h) || (d.heads n).any fun hd => d.racing hd.1)) ||
        (d.rd i 6 == 2 && (d.rd (srcIdx n) 5 != w || d.rd (srcIdx n) 6 != h)) ||
        d.badLevel c || decide (ceilDiv h (ctuSize codec) < d.rd i 0x0C) ||
        decide (p.n < d.rd i 0x0D * 16 * p.d) || d.rd i 0x1F / 64 % 4 != 0 ||
        (d.rd i 0x11 == 1 &&
          (!([2, 4, 6, 8].contains aud.length) || aud.any (fun a => decide (159 < a)) ||
            decide (d.rd i 0x12 * 182 < (d.rd i 0x10 + audBits) * 188 + 150 * 182)))))

/-! ### Audio and touch -/

/-- Checks of the audio configuration (R275, R277, R285, Table 12.6). -/
def Dev.badAudio (d : Dev) : Bool :=
  let last := fun i => d.rd i 0x0C + d.rd i 0x0A
  let wrong := fun ch rate => decide (ch < 160) &&
    (let w := d.audWriter ch; w.1 != 0 && w.2.2 != rate)
  let long := fun i => d.rd i 2 == 0 && d.rd i 0x0B == 0 &&
    decide (1440 < audPerPacket (audHz (d.rd i 9)) 0 * d.rd i 0x0A * audSampleBytes (d.rd i 8))
  anyOf 16 (fun st =>
    (d.rdb (recvIdx st) 1 && (decide (160 < last (recvIdx st)) || decide (d.rd (recvIdx st) 0x0C < 32) ||
      long (recvIdx st))) ||
    d.rd (sendIdx st) 2 != 0 ||
    (d.rdb (sendIdx st) 1 && (decide (160 < last (sendIdx st)) || long (sendIdx st) ||
      anyOf (d.rd (sendIdx st) 0x0A) fun k => wrong (d.rd (sendIdx st) 0x0C + k) (d.rd (sendIdx st) 9))) ||
    (d.rdb (audIdx st) 1 && d.rd (audIdx st) 2 == 1 &&
      (wrong (d.rd (audIdx st) 7) (d.rd (audIdx st) 3) || wrong (d.rd (audIdx st) 8) (d.rd (audIdx st) 3))) ||
    (d.rdb (encIdx st) 1 && d.rd (encIdx st) 0x11 == 1 &&
      (d.tsAudio st).any fun a => (d.audWriter a).2.2 == 1)) ||
  anyPair 16 fun a b => d.rdb (recvIdx a) 1 && d.rdb (recvIdx b) 1 &&
    spansMeet (d.rd (recvIdx a) 0x0C) (d.rd (recvIdx a) 0x0A) (d.rd (recvIdx b) 0x0C)
      (d.rd (recvIdx b) 0x0A)

/-- A surface's element table (R300). -/
def Dev.badElements (d : Dev) (k : Nat) : Bool :=
  let b := d.rdd (surfIdx k) 0x0D
  let es := (List.range (d.elementCount k)).map (d.element k)
  let least := fun kind => [1, 2, 3].getD kind 17
  b.length % 36 != 0 || (chunks 36 b).any (fun r => fieldAt r 2 2 != 0) ||
    es.any (fun e => decide (2 < e.1) || decide (e.2.length < least e.1) || decide (16 < e.2.length) ||
      e.2.any fun n => decide (d.rd (surfIdx k) 4 ≤ n.1) || decide (d.rd (surfIdx k) 6 ≤ n.2)) ||
    hasDup (es.flatMap (·.2))

/-- Checks of the touch configuration (R289, R291, R292, R300, Table 13.5). -/
def Dev.badTouch (d : Dev) : Bool :=
  let rect := fun k => (d.rd (surfIdx k) 3, d.rd (surfIdx k) 4, d.rd (surfIdx k) 5, d.rd (surfIdx k) 6)
  let o := d.rd 0x3700 2
  let w := d.rd 0x3700 1
  let c := d.rate w
  let quiet := o != 0xFF &&
    (decide (256 < d.touchNodes) || decide (63 < o) || !d.coupled (outWing o) w ||
      match d.timing o with
      | none => true
      | some tm =>
        -- drive lines × q × 2 × t_line × n > 0.9 × P, with P = V total × t_line
        decide (9 * tm.vt < 10 * d.driveLines * d.rd 0x3700 3 * 2 * scansPerTick c))
  quiet ||
    anyOf 8 (fun k =>
      let (a, na, b, nb) := rect k
      decide (d.rd (surfIdx k) 7 ≤ d.rd (surfIdx k) 8) || d.badElements k ||
        (d.rdb (surfIdx k) 1 && (decide (32 < a + na) || decide (48 < b + nb)))) ||
    anyPair 8 fun j k =>
      let (a, na, b, nb) := rect j
      let (a', na', b', nb') := rect k
      d.rdb (surfIdx j) 1 && d.rdb (surfIdx k) 1 && spansMeet a na a' na' && spansMeet b nb b' nb'

/-! ### Access catalogue, ring, power -/

/-- A rule that R327 refuses. -/
def badRule (r : List Byte) : Bool :=
  let base := fieldAt r 0 8
  let limit := fieldAt r 8 8
  let cls := fieldAt r 16 4
  base % 4096 != 0 || limit % 4096 != 4095 || decide (limit < base) || decide (2 ^ 40 ≤ limit) ||
    cls.testBit 0 || cls.testBit 2 || decide (2 ^ 17 ≤ cls) || decide (15 < byteAt r 20) ||
    decide (7 < byteAt r 21) || decide (2 < byteAt r 22) || decide (1 < byteAt r 23) ||
    !allZero (slice r 24 8)

/-- A rule set that a batch writes breaks R327. -/
def badRules (recs : List Rec) : Bool :=
  recs.any fun r => (r.idx == 0x2501 || r.idx == 0x2502) && r.sub == 1 && (chunks 32 r.data).any badRule

/-- A rule set that a batch writes is active or pending in some partition (R334). -/
def Dev.setInUse (d : Dev) (recs : List Rec) : Bool :=
  recs.any fun r => (r.idx == 0x2501 || r.idx == 0x2502) && r.sub == 1 &&
    (let s := r.idx - 0x2501
     anyOf 5 (fun k => d.rd 0x2500 (k + 1) == s) || anyOf 21 fun p =>
       let x : PartRt := Tab.getD d.parts p {}
       x.next != 0 && x.set == s)

/-- A submission of a slot that is neither CLAIMED nor CURRENT now, on an enabled graphics layer
(R162). -/
def Dev.badSubmit (now new : Dev) (recs : List Rec) : Bool :=
  recs.any fun r => decide (0x3200 ≤ r.idx) && decide (r.idx < 0x3400) && r.sub == 0x19 &&
    (let l := r.idx - 0x3200
     new.rdb r.idx 1 && new.rd r.idx 2 == 1 &&
      !(now.layer l).slots.any fun s => s.num == leNat r.data && (s.state == 1 || s.state == 2))

/-- A wing owns a port that an enabled stream uses (R426). -/
def Dev.wingPorts (d : Dev) (w : Nat) : Bool := d.usedPorts.any fun p => p / 2 == w

/-- A wing owns an enabled source, session, output, channel, graphics layer or job list (R426). -/
def Dev.wingWork (d : Dev) (w : Nat) : Bool :=
  anyOf 256 (fun n => d.srcOn n && d.srcWing n == w) ||
    anyOf 32 (fun k => d.rdb (decIdx (32 * w + k)) 1) ||
    anyOf 128 (fun o => d.outOn o && outWing o == w) || anyOf 4 (fun c => d.rdb (encIdx (4 * w + c)) 1) ||
    anyOf 512 (fun l => d.rdb (layIdx l) 1 && d.rd (layIdx l) 2 == 1 && d.layWing l == w) ||
    anyOf 256 fun j => d.rdb (0x4000 + j) 2 &&
      (let t := d.jobTarget j
       (if t.1 = 0 then outWing (t.2 % 128) else d.layWing (t.2 % 512)) == w)

/-- The resulting wing states break R426. Work that crosses wings belongs to enabled outputs or
channels of the wing. -/
def Dev.badWingStates (d : Dev) : Bool :=
  anyOf 4 fun w =>
    let st := d.rd 0x2300 (w + 1)
    st != 0 && (d.duplex || w == 0 || d.wingPorts w || (decide (2 ≤ st) && d.wingWork w))

/-- A batch needs a curator service of a wing that is in Idle (R427, Table 1.4): it changes an output, a
canvas or layer composed there, an encoder channel, or a source with a leg on a port there. -/
def Dev.needsIdleCurator (old new : Dev) (recs : List Rec) : Bool :=
  let idle := fun w => old.rd 0x2300 (w + 1) == 1 && new.rd 0x2300 (w + 1) == 1
  let canvas := fun c => (new.heads c).any fun h => idle (outWing h.1)
  recs.any fun r =>
    if 0x3400 ≤ r.idx ∧ r.idx < 0x3480 then idle (outWing (r.idx - 0x3400))
    else if 0x3480 ≤ r.idx ∧ r.idx < 0x34C0 then canvas (r.idx - 0x3480)
    else if 0x3200 ≤ r.idx ∧ r.idx < 0x3400 then canvas (new.rd r.idx 4)
    else if 0x3500 ≤ r.idx ∧ r.idx < 0x3530 then idle ((r.idx % 16) / 4)
    else if 0x3000 ≤ r.idx ∧ r.idx < 0x3100 then
      (new.srcLegs (r.idx - 0x3000)).any fun b => idle ((new.leg (r.idx - 0x3000) b).port / 2)
    else false

/-- The wings that a change of rate or phase leaves with an offset beyond P − 1 ns (Table 2.7). -/
def Dev.badPhase (d : Dev) (w : Nat) : Bool :=
  let p := d.period w
  decide (p.n < (d.phase w + 1) * p.d)

/-! ### The checks in order -/

/-- RANGE. -/
def Dev.rangeBad (old new : Dev) (recs : List Rec) : Bool :=
  anyOf 4 new.badPhase || new.badLanes || new.badPorts || Dev.badService old new ||
    anyOf 256 new.badSource || hasDup new.allLegs || anyOf 128 new.badSession || anyOf 256 new.badHold ||
    anyOf 64 new.badCanvas || new.badHeads || anyOf 512 new.badLayer || anyOf 4 new.badFilter ||
    anyOf 128 new.badOutput || anyOf 16 new.badPort || anyOf 16 new.badGroup || new.badColours recs ||
    anyOf 16 new.badEncoder || new.badAudio || new.badTouch || badRules recs ||
    (jobsTouched new recs).any (fun j => (new.jobCheck j).isSome) ||
    (new.duplex && !old.duplex && !new.pairFlows)

/-- WRONG_STATE. -/
def Dev.stateBad (now old new : Dev) (recs : List Rec) : Bool :=
  Dev.badSubmit now new recs || old.setInUse recs || new.badWingStates ||
    Dev.needsIdleCurator old new recs

/-- MODE_RATE: an enabled output's rate code is not that of its wing (R35, R190). -/
def Dev.modeRateBad (d : Dev) : Bool :=
  anyOf 128 fun o => d.outOn o && d.rd (outIdx o) 3 != d.rate (outWing o)

/-- UNCOUPLED: work crosses wings that are not tick-coupled (R21, R217). -/
def Dev.uncoupledBad (d : Dev) : Bool :=
  let apart := fun a b => a != b && !d.coupled a b
  anyOf 64 (fun c => d.rdb (0x3480 + c) 1 &&
    match d.heads c with
    | [] => false
    | h0 :: r => r.any fun h => apart (outWing h0.1) (outWing h.1)) ||
  anyOf 16 (fun c =>
    let i := encIdx c
    d.rdb i 1 &&
      ((d.rd i 6 == 0 && apart (outWing (d.rd i 7)) (encWing c)) ||
        (d.rd i 6 == 1 && (d.heads (d.rd i 7)).any fun h => apart (outWing h.1) (encWing c)))) ||
  anyOf 128 fun o => d.outOn o && (d.outDescs o).any fun e =>
    e.op == 1 && e.word 1 / 2 ^ 30 == 1 &&
      (let l := e.word 1 % 65536
       (d.writerOf l).isSome && apart (d.layWing l) (outWing o))

/-- What admission answers for a batch: a status, and the resource where it is CAPACITY. -/
structure Verdict where
  st : Nat := 0
  excess : Option Excess := none
  deriving DecidableEq, Repr

/-- The checks that follow RANGE and the state a batch finds: MODE_RATE, UNCOUPLED, CAPACITY. -/
def Dev.judgeFit (old new : Dev) : Verdict :=
  if new.modeRateBad then { st := stModeRate }
  else if new.uncoupledBad then { st := stUncoupled }
  else match Dev.excess old new with
    | some e => { st := stCapacity, excess := some e }
    | none => {}

/-- The checks of a configuration (R43, R47): RANGE, WRONG_STATE, MODE_RATE, UNCOUPLED, CAPACITY, in that
order. `now` is the device as it stands, `mine` the records of the batch, `recs` those of its tick. -/
def Dev.judge (now old new : Dev) (mine recs : List Rec) : Verdict :=
  let now := now.allRunning
  let old := old.allRunning
  let new := new.allRunning
  if Dev.rangeBad old new recs then { st := stRange }
  else if Dev.stateBad now old new mine then { st := stWrongState }
  else Dev.judgeFit old new

/-- The checks of a configuration that batches accepted before lead to: what they find in the device's state
was checked when they were admitted. -/
def Dev.judgeLater (old new : Dev) (recs : List Rec) : Verdict :=
  let old := old.allRunning
  let new := new.allRunning
  if Dev.rangeBad old new recs then { st := stRange }
  else if new.badWingStates then { st := stWrongState }
  else Dev.judgeFit old new

end Sys2Proof.Machine
end

