-- ==== Sys2Proof/Machine/Hbm.lean ====
section
/-! DEFINITION. The HBM controllers: write queues and forwarding (R306, R307), ECC
and poison (R311 to R314), candidates (R319), row disturbance (R317, R318), command-parity replay and
faults (R309, R310), refresh (R308). -/
namespace Sys2Proof.Machine

/-! ### Words, queues and forwarding -/

def Dev.setWord (d : Dev) (w v : Nat) : Dev := { d with words := Tab.setD d.words w v 0 }

/-- A queued write reaches memory: a whole word clears poison, a partial write into a poisoned word
leaves it as it is (R307, R312). -/
def applyWrite (s : Dev × Mem) (q : QWrite) : Dev × Mem :=
  let (d, mem) := s
  if q.data.length = 32 then
    let v := if (d.pc (placeOf (q.word * 32)).pc).poison then 3 else 0
    (d.setWord q.word v, mem.writeBytes (q.word * 32) q.data)
  else if d.wordState q.word ≠ 0 then (d, mem)
  else (d, mem.writeBytes (q.word * 32 + q.off) q.data)

/-- The number of a bank in its pseudo-channel, 0 to 47 (R303). -/
def bankOf (w : Nat) : Nat := (placeOf (w * 32)).bank

/-- How far a bank lies from the rotation pointer (R305). -/
def bankTurn (ptr b : Nat) : Nat := (b + 48 - ptr % 48) % 48

/-- The request that a controller serves next of those that wait, oldest first: the oldest one of the first bank at or
after the rotation pointer (R305). -/
def nextRequest (ptr : Nat) : List QWrite → Option QWrite
  | [] => none
  | q :: r => match nextRequest ptr r with
    | none => some q
    | some b => if bankTurn ptr (bankOf b.word) < bankTurn ptr (bankOf q.word) then some b else some q

/-- The order in which `n` steps of a controller serve waiting requests, and the pointer after them: behind the bank
served last (R305). -/
def issueOrder : Nat → Nat → List QWrite → List QWrite × Nat
  | 0, ptr, _ => ([], ptr)
  | n + 1, ptr, qs => match nextRequest ptr qs with
    | none => ([], ptr)
    | some q =>
      let (r, p) := issueOrder n ((bankOf q.word + 1) % 48) (qs.erase q)
      (q :: r, p)

/-- Drains the oldest queued writes of a pseudo-channel: until 16 words are left, and every write that
has waited 2 µs (R306), bank by bank as the rotation pointer says (R305). -/
def Dev.drain (d : Dev) (mem : Mem) (p : Nat) : Dev × Mem :=
  let x := d.pc p
  let n := max (x.queue.length - 16)
    (x.queue.takeWhile fun q => decide (q.at_ + 2000 ≤ d.now)).length
  let (qs, ptr) := issueOrder n x.rotate (x.queue.take n)
  qs.foldl applyWrite (d.setPcRt p { x with queue := x.queue.drop n, rotate := ptr }, mem)

/-- A read of a word is served: the rotation pointer of its pseudo-channel moves behind its bank (R305). -/
def Dev.turn (d : Dev) (w : Nat) : Dev :=
  let p := (placeOf (w * 32)).pc
  d.setPcRt p { d.pc p with rotate := (bankOf w + 1) % 48 }

/-- Empties every write queue. Reads are compared with the queues (R307), so it changes no read. -/
def Dev.drainAll (d : Dev) (mem : Mem) : Dev × Mem :=
  foldNat (fun (s : Dev × Mem) p =>
    let x := s.1.pc p
    x.queue.foldl applyWrite (s.1.setPcRt p { x with queue := [] }, s.2)) 64 (d, mem)

/-- The 32 bytes of a word as a read sees them, each from the newest queued write that covers it
(R307). -/
def Dev.wordBytes (d : Dev) (mem : Mem) (w : Nat) : List Byte :=
  (d.pc (placeOf (w * 32)).pc).queue.foldl (fun b q =>
    if q.word = w then overwrite b q.off q.data else b) (mem.readBytes (w * 32) 32)

/-- Whether queued writes cover all of a word (R312). -/
def Dev.covered (d : Dev) (w : Nat) : Bool :=
  let qs := (d.pc (placeOf (w * 32)).pc).queue.filter (·.word == w)
  (List.range 32).all fun k => qs.any fun q => decide (q.off ≤ k) && decide (k < q.off + q.data.length)

/-- A write is accepted by its controller, word by word: queued, where the 48th word starts a drain, or discarded and
counted while the pseudo-channel is out of service (R306, R310). -/
def Dev.acceptWrite (d : Dev) (mem : Mem) (w off : Nat) (data : List Byte) : Dev × Mem :=
  let p := (placeOf (w * 32)).pc
  let x := d.pc p
  if x.state ≠ 0 then (d.setPcRt p { x with discarded := x.discarded + 1 }, mem)
  else
    let d := d.setPcRt p { x with queue := x.queue ++ [⟨w, off, data, d.now⟩] }
    if 48 ≤ x.queue.length + 1 then d.drain mem p else (d, mem)

/-- Writes bytes from an address upwards, split into words. -/
def Dev.memWrite (d : Dev) (mem : Mem) (a : Nat) (data : List Byte) : Dev × Mem :=
  (List.range ((a % 32 + data.length + 31) / 32)).foldl (fun (s : Dev × Mem) k =>
    let lo := if k = 0 then a else (a / 32 + k) * 32
    let hi := min ((a / 32 + k + 1) * 32) (a + data.length)
    s.1.acceptWrite s.2 (a / 32 + k) (lo % 32) (slice data (lo - a) (hi - lo))) (d, mem)

/-! ### Errors and candidates -/

/-- Kind, pseudo-channel and requester as R314's parameter 2. -/
def memParam (kind pc req : Nat) : Nat := kind * 2 ^ 24 + pc * 2 ^ 16 + req

/-- Writes an error record (Table 14.2). `a`: the word's address. -/
def Dev.freshRecord (d : Dev) (kind a : Nat) (pl : Place) (req symbols : Nat) : Dev :=
  let i := hbmIdx (pl.pc / 32)
  let n := d.rd i 8
  let b := time48Bytes d.now ++ leBytes 5 a ++ leBytes 1 pl.pc ++ leBytes 1 pl.bank ++
    leBytes 1 kind ++ leBytes 2 pl.row ++ leBytes 2 req ++ leBytes 1 symbols ++ leBytes 1 0 ++
    leBytes 4 1 ++ leBytes 4 0
  (d.wrc i 7 (n % 16) b).wr i 8 ((n + 1) % 2 ^ 64)

/-- The slot of the ring that holds a record of a kind for a word. -/
def Dev.recordOf (d : Dev) (m kind a : Nat) : Option Nat :=
  (List.range 16).find? fun k =>
    let b := padTo 32 (d.rdc (hbmIdx m) 7 k)
    byteAt b 17 == kind && fieldAt b 10 5 == a && fieldAt b 24 4 != 0

/-- A further error in the word of a record counts in it (Table 14.2). -/
def Dev.countRecord (d : Dev) (m k : Nat) : Dev :=
  let b := padTo 32 (d.rdc (hbmIdx m) 7 k)
  d.wrc (hbmIdx m) 7 k (slice b 0 24 ++ leBytes 4 (satInc 32 (fieldAt b 24 4)) ++ slice b 28 4)

/-- Writes an error record, or counts a further uncorrectable read of the word of a record that the ring holds. -/
def Dev.errorRecord (d : Dev) (kind a : Nat) (pl : Place) (req symbols : Nat) : Dev :=
  match if kind = 2 then d.recordOf (pl.pc / 32) kind a else none with
  | some k => d.countRecord (pl.pc / 32) k
  | none => d.freshRecord kind a pl req symbols

/-- Whether two entries name one row. -/
def Cand.sameRow (c : Cand) (pl : Place) : Bool :=
  c.pc == pl.pc % 32 && c.bank == pl.bank && c.row == pl.row

/-- Replaces the entry with the lowest corrected count among those without an uncorrectable word (R319);
none where there is none. -/
def replaceLowest (cs : List Cand) (new : Cand) : Option (List Cand) :=
  let open_ := cs.filter fun c => !c.flags.testBit 0
  match open_ with
  | [] => none
  | c0 :: r =>
    let low := r.foldl (fun a c => if c.count < a.count then c else a) c0
    some (cs.map fun c => if c.pc = low.pc ∧ c.bank = low.bank ∧ c.row = low.row then new else c)

/-- A corrected or failed word of a row, or an uncorrectable one: the row enters the candidate table or
counts there, and may become a candidate (R319). The result says whether it entered. -/
def Dev.candidate (d : Dev) (pl : Place) (unc : Bool) : Dev × Bool :=
  let m := pl.pc / 32
  let x := d.hbm m
  let seen := d.now / 1000000000 % 2 ^ 32
  let bump := fun (c : Cand) =>
    let n := if unc then c.count else satInc 32 c.count
    let f := if unc then setBit c.flags 0 true else c.flags
    let isC := f.testBit 0 || decide (d.rd 0x2600 3 ≤ n)
    { c with count := n, flags := setBit f 1 (isC || f.testBit 1), seen := seen }
  let raise := fun (d : Dev) =>
    d.raise (uHb m) 0x0E06 pl.pc (pl.bank * 65536 + pl.row) sevInfo
  match x.cands.find? (·.sameRow pl) with
  | some c =>
    let c' := bump c
    let d' := d.setHbm m { x with cands := x.cands.map fun e => if e.sameRow pl then c' else e }
    (if c'.flags.testBit 1 ∧ !c.flags.testBit 1 then raise d' else d', false)
  | none =>
    let c' := bump { pc := pl.pc % 32, bank := pl.bank, row := pl.row }
    let put := fun cs =>
      let d' := d.setHbm m { x with cands := cs }
      (if c'.flags.testBit 1 then raise d' else d', true)
    if x.cands.length < 64 then put (x.cands ++ [c'])
    else match replaceLowest x.cands c' with
      | some cs => put cs
      | none => (d.setHbm m { x with lost := x.lost + 1 }, false)

/-- A corrected read (R311, R314). -/
def Dev.corrected (d : Dev) (w req : Nat) : Dev :=
  let pl := placeOf (w * 32)
  let m := pl.pc / 32
  let x := d.pc pl.pc
  let d := (d.setPcRt pl.pc { x with corrected := satInc 32 x.corrected }).addf (hbmIdx m) 5 0 1 8
  let h := d.hbm m
  let lately := (h.lately ++ [d.now]).filter fun t => decide (d.now < t + 1000000000)
  let d := d.setHbm m { h with lately := lately }
  let d := if h.told = 0 ∨ h.told - 1 + 1000000000 ≤ d.now then
      (d.setHbm m { d.hbm m with told := d.now + 1 }).event (uHb m) 0x0E01 m lately.length
    else d
  let (d, entered) := d.candidate pl false
  if entered then d.freshRecord 1 (w * 32) pl req 1
  else match d.recordOf m 1 (w * 32) with
    | some k => d.countRecord m k
    | none => d

/-- An uncorrectable read (R312, R314): journaled once per word and W0 tick. -/
def Dev.uncorrectable (d : Dev) (w req : Nat) : Dev :=
  let pl := placeOf (w * 32)
  let m := pl.pc / 32
  let x := d.pc pl.pc
  let d := (d.setPcRt pl.pc { x with uncorrectable := satInc 32 x.uncorrectable }).addf (hbmIdx m) 6 0 1 8
  let d := d.errorRecord 2 (w * 32) pl req 0xFF
  let d := (d.candidate pl true).1
  let k := d.tickOf 0 d.now
  let told := if d.uncTold.1 = k then d.uncTold.2 else []
  if told.contains w then d
  else
    ({ d with uncTold := (k, told ++ [w]) }.raise (uHb m) 0x0E02 (w * 32 / 256 % 2 ^ 32)
      (memParam 2 pl.pc req) sevDegraded)

/-- Reads one word for a requester: its bytes, and whether it is delivered poisoned (R307, R311 to R313).
`err`: what its ECC finds. The content of a poisoned word is free. -/
def Dev.readWord (d : Dev) (mem : Mem) (w req err : Nat) : List Byte × Bool × Dev :=
  let x := d.pc (placeOf (w * 32)).pc
  if x.state ≠ 0 then
    let (b, d) := d.freeBytes 32
    (b, true, d)
  else
    let d := d.turn w
    let d := if err = 2 ∧ d.wordState w = 0 then d.setWord w 1 else d
    if d.covered w then (d.wordBytes mem w, false, d)
    else if d.wordState w ≠ 0 then
      let d := if d.wordState w = 1 then d.uncorrectable w req else d
      let (b, d) := d.freeBytes 32
      (b, true, d)
    else
      let b := d.wordBytes mem w
      (b, false, if err = 1 then d.corrected w req else d)

/-- Reads bytes from an address upwards: the bytes, the words of the access delivered poisoned, counted
from its first, and the device. -/
def Dev.memRead (d : Dev) (mem : Mem) (a len req : Nat) (errs : List Nat) :
    List Byte × List Nat × Dev :=
  let r := (List.range ((a % 32 + len + 31) / 32)).foldl
    (fun (s : List Byte × List Nat × Dev) k =>
      let (b, bad, d) := s.2.2.readWord mem (a / 32 + k) req (errs.getD k 0)
      (s.1 ++ b, s.2.1 ++ (if bad then [k] else []), d)) ([], [], d)
  (slice r.1 (a % 32) len, r.2.1, r.2.2)

/-! ### Bands -/

/-- A band is written at `base`: its whole words are good again (R312). -/
def Dev.cleanRows (d : Dev) (c : Comp) (base pitch band : Nat) : Dev :=
  let n := c.width * fmtBytes c.fmt
  (List.range (min 16 (c.height - 16 * band))).foldl (fun d r =>
    let a := base + (16 * band + r) * pitch
    let lo := (a + 31) / 32
    (List.range ((a + n) / 32 - lo)).foldl (fun d k =>
      let w := lo + k
      d.setWord w (if (d.pc (placeOf (w * 32)).pc).poison then 3 else 0)) d) d

/-- The words that the band of a target is about to overwrite are good again (R312). -/
def Dev.cleanBand (d : Dev) (target : Target) (band : Nat) : Dev :=
  if d.words.isEmpty ∧ !(d.pcs.any fun e => e.2.poison) then d
  else match target with
    | .output o => match d.bandComp (d.out o).comps band with
      | none => d
      | some c => d.cleanRows c c.place.1 c.place.2 band
    | .layer l => match d.bandComp (d.layerComps.filter fun c => c.target == l) band with
      | none => d
      | some c => match d.compSlot c with
        | none => d
        | some s => d.cleanRows c s.base s.pitch band

/-- BAND_WRITTEN (R16). The band's reads find every accepted write, and its own writes are newer than
those (R306, R307). -/
def execBandWritten (t : Nat) (target : Target) (band : Nat) (obs : BandObs) (s : State) :
    Host.Outcome State Fault Refusal :=
  onDevMem t (fun mem d =>
    let (d, mem) := d.drainAll mem
    let d := d.cleanBand target band
    match target with
    | .output o => d.outputBand mem o band obs
    | .layer l => d.layerBand mem l band obs) s

/-! ### Row disturbance -/

/-- Whether a row is among the 32 most-activated ones of its bank (R317). -/
def Dev.tracked (d : Dev) (key count : Nat) : Bool :=
  decide ((d.acts.filter fun e => e.1 / 2 ^ 14 == key / 2 ^ 14 && decide (count < e.2.count)).length < 32)

/-- The requester with the most activates to a row; the first of equal ones. -/
def RowAct.top (r : RowAct) : Nat :=
  (r.reqs.foldl (fun (a : Nat × Nat) e => if a.2 < e.2 then e else a) (0, 0)).1

/-- Targeted refreshes that a count of activates has brought: one at the threshold, and one at each further
half-threshold (R317). -/
def refreshSteps (thr n : Nat) : Nat := if n < thr then 0 else 1 + 2 * (n - thr) / thr

/-- `n` activates of the row of a block by a requester (R317). -/
def Dev.activate (d : Dev) (a req n : Nat) : Dev :=
  if n = 0 then d
  else
    let pl := placeOf a
    let m := pl.pc / 32
    let x : RowAct := Tab.getD d.acts pl.key {}
    let x := { x with count := x.count + n, reqs := Tab.setD x.reqs req (Tab.getD x.reqs req 0 + n) 0 }
    let thr := d.rd 0x2600 1
    let seen := d.tracked pl.key x.count
    let hit := decide (thr ≤ x.count) && seen && !x.told
    let d := if refreshSteps thr (x.count - n) < refreshSteps thr x.count ∧ seen then
        d.send (.pin "HBM_TARGETED_REFRESH" [pl.pc, pl.bank, pl.row - 2, min (pl.row + 2) 16383])
      else d
    let d := { d with acts := Tab.setD d.acts pl.key { x with told := x.told || hit } {} }
    if hit then
      let th : Throttle := { pc := pl.pc, bank := pl.bank, row := pl.row, req := x.top }
      let d := if d.throttles.any fun y => y.pc == th.pc && y.bank == th.bank && y.row == th.row &&
          y.req == th.req then d else { d with throttles := d.throttles ++ [th] }
      let d := d.errorRecord 4 (a / 32 * 32) pl x.top 0
      d.raise (uHb m) 0x0E05 (a / 256 % 2 ^ 32) (memParam 4 pl.pc x.top) sevDegraded
    else d

/-- ROW_DISTURBANCE_WINDOW: the 32 ms window of a bank ends (R317, R318). -/
def Dev.rowWindow (d : Dev) (pc bank : Nat) : Dev :=
  let here := fun (y : Throttle) => y.pc == pc && y.bank == bank
  let calm := fun (y : Throttle) =>
    let x : RowAct := Tab.getD d.acts (Place.key ⟨y.pc, y.bank, y.row⟩) {}
    decide (2 * Tab.getD x.reqs y.req 0 < d.rd 0x2600 1)
  { d with
    throttles := (d.throttles.filter fun y => !(here y && y.full && calm y)).map fun y =>
      if here y then { y with full := true } else y
    acts := d.acts.filter fun e => e.1 / 2 ^ 14 != pc * 64 + bank }

def execRowDisturbanceWindow (t pc bank : Nat) (s : State) : Host.Outcome State Fault Refusal :=
  onDev t (·.rowWindow pc bank) s

/-! ### Controllers -/

/-- WRITE_QUEUE_DRAIN (R306). -/
def execWriteQueueDrain (t pc : Nat) (s : State) : Host.Outcome State Fault Refusal :=
  onDevMem t (fun mem d => d.drain mem pc) s

/-- REFRESH: the controller of a pseudo-channel in service refreshes a bank (R308). -/
def Dev.refreshBank (d : Dev) (pc bank : Nat) : Dev :=
  if (d.pc pc).state = 0 ∧ d.rd (hbmIdx (pc / 32)) 1 = 1 then
    d.send (.pin "HBM_REFRESH" [pc, bank, d.rd (hbmIdx (pc / 32)) 3])
  else d

def execRefresh (t pc bank : Nat) (s : State) : Host.Outcome State Fault Refusal :=
  onDev t (·.refreshBank pc bank) s

/-- HBM_TEMPERATURE: the refresh interval is halved above 85 °C (R308). -/
def execHbmTemperature (t m : Nat) (degC : Int) (s : State) : Host.Outcome State Fault Refusal :=
  onDev t (fun d =>
    (d.wr (hbmIdx m) 2 (ofSigned 8 degC)).wr (hbmIdx m) 3 (if 85 < degC then 1 else 0)) s

/-- A pseudo-channel becomes faulted (R310): its queued writes are discarded and counted. The error
record's address, bank and row are free. -/
def Dev.pcFault (d : Dev) (p n : Nat) : Dev :=
  let x := d.pc p
  let m := p / 32
  let d := d.setPcRt p { x with state := 1, trained := false, queue := []
                                discarded := x.discarded + x.queue.length }
  let d := d.setHbm m { d.hbm m with faults := (d.hbm m).faults + 1 }
  let (a, d) := d.free
  let (b, d) := d.free
  let (r, d) := d.free
  let d := d.errorRecord 3 (a % 2 ^ 40) ⟨p, b % 64, r % 16384⟩ 0 0
  d.raise (uHb m) 0x0E03 p n sevService

/-- HBM_PARITY_ERROR: the command is replayed; a parity error on three consecutive replays of it faults
the pseudo-channel (R309, R310). -/
def Dev.parityError (d : Dev) (p cmd : Nat) : Dev :=
  let x := d.pc p
  if x.state ≠ 0 then d
  else
    let streak := if x.cmd = cmd + 1 then x.streak + 1 else 0
    if streak = 3 then (d.setPcRt p { x with cmd := 0, streak := 0 }).pcFault p 3
    else d.setPcRt p { x with cmd := cmd + 1, streak := streak, replays := satInc 32 x.replays }

def execHbmParityError (t pc cmdId : Nat) (s : State) : Host.Outcome State Fault Refusal :=
  onDev t (·.parityError pc cmdId) s

end Sys2Proof.Machine
end

