-- ==== Sys2Proof/Machine/Access.lean ====
section
/-! DEFINITION. The access catalogue (R324 to R339): requesters and partitions, guards, rules and the
default map, violations, and the swap of rule sets; and the PCIe windows (R89). -/
namespace Sys2Proof.Machine

/-! ### Requesters and partitions -/

def clsCur : Nat := 1
def clsGuard : Nat := 2
def clsBay : Nat := 3
def clsEnc : Nat := 4
def clsDec : Nat := 5
def clsIntake : Nat := 6
def clsScan : Nat := 7
def clsPcie : Nat := 8
def clsDict : Nat := 9
def clsCvu : Nat := 12
def clsCal : Nat := 13
def clsXspi : Nat := 14
def clsRing : Nat := 15

/-- The requester code of an error record and of R339: class in [15:8], instance in [7:0]. -/
def accReq (a : Access) : Nat := a.cls * 256 + a.inst % 256

/-- The wing of a requester (Table 15.1). -/
def accWing (a : Access) : Option Nat :=
  match a.cls with
  | 1 => some (a.inst / 4 % 4)
  | 3 => some (a.inst / 8 % 4)
  | 4 => some (a.inst % 4)
  | 5 => some (a.inst % 4)
  | 6 => some (a.inst % 4)
  | 7 => some (outWing (a.inst % 128))
  | _ => none

/-- The partition of a requester; GUARD has none (R326). -/
def accPart (a : Access) : Option Nat :=
  if a.cls = clsGuard then none
  else if a.cls = clsCur then some (a.inst % 16)
  else match (accWing a) with
    | some w => some (16 + w)
    | none => some 20

def Dev.part (d : Dev) (p : Nat) : PartRt := Tab.getD d.parts p {}
def Dev.setPart (d : Dev) (p : Nat) (x : PartRt) : Dev := { d with parts := Tab.setD d.parts p x {} }

/-! ### Rules -/

/-- A rule's fields (Table 15.2). -/
structure Rule where
  base : Nat
  limit : Nat
  classes : Nat
  wings : Nat
  perm : Nat
  priv : Nat
  on : Bool

def parseRule (b : List Byte) : Rule :=
  { base := fieldAt b 0 8, limit := fieldAt b 8 8, classes := fieldAt b 16 4, wings := byteAt b 20
    perm := byteAt b 21, priv := byteAt b 22, on := byteAt b 23 % 2 == 1 }

/-- The rules of set 0 (A) or 1 (B). -/
def Dev.rules (d : Dev) (set : Nat) : List Rule := (chunks 32 (d.rdd (0x2501 + set) 1)).map parseRule

/-- Whether a rule matches a 4 KiB page for an access (R328). -/
def Rule.hits (r : Rule) (a : Access) (page : Nat) : Bool :=
  r.on && decide (r.base ≤ page) && decide (page + 4095 ≤ r.limit) && r.classes.testBit a.cls &&
    match (accWing a) with
    | some w => r.wings.testBit w
    | none => true

/-- Privilege of a curator core's mode: 0 U, 1 S, 2 M. -/
def modeRank (mode : Nat) : Nat := if mode = 3 then 2 else mode

/-- What refuses a page, with the rule that decided and its set; kind 0 allows it. -/
structure PageVerdict where
  kind : Nat
  rule : Nat := 0xFFFF
  set : Nat := 0xFF
  deriving DecidableEq, Repr

def kNoRule : Nat := 1
def kPermission : Nat := 2
def kPrivilege : Nat := 3
def kUnmapped : Nat := 4
def kLoan : Nat := 5
def kGuarded : Nat := 6

/-! ### Guards -/

/-- Whether a page lies in a range of Table 1.6. -/
def mapped (a : Nat) : Bool :=
  (hbmOf a).isSome || (decide (0x1000000000 ≤ a) && decide (a < 0x1140000000)) ||
    (decide (0x1140000000 ≤ a) && decide (a < 0x1140100000)) ||
    (decide (0x1200000000 ≤ a) && decide (a < 0x1210000000))

/-- A page of the guardian region (R332), and of the firmware region (R450). -/
def inGuardian (a : Nat) : Bool := decide (0x5FC000000 ≤ a) && decide (a < 0x600000000)
def inFirmware (a : Nat) : Bool := decide (0x5F4000000 ≤ a) && decide (a < 0x5FC000000)

/-- Whether the guards of step 2 refuse a page (R329, R332, R450). -/
def Dev.guarded (d : Dev) (a : Access) (page : Nat) : Bool :=
  if a.cls = clsGuard then false
  else if inGuardian page then
    !(a.op == 0 && (a.cls == clsScan || a.cls == clsEnc || a.cls == clsDict))
  else if inFirmware page then
    if a.op = 1 then !(a.cls == clsXspi && d.pwr.state == 4 && d.pwr.bootStep == 5)
    else !(a.cls == clsCur || (a.cls == clsDict && a.op == 0))
  else false

/-- Whether a buffer of `size` bytes from `base` holds a page. -/
def holdsPage (base size page : Nat) : Bool := decide (base ≤ page) && decide (page < base + round4k size)

/-- The graphics slot that holds a page: its layer and the slot. -/
def Dev.slotAt (d : Dev) (page : Nat) : Option (Nat × Slot) :=
  d.layers.findSome? fun e =>
    ((e.2.slots ++ e.2.old).find? fun s => holdsPage s.base s.size page).map fun s => (e.1, s)

/-- Whether a graphics slot is writable by a requester: while CLAIMED, by anyone for a host writer, by
the bays of its job list for another (Table 15.5). A slot of an allocation that is gone is not. -/
def Dev.slotWritable (d : Dev) (a : Access) (l : Nat) (s : Slot) : Bool :=
  s.state == 1 && s.gen == (d.layer l).gen &&
    (if d.rd (layIdx l) 0x1B = 1 then
      a.cls == clsBay && a.inst / 8 == d.layWing l &&
        (d.rd (0x4000 + d.rd (layIdx l) 0x1C % 256) 3).testBit (a.inst % 8)
    else true)

/-- Bytes of a session's picture and bitstream buffers (Table 15.5). -/
def Dev.decBytes (d : Dev) (k : Nat) : Nat :=
  (d.namers k).foldl (fun t n => t + (d.rd (decIdx k) 6 + 1) * d.nativeBytes n) (d.rd (decIdx k) 5 * 1024)

/-- Whether a registered buffer other than a slot holds a page and is not writable by the requester
(Table 15.5). -/
def Dev.bufferBlocks (d : Dev) (a : Access) (page : Nat) : Bool :=
  (d.sources.any fun e =>
    let w := d.srcWing e.1
    e.2.bufs.any fun b => holdsPage (bufferBase w 1 e.1 b.id) b.bytes page &&
      !(b.filling && ((a.cls == clsIntake || a.cls == clsDec) && a.inst == w || a.cls == clsRing))) ||
  (anyOf 128 fun o => d.outOn o &&
    (let w := outWing o
     anyOf ((if d.racing o then 1 else 2) + (if d.encTakesOutput o then 1 else 0)) fun k => holdsPage (bufferBase w 2 o k) (d.outBytes o) page &&
      !(a.cls == clsBay && a.inst / 8 == w && (d.rd (outIdx o) 8).testBit (a.inst % 8) &&
        !(d.out o).comps.isEmpty))) ||
  (anyOf 128 fun k => d.rdb (decIdx k) 1 &&
    (let w := k / 32
     holdsPage (bufferBase w 3 k 0) (d.decBytes k) page && !(a.cls == clsDec && a.inst == w))) ||
  anyOf 16 fun c => d.rdb (encIdx c) 1 &&
    (let w := encWing c
     holdsPage (bufferBase w 4 c 0) (3 * d.encBufBytes c + 4 * 2 ^ 20) page &&
      !(a.cls == clsEnc && a.inst == w))

/-- Step 3: a write to a registered buffer that the requester may not write now (R333). -/
def Dev.loanBlocks (d : Dev) (a : Access) (page : Nat) : Bool :=
  a.op == 1 && match d.slotAt page with
    | some (l, s) => !d.slotWritable a l s
    | none => d.bufferBlocks a page

/-! ### Evaluation -/

/-- Whether a requester is privileged (Table 15.1). -/
def accPrivileged (a : Access) : Bool :=
  if a.cls = clsCur then a.mode != 0 else a.cls != clsPcie && a.cls != clsCvu

/-- The default map (Table 15.3). -/
def accDefault (a : Access) (page : Nat) : Bool :=
  let dictCal := a.cls == clsDict || a.cls == clsCal
  if (hbmOf page).isSome then a.op != 2 || a.cls == clsCur
  else if a.op = 2 then a.cls == clsCur && decide (0x1200000000 ≤ page)
  else if page < 0x1100000000 then (accWing a) == some ((page - 0x1000000000) / 0x40000000) || dictCal
  else if page < 0x1140000000 then (a.cls == clsCur && a.mode == 3) || dictCal
  else if page < 0x1200000000 then a.cls == clsCur && a.mode == 3 && a.op == 0
  else a.op == 0 && (a.cls == clsCur || a.cls == clsXspi || a.cls == clsDict)

/-- The verdict for one page (R328, R329). -/
def Dev.checkPage (d : Dev) (a : Access) (page : Nat) : PageVerdict :=
  if !mapped page then { kind := kUnmapped }
  else if d.guarded a page then { kind := kGuarded }
  else if d.loanBlocks a page then { kind := kLoan }
  else if a.cls = clsGuard then { kind := 0 }
  else
    let set := (d.part ((accPart a).getD 0)).set
    let rs := d.rules set
    match (List.range rs.length).find? fun k => (rs[k]?).elim false fun r => r.hits a page with
    | some k =>
      match rs[k]? with
      | some r =>
        if a.cls = clsCur ∧ modeRank a.mode < r.priv then { kind := kPrivilege, rule := k, set := set }
        else if !r.perm.testBit a.op then { kind := kPermission, rule := k, set := set }
        else { kind := 0, rule := k, set := set }
      | none => { kind := 0 }
    | none =>
      if (accPrivileged a) && accDefault a page then { kind := 0 } else { kind := kNoRule }

/-- The first refused page of an access: its first forbidden byte and its verdict (R330). -/
def Dev.checkAccess (d : Dev) (a : Access) : Option (Nat × PageVerdict) :=
  (List.range ((a.addr % 4096 + a.len + 4095) / 4096)).findSome? fun k =>
    let page := (a.addr / 4096 + k) * 4096
    let v := d.checkPage a page
    if v.kind = 0 then none else some (max a.addr page, v)

/-! ### Violations -/

/-- The record of a violation (Table 15.6). -/
def violation (now p : Nat) (a : Access) (ffb : Nat) (v : PageVerdict) : List Byte :=
  time48Bytes now ++ leBytes 1 v.kind ++ leBytes 1 (a.op + if a.cls = clsCur then 4 * a.mode else 0) ++
    leBytes 1 a.cls ++ leBytes 1 a.inst ++ leBytes 2 a.len ++ leBytes 5 a.addr ++ leBytes 5 ffb ++
    leBytes 2 v.rule ++ leBytes 1 v.set ++ leBytes 1 p ++ leBytes 2 0

/-- Severity of a violation (R339). -/
def kindSev (kind : Nat) : Nat := if kind = kGuarded then sevService else sevDegraded

/-- Parameter 2 of ACCESS_VIOLATION. -/
def violationParam (a : Access) (p kind : Nat) : Nat := kind * 2 ^ 24 + p * 2 ^ 16 + (accReq a)

/-- A blocked write into a graphics slot: counted, and LOAN_WRITE_BLOCKED once in each period of one
state (R164). -/
def Dev.slotBlocked (d : Dev) (a : Access) (page : Nat) : Dev :=
  match d.slotAt page with
  | none => d
  | some (l, s) =>
    let told := s.told
    let d := d.setLayer l ((d.layer l).updSlot s.num s.gen fun s =>
      { s with blocked := satInc 16 s.blocked, told := true })
    if told then d else d.raise (uWing (d.layWing l)) 0x0601 l (s.num + a.cls * 256) sevDegraded

/-- Records and journals a violation (R338, R339). Of a partition's violations the first since a clear
fills its record; the others count. -/
def Dev.violate (d : Dev) (a : Access) (ffb : Nat) (v : PageVerdict) : Dev :=
  let d := if v.kind = kLoan then d.slotBlocked a (ffb / 4096 * 4096) else d
  match (accPart a) with
  | none =>
    if v.kind = kLoan then d
    else d.raise uFabric 0x0F01 (ffb / 256 % 2 ^ 32) (violationParam a 0xFF v.kind) (kindSev v.kind)
  | some p =>
    let d := d.wrf 0x2504 2 (2 * p) (satInc 32 (d.rdf 0x2504 2 (2 * p)))
    let d := d.addf 0x2504 2 (2 * p + 1) 1 8
    if d.rdc 0x2504 1 p ≠ [] then d
    else
      let d := d.wrc 0x2504 1 p (violation d.now p a ffb v)
      if v.kind = kLoan then d
      else d.raise uFabric 0x0F01 (ffb / 256 % 2 ^ 32) (violationParam a p v.kind) (kindSev v.kind)

/-- VIOLATION_CLEAR: bits of 0x2504:03 clear the records and the counters since clear of their
partitions (R338). -/
def Dev.clearViolations (d : Dev) (mask : Nat) : Dev :=
  foldNat (fun d p => if mask.testBit p then (d.wrc 0x2504 1 p []).wrf 0x2504 2 (2 * p) 0 else d) 21 d

def execViolationClear (t : Nat) (by_ : Requester) (mask : Nat) (s : State) :
    Host.Outcome State Fault Refusal :=
  onCommand t by_ (fun d =>
    d.commandPre by_ 0x2504 3 (leBytes 4 mask) (if mask < 2 ^ 21 then stOk else stRange)
      fun d => (d.clearViolations mask).res stOk) s

/-! ### Accesses -/

/-- An allowed access enters the partition's accesses in flight (R337). -/
def Dev.inFlight (d : Dev) (a : Access) : Dev :=
  match (accPart a) with
  | none => d
  | some p => let x := d.part p; d.setPart p { x with flying := x.flying + 1 }

/-- Activates of the blocks an access touches (R317). -/
def Dev.activates (d : Dev) (a : Access) (acts : List Nat) : Dev :=
  (List.range ((a.addr % 256 + a.len + 255) / 256)).foldl (fun d k =>
    d.activate ((a.addr / 256 + k) * 256) (accReq a) (acts.getD k 0)) d

/-! ### What lies outside the HBM (Table 1.6) -/

/-- A selector record (R446). -/
def Selector.bytes (x : Selector) : List Byte :=
  let b := [0x53, 0x4C, 0x01] ++ leBytes 1 x.active ++ leBytes 1 x.trial ++ leBytes 1 x.attempts ++ leBytes 2 0 ++
    leBytes 4 x.count
  b ++ leBytes 4 (crc32c b)

/-- The area of the flash that holds an offset, as its content and the offset in it (Table 21.3). -/
def Dev.flashArea (d : Dev) (off : Nat) : List Byte × Nat :=
  let f := d.flash
  let copy := fun (base size : Nat) => ((off - base) / size, (off - base) % size)
  if off < 0x20000 then
    let (k, o) := copy 0 0x10000
    ((Tab.getD f.sels k none).elim [] Selector.bytes, o)
  else if off < 0x40000 then
    let (k, o) := copy 0x20000 0x10000
    (Tab.getD f.cals k [], o)
  else if off < 0x60000 then
    let (k, o) := copy 0x40000 0x10000
    (Config.repairBytes k (d.hbm 0).repair (d.hbm 1).repair, o)
  else if off < 0x100000 then ([], 0)
  else if off < 0x2100000 then
    let (k, o) := copy 0x100000 0x1000000
    ((Tab.getD f.saves k none).elim [] fun x => Config.savedBytes x.count x.regs x.doms, o)
  else if off < 0xE100000 then
    let (k, o) := copy 0x2100000 0x6000000
    (Tab.getD f.images k [], o)
  else ([], 0)

/-- A byte of the flash: beyond what an area holds it is erased (log entry 152). -/
def Dev.flashByte (d : Dev) (off : Nat) : Byte :=
  let (b, o) := d.flashArea off
  b.getD o 0xFF

/-- A byte outside the HBM that a read returns: of the flash, or of the retention SRAM where it was written; what unit
registers and the device's own banks hold there is not stated. -/
def Dev.outsideByte (d : Dev) (a : Nat) : Option Byte :=
  if 0x1200000000 ≤ a then some (d.flashByte (a - 0x1200000000))
  else if 0x1140000000 ≤ a then Tab.getD d.retain (a - 0x1140000000) none
  else none

/-- What a read outside the HBM returns: what is not stated is free. -/
def Dev.outsideRead (d : Dev) (a n : Nat) : List Byte × Dev :=
  let (b, d) := d.freeBytes n
  ((List.range n).map fun k => (d.outsideByte (a + k)).getD (b.getD k 0), d)

/-- A write outside the HBM: the retention SRAM takes it; the window of the flash only reads (R444). -/
def Dev.outsideWrite (d : Dev) (a : Nat) (data : List Byte) : Dev :=
  foldNat (fun d k =>
    if 0x1140000000 ≤ a + k ∧ a + k < 0x1140100000 then
      { d with retain := Tab.setD d.retain (a + k - 0x1140000000) (some (data.getD k 0)) none }
    else d) data.length d

/-- What the intake does when a write of its own is refused: the frame that it stores there ends impaired (Table 15.4). -/
def Dev.intakeDenied (d : Dev) (w addr : Nat) : Dev :=
  match d.sources.findSome? fun e =>
      if d.srcWing e.1 = w then
        (e.2.bufs.find? fun b => b.filling && holdsPage (bufferBase w 1 e.1 b.id) b.bytes (addr / 4096 * 4096)).map
          fun b => (e.1, b.id)
      else none with
  | some (n, id) =>
    let x := d.src n
    d.setSrc n { x with frames := x.frames.map fun f => if f.buf = some id then { f with denied := true } else f }
  | none => d

/-- The session of a wing whose buffers hold an address (Table 15.5). -/
def Dev.sessionAt (d : Dev) (w addr : Nat) : Option Nat :=
  (List.range 32).findSome? fun j =>
    let k := 32 * w + j
    if d.rdb (decIdx k) 1 && holdsPage (bufferBase w 3 k 0) (d.decBytes k) (addr / 4096 * 4096) then some k else none

/-- What a decoder does when a reference or its bitstream is poisoned or refused: the access unit in its hands is
abandoned with error code 1 (Tables 14.1 and 15.4). -/
def Dev.decDenied (d : Dev) (w addr : Nat) : Dev :=
  match d.sessionAt w addr with
  | some k =>
    match d.boundSource k with
    | some n =>
      match (d.src n).units.find? fun u => !u.abandoned with
      | some u => if d.decoding k then d.unitError n k 1 u else d
      | none => d
    | none => d
  | none => d

/-- What the requester of a refused access, or of a poisoned read, does to its own work (Tables 14.1 and 15.4). The
effects on a band, an encoder's row and a position of a ring come with the commands that write them (log entry 170). -/
def Dev.denied (d : Dev) (a : Access) : Dev :=
  if a.cls = clsIntake ∧ a.op = 1 then d.intakeDenied a.inst a.addr
  else if a.cls = clsDec then d.decDenied a.inst a.addr
  else d

/-- What an access does: it is refused whole, or it reads or writes (R324, R329 to R331). What the registers of a unit
answer is free here, since the spec gives them no layout. -/
def Dev.access (d : Dev) (mem : Mem) (a : Access) (o : MemObs) : Dev × Mem :=
  match d.checkAccess a with
  | some (ffb, v) =>
    let d := (d.violate a ffb v).denied a
    (d.send (.fabric (accReq a) (if a.op = 1 then "write refused" else "read refused") []
      (if a.op = 1 then [] else List.range ((a.addr % 32 + a.len + 31) / 32))), mem)
  | none =>
    let d := d.inFlight a
    match hbmOf a.addr with
    | none =>
      if a.op = 1 then
        ((d.outsideWrite a.addr (padTo a.len a.data)).send (.fabric (accReq a) "written" [] []), mem)
      else
        let (b, d) := d.outsideRead a.addr a.len
        (d.send (.fabric (accReq a) "read" b []), mem)
    | some _ =>
      let d := d.activates a o.acts
      if a.op = 1 then
        let (d, mem) := d.memWrite mem a.addr (padTo a.len a.data)
        (d.send (.fabric (accReq a) "written" [] []), mem)
      else
        let (b, bad, d) := d.memRead mem a.addr a.len (accReq a) o.errs
        ((if bad.isEmpty then d else d.denied a).send (.fabric (accReq a) "read" b bad), mem)

/-- An access has 1 to 256 bytes (R324); the model takes no other. -/
def accFits (a : Access) : Bool := decide (1 ≤ a.len) && decide (a.len ≤ 256)

/-- FABRIC_ACCESS (R329). -/
def execFabricAccess (t : Nat) (a : Access) (m : MemObs) (s : State) :
    Host.Outcome State Fault Refusal :=
  onDevMem t (fun mem d => if (accFits a) then d.access mem a m else (d, mem)) s

/-! ### Swap points -/

/-- The rule set that the dictionary selects for a partition (0x2500:01 to 05). -/
def Dev.selectedSet (d : Dev) (p : Nat) : Nat :=
  if p = 20 then d.rd 0x2500 5 else d.rd 0x2500 ((if p < 16 then p / 4 else p - 16) + 1)

/-- The partitions that a SET_SWAPPED covers: those of wing `g`, or partition 20 for `g` = 4. -/
def swapGroup (g : Nat) : List Nat := if g = 4 then [20] else [4 * g, 4 * g + 1, 4 * g + 2, 4 * g + 3, 16 + g]

def swapGroupOf (p : Nat) : Nat := if p < 16 then p / 4 else p - 16

/-- A partition's old-set count has reached 0: its drain marker, and SET_SWAPPED once its whole group has
drained (R337). -/
def Dev.drained (d : Dev) (p : Nat) : Dev :=
  let x := d.part p
  if !x.draining ∨ x.old ≠ 0 then d
  else
    let d := d.setPart p { x with draining := false, drainAt := d.now }
    let g := swapGroupOf p
    if (swapGroup g).all fun q => !(d.part q).draining && (d.part q).next == 0 then
      d.event uFabric 0x0F02 g x.set
    else d

/-- The swap point of a partition (R335 to R337). -/
def Dev.swapPart (d : Dev) (p set : Nat) : Dev :=
  let x := d.part p
  (d.setPart p { x with set := set, next := 0, old := x.old + x.flying, flying := 0, draining := true
                        swapAt := d.now, swaps := (x.swaps + 1) % 2 ^ 32 }).drained p

/-- The active-set object of a group has applied (R335): partitions 16 to 20 swap at once, the cores of
the cluster at their next trap. -/
def Dev.selectSets (d : Dev) (g : Nat) : Dev :=
  (swapGroup g).foldl (fun d p =>
    let set := d.selectedSet p
    if (d.part p).set = set then d.setPart p { d.part p with next := 0 }
    else if p < 16 then d.setPart p { d.part p with next := set + 1, asked := d.now }
    else d.swapPart p set) d

/-- CURATOR_SWAP_POINT: the core's next trap entry or return (R335). -/
def execCuratorSwapPoint (t core : Nat) (s : State) : Host.Outcome State Fault Refusal :=
  onDev t (fun d =>
    let x := d.part (core % 16)
    if x.next = 0 then d else d.swapPart (core % 16) (x.next - 1)) s

/-- SWAP_LATE: a core is still before its swap point 1 ms after the T+0 (R335). -/
def execSwapLate (t core : Nat) (s : State) : Host.Outcome State Fault Refusal :=
  onDev t (fun d =>
    let x := d.part (core % 16)
    if x.next ≠ 0 ∧ x.asked + 1000000 ≤ d.now then
      d.raise uFabric 0x0F03 (core % 16) ((d.now - x.asked) / 1000000) sevDegraded
    else d) s

/-- ACCESS_RETIRE: accesses retire oldest first, those of the previous set before those of this one
(R337). -/
def execAccessRetire (t part : Nat) (s : State) : Host.Outcome State Fault Refusal :=
  onDev t (fun d =>
    let x := d.part part
    if 0 < x.old then (d.setPart part { x with old := x.old - 1 }).drained part
    else d.setPart part { x with flying := x.flying - 1 }) s

/-- The 32 bytes of a partition in 0x2503:01 (Table 15.9). -/
def Dev.partBytes (d : Dev) (p : Nat) : List Byte :=
  let x := d.part p
  leBytes 1 x.set ++ leBytes 1 (if x.next = 0 then 0xFF else x.next - 1) ++
    leBytes 1 (if x.next ≠ 0 then 1 else if x.draining then 2 else 0) ++ leBytes 1 0 ++ leBytes 4 x.old ++
    time48Bytes x.swapAt ++ time48Bytes x.drainAt ++ leBytes 4 x.swaps

/-! ### PCIe windows -/

/-- A write through BAR2 window `w` at an offset: discarded and counted through a disabled window or
beyond its length, otherwise a fabric access of class PCIE for every 256 bytes (R89). -/
def Dev.windowWrite (d : Dev) (mem : Mem) (w off : Nat) (data : List Byte) : Dev × Mem :=
  let r := slice (d.rdd 0x2044 2) (16 * w) 16
  if d.bootRd 0x2044 1 = 0 then (d, mem)
  else if !(fieldAt r 14 2).testBit 0 ∨ fieldAt r 8 4 < off + data.length then
    (d.wr 0x2044 3 (satInc 32 (d.rd 0x2044 3)), mem)
  else
    let a := fieldAt r 0 8 + off
    let ps := chunks 256 data
    (List.range ps.length).foldl (fun (s : Dev × Mem) k =>
      let b := ps.getD k []
      s.1.access s.2 { cls := clsPcie, inst := w, mode := 0, op := 1, addr := a + 256 * k
                       len := b.length, data := b } { errs := [], acts := [] }) (d, mem)

/-- PCIE_WINDOW_WRITE (R89). -/
def execPcieWindowWrite (t win off : Nat) (data : List Byte) (s : State) :
    Host.Outcome State Fault Refusal :=
  onDevMem t (fun mem d => d.windowWrite mem win off data) s

end Sys2Proof.Machine
end

