-- ==== Sys2Proof/Machine/MemOps.lean ====
section
/-! DEFINITION. The operations of the memory subsystem: scrub and memory test (R315, R316), live repair and
the repair record (R319 to R321), recovery of a pseudo-channel (R310), and the maintenance windows they
use (R49). -/
namespace Sys2Proof.Machine

/-! ### Commands of 0x2601:0C and 0x2602:0C (R323) -/

/-- Unit path of an HBM device. -/
def hbmPath (m : Nat) : String := unitPath (uHb m)

/-- A scrub, a memory test or a live repair of device `m` runs (R323). -/
def Dev.memBusy (d : Dev) (m : Nat) : Bool :=
  (List.range 64).any fun k =>
    (d.runningKind k == 3 || d.runningKind k == 7 || d.runningKind k == 8) && (d.longOp k).arg == m

/-- The slot in which an operation of a kind runs on device `m`. -/
def Dev.memSlot (d : Dev) (kind m : Nat) : Option Nat :=
  (List.range 64).find? fun k => d.runningKind k == kind && (d.longOp k).arg == m

/-- Starts an operation of a memory command and names its slot in sub 0E (R323). -/
def Dev.memStart (d : Dev) (by_ : Requester) (m kind unit phases total arg arg2 : Nat)
    (held : List Nat) : Res :=
  let r := d.startLong by_ kind unit phases total (hbmPath m) arg arg2
  match r.slot with
  | none => r
  | some k =>
    ⟨r.st, r.slot, (r.dev.setLongOp k { r.dev.longOp k with held := held }).wr (hbmIdx m) 0x0E k⟩

/-- Key of a row of a device in a list of rows: its pseudo-channel, bank and row. -/
def rowKey (pc bank row : Nat) : Nat := pc * 2 ^ 20 + bank * 2 ^ 14 + row

def Cand.key (c : Cand) : Nat := rowKey c.pc c.bank c.row

/-- Unallocated bytes of a device (class 8 of Table 2.2). -/
def Dev.freeMemory (d : Dev) (m : Nat) : Nat :=
  let q := demandOn (Dev.demands d d) 8 m
  24 * 2 ^ 30 - ceilDiv q.n q.d

/-- Command 1: scrub (R315). -/
def Dev.memScrub (d : Dev) (by_ : Requester) (m : Nat) : Res :=
  if d.memBusy m then d.res stBusy
  else d.memStart by_ m 3 1 1 (24 * 2 ^ 30) m (d.hbm m).faults []

/-- Command 2: memory test, admitted like a batch with 64 MiB more (R53, R316). -/
def Dev.memTest (d : Dev) (by_ : Requester) (m : Nat) : Res :=
  if d.memBusy m then d.res stBusy
  else
    let r := d.memStart by_ m 7 1 1 (d.freeMemory m) m (d.hbm m).faults []
    if r.st ≠ stOk then r else if !r.dev.memoryFits m then d.res stCapacity else ⟨r.st, r.slot, r.dev.keepPeaks⟩

/-- Candidates that wait for a repair. -/
def Dev.toRepair (d : Dev) (m : Nat) : List Cand :=
  (d.hbm m).cands.filter fun c => c.flags.testBit 1 && !c.flags.testBit 2

/-- Command 3: live repair, on a standby only (R320). -/
def Dev.memLiveRepair (d : Dev) (by_ : Requester) (m : Nat) : Res :=
  if !d.standby then d.res stWrongState
  else if d.memBusy m then d.res stBusy
  else d.memStart by_ m 8 7 1 (d.toRepair m).length m (d.hbm m).faults []

/-- What a flash write (kind 0x0004) is for: its `arg` div 16. -/
def flashRecord : Nat := 1
def flashClear : Nat := 2
def flashCal : Nat := 3
def flashTrial : Nat := 4

/-- Starts a flash write of a number of bytes that the spec does not give. -/
def Dev.memFlash (d : Dev) (by_ : Requester) (m what : Nat) (held : List Nat) : Res :=
  let (n, d) := d.free
  d.memStart by_ m 4 1 2 n (what * 16 + m) 0 held

/-- Command 4: the candidates that the record does not hold are appended to it (R321). -/
def Dev.memRecord (d : Dev) (by_ : Requester) (m : Nat) : Res :=
  d.memFlash by_ m flashRecord
    (((d.hbm m).cands.filter fun c => c.flags.testBit 1 && !c.flags.testBit 3).map Cand.key)

/-- Command 5: the candidate table is cleared, unless a repair runs (R323). -/
def Dev.memClearCands (d : Dev) (m : Nat) : Res :=
  if (d.memSlot 8 m).isSome then d.res stWrongState
  else (d.setHbm m { d.hbm m with cands := [] }).res stOk

/-- Command 6: a faulted pseudo-channel waits for its retraining (R310, R323). -/
def Dev.memRecover (d : Dev) (m : Nat) : Res :=
  let p := 32 * m + d.rd (hbmIdx m) 0x0D
  let x := d.pc p
  if x.state ≠ 1 then d.res stWrongState
  else (d.setPcRt p { x with state := 2, trained := false }).res stOk

/-- Command 7: the repair record is cleared (R321). -/
def Dev.memClearRecord (d : Dev) (by_ : Requester) (m : Nat) : Res := d.memFlash by_ m flashClear []

/-- A value written to 0x2601+m:0C (Table 14.5). -/
def Dev.memCommand (d : Dev) (by_ : Requester) (m v : Nat) : Res :=
  match v with
  | 1 => d.memScrub by_ m
  | 2 => d.memTest by_ m
  | 3 => d.memLiveRepair by_ m
  | 4 => d.memRecord by_ m
  | 5 => d.memClearCands m
  | 6 => d.memRecover m
  | 7 => d.memClearRecord by_ m
  | _ => d.res stRange

/-- A memory command, written to sub 0C. -/
def memWriteCommand (t : Nat) (by_ : Requester) (m v : Nat) (s : State) :
    Host.Outcome State Fault Refusal :=
  onCommand t by_ (fun d =>
    d.command by_ (hbmIdx (m % 2)) 0x0C [BitVec.ofNat 8 v] fun d => d.memCommand by_ (m % 2) v) s

/-- MEM_SCRUB (R315). -/
def execMemScrub (t : Nat) (by_ : Requester) (m : Nat) (s : State) :
    Host.Outcome State Fault Refusal := memWriteCommand t by_ m 1 s

/-- MEM_TEST (R316). -/
def execMemTest (t : Nat) (by_ : Requester) (m : Nat) (s : State) :
    Host.Outcome State Fault Refusal := memWriteCommand t by_ m 2 s

/-- MEM_LIVE_REPAIR (R320). -/
def execMemLiveRepair (t : Nat) (by_ : Requester) (m : Nat) (s : State) :
    Host.Outcome State Fault Refusal := memWriteCommand t by_ m 3 s

/-- MEM_RECORD_CANDIDATES (R321). -/
def execMemRecordCandidates (t : Nat) (by_ : Requester) (m : Nat) (s : State) :
    Host.Outcome State Fault Refusal := memWriteCommand t by_ m 4 s

/-- MEM_CLEAR_CANDIDATES (R323). -/
def execMemClearCandidates (t : Nat) (by_ : Requester) (m : Nat) (s : State) :
    Host.Outcome State Fault Refusal := memWriteCommand t by_ m 5 s

/-- MEM_RECOVER_PC (R310). -/
def execMemRecoverPc (t : Nat) (by_ : Requester) (m : Nat) (s : State) :
    Host.Outcome State Fault Refusal := memWriteCommand t by_ m 6 s

/-- MEM_CLEAR_REPAIR_RECORD (R321). -/
def execMemClearRepairRecord (t : Nat) (by_ : Requester) (m : Nat) (s : State) :
    Host.Outcome State Fault Refusal := memWriteCommand t by_ m 7 s

/-! ### Scrub and memory test -/

/-- Result of an operation (Table 14.4): 1 where words failed, 2 where a pseudo-channel faulted. -/
def Dev.memResult (d : Dev) (k m : Nat) (failed : Bool) : Nat :=
  if (d.longOp k).arg2 < (d.hbm m).faults then 2 else if failed then 1 else 0

/-- The words of device `m` that decode as uncorrectable. -/
def Dev.badWords (d : Dev) (m : Nat) : List Nat :=
  (d.words.filter fun e => e.2 == 1 && (placeOf (e.1 * 32)).pc / 32 == m).map (·.1)

/-- SCRUB_DONE: the pass ends: every uncorrectable word it found holds the poison pattern (R315). -/
def Dev.scrubDone (d : Dev) (m : Nat) : Dev :=
  match d.memSlot 3 m with
  | none => d
  | some k =>
    let bad := d.badWords m
    let d := bad.foldl (fun d w => (d.uncorrectable w 0).setWord w 2) d
    d.finishLong k (d.memResult k m (!bad.isEmpty))

def execScrubDone (t m : Nat) (s : State) : Host.Outcome State Fault Refusal :=
  onDevMem t (fun mem d =>
    let (d, mem) := d.drainAll mem
    (d.scrubDone m, mem)) s

/-- Whether an address is allocated to a graphics slot, to another registered buffer, which blocks a writer that is none
of its own, to the firmware region or to the guardian region (R316, R333). -/
def Dev.allocated (d : Dev) (a : Nat) : Bool :=
  (decide (0x5F4000000 ≤ a) && decide (a < 0x600000000)) ||
    (d.layers.any fun e => (e.2.slots ++ e.2.old).any fun s =>
      decide (s.base ≤ a) && decide (a < s.base + s.size)) ||
    d.bufferBlocks { cls := clsDict, inst := 0, mode := 0, op := 1, addr := a, len := 1, data := [] } (a / 4096 * 4096)

/-- The addresses of device `m` that chunk `n` of `total` bytes reaches. -/
def chunkSpan (m total n : Nat) : Nat × Nat :=
  let c := max 1 (ceilDiv total (64 * 2 ^ 20))
  (hbmBase m + n * (24 * 2 ^ 30) / c, hbmBase m + (n + 1) * (24 * 2 ^ 30) / c)

/-- A failed word of a memory test enters the candidate table (R316), with an error record where its row
is new there. -/
def Dev.testFailed (d : Dev) (w : Nat) : Dev :=
  let pl := placeOf (w * 32)
  let (d, entered) := d.candidate pl false
  if entered then d.errorRecord 1 (w * 32) pl 0 1 else d

/-- MEMORY_TEST_CHUNK: a chunk has been tested; `failed` lists its failed words by address div 32. Its
unallocated bytes hold 0 (R316). -/
def Dev.testChunk (d : Dev) (mem : Mem) (m : Nat) (failed : List Nat) : Dev × Mem :=
  match d.memSlot 7 m with
  | none => (d, mem)
  | some k =>
    let i := 0x2080 + k
    let total := d.rd i 5
    let pos := d.rd i 4
    let (lo, hi) := chunkSpan m total (pos / (64 * 2 ^ 20))
    let (d, mem) := d.drainAll mem
    let gone := fun a => decide (lo ≤ a) && decide (a < hi) && !d.allocated a
    let mem := mem.filter fun e => !gone e.1
    let d := { d with words := d.words.filter fun e => !gone (e.1 * 32) }
    let mine := failed.filter fun w => (hbmOf (w * 32)).map (·.1) == some m
    let d := mine.foldl Dev.testFailed d
    let d := if mine.isEmpty then d else d.setLongOp k { d.longOp k with held := [1] }
    if total ≤ pos + 64 * 2 ^ 20 then
      (d.finishLong k (d.memResult k m (!(d.longOp k).held.isEmpty)), mem)
    else (d.setPosition k (pos + 64 * 2 ^ 20), mem)

def execMemoryTestChunk (t m : Nat) (failed : List Nat) (s : State) :
    Host.Outcome State Fault Refusal :=
  onDevMem t (fun mem d => d.testChunk mem m failed) s

/-! ### Repair -/

/-- Spare rows left in the bank group of a row (R320). -/
def Dev.sparesLeft (d : Dev) (m pc bank : Nat) : Nat :=
  let key := (32 * m + pc) * 12 + bank / 4 % 12
  Config.spareRows key % 256 - Tab.getD (d.hbm m).spares key 0

/-- Takes a spare row. -/
def Dev.useSpare (d : Dev) (m pc bank : Nat) : Dev :=
  let key := (32 * m + pc) * 12 + bank / 4 % 12
  let x := d.hbm m
  d.setHbm m { x with spares := Tab.setD x.spares key (Tab.getD x.spares key 0 + 1) 0 }

/-- Appends a row to the repair record, which holds 256 (R321). -/
def Dev.recordRow (d : Dev) (m key : Nat) : Dev :=
  let x := d.hbm m
  let e := (key / 2 ^ 20, key / 2 ^ 14 % 64, key % 2 ^ 14)
  if x.repair.length < 256 ∧ !x.repair.contains e then
    let x := { x with repair := x.repair ++ [e]
                      cands := x.cands.map fun c =>
                        if c.key = key then { c with flags := setBit c.flags 3 true } else c }
    (d.setHbm m x).wr (hbmIdx m) 0x0B x.repair.length
  else d

/-- The address of block `b` of a row of device `m`: R304 read backwards, `b` from 0 to 3. -/
def rowBlock (m pc bank row b : Nat) : Nat :=
  let l := row * 192 + bank / 16 * 64 + bank % 4 * 16 + bank / 4 % 4 * 4 + b
  hbmBase m + (l * 32 + Nat.xor pc (l % 32)) * 256

/-- Repairs one row: a spare takes its place, and its uncorrectable words hold the poison pattern
(R320). -/
def Dev.repairRow (d : Dev) (m : Nat) (c : Cand) : Dev :=
  let d := foldNat (fun d j =>
    let w := rowBlock m c.pc c.bank c.row (j / 8) / 32 + j % 8
    if Tab.getD d.words w 0 = 1 then d.setWord w 2 else d) 32 d
  let d := d.useSpare m c.pc c.bank
  let x := d.hbm m
  let d := d.setHbm m { x with cands := x.cands.map fun e =>
    if e.key = c.key then { e with flags := setBit e.flags 2 true } else e }
  d.recordRow m c.key

/-- Result of a live repair that ends: 3 where a candidate found no spare row. -/
def Dev.repairResult (d : Dev) (k m : Nat) : Nat :=
  if (d.toRepair m).any fun c => d.sparesLeft m c.pc c.bank == 0 then 3 else d.memResult k m false

/-- The row that a live repair takes next: the first candidate in table order that has a spare row (R320). -/
def Dev.nextRow (d : Dev) (m : Nat) : Option Cand :=
  (d.toRepair m).find? fun c => decide (0 < d.sparesLeft m c.pc c.bank)

/-- One window of a live repair (R320). -/
def Dev.repairWindow (d : Dev) (m k : Nat) : Dev :=
  if !d.standby then d.finishLong k 4
  else
    let i := 0x2080 + k
    match d.nextRow m with
    | some c =>
      if d.rd i 4 < d.rd i 5 then
        let d := (d.repairRow m c).setPosition k (d.rd i 4 + 1)
        if d.rd i 4 = d.rd i 5 then d.finishLong k (d.repairResult k m) else d
      else d.finishLong k (d.repairResult k m)
    | none => d.finishLong k (d.repairResult k m)

/-! ### Maintenance windows -/

/-- A pseudo-channel's retraining ends: it holds the poison pattern until its words are rewritten, or it
stays faulted (R310). -/
def Dev.retrained (d : Dev) (ok : Bool) (p : Nat) : Dev :=
  if ok then
    ({ d with words := d.words.filter fun e => (placeOf (e.1 * 32)).pc != p }).setPcRt p
      { d.pc p with trained := true, poison := true }
  else d.pcFault p 3

/-- The wing whose ticks give the maintenance windows of an HBM device, the home wing first; none for the fixed grid
(R49). -/
def Dev.windowWing (d : Dev) (m : Nat) : Option Nat :=
  [2 * m, 2 * m + 1].find? fun w =>
    !(d.wing w).stopped && decide ((d.wing w).quietUntil ≤ d.now) && decide (byteAt (d.rdd 0x2300 8) w < 2)

/-- The end of the maintenance window of a device that holds the `len` ns before now (R49). -/
def Dev.maintenanceEnd (d : Dev) (m len : Nat) : Option Nat :=
  if d.rd (hbmIdx m) 1 = 2 then none
  else
    let a := d.now - len
    let (code, ph) := match d.windowWing m with
      | some w => (d.rate w, d.phase w)
      | none => (8, 0)
    let n := tickNumber code ph a
    let from_ := ph + ceilDiv ((100 * n + 98) * periodNum code * 1000000000) (100 * periodDen code)
    let until_ := tickInstant code ph (n + 1)
    if from_ ≤ a ∧ d.now ≤ until_ then some until_ else none

/-- The end of the window in which a pseudo-channel group may be out of service now: only one group of a device is, in
any one window (R49). -/
def Dev.groupWindow (d : Dev) (m g len : Nat) : Option Nat :=
  (d.maintenanceEnd m len).filter fun e =>
    let used := Tab.getD d.cal.groups m (0, 0)
    !(used.1 == e && used.2 != g)

/-- A group is out of service in a window. -/
def Dev.takeGroup (d : Dev) (m g e : Nat) : Dev :=
  { d with cal := { d.cal with groups := Tab.setD d.cal.groups m (e, g) (0, 0) } }

/-- The pseudo-channels of a device that wait for their retraining (R310). -/
def Dev.toRetrain (d : Dev) (m : Nat) : List Nat :=
  (List.range 32).filter fun p => (d.pc (32 * m + p)).state == 2 && !(d.pc (32 * m + p)).trained

/-- MAINTENANCE_WINDOW (R49), in a window of the device: the waiting pseudo-channels of one group are retrained;
otherwise a live repair takes one row, one per window (R320). -/
def Dev.window (d : Dev) (m : Nat) (ok : Bool) : Dev :=
  match d.toRetrain m with
  | p :: rest =>
    match d.groupWindow m (p / 4) 0 with
    | some e => ((p :: rest).filter fun q => q / 4 == p / 4).foldl (fun d q => d.retrained ok (32 * m + q))
        (d.takeGroup m (p / 4) e)
    | none => d
  | [] =>
    match d.memSlot 8 m, d.maintenanceEnd m 0 with
    | some k, some e =>
      if (d.longOp k).abortAsked ∨ (d.hbm m).rowAt = e then d
      else match d.nextRow m with
        | some c =>
          match d.groupWindow m (c.pc % 32 / 4) 0 with
          | some _ => ((d.takeGroup m (c.pc % 32 / 4) e).setHbm m { d.hbm m with rowAt := e }).repairWindow m k
          | none => d
        | none => d.repairWindow m k
    | _, _ => d

def execMaintenanceWindow (t m : Nat) (trainOk : Bool) (s : State) :
    Host.Outcome State Fault Refusal :=
  onDevMem t (fun mem d =>
    let (d, mem) := d.drainAll mem
    (d.window (m % 2) trainOk, mem)) s

/-- PC_RECOVERED: a recovered pseudo-channel returns to service, or its recovery has failed (R310). -/
def Dev.pcRecovered (d : Dev) (p : Nat) (ok : Bool) : Dev :=
  let x := d.pc p
  if x.state ≠ 2 then d
  else if !ok then d.pcFault p 3
  else if x.trained then
    (d.setPcRt p { x with state := 0, trained := false }).raise (uHb (p / 32)) 0x0E04 p 0 sevInfo
  else d

def execPcRecovered (t pc : Nat) (ok : Bool) (s : State) : Host.Outcome State Fault Refusal :=
  onDev t (·.pcRecovered pc ok) s

/-! ### Flash writes of the repair record -/

/-- A flash write of a memory command has ended (R321). -/
def Dev.memFlashDone (d : Dev) (k : Nat) : Dev :=
  let o := d.longOp k
  let m := o.arg % 16
  if o.arg / 16 = flashRecord then o.held.foldl (fun d key => d.recordRow m key) d
  else if o.arg / 16 = flashClear then
    let x := d.hbm m
    (d.setHbm m { x with repair := []
                         cands := x.cands.map fun c => { c with flags := setBit c.flags 3 false } }).wr
      (hbmIdx m) 0x0B 0
  else d

/-- MEMORY_COUNTER_RESET: 1 written to 0x2600:04. -/
def Dev.memCountersReset (d : Dev) : Dev :=
  let d := foldNat (fun d p =>
    d.setPcRt p { d.pc p with replays := 0, corrected := 0, uncorrectable := 0, discarded := 0 }) 64 d
  foldNat (fun d m =>
    let d := ((d.wr (hbmIdx m) 5 0).wr (hbmIdx m) 6 0).wr (hbmIdx m) 8 0
    d.setHbm m { d.hbm m with lost := 0 }) 2 d

def execMemoryCounterReset (t : Nat) (by_ : Requester) (s : State) :
    Host.Outcome State Fault Refusal :=
  onCommand t by_ (fun d => d.command by_ 0x2600 4 [1] (·.memCountersReset.res stOk)) s

/-- The pseudo-channel status of a device (sub 04). -/
def Dev.pcBytes (d : Dev) (m : Nat) : List Byte :=
  (List.range 32).flatMap fun p =>
    let x := d.pc (32 * m + p)
    leBytes 4 x.state ++ leBytes 4 x.replays ++ leBytes 4 x.corrected ++ leBytes 4 x.uncorrectable

/-- The candidate table of a device (sub 09). -/
def Dev.candBytes (d : Dev) (m : Nat) : List Byte :=
  padTo 1024 ((d.hbm m).cands.flatMap fun c =>
    leBytes 1 c.pc ++ leBytes 1 c.bank ++ leBytes 2 c.row ++ leBytes 4 c.count ++ leBytes 4 (c.flags % 256) ++
      leBytes 4 c.seen)

/-- The spare rows of a device (sub 0A). -/
def Dev.spareBytes (d : Dev) (m : Nat) : List Byte :=
  (List.range 384).map fun j =>
    let bank := j % 12 * 4
    BitVec.ofNat 8 (d.sparesLeft m (j / 12) bank)

end Sys2Proof.Machine
end

