-- ==== Sys2Proof/Machine/Cvu.lean ====
section
/-! DEFINITION. The check-value units CVU0 to CVU31 (R401 to R405), and the command objects of the fault
journal and of the AON record. -/
namespace Sys2Proof.Machine

/-! ### The journal's command objects -/

/-- JOURNAL_CLEAR_ENTRY: 0x2400:05 (R392). -/
def execJournalClearEntry (t : Nat) (by_ : Requester) (e : Nat) (s : State) :
    Host.Outcome State Fault Refusal :=
  onCommand t by_ (fun d => d.command by_ 0x2400 5 (leBytes 2 e) (·.jClearEntry e)) s

/-- JOURNAL_CLEAR_ALL: 0x2400:06 (R392). -/
def execJournalClearAll (t : Nat) (by_ : Requester) (s : State) : Host.Outcome State Fault Refusal :=
  onCommand t by_ (fun d => d.command by_ 0x2400 6 [1] (·.jClearAll.res stOk)) s

/-- JOURNAL_EMPTY: 0x2400:07 (R396). -/
def execJournalEmpty (t : Nat) (by_ : Requester) (s : State) : Host.Outcome State Fault Refusal :=
  onCommand t by_ (fun d => d.command by_ 0x2400 7 [1] (·.jEmpty.res stOk)) s

/-- AON_RECORD_CLEAR: 0x2402:03 (R400). -/
def execAonRecordClear (t : Nat) (by_ : Requester) (s : State) : Host.Outcome State Fault Refusal :=
  onCommand t by_ (fun d => d.command by_ 0x2402 3 [1] (·.aonClear.res stOk)) s

/-! ### Check-value units -/

/-- Object of check-value unit `u`. -/
def cvuIdx (u : Nat) : Nat := 0x2410 + u

/-- The CRC that unit `u` computes (R401). -/
def Dev.cvuCrc (d : Dev) (u : Nat) : CrcParams := crcParams (d.rd (cvuIdx u) 2)

/-- State of unit `u` (Table 18.8). -/
def Dev.cvuState (d : Dev) (u : Nat) : Nat := d.rd (cvuIdx u) 0x0A

/-- The refusal of most writes while a unit is BUSY or disabled (R402). -/
def Dev.cvuReady (d : Dev) (u : Nat) : Nat :=
  if d.cvuState u = 0 ∨ d.cvuState u = 2 then stWrongState else stOk

/-- Writes the running value, in the CRC's width: upper bits read 0 (R401). -/
def Dev.cvuSetRun (d : Dev) (u v : Nat) : Dev := d.wr (cvuIdx u) 4 (v % 2 ^ (d.cvuCrc u).width)

/-- The result of unit `u` (0x2410+u:05, R401). -/
def Dev.cvuResult (d : Dev) (u : Nat) : Nat := crcResult (d.cvuCrc u) (d.rd (cvuIdx u) 4)

/-- Feeds bytes to the running value (R402). -/
def Dev.cvuFeed (d : Dev) (u : Nat) (data : List Byte) : Dev :=
  d.cvuSetRun u (crcFeed (d.cvuCrc u) (d.rd (cvuIdx u) 4) data)

/-- The initial value of the selected CRC enters the running value, and the unit is IDLE (R402,
Table 18.8). -/
def Dev.cvuInit (d : Dev) (u : Nat) : Dev := (d.cvuSetRun u (d.cvuCrc u).init).wr (cvuIdx u) 0x0A 1

/-- The polynomial is selected; the running value keeps the bits of the new width (R401, R403). -/
def Dev.cvuSelect (d : Dev) (u code : Nat) : Dev :=
  let d := d.wr (cvuIdx u) 2 code
  d.cvuSetRun u (d.rd (cvuIdx u) 4)

/-- Boundaries of the physical address map (Table 1.6). -/
def mapBounds : List Nat :=
  [0x600000000, 0x800000000, 0xE00000000, 0x1000000000, 0x1100000000, 0x1140000000, 0x1140100000,
    0x1200000000, 0x1210000000]

/-- A range of bytes crosses a boundary of Table 1.6 (R402). -/
def crossesMap (a len : Nat) : Bool := mapBounds.any fun b => decide (a < b) && decide (b < a + len)

/-- Command 1: a DMA starts (R402). A length of 0, the object's default, is outside its range. -/
def Dev.cvuStart (d : Dev) (u : Nat) : Res :=
  let i := cvuIdx u
  if d.rd i 8 = 0 ∨ crossesMap (d.rd i 7) (d.rd i 8) then d.res stRange
  else ((d.wr i 0x0A 2).wr i 0x0B 0).res stOk

/-- The read that a DMA of unit `u` makes of its first `len` bytes. -/
def Dev.cvuAccess (d : Dev) (u len : Nat) : Access :=
  { cls := clsCvu, inst := u, mode := 0, op := 0, addr := d.rd (cvuIdx u) 7, len := len, data := [] }

/-- Bytes of a range from `a` that lie before the 32-byte word holding byte `b` (R404). -/
def bytesBefore (a b : Nat) : Nat := b / 32 * 32 - a

/-- What a DMA reads of its first `len` bytes: the bytes before the word that stops it, the status of
Table 18.9 that a poisoned or refused read gives it, and the device (R402, R404). -/
def Dev.cvuRead (d : Dev) (mem : Mem) (u len : Nat) (o : MemObs) : List Byte × Nat × Dev :=
  let a := d.cvuAccess u len
  let refused := d.checkAccess a
  let n := match refused with
    | some (ffb, _) => bytesBefore a.addr ffb
    | none => len
  let r : List Byte × List Nat × Dev := match hbmOf a.addr with
    | some _ => d.memRead mem a.addr n (accReq a) o.errs
    | none => let (b, d) := d.outsideRead a.addr n; (b, [], d)
  match r.2.1.head? with
  | some k =>
    let upTo := min n (bytesBefore a.addr ((a.addr / 32 + k + 1) * 32))
    let (b, _, d) := d.memRead mem a.addr upTo (accReq a) o.errs
    (b.take (bytesBefore a.addr ((a.addr / 32 + k) * 32)), 1,
      d.activates { a with len := upTo } o.acts)
  | none =>
    let d := if (hbmOf a.addr).isSome then r.2.2.activates { a with len := n } o.acts else r.2.2
    match refused with
    | some (ffb, v) =>
      (r.1, 2, d.violate { a with addr := ffb, len := min (256 - ffb % 256) (a.addr + len - ffb) } ffb v)
    | none => (r.1, 0, d)

/-- A DMA has ended after its first `len` bytes; `stop` is the status where nothing else stopped it
(R404). -/
def Dev.cvuEnd (d : Dev) (mem : Mem) (u len stop : Nat) (o : MemObs) : Dev :=
  let i := cvuIdx u
  let (b, why, d) := d.cvuRead mem u len o
  let status := if why = 0 then stop else why
  let d := ((d.cvuFeed u b).wr i 0x0B b.length).wr i 0x0C status
  if status = 0 then d.wr i 0x0A 3
  else (d.wr i 0x0A 4).raise (uCvu u) 0x1203 status (b.length % 2 ^ 32) sevInfo

/-- An abort stops a DMA at a 64-byte boundary of its range (R404); how far it has come is free. -/
def Dev.cvuAbort (d : Dev) (mem : Mem) (u : Nat) : Dev :=
  let (f, d) := d.free
  let len := d.rd (cvuIdx u) 8
  d.cvuEnd mem u (min len (64 * (f % (len / 64 + 1)))) 3 { errs := [], acts := [] }

/-- A change of a unit's enable applies (Table 18.8, R402). -/
def Dev.cvuEnabled (d : Dev) (mem : Mem) (u : Nat) : Dev :=
  if d.rdb (cvuIdx u) 1 then
    if d.cvuState u = 0 then d.cvuInit u else d
  else (if d.cvuState u = 2 then d.cvuAbort mem u else d).wr (cvuIdx u) 0x0A 0

/-- CVU_DATA: bytes written to sub 06 (R402). -/
def execCvuData (t : Nat) (by_ : Requester) (u : Nat) (data : List Byte) (s : State) :
    Host.Outcome State Fault Refusal :=
  onCommand t by_ (fun d => d.commandPre by_ (cvuIdx u) 6 data (d.cvuReady u)
    fun d => (d.cvuFeed u data).res stOk) s

/-- CVU_START_DMA: command 1 (R402). -/
def execCvuStartDma (t : Nat) (by_ : Requester) (u : Nat) (s : State) :
    Host.Outcome State Fault Refusal :=
  onCommand t by_ (fun d => d.commandPre by_ (cvuIdx u) 9 [1] (d.cvuReady u) (·.cvuStart u)) s

/-- CVU_ABORT: command 2, accepted in BUSY only (R402, R404). -/
def execCvuAbort (t : Nat) (by_ : Requester) (u : Nat) (s : State) : Host.Outcome State Fault Refusal :=
  onCommandMem t by_ (fun mem d =>
    d.commandPre by_ (cvuIdx u) 9 [2] (if d.cvuState u = 2 then stOk else stWrongState)
      fun d => (d.cvuAbort mem u).res stOk) s

/-- CVU_INITIALISE: command 3 (R402). -/
def execCvuInitialise (t : Nat) (by_ : Requester) (u : Nat) (s : State) :
    Host.Outcome State Fault Refusal :=
  onCommand t by_ (fun d => d.commandPre by_ (cvuIdx u) 9 [3] (d.cvuReady u)
    fun d => (d.cvuInit u).res stOk) s

/-- The refusal of a write of the running value: it is written in IDLE or DONE (R403). -/
def Dev.cvuRunReady (d : Dev) (u : Nat) : Nat :=
  if d.cvuState u = 1 ∨ d.cvuState u = 3 then stOk else stWrongState

/-- CVU_RUNNING_VALUE_WRITE: sub 04 (R403). -/
def execCvuRunningValueWrite (t : Nat) (by_ : Requester) (u v : Nat) (s : State) :
    Host.Outcome State Fault Refusal :=
  onCommand t by_ (fun d => d.commandPre by_ (cvuIdx u) 4 (leBytes 8 v) (d.cvuRunReady u)
    fun d => (d.cvuSetRun u v).res stOk) s

/-- CVU_DMA_END: the DMA has read its last byte, or what stops it (R404). -/
def execCvuDmaEnd (t u : Nat) (obs : MemObs) (s : State) : Host.Outcome State Fault Refusal :=
  onDevMem t (fun mem d =>
    if d.alive && d.cvuState u == 2 then (d.cvuEnd mem u (d.rd (cvuIdx u) 8) 0 obs, mem) else (d, mem)) s

end Sys2Proof.Machine
end

