-- ==== Sys2Proof/Machine/Duplex.lean ====
section
/-! DEFINITION. Duplex pairs: the interlock, claims and releases (R343 to R351), commanded role changes
(R352 to R357), comparison (R358 to R363), and the pair state. -/
namespace Sys2Proof.Machine

/-! ### Pair state -/

/-- Pair state (0x2100:03). -/
def Dev.pairState (d : Dev) : Nat := d.rd 0x2100 3

/-- Enters a pair state, with READINESS (Table 16.10), and tells the partner. -/
def Dev.setPair (d : Dev) (st : Nat) : Dev :=
  let old := d.pairState
  if old = st then d
  else
    let d := (d.wr 0x2100 3 st).raise uRing 0x1007 old st sevInfo
    d.toPartner "readiness" (leBytes 1 st ++ leBytes 4 (d.rd 0x1018 4) ++ leBytes 1 d.dup.inStep.toNat)

def Dev.setDup (d : Dev) (x : DupRt) : Dev := { d with dup := x }

/-- The resynchronisation in progress. -/
def Dev.resyncSlot (d : Dev) : Option Nat := d.slotOfKind 1

/-- The phase of the resynchronisation in progress; 0 where none runs. -/
def Dev.resyncPhase (d : Dev) : Nat := d.resyncSlot.elim 0 fun k => d.rd (0x2080 + k) 7

/-- A resynchronisation ends in failed (R367). -/
def Dev.resyncFail (d : Dev) (code : Nat) : Dev :=
  match d.resyncSlot with
  | none => d
  | some k => (d.finishLong k code).setPair 2

/-- Outputs, channels and send streams follow the role (R213, R236, R287). -/
def Dev.refreshSenders (d : Dev) : Dev := d.refreshOuts.refreshEncs.refreshSends

/-! ### Claim and release -/

/-- A role change: tr, its cause, its count, ROLE_CHANGE and NOTIFY ROLE (R355, Table 16.10). -/
def Dev.setRole (d : Dev) (new cause : Nat) : Dev :=
  let old := d.rd 0x2100 1
  let d := (((d.wr 0x2100 1 new).wr 0x2100 9 (time48 d.now)).wr 0x2100 0x0A cause).wr 0x2100 0x0B
    ((d.rd 0x2100 0x0B + 1) % 2 ^ 32)
  let d := d.raise uRing 0x1001 cause new (if cause = 3 then sevService else sevInfo)
  d.notify 4 d.now (leBytes 1 old ++ leBytes 1 new)

/-- A channel stops following because its device becomes active: it decides the rows that wait for a record
(R254, Table 9.4). -/
def Dev.endFollow (d : Dev) (c : Nat) : Dev :=
  let x := d.enc c
  if x.followCycle.isNone ∧ !x.followWanted then d
  else
    (d.setEnc c { x.ownRows with followCycle := none, followWanted := false, imports := [] }).wr
      (rcIdx c) 8 (if x.followCycle.isSome then 3 else d.rd (rcIdx c) 8)

/-- A port of a new active device: it goes on with the parameters it has adopted, and trains otherwise
(R346, R356). -/
def Dev.activatePort (d : Dev) (p : Nat) : Dev :=
  let x := d.dp p
  match x.adopted with
  | some ps => d.setDp p { x with link := 3, params := ps, adopted := none }
  | none => if x.hpd then d.train p else d

/-- A port of a device that has become standby transmits with the parameters it has (R346). -/
def Dev.standbyPort (d : Dev) (p : Nat) : Dev :=
  let x := d.dp p
  if x.link = 3 then d.setDp p { x with adopted := some x.params } else d

/-- Whether an event lies within 10 µs of an instant held as one past it. -/
def Dev.justNow (d : Dev) (at1 : Nat) : Bool := at1 != 0 && decide (d.now < at1 + 10000)

/-- Release (R349): sends are gated, the heartbeat stops, the role becomes standby. `swap`: it falls at
T+0 of a swap whose confirmation arrived in time. -/
def Dev.release (d : Dev) (swap : Bool) : Dev :=
  let x := d.dup
  let d := d.setDup { x with
    holdOut := x.holdOut && d.guardianStopped, gated := false, swap := none, armed := false, run := 0
    edge := none, edgeAt := 0, inStep := swap, partnerIn := false, partner := 1 }
  let d := d.setRole 0 (if swap then 2 else 4)
  let d := d.setPair (if swap then 4 else 2)
  (foldNat Dev.standbyPort 16 d).refreshSenders

/-- A claim (R349): ILK_TAKE_OUT rises and the device becomes active. A claim of the partner within 10 µs
makes the device in position S release, and P ignore the partner's pulse (R350). -/
def Dev.claim (d : Dev) (cause : Nat) : Dev :=
  let x := d.dup
  let conflict := x.takeIn && d.justNow x.takeInAt
  let d := d.resyncFail 2
  let swap := cause == 2
  let d := d.setDup { x with
    takeOut := true, claimAt := d.now + 1, beatFrom := d.now + 100000, armed := false, run := 0
    edge := none, edgeAt := 0, asked := none, gated := false, ignored := conflict && !d.posS
    partnerIn := swap, partner := if swap then 4 else 0 }
  let d := d.send (.pin "ILK_TAKE_OUT" [1])
  let d := (d.setRole 1 cause).setPair 1
  let d := foldNat Dev.activatePort 16 (foldNat Dev.endFollow 16 d)
  let d := d.refreshSenders
  if conflict && d.posS then (d.raise uRing 0x1008 1 0 sevInfo).release false else d.announce

/-- Protection changes at a tick (R343): from Single to Duplex the device becomes standby, or claims with
value 2; from Duplex to Single it acts as active. -/
def Dev.protectionChanged (d : Dev) (old new : Nat) : Dev :=
  if (old != 0) == (new != 0) then d
  else
    let d := d.setDup { d.dup with armed := false, run := 0, edge := none, edgeAt := 0, linkUp := d.pairLink }
    if new = 0 then
      let d := d.setDup { d.dup with holdOut := false, takeOut := false, gated := false, swap := none
                                     asked := none, own := [], theirs := [], partnerIn := false }
      let d := d.resyncFail 2
      let was := d.active
      let d := ((d.wr 0x2100 1 1).setPair 0).refreshSenders
      if was then d else d.announce
    else
      let d := ((d.wr 0x2100 1 0).setPair 2).refreshSenders
      if new = 2 then d.claim 1 else foldNat Dev.standbyPort 16 d

/-! ### Interlock lines -/

/-- HEARTBEAT: the guardian pair of an active device toggles ILK_HOLD_OUT, with one edge at each whole multiple of 500 µs,
within 1 µs of it (R347). -/
def Dev.heartbeat (d : Dev) : Dev :=
  let m := (d.now + 1000) / 500000
  if d.duplex && d.active && !d.guardianStopped && !d.dup.gated && decide (d.dup.beatFrom ≤ d.now) &&
      decide (d.now ≤ m * 500000 + 1000) then
    let d := d.setDup { d.dup with holdOut := !d.dup.holdOut, beatFrom := (m + 1) * 500000 - 1000 }
    d.send (.pin "ILK_HOLD_OUT" [d.dup.holdOut.toNat])
  else d

def execHeartbeat (t : Nat) (s : State) : Host.Outcome State Fault Refusal :=
  onGuard t (·.heartbeat) s

/-- An edge on ILK_HOLD_IN at an instant of the AON oscillator (R348): 20 edges spaced 450 to 550 µs arm the
detector. -/
def Dev.holdEdge (d : Dev) (aon : Nat) : Dev :=
  if !d.standby then d
  else
    let x := d.dup
    let inWindow := match x.edge with
      | some e => decide (e + 450000 ≤ aon) && decide (aon ≤ e + 550000)
      | none => false
    let run := if inWindow then x.run + 1 else 1
    d.setDup { x with
      edge := some aon, run := min run 20, armed := x.armed || decide (20 ≤ run)
      edgeAt := if inWindow || !x.armed then d.now + 1 else x.edgeAt }

/-- ILK_HOLD_EDGE (R348). -/
def execIlkHoldEdge (t aon : Nat) (s : State) : Host.Outcome State Fault Refusal :=
  onGuard t (·.holdEdge aon) s

/-- DETECTOR_EXPIRY: no edge for 3.0 ms, by an oscillator of ±1 % (R348). The standby claims by its arming,
or reports PARTNER_LOST (R351). -/
def Dev.expire (d : Dev) : Dev :=
  let x := d.dup
  if !d.standby || !x.armed || x.edgeAt == 0 || decide (d.now < x.edgeAt - 1 + 2970000) then d
  else
    let d := d.setDup { x with armed := false, run := 0, edge := none, edgeAt := 0 }
    let arming := d.rd 0x2100 4
    if arming = 2 ∨ (arming = 1 ∧ d.pairState = 4) then d.claim 3
    else d.raise uRing 0x1002 arming d.pairState sevService

def execDetectorExpiry (t : Nat) (s : State) : Host.Outcome State Fault Refusal :=
  onGuard t (·.expire) s

/-- Whether a rising edge on ILK_TAKE_IN is the claim of a committed swap: the release falls at T+0 of its
tick (R349, R354); the model takes the 1 ms of the pulse on either side. -/
def Dev.swapNow (d : Dev) : Bool :=
  match d.dup.swap with
  | some w => w.confirmed && decide (w.at_ ≤ d.now + 1000000) && decide (d.now ≤ w.at_ + 1000000)
  | none => false

/-- A rising edge on ILK_TAKE_IN (R349, R350). -/
def Dev.takeInRise (d : Dev) : Dev :=
  let x := d.dup
  let d := d.setDup { x with takeIn := true, takeInAt := d.now + 1, ignored := false }
  if d.pwr.state = 5 then d
  else if !d.duplex || !d.active || !d.alive then d.refreshOuts
  else if d.justNow x.claimAt then
    if d.posS then (d.raise uRing 0x1008 1 0 sevInfo).release false
    else d.setDup { d.dup with ignored := true }
  else d.release d.swapNow

/-- ILK_TAKE_IN (R349). -/
def execIlkTakeIn (t : Nat) (s : State) : Host.Outcome State Fault Refusal :=
  onAon t (·.takeInRise) s

/-- ILK_TAKE_IN_FALL: the switches follow Table 16.2 again (R350). -/
def execIlkTakeInFall (t : Nat) (s : State) : Host.Outcome State Fault Refusal :=
  onAon t (fun d => (d.setDup { d.dup with takeIn := false, ignored := false }).refreshOuts) s

/-- CLAIM_PULSE_END: ILK_TAKE_OUT falls 1.0 ms after a claim (R349). -/
def execClaimPulseEnd (t : Nat) (s : State) : Host.Outcome State Fault Refusal :=
  onGuard t (fun d =>
    if d.dup.takeOut && decide (d.dup.claimAt - 1 + 1000000 ≤ d.now) then
      (d.setDup { d.dup with takeOut := false }).send (.pin "ILK_TAKE_OUT" [0])
    else d) s

/-! ### Commanded role changes -/

/-- Command 1 of 0x2100:05 (R352). -/
def Dev.askClaim (d : Dev) : Res :=
  if !d.standby || d.dup.armed then d.res stWrongState else (d.claim 1).res stOk

/-- CLAIM (R352). -/
def execClaim (t : Nat) (by_ : Requester) (s : State) : Host.Outcome State Fault Refusal :=
  onCommand t by_ (fun d => d.command by_ 0x2100 5 [1] (·.askClaim)) s

/-- A slot of an active slot table (0x2120 clockwise, 0x2121 counter-clockwise): sender, class, reach and
flow (Table 17.5). -/
def tableEntry (tab : List Byte) (j : Nat) : Nat × Nat × Nat × Nat :=
  (byteAt tab (16 + 4 * j), byteAt tab (17 + 4 * j), byteAt tab (18 + 4 * j), byteAt tab (19 + 4 * j))

/-- The active slot table of a ring; unassigned slots have sender 0xFF. -/
def Dev.slotTable (d : Dev) (ring : Nat) : List Byte :=
  let b := d.rdd (0x2120 + ring) 1
  if b.isEmpty then List.replicate 16 0 ++ (List.replicate 256 [0xFF, 0, 0, 0]).flatMap id else b

/-- The sender slots of a ring's table that a test on sender, class and reach picks. -/
def Dev.flowSlots (d : Dev) (ring : Nat) (p : Nat → Nat → Nat → Bool) : List Nat :=
  let tab := d.slotTable ring
  (List.range 256).filter fun j =>
    let e := tableEntry tab j
    p e.1 e.2.1 e.2.2.1

/-- Whether sender slots lie no more than `gap` apart, around the ring tick. -/
def gapsWithin (gap : Nat) (js : List Nat) : Bool :=
  match js with
  | [] => false
  | a :: _ =>
    ((js.zip (js.drop 1 ++ [a + 256])).all fun e => decide (e.2 - e.1 ≤ gap))

/-- A table gives this node class 2 flows that reach every node, no more than 64 slots apart (R386). -/
def Dev.timedIn (d : Dev) (tab : List Byte) : Bool :=
  gapsWithin 64 ((List.range 256).filter fun j =>
    let e := tableEntry tab j
    e.1 == d.node' && e.2.1 == 2 && decide (d.rd 0x2110 4 ≤ e.2.2.1 + 1))

/-- This node may issue a timed operation: it has such flows on both rings, or is alone (R386). -/
def Dev.timedFlows (d : Dev) : Bool :=
  !d.ringOn || decide (d.rd 0x2110 4 ≤ 1) || (d.timedIn (d.slotTable 0) && d.timedIn (d.slotTable 1))

/-- Command 2 of 0x2100:05 (R353). -/
def Dev.askSwap (d : Dev) : Res :=
  let n := d.rd 0x2100 6
  let at_ := d.tickTime 0 n
  if !d.duplex || !d.active || d.dup.partner != 4 || !d.dup.linkUp || !d.timedFlows then d.res stWrongState
  else if at_ < d.now + 6000000 then d.res stTooLate
  else if d.now + 600000000000 < at_ then d.res stTooFar
  else if d.dup.swap.isSome then d.res stBusy
  else (d.setDup { d.dup with swap := some { tick := n, at_ := at_ } }).res stOk

/-- SWAP (R353). -/
def execSwap (t : Nat) (by_ : Requester) (s : State) : Host.Outcome State Fault Refusal :=
  onCommand t by_ (fun d => d.command by_ 0x2100 5 [2] (·.askSwap)) s

/-- Command 3 of 0x2100:05 (R353). -/
def Dev.cancelSwap (d : Dev) : Res :=
  match d.dup.swap with
  | some w =>
    if d.now + 2000000 < w.at_ then (d.setDup { d.dup with swap := none }).res stOk
    else d.res stWrongState
  | none => d.res stWrongState

/-- CANCEL_SWAP (R353). -/
def execCancelSwap (t : Nat) (by_ : Requester) (s : State) : Host.Outcome State Fault Refusal :=
  onCommand t by_ (fun d => d.command by_ 0x2100 5 [3] (·.cancelSwap)) s

/-- SWAP_FAILED (Table 16.10). -/
def Dev.swapFailed (d : Dev) (reason tick : Nat) : Dev :=
  d.raise uRing 0x1003 reason (tick % 2 ^ 32) sevDegraded

/-- The active cancels a swap, and tells the standby (R354). -/
def Dev.dropSwap (d : Dev) (w : SwapRt) (reason : Nat) : Dev :=
  ((d.setDup { d.dup with swap := none, gated := false }).toPartner "swap-cancel"
    (leBytes 8 w.tick ++ leBytes 1 reason)).swapFailed reason w.tick

/-- Numbers of the batches pending on this device. -/
def Dev.pendingNumbers (d : Dev) : List Nat := d.batches.map (·.num)

/-- SWAP_PREPARE on the active: its batch state goes out at T+0 of N − 2 ms. On the standby: it confirms or
declines (R354). -/
def Dev.swapPrepare (d : Dev) (m : SwapState) : Dev :=
  if !d.duplex then d
  else if d.active then
    match d.dup.swap with
    | some w =>
      if w.sent || decide (d.now + 2000000 < w.at_) then d
      else
        (d.setDup { d.dup with swap := some { w with sent := true } }).toPartner "swap-prepare"
          (leBytes 8 w.tick ++ leBytes 4 d.dup.applied ++ d.pendingNumbers.flatMap (leBytes 4))
    | none => d
  else
    let mine := d.pendingNumbers
    let same := d.dup.applied == m.applied && mine.all m.pending.contains && m.pending.all mine.contains
    if d.pairState = 4 ∧ same then
      (d.setDup { d.dup with asked := some m.tick }).toPartner "swap-confirm" (leBytes 8 m.tick)
    else
      (d.setDup { d.dup with asked := none }).toPartner "swap-decline"
        (leBytes 8 m.tick ++ leBytes 1 (if d.pairState = 4 then 3 else 2))

def execSwapPrepare (t : Nat) (m : SwapState) (s : State) : Host.Outcome State Fault Refusal :=
  onDev t (·.swapPrepare m) s

/-- SWAP_CONFIRMATION: a confirmation or decline reaches the active; a cancellation reaches the standby
(R354). -/
def Dev.swapAnswered (d : Dev) (a : SwapAnswer) : Dev :=
  if !d.duplex then d
  else match a, d.active, d.dup.swap with
  | .confirm, true, some w =>
    if d.now + 1000000 ≤ w.at_ then
      d.setDup { d.dup with swap := some { w with confirmed := true } }
    else d
  | .decline r, true, some w => d.dropSwap w r
  | .cancel k r, false, _ =>
    (d.setDup { d.dup with asked := if d.dup.asked = some k then none else d.dup.asked }).swapFailed r k
  | _, _, _ => d

def execSwapConfirmation (t : Nat) (answer : SwapAnswer) (s : State) :
    Host.Outcome State Fault Refusal :=
  onDev t (·.swapAnswered answer) s

/-- SWAP_CONFIRM_DEADLINE: T+0 of N − 1 ms without a confirmation (R354). -/
def execSwapConfirmDeadline (t : Nat) (s : State) : Host.Outcome State Fault Refusal :=
  onDev t (fun d =>
    match d.dup.swap with
    | some w => if !w.confirmed && decide (w.at_ ≤ d.now + 1000000) then d.dropSwap w 1 else d
    | none => d) s

/-- T+0 of W0 tick `k` (R354, Table 16.4): the confirmed standby claims; the active gates its sends, and
takes up sending again at the next tick if no claim has come. -/
def Dev.swapTick (d : Dev) (k : Nat) : Dev :=
  if !d.duplex then d
  else if d.dup.asked = some k ∧ d.standby then d.claim 2
  else match d.dup.swap with
    | some w =>
      if w.tick = k ∧ w.confirmed then
        let x := d.dup
        (d.setDup { x with gated := true, holdOut := x.holdOut && d.guardianStopped }).refreshSenders
      else if w.tick < k then (d.setDup { d.dup with swap := none, gated := false }).refreshSenders
      else d
    | none => d

/-! ### The ring to the partner -/

/-- An own record is not compared (R360): byte 56 becomes 4. -/
def Dev.setByte56 (d : Dev) (i chunk at_ n v : Nat) (count : Nat) : Dev :=
  let b := d.rdc i 1 chunk
  if fieldAt b at_ n = count % 2 ^ (8 * n) ∧ !b.isEmpty then
    d.wrc i 1 chunk (slice b 0 56 ++ leBytes 1 v ++ slice b 57 (b.length - 57))
  else d

/-- Writes a comparison's result into the ledger entry or picture record (R187, R237, R360). -/
def Dev.setResult (d : Dev) (kind n count v : Nat) : Dev :=
  if kind = 0 then d.setByte56 (0x5000 + n) (count % 16) 12 4 v count
  else d.setByte56 (0x3540 + n) (count % 16) 4 8 v count

/-- A record that finds no partner's record. -/
def Dev.notCompared (d : Dev) (r : CompareRec) : Dev :=
  let (kind, n, count) := recKey r
  if kind = 2 then d
  else
    let d := d.setResult kind n count 4
    if kind = 0 then d.addf 0x2100 0x0E 3 1 8 else d

/-- The ring to the partner is lost (R363). -/
def Dev.pairLost (d : Dev) (side : Nat) : Dev :=
  let d := d.raise uRing 0x1006 side 0 sevService
  let own := d.dup.own
  let d := own.foldl (fun d e => d.notCompared e.1) (d.setDup { d.dup with own := [], theirs := [] })
  let d := match d.dup.swap with
    | some w => (d.setDup { d.dup with swap := none, gated := false }).refreshSenders.swapFailed 4 w.tick
    | none => d
  let d := match d.dup.asked with
    | some k => (d.setDup { d.dup with asked := none }).swapFailed 4 k
    | none => d
  let d := d.setDup { d.dup with partner := 0, partnerIn := false, inStep := false }
  let d := d.resyncFail 1
  if d.standby then d.setPair 2 else d

/-- Follows the ring to the partner: `side` is the one that has changed. -/
def Dev.refreshLink (d : Dev) (side : Nat) : Dev :=
  let up := d.pairLink
  if up = d.dup.linkUp then d
  else
    let lost := d.duplex && !up
    let d := d.setDup { d.dup with linkUp := up }
    if lost then d.pairLost side
    else d.toPartner "readiness"
      (leBytes 1 d.pairState ++ leBytes 4 (d.rd 0x1018 4) ++ leBytes 1 d.dup.inStep.toNat)

/-! ### Comparison -/

/-- Equal region fields (R360): the capture time counts only where neither side has conditions bit 7. -/
def sameRegion (a b : CmpRegion) : Bool :=
  a.layer == b.layer && a.source == b.source && a.seq == b.seq && a.crc == b.crc && a.state == b.state &&
    a.conds == b.conds && a.incomplete == b.incomplete &&
    (a.conds.testBit 7 || b.conds.testBit 7 || a.capture == b.capture)

/-- The side a divergence names: the role, 0 standby or 1 active, of the one device at fault; otherwise 2
(R361). -/
def Dev.faultSide (d : Dev) (ownBad theirsBad : Bool) : Nat :=
  if ownBad == theirsBad then 2
  else if ownBad then d.active.toNat else (!d.active).toNat

/-- Result and side of a comparison (R360, R361). `diverged`: the inputs of the channel have differed, and
it has not followed since. -/
def Dev.compareRecs (d : Dev) (own theirs : CompareRec) (diverged : Bool) : Nat × Nat :=
  match own, theirs with
  | .output _ _ t1 b1 u1 r1 c1 m1 x1, .output _ _ t2 b2 u2 r2 c2 m2 x2 =>
    if t1 ≠ t2 ∨ b1 ≠ b2 ∨ r1.length ≠ r2.length ∨ !((r1.zip r2).all fun e => sameRegion e.1 e.2) then
      (2, 2)
    else if c1 = c2 ∧ m1 = m2 then (1, 2)
    else (3, if u1 || u2 then 2 else d.faultSide (x1 != c1) (x2 != c2))
  | .picture _ _ i1 e1 l1 f1, .picture _ _ i2 e2 l2 f2 =>
    if f1 || f2 then (4, 2)
    else if i1 ≠ i2 ∨ diverged then (2, 2)
    else if e1 = e2 then (1, 2)
    else (3, d.faultSide l1 l2)
  | _, _ => (4, 2)

/-- A standby's channel follows again after a divergence, by policy (R362). -/
def Dev.refollow (d : Dev) (c : Nat) : Dev :=
  if !d.standby || d.encState c < 2 then d
  else d.setEnc c { d.enc c with followWanted := d.rd 0x2100 7 == 0 || (d.enc c).followWanted }

/-- DIVERGENCE, once per output or channel per tick (R361). -/
def Dev.divergence (d : Dev) (kind n count side : Nat) (r : CompareRec) : Dev :=
  let k := d.tickOf (d.recWing r) d.now
  let key := kind * 256 + n
  let told := Tab.getD d.dup.divAt key 0 = k + 1
  let d := d.setDup { d.dup with divAt := Tab.setD d.dup.divAt key (k + 1) 0 }
  let d := d.wrd 0x2100 0x10 (leBytes 1 kind ++ leBytes 1 n ++ leBytes 1 side ++ leBytes 1 0 ++
    leBytes 4 count ++ leBytes 8 k)
  let d := if told then d else d.raise uRing 0x1004 key side (if side = 1 then sevService else sevDegraded)
  if side = 0 ∧ d.pairState = 4 then d.setPair 2 else d

/-- INPUT_DIVERGENCE, once per second per output or channel (R361). -/
def Dev.inputDivergence (d : Dev) (kind n : Nat) : Dev :=
  let key := kind * 256 + n
  let e := Tab.getD d.dup.inDiv key ([], 0)
  let times := (e.1 ++ [d.now]).filter fun t => decide (d.now < t + 1000000000)
  let due := e.2 == 0 || decide (e.2 - 1 + 1000000000 ≤ d.now)
  let d := d.setDup { d.dup with
    inDiv := Tab.setD d.dup.inDiv key (times, if due then d.now + 1 else e.2) ([], 0) }
  if due then d.event uRing 0x1005 key times.length else d

/-- The result of a comparison takes effect (R360 to R362, R366). -/
def Dev.compared (d : Dev) (own theirs : CompareRec) : Dev :=
  let (kind, n, count) := recKey own
  let state := Tab.getD d.dup.following n 0
  let imported := match own, theirs with
    | .picture _ _ _ _ _ a, .picture _ _ _ _ _ b => a || b
    | _, _ => false
  -- a diverged channel is in step again when pictures follow that were not imported
  let state := if kind ≠ 1 then 0 else if state = 0 then 0 else if imported then 2
    else if state = 2 then 0 else state
  let (code, side) := d.compareRecs own theirs (state == 1)
  let d := if kind = 1 then
      let st := if code = 2 then 1 else if code = 3 ∧ state = 0 then 3 else state
      d.setDup { d.dup with following := Tab.setD d.dup.following n st 0 }
    else d
  let d := d.setResult kind n count code
  let d := match kind, code with
    | 0, c => d.addf 0x2100 0x0E (c - 1) 1 8
    | 1, 1 => d.addf 0x2100 0x0E 4 1 8
    | 1, 3 => d.addf 0x2100 0x0E 5 1 8
    | _, _ => d
  let d := if code = 3 then d.divergence kind n count side own
    else if code = 2 then d.inputDivergence kind n else d
  let d := if kind = 1 ∧ (code = 2 ∨ code = 3) then d.refollow n else d
  if d.resyncPhase = 4 then
    if code = 3 then d.resyncFail 4
    else if code = 1 ∧ !d.dup.matched.contains (kind * 256 + n) then
      let d := d.setDup { d.dup with matched := d.dup.matched ++ [kind * 256 + n] }
      match d.resyncSlot with
      | some k => d.setPosition k (d.rd (0x2080 + k) 4 + 1)
      | none => d
    else d
  else d

/-- An own record is made: it is sent, and compared or kept (R359, R360). -/
def Dev.ownRecord (d : Dev) (r : CompareRec) : Dev :=
  if !d.duplex then d
  else if !d.dup.linkUp then d.notCompared r
  else
    let d := d.sendRec r
    match d.takeTheirs r with
    | (some x, d) => d.compared r x
    | (none, d) => d.keepOwn r

/-- COMPARE_RECORD: the partner's record arrives (R360). -/
def Dev.partnerRecord (d : Dev) (r : CompareRec) : Dev :=
  if !d.duplex then d
  else match d.takeOwn r with
    | (some (.source n _ ok c), d) =>
      match r with
      | .source _ _ ok2 c2 => d.compareSource n (ok == ok2 && c == c2) (c == c2)
      | _ => d
    | (some x, d) => d.compared x r
    | (none, d) => d.keepTheirs r

def execCompareRecord (t : Nat) (r : CompareRec) (s : State) : Host.Outcome State Fault Refusal :=
  onDev t (·.partnerRecord r) s

/-- COMPARE_TIMEOUT: two ticks have passed without the partner's record (R360). -/
def execCompareTimeout (t kind n count : Nat) (s : State) : Host.Outcome State Fault Refusal :=
  onDev t (fun d =>
    match d.dup.own.find? fun e => recKey e.1 == (kind, n, count) && d.twoTicksAgo e.1 e.2 with
    | some e => (d.setDup { d.dup with own := d.dup.own.erase e }).notCompared e.1
    | none => d) s

/-- DUPLEX_COUNTER_RESET: 1 written to 0x2100:0F. -/
def execDuplexCounterReset (t : Nat) (by_ : Requester) (s : State) :
    Host.Outcome State Fault Refusal :=
  onCommand t by_ (fun d =>
    d.command by_ 0x2100 0x0F [1] fun d => (d.clearFields 0x2100 0x0E 7).res stOk) s

/-! ### Ledger entries, picture records and following -/

/-- The region of a ledger entry as a compare record names it. -/
def RegEval.cmp (e : RegEval) : CmpRegion :=
  { layer := e.layer, source := e.source, seq := e.seq, crc := e.crc, state := e.state, conds := e.conds
    incomplete := false, capture := e.capture }

/-- The compare record of a raster frame (R359). The read check value of a frame with underruns is
free. -/
def Dev.outputRecord (d : Dev) (o : Nat) (r : Raster) : Dev :=
  let (v, d) := d.free
  d.ownRecord (.output o (r.k % 2 ^ 32) r.tick (r.comp.elim 0 (·.batch)) r.underrun (r.evals.map (·.cmp)) r.crc
    r.marking (if r.underrun then v % 2 ^ 32 else r.crc))

/-- LEDGER_ENTRY (R186, R359). -/
def Dev.ledgerEntry (d : Dev) (o : Nat) : Dev :=
  match (d.out o).entry with
  | none => d
  | some r =>
    let d := d.ledgerWrite o
    if d.guardianStopped || !d.duplex then d else d.outputRecord o r

def execLedgerEntry (t o : Nat) (s : State) : Host.Outcome State Fault Refusal :=
  onDev t (·.ledgerEntry o) s

/-- Pictures that a channel has still to import (Table 16.6, phase 3). -/
def Dev.followLeft (d : Dev) (c : Nat) : Nat :=
  let x := d.enc c
  if x.followWanted then (if x.pos = 0 then 0 else x.period - x.pos) + x.period
  else match x.followCycle with
    | some k => x.period - (d.rd (encIdx c) 0x24 - k)
    | none => 0

/-- Moves phase 3 of a resynchronisation. -/
def Dev.followPosition (d : Dev) : Dev :=
  match d.resyncSlot with
  | some k =>
    if d.resyncPhase = 3 then
      d.setPosition k (min (d.rd (0x2080 + k) 4) ((List.range 16).foldl (fun a c => a + d.followLeft c) 0))
    else d
  | none => d

/-- PICTURE_RECORD (R237, R359). -/
def execPictureRecord (t c : Nat) (s : State) : Host.Outcome State Fault Refusal :=
  onDev t (fun d =>
    match d.pictureRecord c with
    | (d, some (p, i, e)) =>
      (d.ownRecord (.picture c p.count i e (p.flags.testBit 5) p.imported)).followPosition
    | (d, none) => d) s

/-- ROW_RECORD_RECEIVED (R253). -/
def execRowRecordReceived (t c : Nat) (set : RowRecordSet) (s : State) :
    Host.Outcome State Fault Refusal :=
  onDev t (fun d => (d.rowRecords c set).followPosition) s

/-- FOLLOW_LOST (R254); it ends a resynchronisation in its phase 3 (Table 16.7). -/
def execFollowLost (t c : Nat) (s : State) : Host.Outcome State Fault Refusal :=
  onDev t (fun d =>
    let was := d.rd (rcIdx c) 8
    let d := d.followLost c
    if was ≠ 3 ∧ d.rd (rcIdx c) 8 = 3 ∧ d.resyncPhase = 3 then d.resyncFail 3 else d) s

/-- Command 5 of 0x2100:05: the channels of a standby that are not in step follow from their next cycle
start (R362). -/
def Dev.askRefollow (d : Dev) : Res :=
  if !d.standby then d.res stWrongState
  else
    (foldNat (fun d c =>
      if d.encState c = 4 ∧ (Tab.getD d.dup.following c 0 ≠ 0 ∨ d.rd (rcIdx c) 8 = 3) then
        d.setEnc c { d.enc c with followWanted := true }
      else d) 16 d).res stOk

/-- REFOLLOW (R362). -/
def execRefollow (t : Nat) (by_ : Requester) (s : State) : Host.Outcome State Fault Refusal :=
  onCommand t by_ (fun d => d.command by_ 0x2100 5 [5] (·.askRefollow)) s

/-- LINK_PARAMETERS_RECEIVED: a standby port adopts its partner's link parameters (R346). -/
def execLinkParametersReceived (t p : Nat) (params : List Byte) (s : State) :
    Host.Outcome State Fault Refusal :=
  onDev t (fun d =>
    if d.standby ∧ p < 16 then
      let d := d.setDp p { d.dp p with adopted := some params }
      foldNat (fun d m => d.refreshOut (4 * p + m)) 4 d
    else d) s

/-- Interlock status (0x2100:08). -/
def Dev.interlock (d : Dev) : Nat :=
  let x := d.dup
  let toggling := x.edgeAt != 0 && decide (d.now < x.edgeAt + 3000000)
  let bare := d.standby && (List.range 16).any fun p =>
    (d.dp p).adopted.isNone && (List.range 4).any fun m => d.outOn (4 * p + m)
  toggling.toNat + x.armed.toNat * 2 + x.takeIn.toNat * 4 + x.takeOut.toNat * 8 +
    (!d.switchesClosed).toNat * 16 + bare.toNat * 32 + x.swap.isSome.toNat * 64 + x.linkUp.toNat * 128

end Sys2Proof.Machine
end

