-- ==== Sys2Proof/Machine/LineCode.lean ====
section
/-! DEFINITION. The line code of a ring lane (R371, R372): blocks of 2,048 line bits, the scrambler, the stuff bits and the
fill. No command carries line bits but the raw bits of RING_ALIGN, so these are functions of a lane's stream, which the
transmitter and the receiver of each lane run. -/
namespace Sys2Proof.Machine

/-- What a lane's transmitter or receiver carries from bit to bit: the latest line bit, how many equal bits the stream
ends with, and the latest 58 scrambled bits, newest first. -/
structure LaneCoder where
  last : Bool := false
  run : Nat := 0
  hist : List Bool := List.replicate 58 false
  deriving DecidableEq, Repr

/-- The alignment word (R371). -/
def alignWord : Nat := 0xF0C3A5D23C960F5A

/-- The alignment word of a block, sent most significant bit first; an urgent block has the complement (R371). -/
def alignBits (urgent : Bool) : List Bool := (List.range 64).map fun k => alignWord.testBit (63 - k) != urgent

/-- The length of the run of equal bits that ends with a new bit. -/
def runAfter (last : Bool) (run : Nat) (b : Bool) : Nat := if b = last then run + 1 else 1

/-- Unscrambled bits pass, and count in the run. -/
def LaneCoder.pass (x : LaneCoder) (bs : List Bool) : LaneCoder :=
  bs.foldl (fun x b => { x with run := runAfter x.last x.run b, last := b }) x

/-- The self-synchronous scrambler of x⁵⁸ + x³⁹ + 1 (R371). -/
def scramble (hist : List Bool) : List Bool → List Bool
  | [] => []
  | b :: r =>
    let s := (b != (hist.getD 38 false != hist.getD 57 false))
    s :: scramble (s :: hist.take 57) r

/-- The descrambler: it depends on the received bits alone. -/
def descramble (hist : List Bool) : List Bool → List Bool
  | [] => []
  | s :: r => (s != (hist.getD 38 false != hist.getD 57 false)) :: descramble (s :: hist.take 57) r

/-- Stuffing: one complementary bit after each run of 20, which begins a run of its own (R372). -/
def stuffBits (last : Bool) (run : Nat) : List Bool → List Bool
  | [] => []
  | b :: r =>
    if runAfter last run b = 20 then b :: (!b) :: stuffBits (!b) 1 r
    else b :: stuffBits b (runAfter last run b) r

/-- The receiver removes every bit that follows 20 equal bits (R372). `skip`: the next one is such a bit. -/
def unstuffBits (last : Bool) (run : Nat) (skip : Bool) : List Bool → List Bool
  | [] => []
  | b :: r =>
    if skip then unstuffBits b 1 false r
    else b :: unstuffBits b (runAfter last run b) (runAfter last run b == 20) r

/-- Fill bits: they start with the complement of the bit before them and alternate (R372). -/
def fillBits (last : Bool) : Nat → List Bool
  | 0 => []
  | n + 1 => (!last) :: fillBits (!last) n

/-- The latest bits of a stream, newest first, after more of it. -/
def histAfter (hist bs : List Bool) : List Bool := (bs.reverse ++ hist).take 58

/-- A block: its alignment word, and 1,984 line bits: 1,888 payload bits scrambled, stuff bits and fill (R371, R372). -/
def LaneCoder.block (x : LaneCoder) (urgent : Bool) (payload : List Bool) : List Bool × LaneCoder :=
  let head := alignBits urgent
  let y := x.pass head
  let coded := scramble y.hist payload
  let sent := stuffBits y.last y.run coded
  let z := y.pass sent
  let line := sent ++ fillBits z.last (1984 - sent.length)
  (head ++ line, { z.pass (fillBits z.last (1984 - sent.length)) with hist := histAfter y.hist coded })

/-- The receiver's reading of a block: whether it is urgent, its 1,888 payload bits, and the receiver after it. -/
def LaneCoder.read (x : LaneCoder) (bits : List Bool) : Bool × List Bool × LaneCoder :=
  let head := bits.take 64
  let y := x.pass head
  let coded := (unstuffBits y.last y.run false (bits.drop 64)).take 1888
  (head == alignBits true, descramble y.hist coded, { x.pass bits with hist := histAfter y.hist coded })

/-- The bytes of a frame on its lanes: unit `u` of 4 bytes goes to lane `u` mod the lanes in use (R379). -/
def frameLanes (lanes : Nat) (frame : List Byte) : List (List Byte) :=
  let units := chunks 4 frame
  (List.range lanes).map fun l =>
    ((List.range units.length).filter fun u => u % lanes == l).flatMap fun u => units.getD u []

/-- The payloads of a lane's blocks: 236 bytes each (R371), so that a frame takes 45 blocks on 4 lanes and 60 on 3. -/
def laneBlocks (bytes : List Byte) : List (List Byte) := chunks 236 bytes

end Sys2Proof.Machine
end

