-- ==== Sys2Proof/Machine/Ring.lean ====
section
/-! DEFINITION. The Rospin ring (R368 to R388): alignment, slots and frames, slot tables, shared sources,
timed operations and urgent broadcasts. -/
namespace Sys2Proof.Machine

def Dev.side (d : Dev) (s : Nat) : SideRt := Tab.getD d.ring.sides s {}

def Dev.setSide (d : Dev) (s : Nat) (x : SideRt) : Dev :=
  { d with ring := { d.ring with sides := Tab.setD d.ring.sides s x {} } }

/-- A side enters a state, with RING_SIDE (Table 17.6). -/
def Dev.sideTo (d : Dev) (s st : Nat) : Dev :=
  if d.sideState s = st then d
  else
    let d := d.wr (sideIdx s) 1 st
    if st = 0 then d.raise uRing 0x1101 s st sevDegraded else d.event uRing 0x1101 s st

/-- Sends a message of the ring itself. -/
def Dev.toRing (d : Dev) (what : String) (b : List Byte) : Dev := d.send (.ring what b)

/-! ### Alignment -/

/-- 64 raw bits from bit `p` of a receiver's counter cycle (R373). -/
def laneWindow (l : LaneObs) (p : Nat) : Nat :=
  let x := l.raw % 2 ^ 2048
  (x * 2 ^ 2048 + x) / 2 ^ (4032 - p % 2048) % 2 ^ 64

/-- The search of R373 over one lane: the offset of the alignment word in the counter cycle. -/
def laneFind (l : LaneObs) : Option Nat :=
  (List.range 32).findSome? fun k =>
    ((List.range 65).find? fun o => laneWindow l (64 * k + o) == alignWord).map fun o => (64 * k + o) % 2048

/-- A lane is good: its word is found and verified, and its skew lies within 512 bits (R373, R374). -/
def laneGood (l : LaneObs) : Bool := (laneFind l).isSome && l.verify && decide (l.skew ≤ 512)

/-- A side begins or repeats its alignment. -/
def Dev.searchSide (d : Dev) (s : Nat) : Dev :=
  (((d.wr (sideIdx s) 3 0).sideTo s 1)).refreshLink s

/-- Whether the headers received after lock confirm a side's path (R375): the neighbour it had on the same
path, and another one on the other path. -/
def SideRt.confirms (x : SideRt) (path neighbour : Nat) : Bool :=
  x.last == 0 || (decide (path = x.lastPath) == decide (neighbour + 1 = x.last))

/-- An attempt has failed, or its path is not confirmed: the other path entry comes next; after both, the
side is down and retries every 10 ms (R374, R375, R370). -/
def Dev.alignFailed (d : Dev) (s : Nat) : Dev :=
  let x := d.side s
  let d := d.setSide s { x with tries := x.tries + 1, failedAt := d.now }
  let d := d.wr (sideIdx s) 2 (1 - d.rd (sideIdx s) 2)
  if x.tries % 2 = 0 then d
  else
    let d := d.sideTo s 0
    if x.tries = 1 then d.raise uRing 0x1104 s (if x.last = 0 then 0xFF else x.last - 1) sevService else d

/-- A side runs with some lanes: each lane that has failed is reported out, and to the other node; each that
is good again is reported back (R377). -/
def Dev.lanesRun (d : Dev) (s mask : Nat) : Dev :=
  let out := (d.side s).out
  let d := foldNat (fun d k =>
    if out.testBit k && mask.testBit k then d.event uRing 0x1102 (s * 256 + k) 0
    else if !out.testBit k && !mask.testBit k then
      (d.raise uRing 0x1102 (s * 256 + k) 1 sevDegraded).toRing "lane-failed" (leBytes 1 s ++ leBytes 1 k)
    else d) 4 d
  (d.setSide s { d.side s with out := 15 - mask % 16 }).wr (sideIdx s) 3 mask

/-- RING_ALIGN: an attempt over a side's lanes (R373 to R375). -/
def Dev.alignSide (d : Dev) (s : Nat) (lanes : List LaneObs) (neighbour : Nat) : Dev :=
  let i := sideIdx s
  let x := d.side s
  if !d.ringOn || d.sideState s != 1 then d
  else
    let ls := lanes.take 4
    let good := (List.range ls.length).filter fun k => (ls[k]?).any laneGood
    let slips := (List.range ls.length).foldl (fun (t : Tab (Nat × Nat)) k =>
      match (ls[k]?).bind laneFind with
      | some o => Tab.setD t k (o % 64, o - o % 64) (0, 0)
      | none => t) x.slips
    let d := d.setSide s { x with slips := slips }
    if good.length < 3 then d.alignFailed s
    else
      let path := d.rd i 2
      if !x.confirms path neighbour then
        (d.raise uRing 0x1103 s (neighbour * 256 + path) sevInfo).alignFailed s
      else
        let d := ((d.lanesRun s (good.foldl (fun a k => a + 2 ^ k) 0)).wr i 4 neighbour).incf i 7 6
        let d := d.setSide s { d.side s with
          tries := 0, named := false, last := neighbour + 1, lastPath := path }
        let d := if x.last ≠ 0 ∧ path ≠ x.lastPath then
            d.raise uRing 0x1103 s (neighbour * 256 + path) sevInfo
          else d
        (d.sideTo s (if good.length = 4 then 2 else 3)).refreshLink s

def execRingAlign (t side : Nat) (lanes : List LaneObs) (neighbour : Nat) (s : State) :
    Host.Outcome State Fault Refusal :=
  onCurator t (·.alignSide (side % 2) lanes (neighbour % 16)) s

/-- RING_ALIGN_RETRY: by W0.CUR (Table 1.4), 10 ms after a failed attempt with both entries (R374). -/
def execRingAlignRetry (t side : Nat) (s : State) : Host.Outcome State Fault Refusal :=
  onCurator t (fun d =>
    let x := side % 2
    if d.ringOn && d.sideState x == 0 && decide ((d.side x).failedAt + 10000000 ≤ d.now) then
      d.searchSide x
    else d) s

/-- A side loses lock: it realigns, with its bypassed entries where a NODE_BYPASS has named its neighbour
(R375). -/
def Dev.lockLost (d : Dev) (s : Nat) : Dev :=
  if !d.sideRuns s then d
  else (if (d.side s).named then d.wr (sideIdx s) 2 1 else d).searchSide s

def execRingLockLost (t side : Nat) (s : State) : Host.Outcome State Fault Refusal :=
  onDev t (·.lockLost (side % 2)) s

/-- Lanes set in a mask. -/
def laneCount (m : Nat) : Nat := ((List.range 4).filter fun k => m.testBit k).length

/-- RING_LANE: a lane fails, and the side goes on with 3 lanes; with fewer it realigns (R374, R377). -/
def Dev.laneLost (d : Dev) (s lane : Nat) : Dev :=
  let i := sideIdx s
  let m := d.rd i 3
  if !d.sideRuns s || !m.testBit lane then d
  else
    let d := d.lanesRun s (setBit m lane false)
    if laneCount (d.rd i 3) < 3 then d.lockLost s else d.sideTo s 3

def execRingLane (t side lane : Nat) (s : State) : Host.Outcome State Fault Refusal :=
  onDev t (·.laneLost (side % 2) (lane % 4)) s

/-! ### Slot tables -/

/-- Begin of a ring tick (R378). -/
def ringTickAt (k : Nat) : Nat := k * 1048576

/-- The five maintenance link-slots (R381). -/
def maintenanceSlot (ls : Nat) : Bool := ls == 0 || ls == 51 || ls == 102 || ls == 153 || ls == 204

/-- Version of a table. -/
def tableVersion (tab : List Byte) : Nat := fieldAt tab 0 4

/-- A node's place in the clockwise order. -/
def Dev.ringPos (d : Dev) (node : Nat) : Option Nat := d.ringOrder.findIdx? (· == node)

/-- Links from one node to another on a ring: 0 clockwise, 1 counter-clockwise (R368). -/
def Dev.ringDist (d : Dev) (ring a b : Nat) : Option Nat :=
  match d.ringPos a, d.ringPos b with
  | some p, some q =>
    let n := d.ringOrder.length
    some (if ring = 0 then (q + n - p) % n else (p + n - q) % n)
  | _, _ => none

/-- The node at a distance from another on a ring. -/
def Dev.ringNode (d : Dev) (ring a k : Nat) : Nat :=
  match d.ringPos a with
  | some p =>
    let n := d.ringOrder.length
    d.ringOrder.getD (if ring = 0 then (p + k) % n else (p + n - k % n) % n) a
  | none => a

/-- The link-slots a table occupies: upstream node and link-slot (R380). -/
def Dev.linkSlots (d : Dev) (ring : Nat) (tab : List Byte) : List (Nat × Nat) :=
  (List.range 256).flatMap fun j =>
    let e := tableEntry tab j
    if e.1 = 0xFF then []
    else (List.range e.2.2.1).map fun i => (d.ringNode ring e.1 i, (j + i) % 256)

/-- The first of a list that occurs again. -/
def firstTwice : List (Nat × Nat) → Option (Nat × Nat)
  | [] => none
  | a :: r => if r.contains a then some a else firstTwice r

/-- The checks of R382 on a table: status, failing node and link-slot. -/
def Dev.tableFault (d : Dev) (ring : Nat) (tab : List Byte) : Option (Nat × Nat × Nat) :=
  let used := d.linkSlots ring tab
  let entries := (List.range 256).map (tableEntry tab)
  let badEntry := (List.range 256).find? fun j =>
    let e := entries.getD j (0xFF, 0, 0, 0)
    e.1 != 0xFF && (decide (15 < e.1) || e.2.1 == 0 || decide (5 < e.2.1) || e.2.2.1 == 0 ||
      decide (15 < e.2.2.1))
  match badEntry with
  | some j => some (stRange, byteAt tab (16 + 4 * j), j)
  | none =>
    match firstTwice used with
    | some (n, ls) => some (stRange, n, ls)
    | none =>
      match used.find? fun u => maintenanceSlot u.2 with
      | some (n, ls) => some (stRange, n, ls)
      | none =>
        match used.find? fun u => decide (230 < (used.filter fun v => v.1 == u.1).length) with
        | some (n, ls) => some (stCapacity, n, ls)
        | none => none

/-- Occupied link-slots of this node's sides, TX and RX (R382, 0x2111:06, 0x2112:06). -/
def Dev.sideOcc (d : Dev) (s : Nat) : Nat × Nat :=
  let me := d.node'
  let count := fun ring node => ((d.linkSlots ring (d.slotTable ring)).filter fun u => u.1 == node).length
  (count s me, count (1 - s) (d.ringNode (1 - s) me (d.ringOrder.length - 1)))

/-- Sender slots of a flow class from one node to another on a ring. -/
def Dev.flowTo (d : Dev) (ring cls a b : Nat) : List Nat :=
  match d.ringDist ring a b with
  | some k => d.flowSlots ring fun s c r => s == a && c == cls && decide (k ≤ r)
  | none => []

/-- The flows of R381 from one node of the pair to the other. -/
def Dev.pairFlow (d : Dev) (a b : Nat) : Bool :=
  let dense := fun js : List Nat => decide (4 ≤ js.length) && gapsWithin 64 js
  ([0, 1].any fun r => !(d.flowTo r 1 a b).isEmpty) && ([0, 1].all fun r => dense (d.flowTo r 3 a b)) &&
    ([0, 1].any fun r => dense (d.flowTo r 4 a b))

/-- What follows from the active tables: occupied link-slots and the pair's flows. -/
def Dev.refreshTables (d : Dev) : Dev :=
  let (e0, e1) := d.sideOcc 0
  let (w0, w1) := d.sideOcc 1
  let me := d.node'
  let p := d.rd 0x2110 3
  let d := (d.wr (sideIdx 0) 6 (e0 * 256 + e1)).wr (sideIdx 1) 6 (w0 * 256 + w1)
  ({ d with ringOcc := [e0, e1, w0, w1], pairFlows := d.pairFlow me p && d.pairFlow p me } : Dev).keepPeaks

/-- Status of a table change (0x2120:04, 0x2121:04). -/
def Dev.tableStatus (d : Dev) (ring st node ls : Nat) : Dev :=
  d.wrd (0x2120 + ring) 4 (leBytes 1 st ++ leBytes 1 node ++ leBytes 1 ls ++ leBytes 1 0 ++
    leBytes 4 (tableVersion (d.slotTable ring)))

/-- The refusal of a ring tick that lies too near or too far (R383). -/
def Dev.ringTickStatus (d : Dev) (k : Nat) : Nat :=
  if ringTickAt k < d.now + 2000000 then stTooLate
  else if d.now + 600000000000 < ringTickAt k then stTooFar
  else stOk

/-- The table a ring would have after the changes that the host has written. -/
def Dev.nextTable (d : Dev) (ring : Nat) : List Byte :=
  let b := d.rdd (0x2120 + ring) 2
  if b.isEmpty then d.slotTable ring else b

/-- A write to 0x2120:03 or 0x2121:03 (R383, R386). The flows that carry the change are looked for in the
tables as the host is writing them. -/
def Dev.changeTable (d : Dev) (ring k : Nat) : Res :=
  let tab := d.rdd (0x2120 + ring) 2
  let late := d.ringTickStatus k
  let refuse := fun st node ls => (d.tableStatus ring st node ls).res st
  if tab.length ≠ 1040 then refuse stRange 0 0
  else if d.ringOn && decide (1 < d.rd 0x2110 4) && !(d.timedIn (d.nextTable 0) && d.timedIn (d.nextTable 1))
    then refuse stWrongState 0 0
  else if late ≠ stOk then refuse late 0 0
  else match d.tableFault ring tab with
    | some (st, node, ls) => refuse st node ls
    | none =>
      let d := { d with ring := { d.ring with tables := Tab.setD d.ring.tables ring (k + 1, tab) (0, []) } }
      let d := d.toRing "slot-table" (leBytes 1 ring ++ leBytes 8 k ++ tab)
      (d.tableStatus ring stOk 0 0).res stOk

/-- SLOT_TABLE_CHANGE (R383). -/
def execSlotTableChange (t : Nat) (by_ : Requester) (ring atTick : Nat) (s : State) :
    Host.Outcome State Fault Refusal :=
  onCommand t by_ (fun d =>
    d.command by_ (0x2120 + ring % 2) 3 (leBytes 8 atTick) (·.changeTable (ring % 2) atTick)) s

/-- A pending table applies at its ring tick: its version rises (R383). -/
def Dev.applyTable (d : Dev) (k ring : Nat) : Dev :=
  let e := Tab.getD d.ring.tables ring (0, [])
  if e.1 = 0 ∨ k < e.1 - 1 then d
  else
    let v := (tableVersion (d.slotTable ring) + 1) % 2 ^ 32
    let d := { d with ring := { d.ring with tables := Tab.erase d.ring.tables ring } }
    let d := d.wrd (0x2120 + ring) 1 (leBytes 4 v ++ leBytes 8 (e.1 - 1) ++ leBytes 4 0 ++ slice e.2 16 1024)
    (d.tableStatus ring stOk 0 0).refreshTables

/-! ### Shared sources -/

/-- The shared source entries of a table: sender node and source, receiver node and source, ring, flow. -/
def sharedEntries (b : List Byte) : List (List Nat) :=
  (chunks 8 b).map fun e => (padTo 8 e).map (·.toNat)

/-- Slots that a source's frames need in a flow (R384). -/
def Dev.sharedSlots (d : Dev) (n : Nat) : Nat :=
  let i := srcIdx n
  let code := d.rd i 7
  ceilDiv (frameBytes (d.rd i 5) (d.rd i 6) (d.rd i 8) (d.rd i 9) * periodDen code * 1048576)
    (periodNum code * 1000000000 * 42432) + 1

/-- An entry is out of range (R384). What the objects of another node hold is free here. -/
def Dev.badShared (d : Dev) (v : Nat) (e : List Nat) : Bool :=
  let g := fun k => e.getD k 0
  let me := d.node'
  let slots := d.flowSlots (g 4) fun s c _ => s == g 0 && c == 5
  let mine := (List.range 256).filter fun j =>
    slots.contains j && (tableEntry (d.slotTable (g 4)) j).2.2.2 == g 5
  let reaches := mine.all fun j =>
    (d.ringDist (g 4) (g 0) (g 2)).any fun k => decide (k ≤ (tableEntry (d.slotTable (g 4)) j).2.2.1)
  let need := if g 0 = me then d.sharedSlots (g 1) else if g 2 = me then d.sharedSlots (g 3) else 0
  decide (15 < g 0) || decide (15 < g 2) || decide (1 < g 4) || mine.isEmpty || !reaches ||
    decide (mine.length < need) || v % 2 == 1

/-- A write to 0x2122:02 (R384, R386). -/
def Dev.changeShared (d : Dev) (k : Nat) : Res :=
  let b := d.rdd 0x2122 1
  let es := sharedEntries b
  let (v, d) := d.free
  let late := d.ringTickStatus k
  if !d.timedFlows then d.res stWrongState
  else if late ≠ stOk then d.res late
  else if 64 < es.length ∨ b.length % 8 ≠ 0 ∨ es.any (d.badShared v) then d.res stRange
  else
    ({ d with ring := { d.ring with shared := some (k, b) } }.toRing "shared-sources"
      (leBytes 8 k ++ b)).res stOk

/-- SHARED_SOURCE_CHANGE (R384). -/
def execSharedSourceChange (t : Nat) (by_ : Requester) (atTick : Nat) (s : State) :
    Host.Outcome State Fault Refusal :=
  onCommand t by_ (fun d => d.command by_ 0x2122 2 (leBytes 8 atTick) (·.changeShared atTick)) s

/-- The flows that carry sources of this node under new entries: one that carried one goes on, another begins with the
frames that are published from now on (R385). -/
def Dev.shareFlows (d : Dev) (b : List Byte) : Tab ShareTx :=
  (sharedEntries b).foldl (fun t e =>
    if e.getD 0 0 = d.node' then
      let key := e.getD 4 0 * 256 + e.getD 5 0
      Tab.insert t key (Tab.getD d.ring.tx key { since := d.now })
    else t) []

/-- RING_TICK: pending slot tables and shared-source entries apply (R378, R383, R384). A ring tick begins at each whole
multiple of its length. -/
def Dev.ringTick (d : Dev) : Dev :=
  if !d.ringOn || d.now % 1048576 != 0 then d
  else
    let k := d.now / 1048576
    let d := d.wr 0x2110 6 (k % 2 ^ 64)
    let d := (d.applyTable k 0).applyTable k 1
    match d.ring.shared with
    | some (at_, b) =>
      if at_ ≤ k then { d with ring := { d.ring with shared := none, entries := b, tx := d.shareFlows b } } else d
    | none => d

def execRingTick (t : Nat) (s : State) : Host.Outcome State Fault Refusal :=
  onDev t (·.ringTick) s

/-- The flow that feeds a source of this node, plus one; 0 where none does. -/
def Dev.sharedFlow (d : Dev) (n : Nat) : Nat :=
  match (sharedEntries d.ring.entries).find? fun e => e.getD 2 0 == d.node' && e.getD 3 0 == n with
  | some e => e.getD 4 0 * 256 + e.getD 5 0 + 1
  | none => 0

/-- A shared frame is discarded (R385). -/
def Dev.sharedLost (d : Dev) (n seq : Nat) : Dev :=
  (d.addf 0x2122 3 0 1 8).raise uRing 0x1107 n (seq % 2 ^ 32) sevInfo

def Dev.share (d : Dev) (n : Nat) : ShareRt := Tab.getD d.ring.parts n {}

def Dev.setShare (d : Dev) (n : Nat) (x : ShareRt) : Dev :=
  { d with ring := { d.ring with parts := Tab.setD d.ring.parts n x {} } }

/-- A shared frame in progress ends without publication. -/
def Dev.dropShare (d : Dev) (n seq : Nat) : Dev :=
  let x := d.share n
  let d := match x.buf with
    | some id => d.setSrc n ((d.src n).release id)
    | none => d
  (d.setShare n { nextSeq := x.nextSeq }).sharedLost n seq

/-- Payload bytes of a ring frame at most (Table 17.2), and of a source stamp (Table 4.4). -/
def ringPart : Nat := 42432
def stampLen : Nat := 64

/-- A stored frame's samples from its bytes in the pool format (Table 6.2): the inverse of `Frame.bytes`. -/
def Frame.withBytes (f : Frame) (b : List Byte) : Frame :=
  let value := fun k =>
    if is422 f.sampling f.depth then fieldAt b (k / 3 * 4) 4 / 1024 ^ (k % 3) % 1024 else fieldAt b (2 * k) 2 % 4096
  { f with pix := (List.range (f.width * f.height * compsPerPixel f)).filterMap fun k =>
      if value k = blackSample f k then none else some (k, value k) }

/-- The frame of a stamp (Table 4.4). -/
def stampFrame (st : List Byte) : Frame :=
  { origin := some (fieldAt st 0 2), complete := byteAt st 2 == 0, flags := byteAt st 3, seq := fieldAt st 4 8
    capture := ofTime48 (fieldAt st 12 10), arrival := ofTime48 (fieldAt st 22 10), crc := fieldAt st 44 4
    lost := fieldAt st 48 4, token := fieldAt st 52 4, ts := fieldAt st 56 4 }

/-- A shared frame is whole: its content has the length of the format, and the check value of its stamp is published with
that stamp, of which the publication time alone is new (R385). -/
def Dev.sharedWhole (d : Dev) (n : Nat) (content st : List Byte) : Dev :=
  let i := srcIdx n
  let x := d.share n
  let fr := { stampFrame st with
    width := d.rd i 5, height := d.rd i 6, sampling := d.rd i 8, depth := d.rd i 9
    adv := if (stampFrame st).flags.testBit 6 then some (stampFrame st).capture else (d.src n).adv }
  let size := frameBytes fr.width fr.height fr.sampling fr.depth
  match x.buf with
  | some id =>
    if x.started && !x.lost && content.length == size && crc32c content == fr.crc then
      let sx := d.src n
      let d := d.setSrc n { sx with adv := fr.adv
                                    lastToken := if fr.flags.testBit 5 then some fr.token else sx.lastToken }
      ((d.setShare n { nextSeq := x.nextSeq }).publish n id (fr.withBytes content)).evalSrcState n true
    else d.dropShare n fr.seq
  | none => d.dropShare n fr.seq

/-- A part of a shared source frame (R385): the first takes a pool buffer, each is stored behind the one before it, and
the last ends with the sender's stamp. The sequence number of a frame whose last part is lost is free. -/
def Dev.sharedPart (d : Dev) (n : Nat) (f : RingFrame) : Dev :=
  let first := f.flags.testBit 0
  let (v, d) := d.free
  let d := if first ∧ (d.share n).started then d.dropShare n v else d
  let x := d.share n
  let gap := !first && f.seq != x.nextSeq
  let (x, d) := if first then
      match (d.src n).take with
      | some (id, sx) => (({ started := true, buf := some id } : ShareRt), d.setSrc n sx)
      | none => (({ started := true } : ShareRt), d.dropFrame n)
    else (x, d)
  let all := x.bytes ++ f.payload
  let x := { x with nextSeq := (f.seq + 1) % 2 ^ 32, lost := x.lost || gap, bytes := if x.started then all else [] }
  let d := d.setShare n x
  if f.flags.testBit 1 then
    d.sharedWhole n (all.take (all.length - stampLen)) (all.drop (all.length - stampLen))
  else d

/-! What a sender forwards (R385). The bytes of a frame, in the pool format, are cut into parts of 42,432 bytes; the last
part carries what is left of them and the 64-byte stamp behind it (DESIGN CHOICE: R385 puts the stamp into the last part
and does not say where; log entry 166). -/

/-- Part `k` of a frame of `size` bytes is its last. -/
def lastPart (size k : Nat) : Bool := decide (size + stampLen ≤ ringPart * (k + 1))

/-- Pixels of which part `k` of a frame of `size` bytes holds samples. -/
def partPixels (f : Frame) (size k : Nat) : Nat × Nat :=
  let a := ringPart * k
  let b := min size (a + ringPart)
  let (s, e) := if is422 f.sampling f.depth then (a / 4 * 3, ceilDiv b 4 * 3) else (a / 2, ceilDiv b 2)
  (s / compsPerPixel f, min (f.width * f.height) (ceilDiv e (compsPerPixel f)))

/-- The intake has written a part of a frame in progress. -/
def InFrame.wrote (f : InFrame) (px : Nat × Nat) : Bool := f.spans.any fun e => decide (e.1 ≤ px.1) && decide (px.2 ≤ e.2)

/-- The frame that a flow sends next: the oldest one published since the one sent last, else the oldest in progress. -/
def Dev.shareNext (d : Dev) (n : Nat) (x : ShareTx) : Option Nat :=
  let pub := ((d.src n).bufs.filter (!·.old)).filterMap fun b => b.frame.bind fun f =>
    if x.since < f.published ∨ (x.since = f.published ∧ x.seq < f.seq) then some f else none
  match pub.foldl (fun (r : Option Frame) f => match r with
      | some q => if f.published < q.published ∨ (f.published = q.published ∧ f.seq < q.seq) then some f else some q
      | none => some f) none with
  | some f => some f.ts
  | none => ((d.src n).frames.find? fun f => f.buf.isSome).map (·.ts)

/-- The frame that a flow is sending, as far as it is there: the published one, or the one in progress. -/
def Dev.shareFrame (d : Dev) (n ts : Nat) (x : ShareTx) : Option (Frame × Option InFrame) :=
  let i := srcIdx n
  match ((d.src n).bufs.filterMap (·.frame)).find? fun f => f.ts == ts && decide (x.since ≤ f.published) with
  | some f => some (f, none)
  | none => ((d.src n).frames.find? fun f => f.ts == ts && f.buf.isSome).map fun f =>
      ({ width := d.rd i 5, height := d.rd i 6, sampling := d.rd i 8, depth := d.rd i 9, pix := f.pix }, some f)

/-- The payload and the flags of a flow's next frame (R385), with the flow after it: a part of a source frame whose part
its intake has written, or nothing. A frame that is discarded is given up, and the next one begins. -/
def Dev.sharePiece (d : Dev) (n : Nat) (x : ShareTx) : List Byte × Nat × ShareTx :=
  let x := match x.ts with
    | some ts => if (d.shareFrame n ts x).isSome then x else { x with ts := none, part := 0 }
    | none => x
  let x := if x.ts.isSome then x else { x with ts := d.shareNext n x, part := 0 }
  match x.ts.bind fun ts => d.shareFrame n ts x with
  | none => ([], 0, { x with ts := none, part := 0 })
  | some (f, going) =>
    let size := frameBytes f.width f.height f.sampling f.depth
    let last := lastPart size x.part
    let ready := match going with
      | some g => !last && g.wrote (partPixels f size x.part)
      | none => true
    if !ready then ([], 0, x)
    else
      let piece := (f.bytes.drop (ringPart * x.part)).take ringPart
      let first := if x.part = 0 then 1 else 0
      if last then (piece ++ f.stamp n, first + 2, { ts := none, part := 0, since := f.published, seq := f.seq })
      else (piece, first, { x with part := x.part + 1 })

/-! ### Timed operations -/

/-- A snapshot is scheduled: it replaces a held one and aborts a running export (R388). -/
def Dev.scheduleSnapshot (d : Dev) (by_ : Requester) (at_ : Nat) : Dev :=
  let d := match d.slotOfKind 6 with
    | some k => d.abortLong k
    | none => d
  let d := { d with ring := { d.ring with snapAt := some at_, snapParts := [], snapBy := by_ } }
  ((d.wr 0x2130 3 1).wrd 0x2130 6 []).keepPeaks

/-- The 64 MiB of a snapshot fit (R53). -/
def Dev.snapshotFits (d : Dev) : Bool := (d.wr 0x2130 3 1).memoryFits 0

/-- Command 1 of 0x2130:02 (R386, R388). -/
def Dev.askSnapshot (d : Dev) (by_ : Requester) : Res :=
  let at_ := ofTime48 (d.rd 0x2130 1)
  if !d.timedFlows then d.res stWrongState
  else if at_ < d.now + 2000000 then d.res stTooLate
  else if !d.snapshotFits then d.res stCapacity
  else ((d.scheduleSnapshot by_ at_).toRing "snapshot" (time48Bytes at_)).res stOk

/-- SNAPSHOT (R388). -/
def execSnapshot (t : Nat) (by_ : Requester) (s : State) : Host.Outcome State Fault Refusal :=
  onCommand t by_ (fun d => d.command by_ 0x2130 2 [1] (·.askSnapshot by_)) s

/-- A snapshot that another node has issued (R386, R388). -/
def Dev.receiveSnapshot (d : Dev) (at_ : Nat) : Dev :=
  if at_ < d.now ∨ d.ring.snapAt = some at_ then d
  else if d.snapshotFits then d.scheduleSnapshot ⟨0, 0⟩ at_
  else d.wr 0x2130 3 5

/-- A slot table that another node has distributed; one that comes after its ring tick is not taken
(R383). -/
def Dev.receiveTable (d : Dev) (ring : Nat) (tab : List Byte) (k : Nat) : Dev :=
  if ringTickAt k < d.now then d
  else { d with ring := { d.ring with tables := Tab.setD d.ring.tables (ring % 2) (k + 1, tab) (0, []) } }

/-- Shared source entries that another node has distributed (R384). -/
def Dev.receiveShared (d : Dev) (b : List Byte) (k : Nat) : Dev :=
  if ringTickAt k < d.now then d else { d with ring := { d.ring with shared := some (k, b) } }

/-! ### Frames -/

/-- VERSION_MISMATCH, once for a version that a side meets (R383). -/
def Dev.versionMismatch (d : Dev) (s ring other version : Nat) : Dev :=
  let x := d.side s
  if x.versionTold = version + 1 then d
  else (d.setSide s { x with versionTold := version + 1 }).raise uRing 0x1106 ring (other * 256) sevDegraded

/-- RING_TIMING, at most once per second per side (R380). -/
def Dev.frameLate (d : Dev) (s : Nat) : Dev :=
  let x := d.side s
  let late := (x.late ++ [d.now]).filter fun t => decide (d.now < t + 1000000000)
  let due := x.told == 0 || decide (x.told - 1 + 1000000000 ≤ d.now)
  let d := d.setSide s { x with late := late, told := if due then d.now + 1 else x.told }
  if due then d.raise uRing 0x1105 s late.length sevDegraded else d

/-- The partner's readiness (class 1 of Table 17.3). -/
def Dev.partnerSays (d : Dev) (pair serial : Nat) (part : Bool) : Dev :=
  (d.setDup { d.dup with partner := pair, partnerIn := part && d.active }).wr 0x2100 0x0D serial

/-- The content of an accepted frame acts where no command of its own brings it. -/
def Dev.deliver (d : Dev) (s : Nat) (f : RingFrame) : Dev :=
  let ring := 1 - s
  match f.msg with
  | .other =>
    if f.cls ≠ 5 then d
    else match (List.range 256).find? fun n =>
        Tab.getD d.ring.taking n 0 == ring * 256 + f.flow + 1 with
    | some n => d.sharedPart n f
    | none => d
  | .readiness p n part => if d.duplex && f.sender == d.rd 0x2110 3 then d.partnerSays p n part else d
  | .slotTable r b k => d.receiveTable r b k
  | .shared b k => d.receiveShared b k
  | .snapshot at_ => d.receiveSnapshot at_
  | .resync => if d.active then d.toPartner "configuration" [] else d
  | .maintenance v delay order =>
    let d := d.wr (sideIdx s) 5 (delay % 65536)
    let d := if order.isEmpty then d
      else (d.wr 0x2110 4 (min 16 order.length)).wrd 0x2110 5
        ((order.take 16).map (BitVec.ofNat 8) ++ List.replicate (16 - order.length) 0xFF)
    let d := (d.refreshTables).refreshLink s
    if v ≠ tableVersion (d.slotTable ring) then d.versionMismatch s ring f.sender v else d

/-- The link-slot on which this node sends a received frame on, if its flow reaches further (R380). -/
def Dev.onward (d : Dev) (ring : Nat) (f : RingFrame) : Option Nat :=
  let e := tableEntry (d.slotTable ring) f.slot
  match d.ringDist ring f.sender d.node' with
  | some i => if e.1 = f.sender ∧ i < e.2.2.1 then some ((f.slot + i) % 256) else none
  | none => none

/-- RING_FRAME: a frame arrives on a side's receiver (R376 to R380): the West side receives the clockwise
ring. -/
def Dev.ringFrame (d : Dev) (s : Nat) (f : RingFrame) : Dev :=
  let i := sideIdx s
  let ring := 1 - s
  let f := if d.rd i 2 = 1 then { f with hops := f.hops + 1 } else f
  if !d.sideRuns s || (d.rd 0x2200 0x0A == 0 && f.cls != 6) then d
  else if f.cut then d.incf i 7 4
  else if !f.checksOk then d.incf i 7 1
  else if f.cls ≠ 6 ∧ f.version ≠ tableVersion (d.slotTable ring) then
    (d.incf i 7 2).versionMismatch s ring f.sender f.version
  else if f.off < -128 ∨ 128 < f.off then (d.incf i 7 3).frameLate s
  else
    let d := d.incf i 7 0
    let d := if f.cls = 6 then d
      else match d.onward ring f with
        | some ls => { d with ring := { d.ring with
            fwd := Tab.setD d.ring.fwd (ring * 256 + ls) (some f) none } }
        | none => d
    if f.cls = 6 ∨ f.receiver = d.node' ∨ f.receiver = 0xFF then d.deliver s f else d

def execRingFrame (t side : Nat) (f : RingFrame) (s : State) : Host.Outcome State Fault Refusal :=
  onDev t (·.ringFrame (side % 2) f) s

/-- The header of a frame (Table 17.2). -/
def frameHeader (cls sender hops version tick slot flow seq len flags receiver : Nat) : List Byte :=
  let b := [0x52] ++ leBytes 1 cls ++ leBytes 1 sender ++ leBytes 1 hops ++ leBytes 4 version ++
    leBytes 8 tick ++ leBytes 2 slot ++ leBytes 2 flow ++ leBytes 4 seq ++ leBytes 2 len ++
    leBytes 1 flags ++ leBytes 1 receiver
  b ++ leBytes 4 (crc32c b)

/-- A whole frame (Table 17.2): header, payload, check and reserved bytes; the header and the check depend on the
payload's length alone and its bytes. -/
def frameBytesOf (cls sender hops version tick slot flow seq flags receiver : Nat) (payload : List Byte) : List Byte :=
  frameHeader cls sender hops version tick slot flow seq payload.length flags receiver ++ padTo ringPart payload ++
    leBytes 4 (crc32c payload) ++ List.replicate 12 0

/-- The receiver of an own frame: the partner, every node, or a shared source's receiver. -/
def Dev.flowReceiver (d : Dev) (ring cls flow : Nat) : Nat :=
  if cls = 2 then 0xFF
  else if cls = 5 then
    match (sharedEntries d.ring.entries).find? fun e =>
        e.getD 0 0 == d.node' && e.getD 4 0 == ring && e.getD 5 0 == flow with
    | some e => e.getD 2 0
    | none => 0xFF
  else d.rd 0x2110 3

/-- The source of this node that a flow carries (R384). -/
def Dev.flowSource (d : Dev) (ring flow : Nat) : Option Nat :=
  ((sharedEntries d.ring.entries).find? fun e =>
    e.getD 0 0 == d.node' && e.getD 4 0 == ring && e.getD 5 0 == flow).map fun e => e.getD 1 0

/-- A payload of no stated content: any bytes of any length (Table 17.2). -/
def Dev.anyPayload (d : Dev) : List Byte × Dev :=
  let (n, d) := d.free
  d.freeBytes (n % (ringPart + 1))

/-- The payload and flags of an own frame: a part of the shared source that its flow carries, or, in the other classes,
bytes that no rule states. -/
def Dev.ownPayload (d : Dev) (ring cls flow : Nat) : List Byte × Nat × Dev :=
  if cls = 5 then
    let key := ring * 256 + flow
    match d.flowSource ring flow with
    | some n =>
      let (b, fl, x) := d.sharePiece n (Tab.getD d.ring.tx key {})
      (b, fl, { d with ring := { d.ring with tx := Tab.insert d.ring.tx key x } })
    | none => ([], 0, d)
  else
    let (b, d) := d.anyPayload
    (b, 0, d)

/-- RING_SLOT: the frame of a link-slot leaves a side at the start of the slot: a maintenance frame, a frame sent on
with one hop more, or an own one (R379, R380, R381). -/
def Dev.ringSlot (d : Dev) (s : Nat) : Dev :=
  let ls := d.now % 1048576 / 4096
  let k := d.now / 1048576
  let tab := d.slotTable s
  let v := tableVersion tab
  let me := d.node'
  let x := d.side s
  if !d.sideRuns s || d.now % 4096 != 0 || x.slotAt == d.now / 4096 + 1 then d
  else
    let d := d.setSide s { x with slotAt := d.now / 4096 + 1 }
    if maintenanceSlot ls then
      let (b, d) := d.anyPayload
      d.toRing "frame" (frameBytesOf 6 me 0 v k ls 0 0 0 0xFF b)
    else if d.rd 0x2200 0x0A = 0 then d
    else match Tab.getD d.ring.fwd (s * 256 + ls) none with
      | some f =>
        let d := { d with ring := { d.ring with fwd := Tab.erase d.ring.fwd (s * 256 + ls) } }
        d.toRing "frame" (frameBytesOf f.cls f.sender (f.hops + 1) f.version f.tick f.slot f.flow f.seq f.flags
          f.receiver f.payload)
      | none =>
        let (snd, cls, _, flow) := tableEntry tab ls
        if snd ≠ me then d
        else
          let key := s * 256 + flow
          let seq := Tab.getD d.ring.seqs key 0
          let d := { d with ring := { d.ring with seqs := Tab.setD d.ring.seqs key ((seq + 1) % 2 ^ 32) 0 } }
          let (b, fl, d) := d.ownPayload s cls flow
          d.toRing "frame" (frameBytesOf cls me 0 v k ls flow seq fl (d.flowReceiver s cls flow) b)

def execRingSlot (t side : Nat) (s : State) : Host.Outcome State Fault Refusal :=
  onDev t (·.ringSlot (side % 2)) s

/-! ### Urgent broadcasts -/

/-- The 32-byte message of an urgent block (R387); its layout is the model's: kind (1 ring reset, 2 urgent
notify, 3 NODE_BYPASS), sender node, 14 bytes 0, body. -/
def urgentMessage (kind sender : Nat) (body : List Byte) : List Byte :=
  leBytes 1 kind ++ leBytes 1 sender ++ List.replicate 14 0 ++ padTo 16 body

/-- Sends a broadcast on both rings (R387). -/
def Dev.broadcast (d : Dev) (kind : Nat) (body : List Byte) : Dev :=
  if d.ringOn then
    let m := urgentMessage kind d.node' body
    (d.toRing "urgent-east" m).toRing "urgent-west" m
  else d

/-- Every node realigns both sides (R387). -/
def Dev.realign (d : Dev) : Dev := if d.ringOn then (d.searchSide 0).searchSide 1 else d

/-- RING_URGENT (R387). -/
def Dev.urgentEvent (d : Dev) (sender : Nat) (body : List Byte) : Dev :=
  d.event uRing 0x1108 sender (fieldAt body 0 4)

/-- A broadcast acts on this node (R387, R375). -/
def Dev.urgentAct (d : Dev) (m : List Byte) : Dev :=
  let sender := byteAt m 1
  match byteAt m 0 with
  | 1 => d.realign
  | 2 => d.urgentEvent sender (slice m 16 16)
  | 3 => foldNat (fun d s =>
      if d.rd (sideIdx s) 4 = sender then d.setSide s { d.side s with named := true } else d) 2 d
  | _ => d

/-- The message on which two lanes agree (R387). -/
def agreed : List (List Byte) → Option (List Byte)
  | [] => none
  | a :: r => if r.contains a then some a else agreed r

/-- URGENT_BLOCK: it is sent on until it is back at its sender, and acts once (R387). -/
def Dev.urgentBlock (d : Dev) (s : Nat) (copies : List (List Byte)) : Dev :=
  if !d.sideRuns s then d
  else match agreed copies with
    | none => d
    | some m =>
      let d := d.incf (sideIdx s) 7 5
      if byteAt m 1 = d.node' then d
      else
        let d := d.toRing (if s = 1 then "urgent-east" else "urgent-west") m
        let seen := d.ring.urgent.1 == m && decide (d.now < d.ring.urgent.2 + 100000)
        let d := { d with ring := { d.ring with urgent := (m, d.now + 1) } }
        if seen then d else d.urgentAct m

def execUrgentBlock (t side : Nat) (copies : List (List Byte)) (s : State) :
    Host.Outcome State Fault Refusal :=
  onDev t (·.urgentBlock (side % 2) copies) s

/-- RING_RESET: command 1 of 0x2110:07 (R387). -/
def execRingReset (t : Nat) (by_ : Requester) (s : State) : Host.Outcome State Fault Refusal :=
  onCommand t by_ (fun d =>
    d.command by_ 0x2110 7 [1] fun d => ((d.broadcast 1 []).realign).res stOk) s

/-- RING_REALIGN: command 2 of 0x2110:07 (R387). -/
def execRingRealign (t : Nat) (by_ : Requester) (s : State) : Host.Outcome State Fault Refusal :=
  onCommand t by_ (fun d => d.command by_ 0x2110 7 [2] fun d => d.realign.res stOk) s

/-- URGENT_NOTIFY: 16 bytes written to 0x2110:08 (R387). -/
def execUrgentNotify (t : Nat) (by_ : Requester) (body : List Byte) (s : State) :
    Host.Outcome State Fault Refusal :=
  onCommand t by_ (fun d =>
    d.command by_ 0x2110 8 body fun d => ((d.broadcast 2 body).urgentEvent d.node' body).res stOk) s

/-- The ring starts once boot has ended (R369). -/
def Dev.startRing (d : Dev) : Dev := if d.ringOn then (d.searchSide 0).searchSide 1 else d

/-- SNAPSHOT_EXPORT_DONE: the latch is in 0x2130:06 (R388). -/
def Dev.exportDone (d : Dev) : Dev :=
  match d.slotOfKind 6 with
  | some k =>
    let b := (List.range 5).flatMap fun w => Tab.getD d.ring.snapParts w []
    (((d.wrd 0x2130 6 b).wr 0x2130 3 4).finishLong k 0)
  | none => d

def execSnapshotExportDone (t : Nat) (s : State) : Host.Outcome State Fault Refusal :=
  onDev t (·.exportDone) s

end Sys2Proof.Machine
end

