-- ==== Sys2Proof/Machine/Cal.lean ====
section
/-! DEFINITION. Calibration and trimming (R408 to R423). -/
namespace Sys2Proof.Machine

/-! ### Items and instances (Table 19.1) -/

/-- Instances of an item. -/
def calCount (item : Nat) : Nat := [0, 16, 8, 4, 16, 64, 10, 48, 8].getD item 0

/-- Values of an instance; those of item 8 are the nodes of a surface. -/
def calValues (item : Nat) : Nat := [0, 10, 4, 4, 12, 10, 6, 24, 0].getD item 0

/-- Agreement of an item, in the unit of its values: item 8 measures counts, in codes of 16. -/
def calTolerance (item : Nat) : Nat := [0, 2, 2, 2, 2, 1, 1, 2, 32].getD item 0

/-- Drift limit of an item; item 8 has none. -/
def calDriftLimit (item : Nat) : Nat := [0, 8, 8, 8, 4, 4, 8, 16, 0].getD item 0

def Dev.setCalInst (d : Dev) (item inst : Nat) (x : CalInst) : Dev :=
  { d with cal := { d.cal with insts := Tab.setD d.cal.insts (calKey item inst) x {} } }

/-- The values of an instance in the loaded record; none where the record has no section for its item. -/
def Dev.calRecorded (d : Dev) (item inst : Nat) : Option (List Int) :=
  match Tab.getD d.cal.record (calKey item inst) [] with
  | [] => none
  | v => some v

/-! ### Agreement (R416) -/

/-- The largest disagreement of two runs. -/
def calDisagree (r1 r2 : List Int) : Nat :=
  (List.zipWith (fun (a b : Int) => (b - a).natAbs) r1 r2).foldl max 0

/-- The mean of two runs' values, rounded towards the first. -/
def calMean (a b : Int) : Int := a + Int.tdiv (b - a) 2

/-- The largest of some drifts by magnitude, with its sign. -/
def calLargest (vs : List Int) : Int :=
  vs.foldl (fun (m v : Int) => if m.natAbs < v.natAbs then v else m) 0

/-- The values of an instance that a measurement replaces: in a campaign, only those of a port's current
mode (R413). -/
def Dev.calMeasures (d : Dev) (campaign : Bool) (item inst k : Nat) : Bool :=
  if item = 6 ∧ campaign then
    match d.ptpMode inst with
    | some m => k / 2 == (if inst < 8 then m else m - 3)
    | none => false
  else true

/-- The nodes of surface `k` as keys, in the order of its values (R415). -/
def Dev.calNodes (d : Dev) (k : Nat) : List Nat := (d.surfNodes k).map (d.nodeKey k)

/-- An instance is rejected (R416). -/
def Dev.calReject (d : Dev) (item inst largest : Nat) : Dev :=
  (d.setCalInst item inst { d.calInst item inst with outcome := 2, time := d.now }).raise uCal 0x1301
    (item * 256 + inst) largest sevInfo

/-- The two runs of an instance have been measured (R416). The flag tells acceptance. -/
def Dev.calMeasured (d : Dev) (campaign : Bool) (r : CalRun) (disturbed : Bool) : Dev × Bool :=
  let n := if r.item = 8 then (d.calNodes r.inst).length else calValues r.item
  let pick := (List.range n).filter (d.calMeasures campaign r.item r.inst)
  let at_ := fun (l : List Int) k => l.getD k 0
  let worst := calDisagree (pick.map (at_ r.run1)) (pick.map (at_ r.run2))
  if disturbed || decide (calTolerance r.item < worst) then (d.calReject r.item r.inst worst, false)
  else
    let x := d.calInst r.item r.inst
    let new := (List.range n).map fun k =>
      if pick.contains k then calMean (at_ r.run1 k) (at_ r.run2 k) else at_ x.values k
    let d :=
      if r.item = 8 then
        (List.range n).foldl (fun d k =>
          { d with touch := { d.touch with
              ref := Tab.setD d.touch.ref ((d.calNodes r.inst).getD k 0) ((at_ new k).toNat % 65536 + 1) 0 } }) d
      else if r.item = 7 ∧ new ≠ x.values ∧ campaign then
        { d with cal := { d.cal with trimmed := d.cal.trimmed ++ [(r.inst, x.values)] } }
      else d
    let d := if r.item = 8 then { d with cal := { d.cal with measured8 := true } } else d
    (d.setCalInst r.item r.inst { x with
      source := if campaign then 3 else 2, outcome := 1, time := d.now
      values := if r.item = 8 then [] else new }, true)

/-! ### The record (Table 19.4) -/

/-- An INTEGER16. -/
def int16 (v : Int) : List Byte := leBytes 2 (ofSigned 16 v)

/-- A section of the record. -/
def calSection (item count size : Nat) (entries : List Byte) : List Byte :=
  leBytes 1 item ++ [0] ++ leBytes 2 count ++ leBytes 2 size ++ [0, 0] ++ entries

/-- The values of an instance, in table order. -/
def Dev.calEntry (d : Dev) (item inst : Nat) : List Byte :=
  (List.range (calValues item)).flatMap fun k => int16 ((d.calInst item inst).values.getD k 0)

/-- The reference counts of a drive line, 0 outside every surface (Table 19.4), of the surfaces that
`of_` passes. -/
def Dev.calLine (d : Dev) (of_ : Nat → Bool) (drive : Nat) : List Byte :=
  (List.range 48).flatMap fun c =>
    let key := drive * 48 + c
    leBytes 2 (if of_ key then Tab.getD d.touch.ref key 0 - 1 else 0)

/-- The calibration record of the running values (R422). -/
def Dev.calRecordBytes (d : Dev) (count : Nat) : List Byte :=
  let has8 := d.cal.measured8 || (d.rd 0x2342 5).testBit 8
  let body := [0x43, 0x4C, 1, if has8 then 8 else 7] ++ leBytes 4 count ++ time48Bytes d.now ++
    leBytes 4 (d.rd 0x1018 4) ++ [0, 0] ++
    ((List.range 7).flatMap fun j =>
      calSection (j + 1) (calCount (j + 1)) (2 * calValues (j + 1))
        ((List.range (calCount (j + 1))).flatMap (d.calEntry (j + 1)))) ++
    (if has8 then
      calSection 8 32 96 ((List.range 32).flatMap (d.calLine fun key => Tab.getD d.touch.ref key 0 != 0))
     else [])
  body ++ leBytes 4 (crc32c body)

/-- A copy is valid: mark, version, serial number and check word match (R423). -/
def Dev.calValid (d : Dev) (b : List Byte) : Bool :=
  decide (28 ≤ b.length) && fieldAt b 0 3 == 0x014C43 && fieldAt b 18 4 == d.rd 0x1018 4 &&
    fieldAt b (b.length - 4) 4 == crc32c (b.take (b.length - 4))

/-- The sections of a record: item, and its entries as bytes. -/
def calSections : Nat → List Byte → List (Nat × Nat × List Byte)
  | 0, _ => []
  | n + 1, b =>
    let len := fieldAt b 2 2 * fieldAt b 4 2
    (byteAt b 0, fieldAt b 4 2, slice b 8 len) :: calSections n (b.drop (8 + len))

/-- Write count of a copy. -/
def calCountOf (b : List Byte) : Nat := fieldAt b 4 4

/-- The valid copy with the higher write count, none where no copy is valid (R423). -/
def Dev.calNewest (d : Dev) (bad : List Nat) : Option Nat :=
  let ok := (List.range 2).filter fun k =>
    d.calValid (Tab.getD d.flash.cals k []) && !bad.contains k
  ok.foldl (fun (m : Option Nat) k =>
    match m with
    | some j =>
      if calCountOf (Tab.getD d.flash.cals j []) < calCountOf (Tab.getD d.flash.cals k []) then some k
      else m
    | none => some k) none

/-- The latest valid record is shown (0x2342:02 to 05). -/
def Dev.calShow (d : Dev) (b : List Byte) : Dev :=
  let items := (calSections (byteAt b 3) (b.drop 24)).foldl (fun m s => m + 2 ^ s.1) 0
  (((d.wr 0x2342 2 (calCountOf b)).wr 0x2342 3 (fieldAt b 8 10)).wrd 0x2342 4 b).wr 0x2342 5 items

/-- The hardware defaults of an instance. -/
def calDefaults (item inst : Nat) : List Int := (List.range (calValues item)).map (Config.calDefault item inst)

/-- Loads the values of a section of the record (R423). -/
def Dev.calLoadSection (d : Dev) (sec : Nat × Nat × List Byte) : Dev :=
  let (item, size, b) := sec
  if item = 8 then
    (List.range 1536).foldl (fun d key =>
      let v := fieldAt b (2 * key) 2
      if v = 0 then d else { d with touch := { d.touch with ref := Tab.setD d.touch.ref key (v + 1) 0 } }) d
  else
    (List.range (calCount item)).foldl (fun d inst =>
      let vs := (List.range (calValues item)).map fun k => toSigned 16 (fieldAt b (size * inst + 2 * k) 2)
      let d := d.setCalInst item inst { d.calInst item inst with source := 1, values := vs }
      { d with cal := { d.cal with record := Tab.setD d.cal.record (calKey item inst) vs [] } }) d

/-- Loads the record at power-up (R423). `bad`: copies whose check word fails. -/
def Dev.calLoad (d : Dev) (bad : List Nat) : Dev :=
  let d := (List.range 7).foldl (fun d j => (List.range (calCount (j + 1))).foldl (fun d inst =>
    d.setCalInst (j + 1) inst { values := calDefaults (j + 1) inst }) d) d
  let d := (List.range 2).foldl (fun d k =>
    let b := Tab.getD d.flash.cals k []
    if b ≠ [] ∧ (bad.contains k ∨ fieldAt b (b.length - 4) 4 ≠ crc32c (b.take (b.length - 4))) then
      d.raise uCal 0x1304 k (calCountOf b) sevDegraded
    else d) d
  match d.calNewest bad with
  | none => d.wr 0x2342 1 0xFF
  | some k =>
    let b := Tab.getD d.flash.cals k []
    (calSections (byteAt b 3) (b.drop 24)).foldl Dev.calLoadSection ((d.wr 0x2342 1 k).calShow b)

/-! ### Start-up calibration (R417, R418) -/

/-- Drift of an accepted instance against the loaded record (R418). -/
def Dev.calDrift (d : Dev) (item inst : Nat) : Dev × Bool :=
  match d.calRecorded item inst with
  | none => (d, false)
  | some old =>
    let x := d.calInst item inst
    let big := calLargest (List.zipWith (fun (a b : Int) => a - b) x.values old)
    let drifted := decide (calDriftLimit item < big.natAbs)
    (d.setCalInst item inst { x with drift := big, outcome := if drifted then 4 else x.outcome }, drifted)

/-- The start-up calibration of one item: its accepted instances that drifted, and whether any was
rejected. -/
def Dev.calStartItem (d : Dev) (runs : List CalRun) (item : Nat) : Dev × Bool :=
  let (d, drifted, rejected) := (runs.filter fun r => r.item == item && decide (r.inst < calCount item)).foldl
    (fun (s : Dev × List Nat × Bool) r =>
      let (d, ok) := s.1.calMeasured false r false
      if ok then
        let (d, far) := d.calDrift item r.inst
        (d, if far then s.2.1 ++ [r.inst] else s.2.1, s.2.2)
      else (d, s.2.1, true)) (d, [], false)
  let big := calLargest (drifted.map fun k => (d.calInst item k).drift)
  (if drifted = [] then d
    else d.raise uCal 0x1302 (item * 256 + drifted.length) (ofSigned 32 big) sevInfo, rejected)

/-- Start-up calibration: items 1 to 7 in order (R417). -/
def Dev.calStartUp (d : Dev) (runs : List CalRun) : Dev :=
  let (d, rejected) := (List.range 7).foldl (fun (s : Dev × Bool) j =>
    let (d, r) := s.1.calStartItem runs (j + 1)
    (d, s.2 || r)) (d, false)
  d.wr 0x2340 7 rejected.toNat

/-! ### Campaigns (R419 to R421) -/

/-- The slot of the campaign that runs. -/
def Dev.calSlot (d : Dev) : Option Nat := d.slotOfKind 2

/-- The first selected item after `item`. -/
def calNext (mask item : Nat) : Option Nat :=
  (List.range 9).find? fun c => decide (item < c) && mask.testBit c

/-- CAL_START_CAMPAIGN (R419). -/
def Dev.calStart (d : Dev) (by_ : Requester) : Res :=
  let mask := d.rd 0x2340 1
  if d.calSlot.isSome then d.res stBusy
  else if mask = 0 ∨ mask % 2 = 1 ∨ 512 ≤ mask then d.res stRange
  else
    let total := (List.range 9).foldl (fun a c => if mask.testBit c then a + calCount c else a) 0
    let r := d.startLong by_ 2 2 1 total (unitPath uCal) 0 0
    match r.slot with
    | none => r
    | some k =>
      let d := r.dev.wr 0x2340 4 k
      ⟨r.st, r.slot, { d with cal := { d.cal with
        items := mask, item := (calNext mask 0).getD 0, itemAt := d.now, done := []
        rejected := false, skipped := false } }⟩

def execCalStartCampaign (t : Nat) (by_ : Requester) (s : State) : Host.Outcome State Fault Refusal :=
  onCommand t by_ (fun d => d.command by_ 0x2340 3 [1] (·.calStart by_)) s

/-- An instance has ended: position, the next item, and the end of the campaign (R419, R420). -/
def Dev.calEnded (d : Dev) (k inst : Nat) : Dev :=
  let c := d.cal
  let d := d.setPosition k (d.rd (0x2080 + k) 4 + 1)
  let done := c.done ++ [inst]
  if done.length < calCount c.item then { d with cal := { c with done := done } }
  else match calNext c.items c.item with
    | some i => { d with cal := { c with item := i, itemAt := d.now, done := [] } }
    | none =>
      ({ d with cal := { c with item := 0, done := [] } }).finishLong k (c.rejected.toNat + 2 * c.skipped.toNat)

/-- The campaign has an instance still to end. -/
def Dev.calWaits (d : Dev) (item inst : Nat) : Bool :=
  d.cal.item == item && decide (inst < calCount item) && !d.cal.done.contains inst

/-! #### Where items run -/

/-- The port that a NET lane serves (Table 4.1). -/
def Dev.lanePort (d : Dev) (lane : Nat) : Nat :=
  match d.laneMode (lane / 4) with
  | 0 => lane / 2
  | 1 => lane / 4 * 2
  | _ => lane / 8 * 4

/-- A leg of an audio receive stream is active: packets of it have come within 100 ms (R285). -/
def Dev.audLegActive (d : Dev) (st b : Nat) : Bool :=
  let x := d.audIn st
  (if b = 0 then x.hiA else x.hiB).isSome && decide (d.now < x.last + 100000000)

/-- Every enabled receive leg on a port has an active other leg on another port (R409). Two ports share
no lane. -/
def Dev.legsProtected (d : Dev) (port : Nat) : Bool :=
  (List.range 256).all (fun n => !d.srcOn n ||
    (d.srcLegs n).all fun b => (d.leg n b).port != port ||
      ((d.srcLegs n).contains (1 - b) && (d.leg n (1 - b)).port != port && d.legState n (1 - b) == 1)) &&
  (List.range 16).all fun st => !d.rdb (recvIdx st) 1 ||
    let ls := d.audLegs st
    (List.range ls.length).all fun b => (ls[b]?).all fun l => l.port != port ||
      ((ls[1 - b]?).any fun o => o.port != port) && ls.length == 2 && d.audLegActive st (1 - b)

/-- The condition of R409 or R410 for an instance of items 1 and 2. -/
def Dev.calMay (d : Dev) (item inst : Nat) : Bool :=
  if item = 1 then d.rdb 0x2340 2 || d.legsProtected (d.lanePort inst)
  else if item = 2 then d.sideState (inst / 4) == 2
  else true

/-- The trim window of an output that an instant lies in: from 2 lines after its start of blanking to 2 lines before its
next first active line, in a frame that is not held over from a change (R411). -/
def Dev.trimSpan (d : Dev) (o a : Nat) : Option (Nat × Nat) :=
  match d.timing o with
  | none => some (0, d.now)
  | some tm =>
    let w := outWing o
    let off := d.lines o (d.rd (outIdx o) 4)
    let n := d.tickOf w (a - off)
    let start := fun k => d.tickTime w k + off
    let span := fun k => (start k + d.lines o (tm.top + tm.va + 2), start (k + 1) + d.lines o (tm.top - 2))
    if a < (d.out o).hold then none
    else ([span n, span (n - 1)]).find? fun s => decide (s.1 ≤ a) && decide (a ≤ s.2)

/-- The start of the raster frame of an output that an instant lies in. -/
def Dev.frameFrom (d : Dev) (o a : Nat) : Nat :=
  let off := d.lines o (d.rd (outIdx o) 4)
  d.tickTime (outWing o) (d.tickOf (outWing o) (a - off)) + off

/-- Whether a DisplayPort trim that ends now took the start of the common trim window of the port's enabled streams, with
90 µs of it, in raster frames without a retraining or a reallocation of time slots; a port without such streams is
trimmed at once (R411). -/
def Dev.trimWindow (d : Dev) (p : Nat) : Bool :=
  let os := ((List.range 4).map (4 * p + ·)).filter d.outOn
  let a := d.now - 90000
  let ss := os.filterMap (d.trimSpan · a)
  let from_ := (ss.map (·.1)).foldl max 0
  os.isEmpty ||
    ((d.dp p).link != 2 && ss.length == os.length && ss.all (fun s => decide (d.now ≤ s.2)) && decide (a ≤ from_ + 2) &&
      os.all fun o => decide ((d.dp p).busyAt ≤ d.frameFrom o a))

/-- Whether a pseudo-channel may be measured in this window: one group in a window, and recovery and
retraining come first (R412). -/
def Dev.tapWindow (d : Dev) (inst : Nat) : Option (Nat × Nat) :=
  let m := inst / 32
  let g := inst % 32 / 4
  if !(d.toRetrain m).isEmpty then none
  else (d.groupWindow m g 8000).map fun e => (e, g)

/-- No node of a surface has left IDLE in the two runs of 32 scans, and none is flagged (R415). -/
def Dev.surfaceCalm (d : Dev) (k : Nat) : Bool :=
  let code := d.rate (d.rd 0x3700 1)
  let span := 64 * periodNs code / scansPerTick code
  (d.calNodes k).all fun key =>
    let x := d.node key
    x.st == 0 && !x.flagged && (x.since == 0 || decide (x.since + span < d.now))

/-- Whether the window of an instance arises now (R409 to R415). `idle`: the PCIe link is in L1 or down; with Force the
endpoint takes it through Recovery (R410). -/
def Dev.calWindow (d : Dev) (item inst : Nat) (idle : Bool) : Bool :=
  d.calMay item inst && match item with
    | 3 => idle || d.rdb 0x2340 2
    | 4 => d.trimWindow inst
    | 5 => (d.tapWindow inst).isSome
    | 6 => (d.ptpMode inst).isSome
    | 7 => !d.touch.scanning
    | 8 => d.rdb (surfIdx inst) 1 && d.surfState inst == 2
    | _ => true

/-- What the interruption of an instance shows outside: a ring side announces that it runs without the
lane and takes it back (R410, R377), a PCIe link that is not idle goes through Recovery (R410), and a DisplayPort port's
lanes send the idle pattern (R411). -/
def Dev.calInterrupt (d : Dev) (item inst : Nat) (idle : Bool) : Dev :=
  if item = 3 ∧ !idle then d.send (.pin "pcie-recovery" [])
  else if item = 4 then d.send (.dp inst "idle-pattern" [90000])
  else if item = 2 then
    let b := leBytes 1 (inst / 4) ++ leBytes 1 (inst % 4)
    (d.toRing "lane-out" b).toRing "lane-in" b
  else if item = 5 then
    match d.tapWindow inst with
    | some w => { d with cal := { d.cal with groups := Tab.setD d.cal.groups (inst / 32) w (0, 0) } }
    | none => d
  else d

/-- CAL_INSTANCE: the interruption of an instance ends (R416). -/
def Dev.calRun (d : Dev) (r : CalRun) (idle : Bool) : Dev :=
  match d.calSlot with
  | none => d
  | some k =>
    if d.bankHeld 7 || (d.longOp k).abortAsked || !d.calWaits r.item r.inst || !d.calWindow r.item r.inst idle then d
    else
      let (d, ok) := (d.calInterrupt r.item r.inst idle).calMeasured true r (r.item == 8 && !d.surfaceCalm r.inst)
      let d : Dev := if ok then d else { d with cal := { d.cal with rejected := true } }
      d.calEnded k r.inst

def execCalInstance (t item inst : Nat) (run1 run2 : List Int) (idle : Bool) (s : State) :
    Host.Outcome State Fault Refusal :=
  onDev t (·.calRun ⟨item, inst, run1, run2⟩ idle) s

/-- CAL_SKIPPED: an instance has not started within the window timeout (R420). Only the condition of R410 makes
a PCIe lane wait. -/
def Dev.calSkip (d : Dev) (item inst : Nat) : Dev :=
  match d.calSlot with
  | none => d
  | some k =>
    if (d.longOp k).abortAsked || !d.calWaits item inst ||
        decide (d.now < d.cal.itemAt + d.rd 0x2340 6 * 1000000000) then d
    else
      let d := (d.setCalInst item inst { d.calInst item inst with outcome := 3 }).raise uCal 0x1303
        (item * 256 + inst) (if item ≠ 3 ∧ d.calMay item inst then 1 else 2) sevInfo
      { d with cal := { d.cal with skipped := true } }.calEnded k inst

def execCalSkipped (t item inst : Nat) (s : State) : Host.Outcome State Fault Refusal :=
  onDev t (·.calSkip item inst) s

/-- An abort of the campaign reaches its next abort point: between instances (R421). -/
def Dev.calAbort (d : Dev) (k : Nat) : Dev :=
  ({ d with cal := { d.cal with item := 0, done := [] } }).abortLong k

/-! ### Storing (R422) -/

/-- The copy that a store writes: the one that does not hold the newest valid record. -/
def Dev.calTarget (d : Dev) : Nat := match d.calNewest [] with | some 0 => 1 | _ => 0

/-- CAL_STORE_RECORD: the record captures the running values (R422). -/
def Dev.calStore (d : Dev) (by_ : Requester) : Res :=
  if d.slotOfKind 4 ≠ none ∨ d.slotOfKind 5 ≠ none ∨ d.slotOfKind 9 ≠ none then d.res stBusy
  else
    let count := match d.calNewest [] with
      | some j => calCountOf (Tab.getD d.flash.cals j []) + 1
      | none => 1
    let b := d.calRecordBytes count
    let r := d.startLong by_ 4 1 2 b.length (unitPath uXspi) (flashCal * 16) 0
    match r.slot with
    | none => r
    | some k =>
      let d := r.dev.wr 0x2340 5 k
      ⟨r.st, r.slot, d.setLongOp k { d.longOp k with held := b.map (·.toNat) }⟩

def execCalStoreRecord (t : Nat) (by_ : Requester) (s : State) : Host.Outcome State Fault Refusal :=
  onCommand t by_ (fun d => d.command by_ 0x2340 3 [2] (·.calStore by_)) s

/-- The write of a calibration record has ended and been verified (R422). -/
def Dev.calStored (d : Dev) (k : Nat) : Dev :=
  let b := (d.longOp k).held.map (BitVec.ofNat 8)
  ({ d with flash := { d.flash with cals := Tab.setD d.flash.cals d.calTarget b [] } }).calShow b

/-! ### Item status (0x2341) -/

/-- The status of an item (Table 19.5). -/
def Dev.calStatus (d : Dev) (item : Nat) : List Byte :=
  (List.range (calCount item)).flatMap fun inst =>
    let x := d.calInst item inst
    leBytes 1 x.source ++ leBytes 1 x.outcome ++ int16 x.drift ++ [0, 0] ++ time48Bytes x.time ++
      (if item = 8 then
        (List.range 32).flatMap (d.calLine fun key => (d.calNodes inst).contains key)
       else d.calEntry item inst)

end Sys2Proof.Machine
end

