-- ==== Sys2Proof/Machine/Enable.lean ====
section
/-! DEFINITION. What starts, stops and changes a source, a session, a layer, an output, a channel, an audio
port or stream and a touch surface: shared by the application of batches, by the power states and by the
release of held functions. `old` is the configuration that stood before. -/
namespace Sys2Proof.Machine

/-- Whether one of an object's numeric subs differs between two configurations. -/
def changed (old new : Dev) (i : Nat) (subs : List Nat) : Bool := subs.any fun s => old.rd i s != new.rd i s

/-- Whether one of an object's byte strings differs. -/
def changedD (old new : Dev) (i : Nat) (subs : List Nat) : Bool := subs.any fun s => old.rdd i s != new.rdd i s

/-! ### Sources (R103, R111, R128, R174, R384) -/

/-- The legs an enabled source takes packets on. -/
def Dev.openLegs (d : Dev) (n : Nat) : List Leg := if d.srcOn n then (d.srcLegs n).map (d.leg n) else []

/-- Two legs share one membership: port, group and source address (R103). -/
def sameJoin (a b : Leg) : Bool := a.port == b.port && a.group == b.group && a.addr == b.addr

/-- Leaves and joins for a change of legs. A membership that the legs still share needs no join, and one that another
source or audio stream still uses is not left (R103; the membership is the port's, log entry 15). -/
def Dev.rejoinLegs (d : Dev) (old new : List Leg) : Dev :=
  let used := fun (l : Leg) => new.any (sameJoin l) || (d.memberships l.port).contains (l.group, l.addr)
  let d := (old.filter fun a => !used a).foldl (fun d l => d.sendJoin false l) d
  (new.filter fun a => !old.any (sameJoin a)).foldl (fun d l => d.sendJoin true l) d

/-- A source gives up the frames in progress: their buffers return to the pool, and the rest of their packets is late
(R111). -/
def Dev.dropFrames (d : Dev) (n : Nat) : Dev :=
  let x := d.src n
  let x := (x.frames.filterMap (·.buf)).foldl SourceRt.release x
  d.setSrc n { x with frames := [] }

/-- A new pool: frames in progress are discarded, buffers that nothing holds are freed, those on loan, the
newest published frame and a held frame stay (R111, R174). -/
def Dev.newPool (d : Dev) (n : Nat) : Dev :=
  let d := d.dropFrames n
  let x := d.src n
  let size := d.srcFrameBytes n
  let depth := if d.srcOn n then d.rd (srcIdx n) 0x0C else 0
  let old := x.bufs.map fun b => { b with old := true, filling := false }
  let fresh := (List.range depth).map fun k => { id := x.nextBuf + k, bytes := size : PoolBuf }
  d.setSrc n { x with bufs := old ++ fresh, nextBuf := x.nextBuf + depth }.sweep

/-- What is known of a source's stream on its legs begins anew: the next frame has none before it (R103, R108). -/
def Dev.freshLegs (d : Dev) (n : Nat) : Dev :=
  let x := d.src n
  d.setSrc n { x with
    seen := x.seen.map fun e => { e with before := true }
    prevTs := none, newA := none, newB := none, hiA := none, hiB := none, lastA := none, lastB := none
    vrxA := (0, 0), vrxB := (0, 0), rateA := [], rateB := [], policedTs := none }

/-- The definition of a source's legs or its transport differs (R103). -/
def legsChanged (old new : Dev) (n : Nat) : Bool :=
  old.rd (srcIdx n) 3 != new.rd (srcIdx n) 3 || Dev.openLegs old n != Dev.openLegs new n

/-- The session that an enabled source of transports 2 to 5 names. -/
def Dev.sessionOf (d : Dev) (n : Nat) : Option Nat :=
  if d.srcOn n && decide (2 ≤ d.rd (srcIdx n) 3) && decide (d.rd (srcIdx n) 0x1B < 128) then
    some (d.rd (srcIdx n) 0x1B)
  else none

/-- A source stops taking packets: what it has begun is given up. -/
def Dev.stopSource (d : Dev) (n : Nat) : Dev :=
  let d := (d.dropFrames n).freshLegs n
  d.setSrc n { d.src n with units := [], cut := [] }

/-- What a change of a source's configuration does to its session: it restarts where it stays enabled and its source's
format, transport or legs change, or it is bound to another source (R128). -/
def Dev.restartSession (old : Dev) (n : Nat) (d : Dev) : Dev :=
  match d.sessionOf n with
  | some k =>
    if d.decState k != 0 && (old.sessionOf n != some k || legsChanged old d n ||
        changed old d (srcIdx n) [5, 6, 7, 8, 9, 0x0A, 0x0B]) then
      -- packets held of another source are no packets of this one
      (if old.sessionOf n = some k then d else d.setDec k { d.dec k with ahead := [] }).decRestart k 1
    else d
  | none => d

/-- A change of a source's configuration applies (R103, R111; R128 for its session). The count of mismatched frames
stays across it (R478). -/
def Dev.sourceChanged (old : Dev) (n : Nat) (d : Dev) : Dev :=
  let was := old.srcOn n
  let is := d.srcOn n
  let d := if was || is then d.rejoinLegs (old.openLegs n) (d.openLegs n) else d
  let d :=
    if is && !was then
      let x := d.src n
      let d := d.setSrc n { bufs := x.bufs, nextBuf := x.nextBuf, held := x.held, mismatched := x.mismatched : SourceRt }
      ((d.newPool n).wr (srcIdx n) 0x21 0).setSrcState n 1
    else if was && !is then
      let d := (d.setSrc n { d.src n with newest := none }).newPool n
      ((d.stopSource n).wr (srcIdx n) 0x21 0).setSrcState n 0
    else if !is then d
    else
      let d := if Dev.poolChanges old d n then d.newPool n else d
      let d := if old.takesRing n != d.takesRing n then d.stopSource n else d
      let d := if d.rd (srcIdx n) 3 = 1 then d.setSrc n { d.src n with units := [], cut := [] } else d
      if legsChanged old d n then ((d.freshLegs n).wr (srcIdx n) 0x21 0).setSrcState n 1 else d
  (Dev.restartSession old n d).registerReceiver n

/-- The source takes its frames from the ring from now on, or from its legs again (R384). -/
def Dev.refreshTaking (d : Dev) (n : Nat) : Dev :=
  let f := d.sharedFlow n
  if Tab.getD d.ring.taking n 0 = f then d
  else
    let d' : Dev := { d with ring := { d.ring with taking := Tab.setD d.ring.taking n f 0 } }
    Dev.sourceChanged d n d'

/-- A hold bit applies: the newest published frame is pinned; released, the pin is removed (R174). -/
def Dev.holdChanged (d : Dev) (n : Nat) (on : Bool) : Dev :=
  let x := d.src n
  if on then
    if x.held.isSome then d else d.setSrc n { x with held := x.newest }
  else d.setSrc n { x with held := none }.sweep

/-! ### Decoder sessions (R128, R131) -/

/-- A change of a session's configuration applies (R128). -/
def Dev.sessionChanged (old : Dev) (k : Nat) (d : Dev) : Dev :=
  let i := decIdx k
  if d.bankHeld (k / 32) then d
  else if d.rdb i 1 then
    if d.decState k = 0 then (d.wrd i 0x0C (List.replicate 20 0)).decRestart k 1
    else if changed old d i [2, 3, 4, 5, 6] then d.decRestart k 1 else d
  else d.decRestart k 0

/-! ### Graphics layers (R137, R162) -/

/-- Pending SLOT launches of a layer do not carry over to its new slots (R137). -/
def Dev.dropSlotLaunches (d : Dev) (l : Nat) : Dev :=
  foldNat (fun d e =>
    if d.rd (launchIdx e) 1 = 3 ∧ d.launchState e = 2 ∧ d.rd (launchIdx e) 5 = l then
      d.launchFail e stWrongState
    else d) 64 d

/-- Submissions and claims made for a layer's old slots that still wait for their tick do not carry over to its new
slots (R137): their records leave the batches and the mirrored writes. -/
def Dev.dropSubmits (d : Dev) (l : Nat) : Dev :=
  let mine := fun (r : Rec) => r.idx == layIdx l && (r.sub == 0x19 || r.sub == 0x1A)
  { d with
    batches := d.batches.map fun b => { b with recs := b.recs.filter fun r => !mine r }
    mirror := d.mirror.filter fun m => !mine m.rec_ }

/-- A change of a layer applies; `submits` tells that the batch writes its current slot. New slots are
allocated where the layer is a graphics layer (R137, Table 6.7). -/
def Dev.layerChanged (old : Dev) (l : Nat) (submits : Bool) (d : Dev) : Dev :=
  let i := layIdx l
  let was := old.rdb i 1
  let is := d.rdb i 1
  if d.bankHeld (d.layWing l) then d
  else if (is && !was) || (is && (d.layer l).slots.isEmpty && d.rd i 2 == 1) || Dev.slotsChange old d l then
    (((d.freeSlots l).allocSlots l).dropSlotLaunches l).dropSubmits l |>.wr i 0x19 0
  else if was && !is then ((d.freeSlots l).dropSlotLaunches l).dropSubmits l
  else if submits then
    match (d.layer l).slots.find? fun s => s.num == d.rd i 0x19 with
    | some s => if s.state = 1 ∨ s.state = 2 then d.makeCurrent l s.num else d.wr i 0x19 (old.rd i 0x19)
    | none => d
  else d

/-- Memory of a layer's slots is cleared to zero at their allocation (R137). -/
def Dev.clearSlots (old d : Dev) (l : Nat) (mem : Mem) : Mem :=
  if (old.layer l).gen = (d.layer l).gen then mem
  else (d.layer l).slots.foldl (fun m s => m.clear s.base s.size) mem

/-- Enable 1 of a job list applies: its runs count from 0 (Table 6.10). -/
def Dev.jobChanged (old : Dev) (j : Nat) (d : Dev) : Dev :=
  if d.rdb (0x4000 + j) 2 && !old.rdb (0x4000 + j) 2 then d.wr (0x4000 + j) 6 0 else d

/-! ### Outputs (R203 to R205, R159) -/

/-- Returns the loans of an output's compositions in progress and forgets them. -/
def Dev.dropComps (d : Dev) (o : Nat) : Dev :=
  let cs := (d.out o).comps.filter fun c => !c.complete
  let d := (cs.flatMap (·.loans)).foldl Dev.returnLoan d
  d.setOut o { d.out o with comps := [], ready := [], shown := none, raster := none }

/-- An output sends its next raster frame as a black one, from an instant on (R203). -/
def Dev.blackFrom (d : Dev) (o at_ : Nat) : Dev :=
  let x := d.out o
  d.setOut o { x with blackNext := true, hold := max x.hold at_ }

/-- MODE_APPLIED (Table 8.4). -/
def Dev.modeApplied (d : Dev) (o : Nat) : Dev :=
  d.event (uOut o) 0x0806 o (d.rd (outIdx o) 2 * 256 + d.rd (outIdx o) 3)

/-- Enable 1 applies to an output: counts, window and region histories begin anew, and its first raster
frame is black (R171, R188, R203, R210). -/
def Dev.startOutput (d : Dev) (o : Nat) : Dev :=
  let d := (d.forgetOutput o).dropComps o
  let d := foldNat (fun d k => d.wrc (0x5000 + o) 1 k []) 16 (d.wr (0x5000 + o) 3 0)
  let d := d.setOut o { blackNext := true, hold := d.now, lent := (d.out o).lent, plane := (d.out o).plane }
  ((d.wr (outIdx o) 0x12 0).modeApplied o).refreshOut o

/-- Enable 0 applies to an output. -/
def Dev.stopOutput (d : Dev) (o : Nat) : Dev :=
  (((d.forgetOutput o).dropComps o).refreshOut o).newSlots o

/-- The wing's timing differs (R35). -/
def rateChanged (old new : Dev) (w : Nat) : Bool := old.rate w != new.rate w || old.phase w != new.phase w

/-- A change of an output's configuration applies (R159, R203, R205). -/
def Dev.outputChanged (old : Dev) (o : Nat) (d : Dev) : Dev :=
  let i := outIdx o
  let d :=
    if d.outOn o && !old.outOn o then d.startOutput o
    else if old.outOn o && !d.outOn o then d.stopOutput o
    else if d.outOn o then
      let w := outWing o
      let d :=
        if changed old d i [2, 3, 4] || rateChanged old d w then
          (d.blackFrom o (max (max d.now (old.rasterEnd o)) (d.wing w).quietUntil)).modeApplied o
        else d
      if changed old d i [6, 7] then d.setOut o { d.out o with unfed := true } else d
    else d
  let d := if o < 64 ∧ o % 4 = 0 ∧ changed old d i [0x38, 0x39, 0x3A] = true then
      let p := o / 4
      (d.setDp p { d.dp p with flagged := true }).train p
    else if o < 64 ∧ changed old d i [1, 2, 3, 0x0D, 0x30, 0x31] = true then d.rejudge (o / 4) Dev.train
    else d
  d.refreshOut o

/-- After an abandoned entry or a wake, an output resumes with one black frame (R429, R431). -/
def Dev.resumeOutput (d : Dev) (o : Nat) : Dev := ((d.dropComps o).blackFrom o d.now).refreshOut o

/-! ### Encoder channels (R215, R234, R251) -/

/-- A change of a channel's configuration applies. -/
def Dev.channelChanged (old : Dev) (c : Nat) (d : Dev) : Dev :=
  let i := encIdx c
  if d.bankHeld (encWing c) then d
  else if d.rdb i 1 && d.encState c == 0 then d.encEnable c
  else if !d.rdb i 1 && d.encState c != 0 then d.encDisable c
  else if d.rdb i 1 then
    (if changed old d i [2, 3, 4, 5, 0x0A, 0x0B, 0x0C, 0x0F, 0x10, 0x11] then d.encRestart c else d).refreshEnc c
  else d

/-! ### Audio (R281, R282, R285, R287) -/

/-- A change of an I2S port's configuration applies (R281, R282). -/
def Dev.audPortChanged (old : Dev) (a : Nat) (d : Dev) : Dev :=
  let i := audIdx a
  if d.bankHeld 4 then d
  else if d.rdb i 1 && d.audState a == 0 then d.audEnable a
  else if !d.rdb i 1 then d.audDisable a
  else if d.audState a = 2 ∧ changed old d i [2, 3, 4, 5, 7, 8, 9] = true then d.audRunNow a
  else d

/-- The legs of an enabled receive stream. -/
def Dev.recvLegs (d : Dev) (st : Nat) : List Leg :=
  if d.rdb (recvIdx st) 1 && !d.bankHeld 4 then d.audLegs st else []

/-- A change of a receive stream's configuration applies (R103, R285). -/
def Dev.recvChanged (old : Dev) (st : Nat) (d : Dev) : Dev :=
  let i := recvIdx st
  if d.bankHeld 4 then d
  else if d.rdb i 1 && d.rd i 0x12 == 0 then d.recvEnable st
  else if !d.rdb i 1 && d.rd i 0x12 != 0 then d.recvDisable st (old.recvLegs st)
  else if d.rdb i 1 && (changed old d i [2, 3, 6, 0x0E] || changedD old d i [4, 5, 0x0F]) then
    ((d.rejoinLegs (old.recvLegs st) (d.recvLegs st)).setAudIn st { last := d.now }).setAudStream st 1
  else d

/-- A change of a send stream's configuration applies (R287). -/
def Dev.sendChanged (st : Nat) (d : Dev) : Dev :=
  let d := if d.rd (sendIdx st) 0x12 = 0 ∧ d.rdb (sendIdx st) 1 = true then d.setAudOut st {} else d
  d.refreshSend st

/-! ### Touch surfaces (R296) -/

/-- A change of a surface's configuration applies (R296). -/
def Dev.surfaceChanged (old : Dev) (k : Nat) (d : Dev) : Dev :=
  let i := surfIdx k
  if d.bankHeld 5 then d
  else if !d.rdb i 1 then (if d.surfState k = 0 then d else d.surfOff k)
  else if d.surfState k = 0 || changed old d i [2, 3, 4, 5, 6] then d.acquire k
  else d

/-! ### Network ports (R95) -/

/-- A lane-plan change applies: every port of an affected wing drops its link and starts bring-up in the
new mode (R95). -/
def Dev.lanesChanged (old : Dev) (d : Dev) : Dev :=
  foldNat (fun d k =>
    if changed old d 0x2037 [k / 2 + 1, k / 2 + 5] then
      let d := d.netDown k
      -- bring-up starts: training, with LINK
      if d.portExists k then (d.wr (netIdx k) 0x0A 1).event (uNet k) 0x0405 k 1 else d
    else d) 8 d

/-! ### Wing states (R424, R426, R427) -/

/-- Current state of wing `w` (0x2300:08). -/
def Dev.wingState (d : Dev) (w : Nat) : Nat := byteAt (d.rdd 0x2300 8) w

/-- Writes the current state of a wing, with POWER_STATE. -/
def Dev.setWingState (d : Dev) (w st : Nat) : Dev :=
  if d.wingState w = st then d
  else
    let b := (List.range 4).map fun v => BitVec.ofNat 8 (if v = w then st else d.wingState v)
    (d.wrd 0x2300 8 b).event (uWing w) 0x1401 w st

/-- The objects that a retention bank holds (Table 20.6), by index. A job list's content stays in the
HBM. -/
def Dev.bankObj (d : Dev) (b i : Nat) : Bool :=
  if b < 4 then
    (d.objWing i == some b && decide (0x3000 ≤ i)) ||
      (decide (0x3480 ≤ i) && decide (i < 0x34C0) && (d.heads (i - 0x3480)).any fun h => outWing h.1 == b)
  else if b = 4 then decide (0x3600 ≤ i) && decide (i < 0x3640)
  else if b = 5 then decide (0x3700 ≤ i) && decide (i < 0x3720)
  else if b = 6 then decide (0x2200 ≤ i) && decide (i < 0x2290)
  else decide (0x2340 ≤ i) && decide (i < 0x2343)

/-- The job lists that run on a wing. -/
def Dev.bankJob (d : Dev) (b i : Nat) : Bool :=
  decide (0x4000 ≤ i) && decide (i < 0x4100) &&
    (let t := d.jobTarget (i - 0x4000)
     (if t.1 = 0 then outWing (t.2 % 128) else d.layWing (t.2 % 512)) == b)

/-- Objects take the values of a reset again (R69): P-class ones those that the last reset loaded. -/
def Dev.dropObjs (d : Dev) (p q : Nat → Bool) : Dev :=
  let at_ := fun (k : Nat) => k / 65536 / 256
  let regs := d.regs.filterKeys fun k => !p (at_ k) && !q (at_ k)
  let doms := d.doms.filterKeys fun k => !p (at_ k)
  { d with
    regs := (d.bootRegs.filterKeys fun k => p (at_ k)).foldl (fun m e => Tab.setD m e.1 e.2 (regDefault e.1)) regs
    doms := (d.bootDoms.filterKeys fun k => p (at_ k)).foldl (fun m e => Tab.setD m e.1 e.2 (domDefault e.1)) doms }

/-- The unit state that a bank holds is lost. -/
def Dev.dropUnits (d : Dev) (b : Nat) : Dev :=
  if b < 4 then
    { d with
      sources := d.sources.filterKeys fun n => d.srcWing n != b
      decs := d.decs.filterKeys fun k => k / 32 != b
      layers := d.layers.filterKeys fun l => d.layWing l != b
      layerComps := d.layerComps.filter fun c => c.wing != b
      outputs := d.outputs.filterKeys fun o => outWing o != b
      encs := d.encs.filterKeys fun c => encWing c != b }
  else if b = 4 then { d with aud := {} }
  else if b = 5 then { d with touch := {} }
  else if b = 6 then { d with time := { ports := d.time.ports }, due := [], launched := [], pps := {} }
  else { d with cal := { done := [] } }

/-- A retention bank fails its check: its function is held in reset, and its objects hold their defaults
(R435). Calibration uses the loaded flash record (R423). -/
def Dev.bankLost (d : Dev) (b : Nat) : Dev :=
  if 7 < b then d
  else
    let old := d
    let d := (d.dropUnits b).dropObjs (old.bankObj b) (fun i => decide (b < 4) && old.bankJob b i)
    let d := if b = 7 then d.calLoad [] else d
    (d.wr 0x2300 0x0A (setBit (d.rd 0x2300 0x0A) b true)).raise uAon 0x1404 b 0 sevService

/-- A wing state applies. A wing that leaves Sleep or Deep sleep raises its first tick at least 5 ms later;
one that leaves Deep sleep checks its bank (R427, R434). -/
def Dev.wingStateApplies (d : Dev) (lost : List Nat) (w : Nat) : Dev :=
  let st := d.rd 0x2300 (w + 1)
  let was := d.wingState w
  let d := d.setWingState w st
  let d : Dev := if st = 3 then { d with retain := [] } else d
  let d := if d.curDown w then d else d.setWing w { d.wing w with frozen := [] }
  if 2 ≤ was ∧ st < 2 then
    let d := d.setWing w { d.wing w with quietUntil := d.now + 5000000 }
    if was = 3 ∧ lost.contains w = true then d.bankLost w else d
  else d

end Sys2Proof.Machine
end

