-- ==== Sys2Proof/Machine/Apply.lean ====
section
/-! DEFINITION. The application of batches at T+0 (R31, R36, R65): which wing's tick a record waits for, the
values it stores, and what each change does; and the start of a held function (R435). -/
namespace Sys2Proof.Machine

/-! ### Ownership (R65) -/

/-- The wing that runs a job list: that of its target. -/
def Dev.jobWing (d : Dev) (j : Nat) : Nat :=
  let t := d.jobTarget j
  if t.1 = 0 then outWing (t.2 % 128) else d.layWing (t.2 % 512)

/-- Where a record's object belongs: wings 0 to 3, and 4 for the device (R65, R174, R335). `new` is the
configuration that the batch gives. A word of the hold object belongs to the wings of its sources. -/
def Dev.recOwners (new : Dev) (r : Rec) : List Nat :=
  let i := r.idx
  if i = 0x34F4 then ((List.range 32).map fun b => new.srcWing (32 * (r.sub - 1) + b)).eraseDups
  else if i = 0x2020 ∨ (i = 0x2500 ∧ r.sub ≤ 4) then [r.sub - 1]
  else if 0x4000 ≤ i ∧ i < 0x4100 then [new.jobWing (i - 0x4000)]
  else match new.objWing i with
    | some w => [w]
    | none => [4]

/-- The record applies at the tick of `here`, a wing or 4 for the device. -/
def Dev.recHere (new : Dev) (here : Nat) (r : Rec) : Bool := (new.recOwners r).contains here

/-- The record waits for another tick still. -/
def Dev.recWaits (new : Dev) (done : List Nat) (r : Rec) : Bool := (new.recOwners r).any fun o => !done.contains o

/-- The places whose objects apply at a tick of wing `w`. -/
def appliesAt (w : Nat) : List Nat := if w = 0 then [4, 0] else [w]

/-! ### Values -/

/-- A word of the hold object, its bits of the sources of the named places replaced. -/
def Dev.holdWord (d : Dev) (here : List Nat) (sub v : Nat) : Nat :=
  foldNat (fun x b => if here.contains (d.srcWing (32 * (sub - 1) + b)) then setBit x b (v.testBit b) else x) 32
    (d.rd 0x34F4 sub)

/-- Stores a record's value; the object's latest batch is noted (Table 7.6). -/
def Dev.applyRec (here : List Nat) (num : Nat) (d : Dev) (r : Rec) : Dev :=
  let d := { d with batchOf := Tab.setD d.batchOf r.idx num 0 }
  if r.idx = 0x34F4 then d.wr 0x34F4 r.sub (d.holdWord here r.sub (leNat r.data)) else d.setObj r.idx r.sub r.data

/-- The places of a tick at which a batch has not applied before: each applies its records once. -/
def Batch.fresh (b : Batch) (here : List Nat) : List Nat := here.filter fun h => !b.done.contains h

/-- The records of a batch that apply at this tick. -/
def Dev.batchHere (d : Dev) (here : List Nat) (b : Batch) : List Rec :=
  let new := d.setRecs b.recs
  b.recs.filter fun r => (b.fresh here).any fun h => new.recHere h r

/-- The batch after this tick; none when nothing of it waits. -/
def Dev.batchRest (d : Dev) (here : List Nat) (b : Batch) : Option Batch :=
  let new := d.setRecs b.recs
  let done := b.done ++ b.fresh here
  match b.recs.filter fun r => new.recWaits done r with
  | [] => none
  | rs => some { b with recs := rs, done := done }

/-! ### Effects -/

/-- Numbers below `n` whose object was written, of the objects from `base` on. -/
def touched (is : List Nat) (base n : Nat) : List Nat := (List.range n).filter fun k => is.contains (base + k)

/-- A change of a wing's timing: the first tick at the new timing lies at least 1 ms after this one, between their
exact instants (R35). -/
def Dev.timingChanged (old : Dev) (w : Nat) (d : Dev) : Dev :=
  if rateChanged old d w then
    let k := d.tickFromExact w ((old.tickExact w (d.wing w).tick).add (Q.ofNat 1000000))
    d.setWing w { d.wing w with raised := false, quietUntil := d.tickTime w k }
  else d

/-- The outputs of the wings whose timing changed, and those written. -/
def outputsTouched (old new : Dev) (is : List Nat) : List Nat :=
  (List.range 128).filter fun o => is.contains (outIdx o) || rateChanged old new (outWing o)

/-- The hold bits of the sources of the named places apply (R174). -/
def Dev.holdsApply (old : Dev) (here subs : List Nat) (d : Dev) : Dev :=
  subs.foldl (fun d s => foldNat (fun d b =>
    let n := 32 * (s - 1) + b
    if here.contains (d.srcWing n) && old.holdBit n != d.holdBit n then d.holdChanged n (d.holdBit n) else d)
    32 d) d

/-- The services of a cluster that does not run go on with the values that stood before (R23 to R25). -/
def Dev.keepFrozen (old : Dev) (recs : List Rec) (d : Dev) : Dev :=
  let keys := ((recs.filter fun r => isCurated r.idx).map fun r => (r.idx, r.sub)).eraseDups
  [0, 1, 2, 3].foldl (fun d w =>
    let x := d.wing w
    if !old.curDown w then d
    else
      let new := keys.filter fun k => !x.frozen.any fun r => (r.idx, r.sub) == k
      d.setWing w { x with frozen := x.frozen ++ new.map fun k => (old.seenBy w).standing k.1 k.2 }) d

/-- What the changed objects do, once the values of a tick stand. `old`: the configuration before; `recs`:
what applied; `lost`: retention banks whose check fails when their wing wakes. -/
def Dev.applyEffects (old : Dev) (here : List Nat) (recs : List Rec) (lost : List Nat) (mem : Mem) (d : Dev) :
    Dev × Mem :=
  let is := (recs.map (·.idx)).eraseDups
  let subsOf := fun i => (recs.filter fun r => r.idx == i).map (·.sub)
  let d := Dev.keepFrozen old recs d
  let d := (touched is 0x2010 4).foldl (fun d w => Dev.timingChanged old w d) d
  let d := if (subsOf 0x2000).contains 2 then d.protectionChanged (old.rd 0x2000 2) (d.rd 0x2000 2) else d
  let d := if is.contains 0x2037 then d.lanesChanged old else d
  let d := (touched is 0x3000 256).foldl (fun d n => Dev.sourceChanged old n d) d
  let d := Dev.holdsApply old here (subsOf 0x34F4) d
  let d := (touched is 0x3100 128).foldl (fun d k => Dev.sessionChanged old k d) d
  let ls := touched is 0x3200 512
  let d := ls.foldl (fun d l => Dev.layerChanged old l ((subsOf (layIdx l)).contains 0x19) d) d
  let mem := ls.foldl (fun m l => Dev.clearSlots old d l m) mem
  let d := (touched is 0x4000 256).foldl (fun d j => Dev.jobChanged old j d) d
  let d := (outputsTouched old d is).foldl (fun d o => Dev.outputChanged old o d) d
  let d := (touched is 0x3500 16).foldl (fun d c => Dev.channelChanged old c d) d
  let d := (touched is 0x3601 16).foldl (fun d a => Dev.audPortChanged old a d) d
  let d := (touched is 0x3620 16).foldl (fun d st => Dev.recvChanged old st d) d
  let d := (touched is 0x3630 16).foldl (fun d st => d.sendChanged st) d
  let d := (touched is 0x3701 8).foldl (fun d k => Dev.surfaceChanged old k d) d
  let d := (touched is 0x2410 32).foldl (fun d u => d.cvuEnabled mem u) d
  let d := (subsOf 0x2500).foldl (fun d s => d.selectSets (s - 1)) d
  let d := ((List.range 4).filter fun w => (subsOf 0x2300).contains (w + 1)).foldl
    (fun d w => d.wingStateApplies lost w) d
  (d, mem)

/-- Changes of a W0 tick to device-wide objects, whose change the work of wings 1 to 3 takes up at their own T+0: a
wing without a T+0 at this very instant works on with the values that stood before (R65). -/
def Dev.keepLate (old : Dev) (recs : List Rec) (d : Dev) : Dev :=
  let rs := recs.filter fun r => d.recOwners r == [4]
  if rs.isEmpty then d
  else [1, 2, 3].foldl (fun d v =>
    let x := d.wing v
    if x.raised ∧ x.at_ = (d.wing 0).at_ then d
    else
      let new := (rs.map fun r => (r.idx, r.sub)).eraseDups.filter fun k =>
        !x.late.any fun r => (r.idx, r.sub) == k
      d.setWing v { x with late := x.late ++ new.map fun k => old.standing k.1 k.2 }) d

/-- T+0 of tick `k` of wing `w` applies every batch that has come to it, in the order of acceptance; the
admitted demand changes with it (R36). -/
def Dev.applyBatches (d : Dev) (w k : Nat) (lost : List Nat) (mem : Mem) : Dev × Mem :=
  let here := appliesAt w
  let due := d.batches.filter fun b => d.batchDue b w k
  let mine := due.map fun b => (b.num, b.fresh here, d.batchHere here b)
  let recs := mine.flatMap (·.2.2)
  let batches := d.batches.filterMap fun b => if d.batchDue b w k then d.batchRest here b else some b
  if recs.isEmpty then ({ d with batches := batches }, mem)
  else
    let old := d
    let last := mine.foldl (fun m e => if e.2.2.isEmpty then m else max m e.1) d.dup.applied
    let d := mine.foldl (fun d e => e.2.2.foldl (Dev.applyRec e.2.1 e.1) d) d
    let d := { d with batches := batches, dup := { d.dup with applied := last } }
    let d := if w = 0 then Dev.keepLate old recs d else d
    let (d, mem) := Dev.applyEffects old here recs lost mem d
    (d.keepPeaks, mem)

/-! ### Release of held functions (R435) -/

/-- The function of a bank starts from its objects' current values, as when they are enabled. -/
def Dev.releaseBank (d : Dev) (b : Nat) (mem : Mem) : Dev × Mem :=
  let old := d
  let d := d.wr 0x2300 0x0A (setBit (d.rd 0x2300 0x0A) b false)
  if b < 4 then
    let d := ((List.range 256).filter fun n => d.srcWing n == b).foldl (fun d n => Dev.sourceChanged old n d) d
    let d := foldNat (fun d i => Dev.sessionChanged old (32 * b + i) d) 32 d
    let ls := (List.range 512).filter fun l => d.layWing l == b
    let d := ls.foldl (fun d l => Dev.layerChanged old l false d) d
    let mem := ls.foldl (fun m l => Dev.clearSlots old d l m) mem
    let d := ((List.range 128).filter fun o => outWing o == b).foldl
      (fun d o => if d.outOn o then d.startOutput o else d.refreshOut o) d
    (foldNat (fun d i => Dev.channelChanged old (4 * b + i) d) 4 d, mem)
  else if b = 4 then
    let d := foldNat (fun d a => Dev.audPortChanged old a d) 16 d
    let d := foldNat (fun d st => Dev.recvChanged old st d) 16 d
    (foldNat (fun d st => d.sendChanged st) 16 d, mem)
  else if b = 5 then (foldNat (fun d k => Dev.surfaceChanged old k d) 8 d, mem)
  else (d, mem)

/-- The banks that a tick releases: of wing `n` for banks 0 to 3, of W0 otherwise. -/
def Dev.releaseDue (d : Dev) (w k : Nat) (mem : Mem) : Dev × Mem :=
  let due := d.pwr.releases.filter fun r => r.2.1 == w && decide (r.2.2 ≤ k)
  let d := { d with pwr := { d.pwr with releases := d.pwr.releases.filter fun r => !(r.2.1 == w && decide (r.2.2 ≤ k)) } }
  due.foldl (fun (s : Dev × Mem) r => s.1.releaseBank r.1 s.2) (d, mem)

end Sys2Proof.Machine
end

