-- ==== Sys2Proof/Machine/Power.lean ====
section
/-! DEFINITION. Power states of the device (R424 to R438): entry, wake, retention and thermal reporting.
Table 20.1's device states are codes of `PwrRt.state`. -/
namespace Sys2Proof.Machine

/-! ### Pins that follow from the state -/

/-- SYSRST_OUT_N is high: from boot phase 5 on, and in Sleep (R441, Table 20.4). -/
def Dev.sysrstHigh (d : Dev) : Bool :=
  d.pwr.state == 0 || d.pwr.state == 1 || d.pwr.state == 4 && d.pwr.bootStep == 8

/-- XSPI_RST_N is high: from the start of the boot ROM on; in Deep sleep and below the ball is not driven
(R441, Table 20.4). -/
def Dev.xspiRstHigh (d : Dev) : Bool :=
  d.pwr.state == 0 || d.pwr.state == 4 && !d.pwr.resetLow && d.pwr.wake.isNone

/-- The switches of the ring sides are closed until boot has ended and while the ring is not enabled (R369). -/
def Dev.ringSwitchesClosed (d : Dev) : Bool :=
  d.pwr.state != 0 || (d.pwr.entry.any fun e => decide (3 ≤ e.step)) || !d.ringOn

/-! ### Changes of state -/

/-- Changes the power record. -/
def Dev.setPwr (d : Dev) (x : PwrRt) : Dev := { d with pwr := x }

/-- A command that acts in every power state and may change the HBM. -/
def onAonMem (t : Nat) (f : Mem → Dev → Dev × Mem) (s : State) : Host.Outcome State Fault Refusal :=
  let r := f s.mem { s.dev with now := t, outbox := [] }
  .next { s with dev := r.1, mem := r.2 }

/-- Adds one to a field of 0x2300:0D: 0 entries, 1 wakes, 2 entries abandoned, 3 requests refused. -/
def Dev.powerCount (d : Dev) (f : Nat) : Dev := d.addf 0x2300 0x0D f 1 4

/-- 0x2300:0C shows WAKE_N (R432). -/
def Dev.setWake (d : Dev) (low armed edge : Bool) : Dev :=
  (d.setPwr { d.pwr with wakeLow := low, wakeArmed := armed }).wr 0x2300 0x0C
    (low.toNat + 2 * armed.toNat + 4 * edge.toNat)

/-! ### Stopping and resuming the work of a wing -/

/-- An encoder channel stops at once: its pictures are dropped and their loans return. -/
def Dev.quietEnc (d : Dev) (c : Nat) : Dev :=
  let ps := (d.enc c).pics
  let d := (ps.flatMap (·.loans)).foldl Dev.returnLoan d
  (d.setEnc c { d.enc c with pics := [], nals := [], begin_ := 2 }).setEncState c 0

/-- A job list's composition of a layer is dropped: its loans return, its slot is IDLE again. -/
def Dev.dropLayerComps (d : Dev) (p : Comp → Bool) : Dev :=
  let cs := d.layerComps.filter p
  let d := (cs.flatMap (·.loans)).foldl Dev.returnLoan d
  let d := cs.foldl (fun d c => d.setLayer c.target ((d.layer c.target).updSlot c.slot c.gen (·.enter 0))) d
  { d with layerComps := d.layerComps.filter fun c => !p c }

/-- The units of a wing stop: heads and IP outputs send nothing, channels stop, sources publish nothing and
give up the frames in progress. `leave`: the intake sends leaves (R103). -/
def Dev.stopWing (leave : Bool) (d : Dev) (w : Nat) : Dev :=
  let d := ((List.range 256).filter fun n => d.srcOn n && d.srcWing n == w).foldl (fun d n =>
    let d := if leave then d.rejoinLegs (d.openLegs n) [] else d
    d.stopSource n) d
  let d := ((List.range 128).filter fun o => outWing o == w && d.outOn o).foldl (fun d o => d.dropComps o) d
  let d := d.dropLayerComps fun c => c.wing == w
  foldNat (fun d i => d.quietEnc (4 * w + i)) 4 d

/-- The units of a wing resume: outputs with one black frame, channels by restart, sources by rejoining
(R429, R431). -/
def Dev.resumeWing (d : Dev) (w : Nat) : Dev :=
  let d := ((List.range 256).filter fun n => d.srcOn n && d.srcWing n == w).foldl (fun d n =>
    (d.rejoinLegs [] (d.openLegs n)).setSrcState n 1) d
  let d := ((List.range 128).filter fun o => outWing o == w && d.outOn o).foldl (fun d o => d.resumeOutput o) d
  foldNat (fun d i =>
    let c := 4 * w + i
    if d.rdb (encIdx c) 1 && !d.wingDown w then
      (d.setEnc c { d.enc c with begin_ := 2, from_ := d.now }).setEncState c (d.codingState c)
    else d) 4 d

/-- All network reception of the device leaves, or joins again, its audio streams. -/
def Dev.audioJoins (join : Bool) (d : Dev) : Dev :=
  foldNat (fun d st =>
    let legs := d.recvLegs st
    if legs.isEmpty then d
    else if join then (d.rejoinLegs [] legs).setAudStream st 1 else d.rejoinLegs legs []) 16 d

/-! ### The device command (R426, R428) -/

/-- What refuses a device command (R426). -/
def Dev.powerStatus (d : Dev) : Nat :=
  if d.duplex then stWrongState
  else if d.pwr.wakeLow then stWrongState
  else if !d.batches.isEmpty then stWrongState
  else if d.pwr.entry.isSome then stWrongState
  else if (List.range 64).any fun k => d.slotState k == 1 then stBusy
  else stOk

/-- Every session is closed, without NOTIFY. -/
def Dev.closeSessions (d : Dev) : Dev := { d with sessions := [] }

/-- A device command: entry begins, or it is refused with SLEEP_REFUSED (R426, R428). -/
def Dev.powerCommand (d : Dev) (v : Nat) : Res :=
  let st := d.powerStatus
  if st ≠ stOk then ((d.powerCount 3).raise uAon 0x1405 v st sevInfo).res st
  else ((d.setPwr { d.pwr with entry := some { target := v }, latched := 0 }).powerCount 0).closeSessions.res stOk

def powerWrite (t : Nat) (by_ : Requester) (v : Nat) (s : State) : Host.Outcome State Fault Refusal :=
  onCommand t by_ (fun d => d.command by_ 0x2300 5 [BitVec.ofNat 8 v] (·.powerCommand v)) s

/-- DEVICE_SLEEP: 1 written to 0x2300:05. -/
def execDeviceSleep (t : Nat) (by_ : Requester) (s : State) : Host.Outcome State Fault Refusal := powerWrite t by_ 1 s

/-- DEVICE_DEEP_SLEEP: 2 written to 0x2300:05. -/
def execDeviceDeepSleep (t : Nat) (by_ : Requester) (s : State) : Host.Outcome State Fault Refusal :=
  powerWrite t by_ 2 s

/-- DEVICE_OFF: 3 written to 0x2300:05. -/
def execDeviceOff (t : Nat) (by_ : Requester) (s : State) : Host.Outcome State Fault Refusal := powerWrite t by_ 3 s

/-! ### Wake (R430 to R434) -/

/-- The 16 bytes of 0x2300:09 (Table 20.7). -/
def lastWakeBytes (cause left outcome step ms us : Nat) : List Byte :=
  leBytes 1 cause ++ leBytes 1 left ++ leBytes 1 outcome ++ leBytes 1 step ++ leBytes 4 ms ++ leBytes 4 us ++
    leBytes 4 0

/-- The wake steps of the state left (Table 20.3); a reset release runs those of Off (R439). -/
def wakeSteps : Nat → List Nat
  | 1 => [2, 3, 7, 9, 11]
  | 2 => [1, 2, 3, 4, 6, 7, 9, 10, 11]
  | _ => [1, 2, 3, 4, 5, 6, 7, 8]

/-- The step after one. -/
def nextStep (steps : List Nat) (n : Nat) : Nat := (steps.find? fun k => decide (n < k)).getD 0

/-- The supplies that a wake step enables, as bits of PWR_EN. -/
def wakeEnables : Nat → Nat
  | 1 => 3 | 2 => 4 | 3 => 8 | 4 => 16 | 5 => 32 | _ => 0

/-- A wake step begins. -/
def Dev.beginStep (d : Dev) (w : WakeRt) (step : Nat) : Dev :=
  d.setPwr { d.pwr with
    wake := some { w with step := step, stepAt := d.now }, enables := d.pwr.enables ||| wakeEnables step }

/-- A wake begins, or the sequence of a reset release. -/
def Dev.beginWake (d : Dev) (from_ cause : Nat) : Dev :=
  d.beginStep { from_ := from_, step := 0, cause := cause, began := d.now, stepAt := d.now }
    ((wakeSteps from_).headD 1)

/-- A wake source has fired: it wakes a resting device, and is latched while an entry runs; of two together the lower
cause code counts (R429, R430). A wake that runs ignores every later event. -/
def Dev.wakeEvent (d : Dev) (cause : Nat) : Dev :=
  let p := d.pwr
  match p.wake with
  | some w =>
    if w.began = d.now ∧ w.from_ ≠ 4 ∧ cause < w.cause then d.setPwr { p with wake := some { w with cause := cause } } else d
  | none =>
  if p.state = 0 then
    if p.entry.isSome then
      d.setPwr { p with latched := if p.latched = 0 then cause else min p.latched cause }
    else d
  else if p.state = 1 ∨ p.state = 2 ∨ (p.state = 3 ∧ cause = 1) then d.beginWake p.state cause
  else d

/-- WAKE_N_FALL: an armed WAKE_N wakes the device once; in Run the edge is only shown (R432). -/
def execWakeNFall (t : Nat) (s : State) : Host.Outcome State Fault Refusal :=
  onAon t (fun d =>
    let armed := d.pwr.wakeArmed
    let d := d.setWake true false ((d.rd 0x2300 0x0C).testBit 2 || (d.pwr.state == 0))
    if armed then d.wakeEvent 1 else d) s

/-- WAKE_N_ARM: WAKE_N has been high for 1 ms (R432). -/
def execWakeNArm (t : Nat) (s : State) : Host.Outcome State Fault Refusal :=
  onAon t (fun d => d.setWake false true ((d.rd 0x2300 0x0C).testBit 2)) s

/-- CAN_RX_WAKE: a dominant level for 5 µs, where 0x2300:07 enables it (R430). -/
def execCanRxWake (t : Nat) (s : State) : Host.Outcome State Fault Refusal :=
  onAon t (fun d => if (d.rd 0x2300 7).testBit 1 && d.pwr.state != 3 then d.wakeEvent 2 else d) s

/-- WAKE_TIMER: the wake timer has run from the end of E6, on the AON oscillator (R430). -/
def execWakeTimer (t : Nat) (s : State) : Host.Outcome State Fault Refusal :=
  onAon t (fun d =>
    let ms := d.rd 0x2300 6
    let resting := d.pwr.state == 1 || d.pwr.state == 2
    if (d.rd 0x2300 7).testBit 2 && ms != 0 && resting && decide (d.pwr.enteredAt + ms * 990000 ≤ d.now) then
      d.wakeEvent 3
    else d) s

/-! ### Entry (R428, R429) -/

/-- The entry steps of a target state after E1 (Table 20.2). -/
def entrySteps : Nat → List Nat
  | 1 => [2, 3, 5, 6]
  | 2 => [2, 3, 4, 5, 6]
  | _ => [2, 3, 6]

/-- The abort point after an entry step; 0 none. -/
def abortPoint : Nat → Nat
  | 2 => 1 | 4 => 2 | 5 => 3 | _ => 0

/-- The supplies that stay enabled in a state (R425, Table 20.1). -/
def restEnables : Nat → Nat
  | 1 => 0x33 | 2 => 0x20 | _ => 0

/-- State of both HBM devices (0x2601:01). -/
def Dev.setHbmState (d : Dev) (st : Nat) : Dev := (d.wr 0x2601 1 st).wr 0x2602 1 st

/-- Every wing shows a state (R424). -/
def Dev.allWings (d : Dev) (st : Nat) : Dev := foldNat (fun d w => d.setWingState w st) 4 d

/-- POWER_STATE of the device. -/
def Dev.powerEvent (d : Dev) (st : Nat) : Dev := d.event uAon 0x1401 4 st

/-- E6: clamps and clocks. -/
def Dev.clamped (d : Dev) : Dev :=
  let d := foldNat (fun (d : Dev) k => d.wr (netIdx k) 0x0A 0) 8 d
  { d.setDup { d.dup with holdOut := false, takeOut := false } with pps := {} }

/-- Supplies go low one after the other, [5] first and [0] last (R428, R433). -/
def Dev.dropSupplies (d : Dev) (keep : Nat) : Dev :=
  match ([5, 4, 3, 2, 1, 0] : List Nat).filter fun k => d.pwr.enables.testBit k && !keep.testBit k with
  | [] => d
  | ks => d.send (.pin "PWR_EN-low" ks)

/-- The device rests in a state, from the end of E6. -/
def Dev.rests (d : Dev) (target : Nat) : Dev :=
  (d.allWings (if target = 1 then 2 else 3)).setPwr { (d.allWings (if target = 1 then 2 else 3)).pwr with
    state := target, entry := none, latched := 0, enables := restEnables target, enteredAt := d.now }

/-- The end of an entry; a wake event latched since the last abort point wakes at once (R429). -/
def Dev.endEntry (d : Dev) (target : Nat) : Dev :=
  let cause := d.pwr.latched
  let d := ((d.clamped.dropSupplies (restEnables target)).rests target).powerEvent target
  if cause = 0 then d else d.wakeEvent cause

/-- An entry step acts. -/
def Dev.entryStep (d : Dev) (step : Nat) : Dev :=
  match step with
  | 2 => (foldNat (Dev.stopWing true) 4 d).audioJoins false
  | 3 => d.broadcast 3 []
  | 4 => { d with retain := [] }
  | 5 => d.setHbmState 2
  | _ => d

/-- Entry is abandoned at an abort point: what has stopped resumes (R429). -/
def Dev.abandonEntry (d : Dev) (e : EntryRt) (point : Nat) : Dev :=
  let cause := d.pwr.latched
  let d := d.setPwr { d.pwr with entry := none, latched := 0 }
  let d := if point = 3 then d.setHbmState 1 else d
  let d := if 2 ≤ point then d.startRing else d
  let d := (foldNat Dev.resumeWing 4 d).audioJoins true
  let d := (d.powerCount 2).wrd 0x2300 9 (lastWakeBytes cause e.target 1 e.step 0 0)
  d.raise uAon 0x1402 point cause sevInfo

/-- POWER_ENTRY_STEP: the next entry step has run; a latched wake abandons entry at an abort point. -/
def Dev.powerEntry (d : Dev) (mem : Mem) : Dev × Mem :=
  match d.pwr.entry with
  | none => (d, mem)
  | some e =>
    let n := nextStep (entrySteps e.target) e.step
    if n = 6 then (d.endEntry e.target, if e.target = 3 then [] else mem)
    else
      let e := { e with step := n }
      let d := (d.entryStep n).setPwr { (d.entryStep n).pwr with entry := some e }
      let p := abortPoint n
      (if p ≠ 0 ∧ d.pwr.latched ≠ 0 then d.abandonEntry e p else d, mem)

def execPowerEntryStep (t : Nat) (s : State) : Host.Outcome State Fault Refusal :=
  onAonMem t (fun mem d => d.powerEntry mem) s

/-! ### Retention and thermal reporting -/

/-- Releases the function of a bank at T+0 of the first tick at least 2 ms ahead (R435). -/
def Dev.askRelease (d : Dev) (b : Nat) : Dev :=
  let w := if b < 4 then b else 0
  if d.bankHeld b then
    d.setPwr { d.pwr with releases := d.pwr.releases ++ [(b, w, d.tickFrom w (d.now + 2000000))] }
  else d

/-- RETENTION_RELEASE: a bank number written to 0x2300:0B. -/
def execRetentionRelease (t : Nat) (by_ : Requester) (bank : Nat) (s : State) : Host.Outcome State Fault Refusal :=
  onCommand t by_ (fun d =>
    d.command by_ 0x2300 0x0B [BitVec.ofNat 8 bank] fun d => (d.askRelease bank).res stOk) s

/-- THERMAL_SAMPLE: the die sensors, W0 to W3 and the spine, in 0.1 °C; THERM_HIGH once per excursion
(R438). -/
def Dev.thermal (d : Dev) (temps : List Int) : Dev :=
  let ts := (List.range 5).map fun i => temps.getD i 0
  let d := d.wrd 0x2300 0x0E (ts.flatMap fun v => leBytes 2 (ofSigned 16 v))
  let p := d.pwr
  let cool := ts.all fun v => decide (v < 1000)
  let from_ := if !cool then 0 else if p.coolFrom = 0 then d.now + 1 else p.coolFrom
  let beyond := p.hot && cool && decide (from_ + 1000000000 ≤ d.now + 1)
  let d := d.setPwr { p with coolFrom := from_, hot := p.hot && !beyond }
  match (List.range 5).find? fun i => decide (1050 < ts.getD i 0) with
  | some i =>
    if d.pwr.hot then d
    else (d.setPwr { d.pwr with hot := true }).raise uAon 0x1406 i (ofSigned 32 (ts.getD i 0)) sevService
  | none => d

def execThermalSample (t : Nat) (temps : List Int) (s : State) : Host.Outcome State Fault Refusal :=
  onDev t (·.thermal temps) s

end Sys2Proof.Machine
end

