-- ==== Sys2Proof/Machine/Boot.lean ====
section
/-! DEFINITION. Reset, wake and boot (R431 to R436, R439 to R453): what a reset leaves, the wake and boot
steps, the selection of an image, and recovery. -/
namespace Sys2Proof.Machine

/-! ### Reset (R439, R440) -/

/-- The object groups that every reset keeps: the AON records and the boot count (R400, R440). -/
def keptObj (k : Nat) : Bool :=
  let i := k / 65536 / 256
  let s := k / 65536 % 256
  (i == 0x2402 && (s == 1 || s == 2)) || (i == 0x2360 && s == 0x0A)

/-- What the pins and the AON domain keep over a reset. -/
def PwrRt.afterReset (p : PwrRt) (cause : Nat) : PwrRt :=
  { state := 4, cause := cause, resetLow := true, enables := p.enables, wakeLow := p.wakeLow
    wakeArmed := p.wakeArmed, failed := p.failed, perst := p.perst, straps := p.straps, ir := p.ir }

/-- A device after a reset: flash with the repair record, the AON domain and the input pins stay; everything
else takes its reset value (R69, R321, R440). -/
def Dev.resetDev (d : Dev) (cause : Nat) : Dev :=
  { now := d.now, outbox := d.outbox, fresh := d.fresh, flash := d.flash, aonFault := d.aonFault
    regs := d.regs.filterKeys keptObj, doms := d.doms.filterKeys keptObj
    hbms := d.hbms.map fun e => (e.1, { repair := e.2.repair : HbmRt })
    dup := { takeIn := d.dup.takeIn : DupRt }
    pwr := d.pwr.afterReset cause }

/-- The reset that firmware commands, once its response has left: NODE_BYPASS, then the reset (R440). -/
def Dev.finishReset (s : Dev × Mem) : Dev × Mem :=
  if s.1.pwr.resetAsked then ({ s.1.broadcast 3 [] with aonFault := false }.resetDev 3, []) else s

/-- FIRMWARE_RESET: 1 written to 0x2360:07 (R440). -/
def Dev.askReset (d : Dev) : Res := (d.setPwr { d.pwr with resetAsked := true }).res stOk

def execFirmwareReset (t : Nat) (by_ : Requester) (s : State) : Host.Outcome State Fault Refusal :=
  onAonMem t (fun mem d =>
    if d.alive || d.recovery then
      let r := d.command by_ 0x2360 7 [1] Dev.askReset
      Dev.finishReset (r.dev.send (.answer by_ r.st r.slot), mem)
    else (d, mem)) s

/-- RESET_N_LOW: low for 10 µs (R440). -/
def execResetNLow (t : Nat) (s : State) : Host.Outcome State Fault Refusal :=
  onAonMem t (fun mem d =>
    if d.pwr.state = 5 then (d, mem) else ({ d with aonFault := false }.resetDev 2, [])) s

/-- VDD_AON_POWER_ON: VDD_AON has reached 0.72 V; every supply is off (R439). -/
def execVddAonPowerOn (t : Nat) (s : State) : Host.Outcome State Fault Refusal :=
  onAonMem t (fun mem d =>
    if d.pwr.state = 5 then
      let d := { d with aonFault := false }.resetDev 1
      (d.setPwr { d.pwr with enables := 0 }, [])
    else (d, mem)) s

/-- VDD_AON_LOST: the device is unpowered; flash and the AON records stay (R344, R400). -/
def execVddAonLost (t : Nat) (s : State) : Host.Outcome State Fault Refusal :=
  onAonMem t (fun _ d =>
    let d := { d with aonFault := false }.resetDev 1
    (d.setPwr { state := 5, perst := d.pwr.perst : PwrRt }, [])) s

/-- RESET_RELEASE: the straps are sampled, and the sequence to the boot ROM begins, at W6 where every supply
is enabled already (R439, R440, R443). -/
def execResetRelease (t pos bootsel : Nat) (s : State) : Host.Outcome State Fault Refusal :=
  onAon t (fun d =>
    if d.pwr.state = 4 ∧ d.pwr.resetLow then
      let d := (d.setPwr { d.pwr with resetLow := false, straps := pos % 2 + 2 * (bootsel % 4) }).wr 0x2100 2 (pos % 2)
      let w : WakeRt := { from_ := 4, step := 0, cause := 4, began := d.now, stepAt := d.now }
      d.beginStep w (if d.pwr.enables = 0x3F then 6 else 1)
    else d) s

/-! ### Images (R445) -/

/-- Little-endian field of an image header. -/
def imgField (b : List Byte) (o n : Nat) : Nat := fieldAt b o n

/-- The header's fixed fields are right (Table 21.4). -/
def imgFormat (b : List Byte) : Bool :=
  slice b 0 4 == [0x57, 0x46, 0x49, 0x4D] && byteAt b 4 == 1 && byteAt b 5 == 2 &&
    imgField b 24 4 == 0x9600 && imgField b 28 2 == 0x00B1 && decide (4096 ≤ b.length)

/-- Key numbers of the boot ROM: image signing and debug. -/
def keyImage : Nat := 0
def keyDebug : Nat := 1

/-- The signature verifies over the SHA-384 of bytes 0 to 255. -/
def imgSigned (b : List Byte) : Bool :=
  Config.ecdsaVerify keyImage (leBytes 48 (Config.sha384 (b.take 256)).toNat) (slice b 256 96)

/-- A segment's hash matches: its offset and length at `o`, its hash at `h`. -/
def imgHash (b : List Byte) (o h : Nat) : Bool :=
  slice b h 48 == leBytes 48 (Config.sha384 (slice b (imgField b o 4) (imgField b (o + 4) 4))).toNat

/-- Security version of an image. -/
def imgSecurity (b : List Byte) : Nat := imgField b 6 2

/-- Why an image is invalid: 1 format, 2 signature, 3 guardian hash, 4 main hash, 5 security version
(Table 21.9); 0 valid. -/
def Dev.imgReason (d : Dev) (b : List Byte) : Nat :=
  if !imgFormat b || imgField b 32 4 != b.length || decide (96 * 2 ^ 20 < b.length) ||
      decide (768 * 1024 < imgField b 40 4) then 1
  else if !imgSigned b then 2
  else if !imgHash b 36 52 then 3
  else if !imgHash b 44 100 then 4
  else if imgSecurity b < d.flash.counter ∨ 63 < imgSecurity b then 5
  else 0

/-- The image in a slot. -/
def Dev.slotImage (d : Dev) (k : Nat) : List Byte := Tab.getD d.flash.images k []

def Dev.slotValid (d : Dev) (k : Nat) : Bool := d.imgReason (d.slotImage k) == 0

/-- The 64 bytes of 0x2360:05. -/
def Dev.slotInfo (d : Dev) : List Byte :=
  (List.range 2).flatMap fun k =>
    let b := d.slotImage k
    leBytes 1 (d.slotValid k).toNat ++ [0] ++ padTo 2 (slice b 6 2) ++ padTo 4 (slice b 32 4) ++
      padTo 16 (slice b 8 16) ++ leBytes 8 (Tab.getD d.flash.written k 0)

/-! ### Selector records (R446) -/

/-- The newest valid selector copy; `bad`: copies that fail their check word. -/
def Dev.newestSel (d : Dev) (bad : List Nat) : Option (Nat × Selector) :=
  let at_ := fun k => if bad.contains k then none else Tab.getD d.flash.sels k none
  match at_ 0, at_ 1 with
  | some a, some b => if b.count ≤ a.count then some (0, a) else some (1, b)
  | some a, none => some (0, a)
  | none, some b => some (1, b)
  | none, none => none

/-- Writes a selector to the copy that does not hold the newest valid record. -/
def Dev.writeSel (d : Dev) (bad : List Nat) (x : Selector) : Dev :=
  let (k, n) := match d.newestSel bad with
    | some (k, s) => (1 - k, s.count + 1)
    | none => (0, 1)
  { d with flash := { d.flash with sels := Tab.setD d.flash.sels k (some { x with count := n }) none } }

/-- A fault that the boot ROM finds: journaled once boot ends. -/
def Dev.note (d : Dev) (code p1 p2 sev : Nat) : Dev :=
  d.setPwr { d.pwr with notes := d.pwr.notes ++
    [{ unit := uGuard, code := code, p1 := p1, p2 := p2, sev := sev, time := d.now }] }

/-- An image that is not valid is noted as rejected. -/
def Dev.rejectImage (d : Dev) (k : Nat) : Dev :=
  if d.slotValid k then d else d.note 0x1502 k (d.imgReason (d.slotImage k)) sevService

/-- Recovery (R453): reason 1 strap, 2 no valid image, 3 HB0 training. No image runs. -/
def Dev.enterRecovery (d : Dev) (reason : Nat) : Dev :=
  let d := (((d.setPwr { d.pwr with bootStep := 10 }).wr 0x2360 1 7).wr 0x2360 2 0xFF).wr 0x2360 8 0
  let sev := if reason = 1 then sevInfo else sevDevice
  let d := if reason = 1 then d
    else { d.aonRecord uGuard 0x1504 sevDevice d.now with aonFault := true }
  d.raise uGuard 0x1504 reason 0 sev

/-- An image boots: it stands in 0x2360:02, its version in 0x100A. -/
def Dev.useImage (d : Dev) (k : Nat) : Dev :=
  let b := d.slotImage k
  let name := (slice b 8 16).filter fun c => c != 0
  ((d.setPwr { d.pwr with image := k }).wr 0x2360 2 k).wrd 0x100A 0 name

/-- B2: the image is chosen (R443, R446). -/
def Dev.chooseImage (d : Dev) (bad : List Nat) : Dev :=
  let bootsel := d.pwr.straps / 2
  if bootsel = 3 then d.enterRecovery 1
  else if bootsel ≠ 0 then
    let k := bootsel - 1
    let d := d.rejectImage k
    if d.slotValid k then d.useImage k else d.enterRecovery 2
  else
    let d := foldNat (fun d k => match Tab.getD d.flash.sels k none with
      | some s => if bad.contains k then d.note 0x1505 k s.count sevDegraded else d
      | none => d) 2 d
    let sel := (d.newestSel bad).elim {} (·.2)
    let (img, trial, d) :=
      if sel.trial ≠ 0xFF ∧ sel.attempts = 1 then
        (sel.trial, 2, d.writeSel bad { sel with attempts := 0 })
      else if sel.trial ≠ 0xFF then
        (sel.active, 0, (d.writeSel bad { sel with trial := 0xFF }).note 0x1503 sel.trial 0 sevDegraded)
      else (sel.active, 0, d)
    let d := d.rejectImage img
    if d.slotValid img then (d.useImage img).wr 0x2360 8 trial
    else
      let other := 1 - img
      let d := d.rejectImage other
      if d.slotValid other then d.useImage other else d.enterRecovery 2

/-! ### The boot steps (R448, R449) -/

/-- Field `f` of 0x2360:09: µs from reset release (R448). -/
def Dev.bootTime (d : Dev) (f : Nat) : Dev := d.wrf 0x2360 9 f ((d.now - d.pwr.releasedAt) / 1000)

/-- The repair record is applied; entries beyond the spare rows of their bank group are skipped (R321). -/
def Dev.applyRepairs (d : Dev) (m : Nat) : Dev :=
  let d := (d.hbm m).repair.foldl (fun d e =>
    if d.sparesLeft m e.1 e.2.1 = 0 then
      d.report { unit := uHb m, code := 0x0E06, p1 := 32 * m + e.1, p2 := e.2.1 * 65536 + e.2.2, sev := sevInfo
                 time := d.now }
    else d.useSpare m e.1 e.2.1) d
  d.wr (hbmIdx m) 0x0B (d.hbm m).repair.length

/-- B4: the HBM devices are trained (R449). -/
def Dev.trainHbm (d : Dev) (failed : List Nat) : Dev :=
  if failed.any fun p => decide (p < 32) then d.enterRecovery 3
  else
    let d := (failed.filter fun p => decide (p < 64)).foldl (fun d p => d.pcFault p 0) d
    (((d.applyRepairs 0).applyRepairs 1).setHbmState 1).wr 0x2360 1 3 |>.bootTime 0

/-- The firmware region (R450). -/
def firmwareBase : Nat := 0x05F4000000

/-- The newest valid copy of the persistent record (R71). -/
def Dev.newestSave (d : Dev) (bad : List Nat) : Option (Nat × Saved) :=
  let at_ := fun k => if bad.contains k then none else Tab.getD d.flash.saves k none
  match at_ 0, at_ 1 with
  | some a, some b => if b.count ≤ a.count then some (0, a) else some (1, b)
  | some a, none => some (0, a)
  | none, some b => some (1, b)
  | none, none => none

/-- P-class objects take the values of a saved record. -/
def Dev.loadSaved (d : Dev) (x : Saved) : Dev :=
  { d with
    regs := x.regs.foldl (fun m e => Tab.setD m e.1 e.2 (regDefault e.1)) d.regs
    doms := x.doms.foldl (fun m e => Tab.setD m e.1 e.2 (domDefault e.1)) d.doms
    bootRegs := x.regs, bootDoms := x.doms }

/-- What the PCIe endpoint does: retry status before B7, then electrical idle or training (R451). -/
def Dev.pcieLink (d : Dev) : Dev :=
  if !d.pwr.perst then d
  else if d.pwr.state = 4 ∧ d.pwr.bootStep < 7 then d.send (.pin "pcie-retry" [])
  else d.send (.pin (if d.bootRd 0x2044 1 = 1 then "pcie-train" else "pcie-idle") [])

/-- B7: the persistent record is loaded; NET ports start link bring-up (R71). -/
def Dev.loadRecords (d : Dev) (bad : List Nat) : Dev :=
  let d := foldNat (fun d k => match Tab.getD d.flash.saves k none with
    | some s =>
      if bad.contains k then
        { d with flash := { d.flash with saves := Tab.setD d.flash.saves k none none } }.report
          { unit := uXspi, code := 0x0301, p1 := k, p2 := s.count, sev := sevDegraded, time := d.now }
      else d
    | none => d) 2 d
  let d := match d.newestSave bad with
    | some (k, x) => ((d.loadSaved x).wr 0x2045 1 x.count).wr 0x2045 3 k
    | none => d
  foldNat (fun d k => d.wr (netIdx k) 0x0A (if d.portExists k then 1 else 0)) 8 d

/-- The enabled CANopen interface boots up into pre-operational (R83, CiA 301). -/
def Dev.canBootUp (d : Dev) : Dev :=
  if d.bootRd 0x2043 1 = 0 then d else d.send (.can (0x700 + d.bootRd 0x2043 2) [0])

/-- Boot has ended: phase 6. The AON records are reported, what the boot ROM found is journaled, the ring
starts; in Single protection the device acts as active (R343, R369, R400). -/
def Dev.bootEnds (d : Dev) : Dev :=
  let p := d.pwr
  let d := (d.setPwr { p with state := 0, bootStep := 9, notes := [], failed := none }).wr 0x2360 1 6
  let d := d.bootTime 3
  let d := p.notes.foldl (fun d r => d.raise r.unit r.code r.p1 r.p2 r.sev) d
  let d := match p.failed with
    | some (step, input) => d.raise uAon 0x1403 step input sevDevice
    | none => d
  let d := d.raise uGuard 0x1501 p.image ((d.now - p.releasedAt) / 1000000) sevInfo
  let d := if d.duplex then d else d.wr 0x2100 1 1
  d.aonReport.startRing.startNode

/-- A boot step ends (Table 21.5). -/
def Dev.bootStep (d : Dev) (n : Nat) (o : BootObs) : Dev :=
  let copies := fun k => (o.badCopies.filter fun c => c / 2 == k).map (· % 2)
  match n with
  | 1 =>
    let (c, d) := d.freeBytes 16
    let d := (d.wr 0x2360 0x0A ((d.rd 0x2360 0x0A + 1) % 2 ^ 32)).wr 0x2360 3 d.pwr.cause
    let d := (d.wr 0x2360 4 d.pwr.straps).wr 0x2100 2 (d.pwr.straps % 2)
    (((d.wr 0x2360 6 d.flash.counter).wr 0x2360 2 0xFF).wrd 0x2360 0x0D c).wr 0x2360 1 1
  | 2 => d.chooseImage (copies 0)
  | 3 => d.wr 0x2360 1 2
  | 4 => d.trainHbm o.failedPcs
  | 5 => (d.wr 0x2360 1 4).bootTime 1
  | 6 => (d.calLoad (copies 2)).calStartUp o.runs
  | 7 => d.loadRecords (copies 1)
  | 8 => ((d.wr 0x2360 1 5).bootTime 2).canBootUp
  | _ => d.bootEnds

/-- The main segment of the running image, as B5 copies it. -/
def Dev.mainSegment (d : Dev) : List Byte :=
  let b := d.slotImage d.pwr.image
  slice b (imgField b 44 4) (imgField b 48 4)

/-- BOOT_STEP: the boot ROM runs, and the next step ends. -/
def Dev.nextBoot (d : Dev) (o : BootObs) (mem : Mem) : Dev × Mem :=
  let p := d.pwr
  if p.state ≠ 4 ∨ p.resetLow ∨ p.wake.isSome ∨ 9 ≤ p.bootStep then (d, mem)
  else
    let n := p.bootStep + 1
    let d := (d.setPwr { p with bootStep := n }).bootStep n o
    let d := if n = 7 then d.pcieLink else d
    (d, if n = 5 then mem.writeBytes firmwareBase d.mainSegment else mem)

def execBootStep (t : Nat) (obs : BootObs) (s : State) : Host.Outcome State Fault Refusal :=
  onAonMem t (fun mem d => d.nextBoot obs mem) s

/-- PCIE_PERST_HIGH (R451). -/
def execPciePerstHigh (t : Nat) (s : State) : Host.Outcome State Fault Refusal :=
  onAon t (fun d => (d.setPwr { d.pwr with perst := true }).pcieLink) s

/-! ### Wake steps (R431 to R436) -/

/-- W8: the boot ROM starts; a wake from Off ends here. -/
def Dev.startRom (d : Dev) (w : WakeRt) : Dev :=
  let ms := (w.began - d.pwr.enteredAt) / 1000000
  let p := d.pwr
  let d := if w.from_ = 3 then
      let e := d.resetDev 4
      { e.setPwr { e.pwr with resetLow := false, enables := p.enables } with aonFault := false }
    else d
  let d := d.setPwr { d.pwr with wake := none, releasedAt := d.now }
  d.wrd 0x2300 9 (lastWakeBytes w.cause (if w.from_ = 3 then 3 else 0) 0 8 (if w.from_ = 3 then ms else 0)
    ((d.now - w.began) / 1000))

/-- W9: pseudo-channels that fail their tap check are retrained (R322). -/
def Dev.leaveSelfRefresh (d : Dev) (taps : List (Nat × Bool)) : Dev :=
  let d := taps.foldl (fun d e =>
    let p := e.1 % 64
    let d := if e.2 then d else d.setPcRt p { d.pc p with state := 1 }
    d.raise (uHb (p / 32)) 0x0E07 p e.2.toNat (if e.2 then sevInfo else sevService)) d
  d.setHbmState 1

/-- The time unit restarts from FREE after a wake; its first step increments the generation (R431). -/
def Dev.timeRestart (d : Dev) : Dev :=
  let d : Dev := { d with time := { ports := d.time.ports } }
  (d.setTimeState 0).bmca

/-- W11 has ended: the device is in Run again (R424, R431). -/
def Dev.wakeEnds (d : Dev) (w : WakeRt) : Dev :=
  let ms := (w.began - d.pwr.enteredAt) / 1000000
  let d := { d.setPwr { d.pwr with state := 0, wake := none } with aonFault := false }
  let d := foldNat (fun d v => d.setWingState v (d.rd 0x2300 (v + 1))) 4 d
  let d := foldNat (fun d v => d.setWing v { d.wing v with
    quietUntil := d.tickInstantFrom v (d.now + 5000000) }) 4 d
  let d := foldNat (fun d k => d.wr (netIdx k) 0x0A (if d.portExists k then 1 else 0)) 8 d
  let d := foldNat (fun d p => d.train p) 16 d
  let d := (foldNat Dev.resumeWing 4 d).audioJoins true
  let d := foldNat (fun d k => if d.rdb (surfIdx k) 1 && !d.bankHeld 5 then d.acquire k else d) 8 d
  let d := (d.timeRestart.startRing.powerEvent 0).powerCount 1
  d.wrd 0x2300 9 (lastWakeBytes w.cause w.from_ 0 11 ms ((d.now - w.began) / 1000))

/-- The condition of a wake step holds: what the step found acts, and the next one begins. A lost core bank
ends the wake as a reset release (R436). -/
def Dev.wakeStep (d : Dev) (o : WakeObs) (mem : Mem) : Dev × Mem :=
  match d.pwr.wake with
  | none => (d, mem)
  | some w =>
    let next := nextStep (wakeSteps w.from_) w.step
    if w.step = 11 then (d.wakeEnds w, mem)
    else if w.step = 10 ∧ o.lost.contains 8 then
      let d := (d.aonRecord uAon 0x1404 sevService d.now).resetDev 4
      (d.setPwr { d.pwr with resetLow := false, enables := 0x3F, releasedAt := d.now }, [])
    else
      let d := if w.step = 9 then d.leaveSelfRefresh o.taps else d
      let d := if w.step = 10 then o.lost.foldl Dev.bankLost d else d
      if next = 8 then (d.startRom w, if w.from_ = 3 then [] else mem) else (d.beginStep w next, mem)

def execWakeStep (t : Nat) (obs : WakeObs) (s : State) : Host.Outcome State Fault Refusal :=
  onAonMem t (fun mem d => d.wakeStep obs mem) s

/-- Timeout of a wake step, in µs (Table 20.3); 0 for none. -/
def wakeTimeout : Nat → Nat
  | 1 | 2 | 3 | 4 | 5 => 5000
  | 6 => 10000
  | 7 => 2000
  | _ => 0

/-- The PWR_OK input that a failed step waited for; of W1's two, which one is free. -/
def Dev.failedInput (d : Dev) (step : Nat) : Nat × Dev :=
  if step = 1 then let (v, d) := d.free; (v % 2, d)
  else (if step ≤ 5 then step else 0xFF, d)

/-- WAKE_STEP_TIMEOUT: the supplies are torn down and the device enters Off; the next boot journals it
(R433). -/
def Dev.wakeTimedOut (d : Dev) (mem : Mem) : Dev × Mem :=
  match d.pwr.wake with
  | none => (d, mem)
  | some w =>
    if wakeTimeout w.step = 0 ∨ d.now < w.stepAt + wakeTimeout w.step * 990 then (d, mem)
    else
      let (input, d) := d.failedInput w.step
      let d := { (d.dropSupplies 0).aonRecord uAon 0x1403 sevDevice d.now with aonFault := true }
      let d := d.wrd 0x2300 9 (lastWakeBytes w.cause (if w.from_ = 4 then 0 else w.from_) 2 w.step
        ((w.began - d.pwr.enteredAt) / 1000000) ((d.now - w.began) / 1000))
      (d.setPwr { d.pwr with state := 3, wake := none, enables := 0, enteredAt := d.now
                             failed := some (w.step, input) }, [])

def execWakeStepTimeout (t : Nat) (s : State) : Host.Outcome State Fault Refusal :=
  onAonMem t (fun mem d => d.wakeTimedOut mem) s

end Sys2Proof.Machine
end

