-- ==== Sys2Proof/Machine/Firmware.lean ====
section
/-! DEFINITION. Flash under command of the host: persistent save (R70 to R72), firmware staging (R454), the
selector commands and the security counter (R447, R455); and the TAP and debug access (R456, R457). -/
namespace Sys2Proof.Machine

/-- A long operation of one of some kinds runs. -/
def Dev.anyRuns (d : Dev) (kinds : List Nat) : Bool := kinds.any fun k => (d.slotOfKind k).isSome

/-! ### Persistent save (R70, R72) -/

/-- The object at a key is P-class. -/
def isPClass (k : Nat) : Bool :=
  match objRow (k / 65536 / 256) (k / 65536 % 256) with
  | some r => r.com == .p
  | none => false

/-- The P-class values now. -/
def Dev.captureSaved (d : Dev) : Saved :=
  { count := ((d.newestSave []).elim 0 (·.2.count)) + 1
    regs := d.regs.filterKeys isPClass, doms := d.doms.filterKeys isPClass }

/-- A persistent save starts; its record's size is not stated (R70). -/
def Dev.startSave (d : Dev) (by_ : Requester) : Res :=
  if d.anyRuns [4, 5, 9] then d.res stBusy
  else
    let (n, d) := d.free
    let r := d.startLong by_ 9 1 2 n (unitPath uXspi) 0 0
    match r.slot with
    | none => r
    | some k =>
      let d := { r.dev with saving := some d.captureSaved }
      ⟨r.st, r.slot, d.wr 0x2045 4 k⟩

/-- SAVE_ALL: the signature written to 0x1010:01. -/
def execSaveAll (t : Nat) (by_ : Requester) (sig : Nat) (s : State) : Host.Outcome State Fault Refusal :=
  onCommand t by_ (fun d => d.commandPre by_ 0x1010 1 (leBytes 4 sig)
    (if sig = 0x65766173 then stOk else stRange) (·.startSave by_)) s

/-- SAVE_DONE: the record is written and verified, or it has failed; an interrupted save leaves the previous
record valid (R70, R71). -/
def Dev.saveDone (d : Dev) (result : Nat) : Dev :=
  match d.slotOfKind 9 with
  | none => d
  | some k =>
    let d := match d.saving with
      | some x =>
        if result = 0 then
          let copy := match d.newestSave [] with
            | some (c, _) => 1 - c
            | none => 0
          ({ d with flash := { d.flash with saves := Tab.setD d.flash.saves copy (some x) none } }).wr 0x2045 2
            (time48 d.now)
        else d
      | none => d
    { d.finishLong k result with saving := none }

def execSaveDone (t result : Nat) (s : State) : Host.Outcome State Fault Refusal := onDev t (·.saveDone result) s

/-- LOAD_DEFAULTS: every P-class object takes its default in the running dictionary (R72). -/
def Dev.loadDefaults (d : Dev) : Dev :=
  let d : Dev :=
    { d with regs := d.regs.filterKeys fun k => !isPClass k, doms := d.doms.filterKeys fun k => !isPClass k }
  ((if d.curDown 0 then d else d.ptpRefresh).refreshLink 2).ppsFall

def execLoadDefaults (t : Nat) (by_ : Requester) (sig : Nat) (s : State) : Host.Outcome State Fault Refusal :=
  onCommand t by_ (fun d => d.commandPre by_ 0x1011 1 (leBytes 4 sig)
    (if sig = 0x64616F6C then stOk else stRange) fun d => d.loadDefaults.res stOk) s

/-! ### Staging (R454) -/

/-- The target slot of staging and of a trial. -/
def Dev.targetSlot (d : Dev) : Nat :=
  if d.rd 0x2360 2 < 2 then 1 - d.rd 0x2360 2
  else match d.newestSel [] with
    | some (_, s) => 1 - s.active
    | none => 0

/-- The first segment's header is accepted: mark, product code, revision, signature and security version. -/
def Dev.headerOk (d : Dev) (b : List Byte) : Bool :=
  imgFormat b && imgSigned b && decide (d.flash.counter ≤ imgSecurity b) && decide (imgSecurity b ≤ 63)

/-- A slot is erased: it holds no image. -/
def Dev.eraseSlot (d : Dev) (k : Nat) : Dev :=
  { d with flash := { d.flash with images := Tab.setD d.flash.images k [] [] } }

/-- A trial armed on a slot is cancelled. -/
def Dev.cancelArmed (d : Dev) (k : Nat) : Dev :=
  match d.newestSel [] with
  | some (_, s) => if s.trial = k ∧ s.attempts = 1 then (d.writeSel [] { s with trial := 0xFF, attempts := 0 }).wr 0x2360 8 0 else d
  | none => d

/-- The size of the segment buffer. -/
def Dev.stageBuffer (d : Dev) : Nat := if d.recovery then 256 * 1024 else 4 * 2 ^ 20

/-- Staging ends with a result; a failed one leaves the target slot invalid. -/
def Dev.endStage (d : Dev) (k result : Nat) : Dev := (d.setPwr { d.pwr with stage := none }).finishLong k result

/-- A further segment at the next offset. -/
def Dev.stageMore (d : Dev) (k : Nat) (x : StageRt) (data : List Byte) (last : Bool) : Res :=
  let x := { x with data := x.data ++ data }
  if x.total < x.data.length ∨ (last ∧ x.data.length < x.total) then (d.endStage k 1).res stOk
  else ((d.setPwr { d.pwr with stage := some x }).setPosition k x.data.length).res stOk

/-- The first segment starts the operation (R454). -/
def Dev.stageFirst (d : Dev) (by_ : Requester) (data : List Byte) (last : Bool) : Res :=
  if d.anyRuns [4, 5, 9] then d.res stBusy
  else if !d.headerOk data then d.res stRange
  else
    let total := imgField data 32 4
    let r := d.startLong by_ 5 1 3 total (unitPath uXspi) 0 0
    match r.slot with
    | none => r
    | some k =>
      let slot := d.targetSlot
      let d := ((r.dev.eraseSlot slot).cancelArmed slot).wr 0x2360 0x0C k
      let r := d.stageMore k { slot := slot, sess := by_.sess, data := [], total := total } data last
      ⟨r.st, some k, r.dev⟩

/-- STAGE_IMAGE: a segment written to 0x2360:0B at an offset (R454). -/
def Dev.stageImage (d : Dev) (by_ : Requester) (off : Nat) (data : List Byte) (last : Bool) : Res :=
  let a := d.accessStatus by_.level 0x2360 0x0B
  if a ≠ stOk then d.res a
  else if d.stageBuffer < data.length then d.res stBusy
  else match d.pwr.stage, d.slotOfKind 5 with
    | some x, some k =>
      if x.sess ≠ by_.sess then d.res stBusy
      else if off ≠ x.data.length then d.res stSegment
      else d.stageMore k x data last
    | _, _ => if off ≠ 0 then d.res stSegment else d.stageFirst by_ data last

def execStageImage (t : Nat) (by_ : Requester) (off : Nat) (data : List Byte) (last : Bool) (s : State) :
    Host.Outcome State Fault Refusal :=
  onCommand t by_ (·.stageImage by_ off data last) s

/-- STAGING_DONE: programming, read-back and verification have ended (R454). -/
def Dev.stagingDone (d : Dev) (result : Nat) : Dev :=
  match d.pwr.stage, d.slotOfKind 5 with
  | some x, some k =>
    if x.data.length < x.total then d
    else
      let bad := !imgSigned x.data || !imgHash x.data 36 52 || !imgHash x.data 44 100
      let result := if result = 0 ∧ bad then 3 else result
      let d := if result = 0 then
          { d with flash := { d.flash with
            images := Tab.setD d.flash.images x.slot x.data []
            written := Tab.setD d.flash.written x.slot (d.now / 1000000000) 0 } }
        else d
      d.endStage k result
  | _, _ => d

def execStagingDone (t result : Nat) (s : State) : Host.Outcome State Fault Refusal :=
  onAon t (fun d => if d.alive || d.recovery then d.stagingDone result else d) s

/-! ### Trials and the security counter (R447, R455) -/

/-- A selector is written as a flash write; `state`: the trial state (0x2360:08) it leaves. -/
def Dev.startTrial (d : Dev) (by_ : Requester) (x : Selector) (state : Nat) : Res :=
  let r := d.startLong by_ 4 1 2 16 (unitPath uXspi) (flashTrial * 16) 0
  match r.slot with
  | none => r
  | some k => ⟨r.st, r.slot, r.dev.setLongOp k { r.dev.longOp k with
      held := [x.active, x.trial, x.attempts, state] }⟩

/-- The selector as it stands: active A and no trial where no copy is valid (R446). -/
def Dev.selector (d : Dev) : Selector := (d.newestSel []).elim {} (·.2)

/-- Command 2: the target slot becomes the trial image. -/
def Dev.armTrial (d : Dev) (by_ : Requester) : Res :=
  if d.anyRuns [4, 5, 9] then d.res stBusy
  else if !d.slotValid d.targetSlot || d.rd 0x2360 8 != 0 then d.res stWrongState
  else d.startTrial by_ { d.selector with trial := d.targetSlot, attempts := 1 } 1

/-- Command 3: the running image becomes active. -/
def Dev.confirmTrial (d : Dev) (by_ : Requester) : Res :=
  if d.anyRuns [4, 5, 9] then d.res stBusy
  else if d.rd 0x2360 8 ≠ 2 then d.res stWrongState
  else d.startTrial by_ { d.selector with active := d.rd 0x2360 2, trial := 0xFF, attempts := 0 } 0

/-- Command 5: an armed trial is withdrawn. -/
def Dev.cancelTrial (d : Dev) (by_ : Requester) : Res :=
  if d.anyRuns [4, 5, 9] then d.res stBusy
  else if d.rd 0x2360 8 ≠ 1 then d.res stWrongState
  else d.startTrial by_ { d.selector with trial := 0xFF, attempts := 0 } 0

/-- Command 4: the security counter rises to the version of the running image (R447). -/
def Dev.raiseCounter (d : Dev) : Res :=
  if d.rd 0x2360 8 = 2 ∨ 2 ≤ d.rd 0x2360 2 then d.res stWrongState
  else
    let v := max d.flash.counter (imgSecurity (d.slotImage (d.rd 0x2360 2)))
    (({ d with flash := { d.flash with counter := v } }).wr 0x2360 6 v).res stOk

/-- What a write of 0x2360:07 does. -/
def Dev.bootCommand (d : Dev) (by_ : Requester) (v : Nat) : Res :=
  match v with
  | 1 => d.askReset
  | 2 => d.armTrial by_
  | 3 => d.confirmTrial by_
  | 4 => d.raiseCounter
  | 5 => d.cancelTrial by_
  | _ => d.res stRange

def bootWrite (t : Nat) (by_ : Requester) (v : Nat) (s : State) : Host.Outcome State Fault Refusal :=
  onCommand t by_ (fun d => d.command by_ 0x2360 7 [BitVec.ofNat 8 v] (·.bootCommand by_ v)) s

/-- ARM_TRIAL: 2 written to 0x2360:07. -/
def execArmTrial (t : Nat) (by_ : Requester) (s : State) : Host.Outcome State Fault Refusal := bootWrite t by_ 2 s

/-- CONFIRM_TRIAL: 3 written to 0x2360:07. -/
def execConfirmTrial (t : Nat) (by_ : Requester) (s : State) : Host.Outcome State Fault Refusal := bootWrite t by_ 3 s

/-- RAISE_SECURITY_COUNTER: 4 written to 0x2360:07. -/
def execRaiseSecurityCounter (t : Nat) (by_ : Requester) (s : State) : Host.Outcome State Fault Refusal :=
  bootWrite t by_ 4 s

/-- CANCEL_TRIAL: 5 written to 0x2360:07. -/
def execCancelTrial (t : Nat) (by_ : Requester) (s : State) : Host.Outcome State Fault Refusal := bootWrite t by_ 5 s

/-- A trial's selector has been written and verified. -/
def Dev.trialDone (d : Dev) (k : Nat) : Dev :=
  let h := fun i => (d.longOp k).held.getD i 0
  (d.writeSel [] { active := h 0, trial := h 1, attempts := h 2 }).wr 0x2360 8 (h 3)

/-- FLASH_WRITE_DONE: the flash write of a slot has ended, written and verified where its result is 0. -/
def Dev.flashDone (d : Dev) (k result : Nat) : Dev :=
  if d.runningKind k ≠ 4 then d
  else
    let what := (d.longOp k).arg / 16
    let d := if result ≠ 0 then d
      else if what = flashCal then d.calStored k
      else if what = flashTrial then d.trialDone k
      else d.memFlashDone k
    d.finishLong k result

def execFlashWriteDone (t slot result : Nat) (s : State) : Host.Outcome State Fault Refusal :=
  onAon t (fun d => if d.alive || d.recovery then d.flashDone slot result else d) s

/-! ### JTAG and debug (R456, R457) -/

/-- A debug token is checked: serial number, challenge and signature. A new challenge is drawn in any
case. -/
def Dev.debugToken (d : Dev) (b : List Byte) : Res :=
  let ok := b.length == 120 && fieldAt b 0 4 == d.rd 0x1018 4 && slice b 4 16 == d.rdd 0x2360 0x0D &&
    Config.ecdsaVerify keyDebug (b.take 24) (slice b 24 96)
  let perm := fieldAt b 20 4
  let (c, d) := d.freeBytes 16
  let d := d.wrd 0x2360 0x0D c
  if ok then ((d.wr 0x2360 0x0F (perm % 4)).raise uGuard 0x1506 perm 0 sevService).res stOk else d.res stRange

/-- DEBUG_TOKEN: 120 bytes written to 0x2360:0E. -/
def execDebugToken (t : Nat) (by_ : Requester) (token : List Byte) (s : State) : Host.Outcome State Fault Refusal :=
  onCommand t by_ (fun d => d.command by_ 0x2360 0x0E token (·.debugToken token)) s

/-- JTAG_INSTRUCTION: the instruction acts; those that drive balls only while RESET_N is low. IDCODE and the
challenge are shifted out; what SAMPLE captures at the balls belongs to the board and is free. -/
def Dev.jtag (d : Dev) (ir : JtagIr) (data : List Byte) : Dev :=
  if d.pwr.state = 5 then d
  else
    let drives := ir == .extest || ir == .driving
    let ir := if drives && !d.pwr.resetLow then .bypass else ir
    let d := d.setPwr { d.pwr with ir := ir }
    match ir with
    | .idcode => d.send (.pin "tdo" [0x19600C7B])
    | .challenge => d.send (.pin "tdo" ((d.rdd 0x2360 0x0D).map (·.toNat)))
    | .token => if d.pwr.resetLow then d else (d.debugToken data).dev
    | .extest => d.send (.pin "balls" (data.map (·.toNat)))
    | .driving => d.send (.pin "balls" (data.map (·.toNat)))
    | .sample =>
      let (b, d) := d.freeBytes data.length
      d.send (.pin "tdo" (b.map (·.toNat)))
    | .bypass => d

def execJtagInstruction (t : Nat) (ir : JtagIr) (data : List Byte) (s : State) : Host.Outcome State Fault Refusal :=
  onAon t (·.jtag ir data) s

end Sys2Proof.Machine
end

