-- ==== Sys2Proof/Machine/Views.lean ====
section
/-! DEFINITION. What a read of a dictionary object returns: stored values, counters kept in fields, DOMAINs
kept in chunks, and the values computed from the state of a unit. -/
namespace Sys2Proof.Machine

/-- Counters kept as fields: how many, and their size in bytes. -/
def fieldDom (i s : Nat) : Option (Nat × Nat) :=
  if inRange i 0x3000 256 && s == 0x23 then some (9, 8)
  else if inRange i 0x2038 8 && s == 0x0B then some (8, 8)
  else if inRange i 0x3100 128 && s == 0x0E then some (12, 8)
  else if inRange i 0x3400 64 && s == 0x40 then some (6, 4)
  else if inRange i 0x3500 16 && s == 0x28 then some (8, 8)
  else if inRange i 0x2202 10 && s == 9 then some (6, 4)
  else if i = 0x3700 ∧ s = 6 then some (8, 2)
  else if inRange i 0x3620 16 && s == 0x13 then some (4, 8)
  else if inRange i 0x3701 8 && s == 0x11 then some (6, 4)
  else if i = 0x2100 ∧ s = 0x0E then some (7, 8)
  else if inRange i 0x2111 2 && s == 7 then some (7, 8)
  else if i = 0x2400 ∧ s = 0x0B then some (4, 2)
  else if i = 0x2300 ∧ s = 0x0D then some (4, 4)
  else if i = 0x2360 ∧ s = 9 then some (4, 4)
  else none

/-- DOMAINs kept in chunks: how many, and their size. -/
def chunkDom (i s : Nat) : Option (Nat × Nat) :=
  if inRange i 0x5000 128 && s == 1 then some (16, 1088)
  else if inRange i 0x3540 16 && s == 1 then some (16, 1088)
  else if inRange i 0x2220 25 && s == 8 then some (256, 16)
  else if inRange i 0x2601 2 && s == 7 then some (16, 32)
  else if i = 0x2401 ∧ s = 1 then some (1024, 32)
  else if i = 0x2402 ∧ s = 1 then some (8, 16)
  else if i = 0x2504 ∧ s = 1 then some (21, 32)
  else none

/-- The session table (Table 3.16): the transport byte is the management port, 2 + NET port, or 16 + PCIe
channel; that coding is the model's. -/
def Session.tableBytes (x : Session) : List Byte :=
  let (tr, ip) := match x.via with
    | .mgt g ip => (g, ip)
    | .inband p ip => (2 + p, ip)
    | .pcie ch => (16 + ch, 0)
  leBytes 2 x.num ++ leBytes 1 x.level ++ leBytes 1 tr ++ leBytes 4 ip ++ time48Bytes x.openedAt ++
    leBytes 4 (min x.requests (2 ^ 32 - 1)) ++ leBytes 4 (min x.badTags (2 ^ 32 - 1)) ++
    leBytes 4 (min x.lost (2 ^ 32 - 1)) ++ leBytes 2 0

/-- The open sessions, in number order. -/
def Dev.openSessions (d : Dev) : List Session :=
  (sessionNumbers.filterMap d.session).filter (·.isOpen)

/-- The slot status of a layer (Table 6.9). -/
def Dev.slotBytes (d : Dev) (l : Nat) : List Byte :=
  padTo 64 ((d.layer l).slots.flatMap fun s =>
    leBytes 8 s.base ++ leBytes 4 s.pitch ++ leBytes 1 s.state ++ leBytes 1 (min s.loans 255) ++
      leBytes 2 (min s.blocked 65535))

/-- Demand of a job list in leaf-cycles per tick (R150). -/
def Dev.jobDemand (d : Dev) (j : Nat) : Nat :=
  let (w, h, _) := d.jobSize j
  rowsCost (spansOf w h (d.jobDescs j)) 0 h

/-- Wing timing: subs 03 to 06 of 0x2010 (Table 2.7). -/
def Dev.viewWing (d : Dev) (w s : Nat) : Option (List Byte) :=
  match s with
  | 3 => some (leBytes 8 (d.wing w).tick)
  | 4 => some (time48Bytes (d.wing w).at_)
  | 5 => some (leBytes 8 (periodPs (d.rate w)))
  | 6 => some (leBytes 1 (d.coupledMask w))
  | _ => none

/-- Characters as bytes. -/
def ascii (s : String) : List Byte := s.toList.map fun c => BitVec.ofNat 8 c.toNat

/-- The attribute TROFF of an IP output: S0 − frame start + raster offset × line time (R209), in whole µs (log entry
151). -/
def Dev.troff (d : Dev) (o : Nat) : List Byte :=
  let t := (d.timing o).elim ⟨0, 1⟩ fun tm => (lineTime tm (d.rd (outIdx o) 3)).mul (d.topLines o)
  ascii "TROFF=" ++ (Nat.toDigits 10 (t.n / (1000 * t.d))).map fun c => BitVec.ofNat 8 c.toNat

/-- The SDP of a sender, by the curator of its wing (Table 1.4): a text of at most 2,048 bytes with the attribute that
the spec states. -/
def Dev.sdp (d : Dev) (w kind n : Nat) (attr : List Byte) : List Byte :=
  let l := d.ledBy w
  (Config.sdpText kind n l.regs l.doms).take 1000 ++ attr ++ (Config.sdpRest kind n l.regs l.doms).take 1000

/-- Encoder channels and rate control: subs computed from the configuration (R225, R228, R240, R245). -/
def Dev.viewEnc (d : Dev) (i c s : Nat) : Option (List Byte) :=
  let e := encIdx c
  let ctu := ctuSize (d.rd e 2)
  if i = e then
    match s with
    | 0x21 => some (d.sdp (encWing c) 1 c [])
    | 0x25 => some (leBytes 4 (d.encDelay c).floor)
    | 0x26 => some (leBytes 4 ((d.encTrow c).mul 1000).floor)
    | 0x27 => some (leBytes 4 (ceilDiv (d.rd e 0x0A) ctu * ctu * 65536 + ceilDiv (d.rd e 0x0B) ctu * ctu))
    | _ => none
  else
    match s with
    | 4 => some (leBytes 4 (d.minBitRate c))
    | 5 => some (leBytes 4 (d.cpbSize c))
    | _ => none

/-- Enabled layers on a canvas (0x3480+c:06). -/
def Dev.layersOn (d : Dev) (c : Nat) : List Nat :=
  (List.range 512).filter fun l => d.rdb (layIdx l) 1 && d.rd (layIdx l) 4 == c

/-- Rectangles of a channel's ROI table whose mode is not off (0x3510+c:02). -/
def Dev.roiOn (d : Dev) (c : Nat) : List (List Byte) :=
  (chunks 12 (d.rdd (0x3510 + c) 1)).filter fun r => byteAt r 8 != 0

/-- Values of single objects. -/
def Dev.viewOne (d : Dev) (i s : Nat) : Option (List Byte) :=
  match i, s with
  | 0x2031, _ => some d.demandBytes
  | 0x2040, 1 => some (leBytes 1 d.openSessions.length)
  | 0x2040, 2 => some (d.openSessions.flatMap Session.tableBytes)
  | 0x2100, 8 => some (leBytes 1 d.interlock)
  | 0x2200, 2 => some (time48Bytes d.now)
  | 0x2360, 5 => some d.slotInfo
  | 0x2501, 2 => some (leBytes 2 ((d.rules 0).filter (·.on)).length)
  | 0x2502, 2 => some (leBytes 2 ((d.rules 1).filter (·.on)).length)
  | 0x2503, 1 => some ((List.range 21).flatMap d.partBytes)
  | 0x2504, 2 => some ((List.range 21).flatMap fun p =>
      leBytes 4 (d.rdf 0x2504 2 (2 * p)) ++ leBytes 8 (d.rdf 0x2504 2 (2 * p + 1)))
  | 0x34F6, 1 => some d.summaryBytes
  | 0x3600, 3 => some (leBytes 8 (audPos 48000 d.now))
  | 0x3600, 4 => some d.audStatusBytes
  | 0x3700, 8 => some (leBytes 1 (scansPerTick (d.rate (d.rd 0x3700 1))))
  | _, _ => none

/-- A value computed from the state of a unit, where an object holds none of its own. -/
def Dev.view (d : Dev) (i s : Nat) : Option (List Byte) :=
  if inRange i 0x2010 4 then d.viewWing (i - 0x2010) s
  else if inRange i 0x3100 128 then
    (if s = 0x0A then some (leBytes 1 ((d.boundSource (i - 0x3100)).getD 0xFF)) else none)
  else if inRange i 0x3200 512 then (if s = 0x1E then some (d.slotBytes (i - 0x3200)) else none)
  else if inRange i 0x3400 128 then
    (if s = 0x17 then some (d.timingBytes (i - 0x3400))
     else if s = 0x2C then some (d.sdp (outWing (i - 0x3400)) 0 (i - 0x3400) ((d.ledBy (outWing (i - 0x3400))).troff (i - 0x3400)))
     else if s = 0x3B then some ((List.range 4).flatMap fun m => leBytes 1 ((d.dp ((i - 0x3400) / 4)).slots.getD m 0)) else none)
  else if inRange i 0x3480 64 then
    (if s = 6 then some (leBytes 2 (d.layersOn (i - 0x3480)).length) else none)
  else if inRange i 0x3510 16 then
    (if s = 2 then some (leBytes 1 (d.roiOn (i - 0x3510)).length) else none)
  else if inRange i 0x3500 16 then d.viewEnc i (i - 0x3500) s
  else if inRange i 0x3520 16 then d.viewEnc i (i - 0x3520) s
  else if inRange i 0x2202 10 then
    (if s = 2 then some (leBytes 1 ((d.ptpMode (i - 0x2202)).getD 0xFF)) else none)
  else if inRange i 0x3701 8 then (if s = 0x10 then some (d.nodeBytes (i - 0x3701)) else none)
  else if inRange i 0x3630 16 then
    (if s = 0x13 then some (d.sdp (d.rd i 3 / 2) 2 (i - 0x3630) (ascii "mediaclk:direct=0")) else none)
  else if inRange i 0x2601 2 then
    (match s with
     | 4 => some (d.pcBytes (i - 0x2601))
     | 9 => some (d.candBytes (i - 0x2601))
     | 0x0A => some (d.spareBytes (i - 0x2601))
     | _ => none)
  else if inRange i 0x4000 256 then
    (if s = 5 then some (leBytes 8 (d.jobDemand (i - 0x4000))) else none)
  else if inRange i 0x2410 32 then
    (if s = 5 then some (leBytes 8 (d.cvuResult (i - 0x2410))) else none)
  else if i = 0x2341 then (if 1 ≤ s ∧ s ≤ 8 then some (d.calStatus s) else none)
  else d.viewOne i s

/-- The bytes of an object's value now (R60, R68). -/
def Dev.readObj (d : Dev) (i s : Nat) : List Byte :=
  match d.view i s with
  | some b => b
  | none =>
    match fieldDom i s, chunkDom i s with
    | some (n, w), _ => (List.range n).flatMap fun f => leBytes w (d.rdf i s f)
    | none, some (n, w) => (List.range n).flatMap fun c => padTo w (d.rdc i s c)
    | none, none =>
      match d.objAt i s with
      | some r => if r.ty.varLen then d.rdd i s else leBytes r.ty.size (d.rd i s)
      | none => []

/-- A read clears the edge that 0x2300:0C shows (R432). -/
def Dev.readEffect (d : Dev) (i s : Nat) : Dev :=
  if i = 0x2300 ∧ s = 0x0C then d.wr 0x2300 0x0C (d.rd 0x2300 0x0C % 4) else d

/-- The refusal of a read (R59, R61). -/
def Dev.readStatus (d : Dev) (i s : Nat) : Nat :=
  match d.objAt i s with
  | none => stNoObject
  | some r => match r.acc with
    | .wo _ => stNotWritable
    | _ => stOk

/-! ### Snapshots (R388) -/

/-- An object of a snapshot: index, subindex, length and data padded to 4. -/
def Dev.objBytes (d : Dev) (i s : Nat) : List Byte :=
  let b := d.readObj i s
  leBytes 2 i ++ leBytes 1 s ++ [0] ++ leBytes 4 b.length ++ pad4 b

/-- The wing that latches an object, 4 for device-wide ones. -/
def Dev.latchedBy (d : Dev) (i : Nat) : Nat :=
  if inRange i 0x5000 128 then outWing (i - 0x5000)
  else if inRange i 0x3540 16 then encWing (i - 0x3540)
  else if inRange i 0x4000 256 then d.jobWing (i - 0x4000)
  else (d.objWing i).getD 4

/-- The readable objects from 0x1000 to 0x5FFF that one wing latches, in order. -/
def Dev.latchObjs (d : Dev) (w : Nat) : List (Nat × Nat) :=
  (((List.range 0x5000).map (· + 0x1000)).filter fun i => d.latchedBy i == w).flatMap
    fun i => ((List.range 256).filter fun s => d.readStatus i s == stOk && !(i == 0x2130 && s == 6)).map
      fun s => (i, s)

/-- What a wing latches. -/
def Dev.latch (d : Dev) (w : Nat) : List Byte := (d.latchObjs w).flatMap fun e => d.objBytes e.1 e.2

/-- A wing latches at its first T+0 at or after the snapshot's time; the device-wide objects are latched with
W0. When all have, the export begins. -/
def Dev.snapTick (d : Dev) (w k : Nat) : Dev :=
  match d.ring.snapAt with
  | none => d
  | some at_ =>
    if d.tickTime w k < at_ ∨ (d.ring.snapParts.any fun e => e.1 == w) then d
    else
      let add := fun (d : Dev) v =>
        ({ d with ring := { d.ring with snapParts := Tab.insert d.ring.snapParts v (d.latch v) } } : Dev)
      let ticks := padTo 32 (d.rdd 0x2130 4)
      let d := d.wrd 0x2130 4 (ticks.take (8 * w) ++ leBytes 8 k ++ ticks.drop (8 * w + 8))
      let d := add d w
      let d := (if w = 0 then add d 4 else d).wr 0x2130 3 2
      if d.ring.snapParts.length < 5 then d
      else
        let n := (List.range 5).foldl (fun n v => n + (d.latchObjs v).length) 0
        let d : Dev := { d with ring := { d.ring with snapAt := none } }
        let r := d.startLong d.ring.snapBy 6 6 1 n (unitPath uDict) 0 0
        match r.slot with
        | some k => (r.dev.wr 0x2130 3 3).wr 0x2130 5 k
        | none => r.dev.wr 0x2130 3 5

end Sys2Proof.Machine
end

