-- ==== Sys2Proof/Machine/Faults.lean ====
section
/-! DEFINITION. Faults that stop a unit (R22, R25, R26), and the management ports' PHYs (R93). -/
namespace Sys2Proof.Machine

/-- WING_FAULT: the wing stops; the fault is contained in it (R22). Cause: 1 PWR_OK, 2 clock, 3 watchdog. -/
def Dev.wingFault (d : Dev) (w cause : Nat) : Dev :=
  if (d.wing w).stopped then d
  else
    let d := Dev.stopWing false d w
    let d := d.setWing w { d.wing w with stopped := true }
    d.raise (uWing w) 0x0103 cause 0 sevService

def execWingFault (t w cause : Nat) (s : State) : Host.Outcome State Fault Refusal :=
  onDev t (·.wingFault w cause) s

/-- CURATOR_STOPPED: the services of the cluster stop; the time unit keeps its rate (R25). -/
def execCuratorStopped (t w core trap : Nat) (s : State) : Host.Outcome State Fault Refusal :=
  onDev t (fun d =>
    if d.curStopped.contains w then d
    else ({ d with curStopped := d.curStopped ++ [w] }).raise (uCur w) 0x0104 core trap sevService) s

/-- Every plane keeps the content it holds: that of its raster frame in progress, or of its channel's newest picture
with marks (R26). -/
def Dev.keepPlanes (d : Dev) : Dev :=
  let d := foldNat (fun d o => match (d.out o).raster with
    | some r => d.setOut o { d.out o with plane := some r.list }
    | none => d) 128 d
  foldNat (fun d c => match (d.enc c).pics.reverse.find? fun p => p.kind != 0 with
    | some p => d.setEnc c { d.enc c with plane := some p.list }
    | none => d) 16 d

/-- LOCKSTEP_MISMATCH, in every power state above Off: the compare logic stops the guardian pair, holds ILK_HOLD_OUT
and asserts FAULT_N, and writes an AON record itself; the planes keep their content (R26, R400). `pc`: the guardian's
program counter. -/
def execLockstepMismatch (t pc : Nat) (s : State) : Host.Outcome State Fault Refusal :=
  onAon t (fun d =>
    if d.guardianStopped || !d.guardOn then d
    else
      let d := { d.keepPlanes with guardianStopped := true, aonFault := true }
      (d.aonRecord uGuard 0x0105 sevDevice d.now).raise uGuard 0x0105 pc 0 sevDevice) s

/-- SOC_SUPPLY: a fault of VDD_SOC stops every spine unit but the AON and the guardian domain (R22). -/
def execSocSupply (t input : Nat) (s : State) : Host.Outcome State Fault Refusal :=
  onDev t (fun d =>
    let d := d.setPwr { d.pwr with socDown := true }
    d.report { unit := uDevice, code := 0x0106, p1 := input, p2 := 0, sev := sevDevice, time := d.now }) s

/-! ### Management PHYs (R93) -/

/-- The device masters MDIO. -/
def Dev.mdioOn (d : Dev) : Bool := d.sgmii 0 || d.sgmii 1

/-- A management frame on MDC and MDIO: write, PHY address, register, data. -/
def Dev.mdioFrame (d : Dev) (wr phy reg value : Nat) : Dev := d.send (.pin "mdio" [wr, phy, reg, value])

/-- A Clause 22 read; its data shows in 0x2046:06. -/
def Dev.mdioRead (d : Dev) (phy reg value : Nat) : Dev :=
  let d := d.wr 0x2046 6 0
  if d.mdioOn then (d.mdioFrame 0 phy reg 0).wr 0x2046 6 (2 ^ 31 + value % 65536) else d

/-- A Clause 22 write. -/
def Dev.mdioWrite (d : Dev) (phy reg value : Nat) : Dev :=
  let d := d.wr 0x2046 6 0
  if d.mdioOn then (d.mdioFrame 1 phy reg (value % 65536)).wr 0x2046 6 (2 ^ 31) else d

/-- The word of 0x2046:05. -/
def mdioWord (wr phy reg value : Nat) : Nat := wr * 2 ^ 31 + phy % 32 * 2 ^ 21 + reg % 32 * 2 ^ 16 + value % 65536

/-- MDIO_READ: `value` is what the PHY answers. -/
def execMdioRead (t : Nat) (by_ : Requester) (phy reg value : Nat) (s : State) : Host.Outcome State Fault Refusal :=
  onCommand t by_ (fun d => d.command by_ 0x2046 5 (leBytes 4 (mdioWord 0 phy reg 0))
    fun d => (d.mdioRead (phy % 32) (reg % 32) value).res stOk) s

/-- MDIO_WRITE. -/
def execMdioWrite (t : Nat) (by_ : Requester) (phy reg value : Nat) (s : State) : Host.Outcome State Fault Refusal :=
  onCommand t by_ (fun d => d.command by_ 0x2046 5 (leBytes 4 (mdioWord 1 phy reg value))
    fun d => (d.mdioWrite (phy % 32) (reg % 32) value).res stOk) s

/-- PHY_POLL: the link of the PHY of an SGMII port is read every 100 ms; MGT_LINK on each change. -/
def Dev.phyPoll (d : Dev) (g : Nat) (up : Bool) : Dev :=
  if !d.sgmii g then d
  else
    let d := d.mdioFrame 0 (d.rd 0x2046 (g + 3)) 1 0
    let now := d.rd 0x2046 7
    let was := bits now (2 * g + 1) (2 * g)
    let st := if up then 2 else 0
    if was = st then d
    else (d.wr 0x2046 7 (now - was * 4 ^ g + st * 4 ^ g)).raise (uMgt g) 0x0303 st 0
      (if up then sevInfo else sevDegraded)

def execPhyPoll (t port : Nat) (up : Bool) (s : State) : Host.Outcome State Fault Refusal :=
  onDev t (·.phyPoll (port % 2) up) s

end Sys2Proof.Machine
end

