-- ==== Sys2Proof/Machine/Batch.lean ====
section
/-! DEFINITION. Batches: admission of a stage for a named tick (R43 to R47, R65), the withdrawal of an accepted
batch (R67), and what the pair sends of them (R44, R90). -/
namespace Sys2Proof.Machine

/-! ### Ticks at which a batch applies (R65) -/

/-- The tick at which what belongs to `place` (a wing, or 4 for the device) applies, for a batch that names
tick `k` of wing `w`. -/
def Dev.tickAt (d : Dev) (w k place : Nat) : Nat × Nat :=
  let v := if place = 4 then 0 else place
  (v, if v = w then k else d.tickFrom v (d.tickTime w k))

/-- What a batch writes at which tick: wing, tick, object. `new` is the configuration it gives. -/
def Dev.writesOf (d new : Dev) (w k : Nat) (recs : List Rec) : List (Nat × Nat × Nat × Nat) :=
  recs.flatMap fun r => (new.recOwners r).map fun o =>
    let a := d.tickAt w k o
    (a.1, a.2, r.idx, r.sub)

/-- An accepted batch writes an object of this one at the same tick (R46). -/
def Dev.conflicts (d new : Dev) (w k : Nat) (recs : List Rec) : Bool :=
  let mine := d.writesOf new w k recs
  d.batches.any fun b => (d.writesOf (d.setRecs b.recs) b.wing b.tick b.recs).any mine.contains

/-! ### Admission (R43) -/

/-- The configurations at the later ticks, in order: the first that fails decides. -/
def judgeAll : Dev → List (List Rec) → Verdict
  | _, [] => {}
  | old, g :: gs =>
    let new := old.setRecs g
    let v := Dev.judgeLater old new g
    if v.st ≠ stOk then v else judgeAll new gs

/-- Admission of records for an instant: against the configuration that will hold there, then the
configurations of the later ticks (R43). -/
def Dev.admitAt (d : Dev) (at_ : Nat) (recs : List Rec) : Verdict :=
  let all := d.inOrder d.batches
  let old := ((all.filter fun e => decide (e.1 < at_)).flatMap (·.2.recs))
  let same := ((all.filter fun e => e.1 == at_).flatMap (·.2.recs))
  let before := d.setRecs old
  let new := (before.setRecs same).setRecs recs
  let v := Dev.judge d before new recs (same ++ recs)
  if v.st ≠ stOk then v else judgeAll new (byTick (all.filter fun e => decide (at_ < e.1)))

/-- Object 0x2030 shows a verdict (Table 2.9); a USDO write that is refused for another reason than a commit shows its
status there too (Table 3.10, log entry 153). -/
def Dev.admissionShows (d : Dev) (v : Verdict) (sess tick device : Nat) : Dev :=
  let e := v.excess.getD ⟨0, 0, 0⟩
  let d := (((d.wr 0x2030 1 v.st).wr 0x2030 2 e.cls).wr 0x2030 3 e.inst).wr 0x2030 4 (min e.permille 65535)
  (((d.wr 0x2030 6 tick).wr 0x2030 7 (time48 d.now)).wr 0x2030 8 sess).wr 0x2030 0x0A device

/-- The admission status of a batch, and the count of refused ones (Table 2.9). -/
def Dev.admission (d : Dev) (v : Verdict) (sess tick device : Nat) : Dev :=
  let d := d.admissionShows v sess tick device
  if v.st = stOk then d else d.wr 0x2030 9 ((d.rd 0x2030 9 + 1) % 2 ^ 32)

/-- Check results of the job lists that a batch enables or whose content it changes (R149). -/
def Dev.jobResults (d new : Dev) (recs : List Rec) : Dev :=
  (jobsTouched new recs).foldl (fun d j =>
    d.wr (0x4000 + j) 4 (match new.jobCheck j with
      | none => 0
      | some (code, k) => code + k * 256)) d

/-- A refused request of a wing state (R426). -/
def Dev.stateRefused (d : Dev) (v : Verdict) (recs : List Rec) : Dev :=
  if v.st = stWrongState then
    recs.foldl (fun d r =>
      if r.idx = 0x2300 ∧ 1 ≤ r.sub ∧ r.sub ≤ 4 ∧ leNat r.data ≠ 0 then
        (d.powerCount 3).raise uAon 0x1405 (leNat r.data) v.st sevInfo
      else d) d
  else d

/-- Lead that a commit needs (R45). -/
def Dev.commitLead (d : Dev) : Nat := if d.duplex then 6000000 else 4000000

/-- What refuses a batch before admission: STANDBY, SEGMENT, the reference wing, its deadline and CONFLICT
(R91, R65, R45, R46). -/
def Dev.commitStatus (d : Dev) (w k : Nat) (recs : List Rec) : Nat :=
  let at_ := d.tickTime w k
  if d.standby && recs.any fun r => !isLocal r.idx then stStandby
  else if recs.any fun r => !r.complete then stSegment
  else if 3 < w then stRange
  else if at_ < d.now + d.commitLead then stTooLate
  else if d.now + 600000000000 < at_ then stTooFar
  else if d.conflicts (d.setRecs recs) w k recs then stConflict
  else stOk

/-- The partner's answer to a batch, one of the codes of Table 2.4 or WRONG_STATE, which nothing here fixes (R44); a
partner that takes no part is not asked. -/
def Dev.askPartner (d : Dev) : Verdict × Dev :=
  if d.duplex && d.active && d.dup.linkUp && d.dup.partnerIn then
    let (st, d) := d.free
    let (c, d) := d.free
    let (i, d) := d.free
    let (q, d) := d.free
    if st % 9 = 0 then ({}, d)
    else if st % 9 = 1 then ({ st := 1, excess := some ⟨c % 256, i % 256, q % 65536⟩ }, d)
    else if st % 9 = 8 then ({ st := stWrongState }, d)
    else ({ st := st % 9 }, d)
  else ({}, d)

/-- A batch as the ring carries it to the partner. -/
def batchBytes (b : Batch) : List Byte :=
  leBytes 4 b.num ++ leBytes 2 b.sess ++ leBytes 1 b.wing ++ leBytes 8 b.tick ++
    b.recs.flatMap fun r => leBytes 2 r.idx ++ leBytes 1 r.sub ++ leBytes 4 r.data.length ++ r.data

/-- What a commit answers: its status, its batch number, the resource and the refusing device. -/
structure Committed where
  st : Nat
  num : Nat := 0
  excess : Excess := ⟨0, 0, 0⟩
  device : Nat := 0

/-- The answer of a commit (Table 3.7). -/
def Committed.bytes (c : Committed) : List Byte :=
  leBytes 4 c.num ++ leBytes 1 c.excess.cls ++ leBytes 1 c.excess.inst ++ leBytes 2 c.excess.permille ++
    leBytes 1 c.device ++ leBytes 3 0

/-- A commit of records for tick `k` of wing `w` (R43 to R47, R65). A batch that this device admits goes to the partner
with its mirrored objects (R44, R91). An accepted batch gets the next number; one
without records has nothing left to apply. -/
def Dev.commit (d : Dev) (sess w k : Nat) (recs : List Rec) : Committed × Dev :=
  let pre := d.commitStatus w k recs
  if pre ≠ stOk then ({ st := pre }, d.admission { st := pre } sess k 0)
  else
    let d := d.jobResults (d.setRecs recs) recs
    let v := d.admitAt (d.tickTime w k) recs
    if v.st ≠ stOk then
      ({ st := v.st, excess := v.excess.getD ⟨0, 0, 0⟩ }, (d.admission v sess k 0).stateRefused v recs)
    else
      let n := d.batchNum + 1
      let b : Batch := { num := n, sess := sess, wing := w, tick := k, recs := recs.filter fun r => !isLocal r.idx }
      let shared := !b.recs.isEmpty
      let d := if shared && d.active then d.toPartner "batch" (batchBytes b) else d
      let (p, d) := if shared then d.askPartner else ({}, d)
      if p.st ≠ stOk then
        ({ st := p.st, excess := p.excess.getD ⟨0, 0, 0⟩, device := 1 }, d.admission p sess k 1)
      else
        let d := { d with batchNum := n, batches := if recs.isEmpty then d.batches else d.batches ++ [{ b with recs := recs }] }
        ({ st := stOk, num := n }, d.admission {} sess k 0)

/-! ### CANCEL (R67) -/

/-- Re-evaluation of the batches that follow a cancelled one, by tick and then by acceptance, one by one: the first
that would no longer be admitted, with its status. -/
def judgeEach : Dev → List Batch → Option (Batch × Verdict)
  | _, [] => none
  | old, b :: r =>
    let new := old.setRecs b.recs
    let v := Dev.judgeLater old new b.recs
    if v.st ≠ stOk then some (b, v) else judgeEach new r

/-- CANCEL of a batch by a session (R67). Two points are the model's choice (DESIGN CHOICE, log entry 160): a batch
that has applied at one of its wings counts as applied, and the committing session is known by its number alone, so
that a later session of the same number counts as the committer. -/
def Dev.cancel (d : Dev) (by_ : Requester) (num : Nat) : Nat × Dev :=
  match d.batches.find? fun b => b.num == num with
  | none => (stNoBatch, d)
  | some b =>
    if !b.done.isEmpty then (stNoBatch, d)
    else if b.sess ≠ by_.sess ∧ by_.level < 3 then (stAccess, d)
    else if d.batchTime b < d.now + d.commitLead then (stTooLate, d)
    else
      let rest := d.batches.filter fun x => x.num != num
      let all := (d.inOrder d.batches).map (·.2)
      let before := (all.takeWhile fun x => x.num != num).flatMap (·.recs)
      match judgeEach (d.setRecs before) ((all.dropWhile fun x => x.num != num).drop 1) with
      | some (x, v) => (v.st, d.admission v by_.sess x.tick 0)
      | none => (stOk, { d with batches := rest }.toPartner "batch" (batchBytes { b with recs := [] }))

/-! ### On the other device (R44, R90) -/

/-- Session number of a batch that the partner committed: no session of this device. -/
def partnerSess (n : Nat) : Nat := 0x8000 + n % 0x8000

/-- The batch of the partner; a local object is never taken from it (R91). -/
def ofMirror (b : MirrorBatch) : Batch :=
  { num := b.num, sess := partnerSess b.sess, wing := b.wing % 4, tick := b.tick
    recs := (b.recs.filter fun r => !isLocal r.idx).map fun r => { idx := r.idx, sub := r.sub, data := r.data } }

/-- A batch of the partner arrives (R44): the standby evaluates it and answers; a batch that the active has
already accepted, and one during phase 1 of a resynchronisation, is queued. A pending batch that comes without
records is withdrawn. -/
def Dev.batchArrives (d : Dev) (m : MirrorBatch) : Dev :=
  let b := ofMirror m
  if !d.standby then d
  else if m.recs.isEmpty then { d with batches := d.batches.filter fun x => x.num != m.num }
  else if d.resyncPhase = 1 then { d with batches := d.batches ++ [b] }
  else if !d.dup.inStep then d
  else
    let v := d.admitAt (d.batchTime b) b.recs
    let e := v.excess.getD ⟨0, 0, 0⟩
    let d := d.toPartner "admission" (leBytes 4 m.num ++ leBytes 1 v.st ++ leBytes 1 e.cls ++ leBytes 1 e.inst ++
      leBytes 2 e.permille)
    if v.st ≠ stOk then d
    else { d with batches := d.batches ++ [b], batchNum := max d.batchNum m.num }

/-- MIRRORED_BATCH_RECEIVED. -/
def execMirroredBatchReceived (t : Nat) (b : MirrorBatch) (s : State) : Host.Outcome State Fault Refusal :=
  onDev t (·.batchArrives b) s

end Sys2Proof.Machine
end

