-- ==== Sys2Proof/Machine/Commands.lean ====
section
/-! DEFINITION. What a write of an I-class or P-class object does, whatever brings it: WDP, USDO, an RPDO or the
partner (R62, R79, R90). -/
namespace Sys2Proof.Machine

/-! ### Sessions that end (R66, R76) -/

/-- A session ends; for a reason of Table 3.8 other than 0 with NOTIFY SESSION_CLOSING, which is sent once: the session
that would repeat it or take its ACK is gone (DESIGN CHOICE, log entry 160). -/
def Dev.closeSession (d : Dev) (n reason : Nat) : Dev :=
  let d := if reason = 0 then d else d.notifyTo n 5 d.now (leBytes 1 reason)
  { d.setSession n none with segs := d.segs.filterKeys fun k => k / 2 ^ 24 != n }

/-- A level key is written: every other open session at that level closes (R76). -/
def Dev.levelKey (d : Dev) (by_ : Requester) (level : Nat) (key : List Byte) : Dev :=
  sessionNumbers.foldl (fun d n =>
    match d.session n with
    | some x => if x.isOpen && x.level == level && n != by_.sess then d.closeSession n 2 else d
    | none => d) (d.wrd 0x2041 (level + 1) key)

/-- LEVEL_KEY_WRITE: 0x2041:01 to 04. -/
def execLevelKeyWrite (t : Nat) (by_ : Requester) (level : Nat) (key : List Byte) (s : State) :
    Host.Outcome State Fault Refusal :=
  onCommand t by_ (fun d => d.command by_ 0x2041 (level % 4 + 1) key
    fun d => (d.levelKey by_ (level % 4) key).res stOk) s

/-! ### The CANopen commit (R84) -/

/-- Session number of the CANopen node. -/
def Dev.canSess (d : Dev) : Nat := 0x100 + d.bootRd 0x2043 2

/-- Commits the CANopen stage, which is empty afterwards; in boot phase 5 it is refused (R84, R449). -/
def Dev.canCommit (d : Dev) (tick : Nat) : Res :=
  if d.pwr.state = 4 then d.res stWrongState
  else
    let (c, d) := { d with canStage := [] }.commit d.canSess (d.rd 0x2043 7) tick d.canStage
    (if c.st = stOk then d.wr 0x2043 8 c.num else d).res c.st

/-! ### Checks at arrival -/

/-- Whether an object may stand in a PDO mapping: in an RPDO only I-class objects that can be written, in a TPDO
what can be read as a value (R85). Other objects than mappings have no such limit. -/
def Dev.mappable (d : Dev) (i s v : Nat) : Bool :=
  if s = 0 ∨ v = 0 then true
  else if inRange i 0x1600 8 then
    match d.objAt (v / 65536) (v / 256 % 256) with
    | some r => r.com == .i && match r.acc with | .rw _ => true | .wo _ => true | _ => false
    | none => false
  else if inRange i 0x1A00 8 then
    match d.objAt (v / 65536) (v / 256 % 256) with
    | some r => r.ty != .dom && match r.acc with | .wo _ => false | _ => true
    | none => false
  else true

/-- The checks of a command object, or of an object in a state, at arrival. -/
def Dev.preOf (d : Dev) (i s : Nat) (data : List Byte) : Nat :=
  let v := leNat data
  if i = 0x1010 then (if v = 0x65766173 then stOk else stRange)
  else if i = 0x1011 then (if v = 0x64616F6C then stOk else stRange)
  else if inRange i 0x3100 128 && s == 9 then (if d.decState (i - 0x3100) = 4 then stOk else stWrongState)
  else if !d.mappable i s v then stRange
  else if i = 0x2046 ∧ s = 5 then (if bits v 30 26 = 0 then stOk else stRange)
  else if i = 0x2504 ∧ s = 3 then (if v < 2 ^ 21 then stOk else stRange)
  else if inRange i 0x3601 16 && s == 0x0C then d.audRearmStatus (i - 0x3601)
  else if inRange i 0x3611 8 && s == 5 && v == 1 then d.audArmStatus (i - 0x3610)
  else if inRange i 0x2240 64 then
    if s = 8 then (if v = 1 then d.armStatus (i - 0x2240) else stOk)
    else if d.launchState (i - 0x2240) = 1 ∨ d.launchState (i - 0x2240) = 2 then stWrongState
    else stOk
  else if i = 0x2200 ∧ s = 0x0B then (if d.timeAccepts v then stOk else stWrongState)
  else if inRange i 0x3701 8 && s == 0x0E then d.rebaseStatus (i - 0x3701)
  else if i = 0x2600 ∧ s = 1 then (if v * d.rd 0x2600 2 ≤ 64000 then stRange else stOk)
  else if i = 0x2600 ∧ s = 2 then (if d.rd 0x2600 1 * v ≤ 64000 then stRange else stOk)
  else if inRange i 0x3400 128 && s == 0x0E then
    match d.timing (i - 0x3400) with
    | some tm => if tm.vt ≤ v then stRange else stOk
    | none => stOk
  else if inRange i 0x2410 32 then
    let u := i - 0x2410
    if s = 4 then d.cvuRunReady u
    else if s = 9 ∧ v = 2 then (if d.cvuState u = 2 then stOk else stWrongState)
    else d.cvuReady u
  else stOk

/-! ### Effects -/

/-- What the storing of an object changes besides its value. -/
def Dev.stored (old : Dev) (i s : Nat) (d : Dev) : Dev :=
  if decide (0x2201 ≤ i) && decide (i ≤ 0x220B) then (if d.curDown 0 then d else d.ptpRefresh)
  else if i = 0x2110 ∧ s = 3 then d.refreshLink 2
  else if inRange i 0x2220 25 && s == 1 && d.rdb i 1 && !old.rdb i 1 then
    d.setEvt (i - 0x2220) { d.evt (i - 0x2220) with since := d.now }
  else if i = 0x2239 ∧ s = 1 then (if d.rd 0x2239 1 = old.rd 0x2239 1 then d else d.ppsFall)
  else if i = 0x2300 ∧ s = 7 then d.wr 0x2300 7 (setBit (d.rd 0x2300 7) 0 true)
  else if inRange i 0x3200 512 && s == 0x19 then Dev.layerChanged old (i - 0x3200) true d
  else d

/-- Stores a value. -/
def Dev.store (d : Dev) (i s : Nat) (data : List Byte) : Res := (Dev.stored d i s (d.setObj i s data)).res stOk

/-- Commands of the guardian, journal, memory and check-value units (0x2400 to 0x26FF). -/
def Dev.effect24 (mem : Mem) (by_ : Requester) (i s : Nat) (data : List Byte) (d : Dev) : Res :=
  let v := leNat data
  if i = 0x2400 ∧ s = 5 then d.jClearEntry v
  else if i = 0x2400 ∧ s = 6 then d.jClearAll.res stOk
  else if i = 0x2400 ∧ s = 7 then d.jEmpty.res stOk
  else if i = 0x2402 ∧ s = 3 then d.aonClear.res stOk
  else if inRange i 0x2410 32 then
    let u := i - 0x2410
    if s = 2 then (d.cvuSelect u v).res stOk
    else if s = 4 then (d.cvuSetRun u v).res stOk
    else if s = 6 then (d.cvuFeed u data).res stOk
    else if s = 9 then
      if v = 1 then d.cvuStart u else if v = 2 then (d.cvuAbort mem u).res stOk else (d.cvuInit u).res stOk
    else d.store i s data
  else if i = 0x2504 ∧ s = 3 then (d.clearViolations v).res stOk
  else if i = 0x2600 ∧ s = 4 then d.memCountersReset.res stOk
  else if inRange i 0x2601 2 && s == 0x0C then d.memCommand by_ (i - 0x2601) v
  else d.store i s data

/-- Commands of the power, calibration and boot units (0x2300 to 0x23FF). -/
def Dev.effect23 (by_ : Requester) (i s : Nat) (data : List Byte) (d : Dev) : Res :=
  let v := leNat data
  if i = 0x2300 ∧ s = 5 then d.powerCommand v
  else if i = 0x2300 ∧ s = 0x0B then (d.askRelease v).res stOk
  else if i = 0x2340 ∧ s = 3 then (if v = 1 then d.calStart by_ else d.calStore by_)
  else if i = 0x2360 ∧ s = 7 then d.bootCommand by_ v
  else if i = 0x2360 ∧ s = 0x0E then d.debugToken data
  else d.store i s data

/-- Commands of the time unit and of the launches (0x2200 to 0x22FF). -/
def Dev.effect22 (i s : Nat) (data : List Byte) (d : Dev) : Res :=
  let v := leNat data
  if i = 0x2200 ∧ s = 0x0B then (d.timeAct v).res stOk
  else if inRange i 0x2240 64 && s == 8 then (if v = 1 then d.arm (i - 0x2240) else d.disarm (i - 0x2240))
  else d.store i s data

/-- Command 4 of 0x2100:05: a standby starts its resynchronisation (R364). Batches of mirrored objects that it
still holds are stale: the active sends every pending one. The size of the snapshot is not stated. -/
def Dev.askResync (d : Dev) (by_ : Requester) : Res :=
  if !(d.standby && d.pairState == 2 && (d.dup.partner == 1 || d.dup.armed) && d.dup.linkUp) then
    d.res stWrongState
  else
    let (n, d) := d.free
    let r := d.startLong by_ 1 1 4 n (unitPath uRing) 0 0
    match r.slot with
    | none => r
    | some k =>
      let d := (r.dev.wr 0x2100 0x0C k).setPair 3
      let d := d.setDup { d.dup with inStep := false, counted := [], filled := [], matched := [] }
      let d := { d with batches := d.batches.filter fun b => b.recs.all fun x => isLocal x.idx, mirror := [] }
      ⟨r.st, r.slot, d.toPartner "resynchronise" []⟩

/-- RESYNCHRONISE (R364). -/
def execResynchronise (t : Nat) (by_ : Requester) (s : State) : Host.Outcome State Fault Refusal :=
  onCommand t by_ (fun d => d.command by_ 0x2100 5 [4] (·.askResync by_)) s

/-- Commands of the pair and the ring (0x2100 to 0x21FF). -/
def Dev.effect21 (by_ : Requester) (i s : Nat) (data : List Byte) (d : Dev) : Res :=
  let v := leNat data
  if i = 0x2100 ∧ s = 5 then
    match v with
    | 1 => d.askClaim
    | 2 => d.askSwap
    | 3 => d.cancelSwap
    | 4 => d.askResync by_
    | 5 => d.askRefollow
    | _ => d.res stRange
  else if i = 0x2100 ∧ s = 0x0F then (d.clearFields 0x2100 0x0E 7).res stOk
  else if i = 0x2110 ∧ s = 7 then (if v = 1 then d.broadcast 1 [] else d).realign.res stOk
  else if i = 0x2110 ∧ s = 8 then ((d.broadcast 2 data).urgentEvent d.node' data).res stOk
  else if inRange i 0x2120 2 && s == 3 then d.changeTable (i - 0x2120) v
  else if i = 0x2122 ∧ s = 2 then d.changeShared v
  else if i = 0x2130 ∧ s = 2 then d.askSnapshot by_
  else d.store i s data

/-- Commands of the communication objects and long operations (below 0x2100). -/
def Dev.effect20 (by_ : Requester) (i s : Nat) (data : List Byte) (d : Dev) : Res :=
  let v := leNat data
  if i = 0x1010 then d.startSave by_
  else if i = 0x1011 then d.loadDefaults.res stOk
  else if i = 0x2041 then (d.levelKey by_ (s - 1) data).res stOk
  else if i = 0x2043 ∧ s = 6 then d.canCommit v
  else if i = 0x2046 ∧ s = 5 then
    if v / 2 ^ 31 = 1 then (d.mdioWrite (bits v 25 21) (bits v 20 16) (v % 65536)).res stOk
    else
      let (x, d) := d.free
      (d.mdioRead (bits v 25 21) (bits v 20 16) x).res stOk
  else if inRange i 0x2080 64 && s == 0x0E then
    if v = 1 then d.askAbort by_ (i - 0x2080) else d.clearLong (i - 0x2080)
  else d.store i s data

/-- Commands of the media units (0x3000 on). -/
def Dev.effect30 (i s : Nat) (data : List Byte) (d : Dev) : Res :=
  let v := leNat data
  if inRange i 0x3000 256 && s == 0x24 then (d.clearFields i 0x23 9).res stOk
  else if inRange i 0x3100 128 && s == 9 then (d.rearm (i - 0x3100)).res stOk
  else if inRange i 0x3100 128 && s == 0x0F then (d.clearFields i 0x0E 12).res stOk
  else if inRange i 0x3200 512 && s == 0x1A then d.claimSlot (i - 0x3200) v
  else if inRange i 0x3400 128 && s == 0x16 then (((d.wr i 0x13 0).wr i 0x14 0).wr i 0x15 0).res stOk
  else if inRange i 0x3400 64 && s == 0x3F then (d.retrain ((i - 0x3400) / 4)).res stOk
  else if i = 0x34F5 ∧ s = 1 then ((d.wrd 0x34F5 1 data).wr 0x34F5 2 (if data = [] then 0 else 1)).res stOk
  else if inRange i 0x3500 16 && s == 0x29 then (d.clearFields i 0x28 8).res stOk
  else if inRange i 0x3520 16 && s == 0x0C then (((d.wr i 9 0).wr i 0x0A 0).wr i 0x0B 0).res stOk
  else if i = 0x3600 ∧ s = 5 then d.audCounters.res stOk
  else if inRange i 0x3601 16 && s == 0x0C then d.audRearm (i - 0x3601)
  else if inRange i 0x3611 8 && s == 5 then (if v = 1 then d.audArm (i - 0x3610) else d.audStop (i - 0x3610))
  else if inRange i 0x3701 8 && s == 0x0E then
    (d.setSurf (i - 0x3701) { d.surf (i - 0x3701) with rebase := true }).res stOk
  else d.store i s data

/-- The effect of a checked write. -/
def Dev.effectOf (mem : Mem) (by_ : Requester) (i s : Nat) (data : List Byte) (d : Dev) : Res :=
  if i < 0x2100 then d.effect20 by_ i s data
  else if i < 0x2200 then d.effect21 by_ i s data
  else if i < 0x2300 then d.effect22 i s data
  else if i < 0x2400 then d.effect23 by_ i s data
  else if i < 0x2700 then d.effect24 mem by_ i s data
  else d.effect30 i s data

/-! ### Writes of whole values and of segments -/

/-- A write of a whole value of an I-class or P-class object by a session, or its refusal (R59 to R62, R79);
a mirrored object in Duplex protection waits for its tick (R90). -/
def Dev.writeValue (mem : Mem) (by_ : Requester) (i s : Nat) (data : List Byte) (d : Dev) : Res :=
  if i = 0x34F5 ∧ s = 1 then d.loadLegends by_ data
  else if inRange i 0x3200 512 && s == 0x1A then d.claimWrite by_ (i - 0x3200) (leNat data)
  else d.commandPre by_ i s data (d.preOf i s data) (Dev.effectOf mem by_ i s data)

/-- Key of a DOMAIN that a session writes in segments. -/
def segKey (sess i s : Nat) : Nat := sess * 2 ^ 24 + i * 256 + s

/-- A record of a WRITE: a value, or a segment of a DOMAIN. A DOMAIN takes its content with its last segment
(R79). -/
def Dev.writeSeg (mem : Mem) (by_ : Requester) (i s off : Nat) (last : Bool) (data : List Byte) (d : Dev) : Res :=
  let a := d.accessStatus by_.level i s
  if a ≠ stOk then d.res a
  else match d.objAt i s with
    | none => d.res stNoObject
    | some r =>
      if r.com = .t then d.res stWrongClass
      else if r.ty ≠ .dom then Dev.writeValue mem by_ i s data d
      else if i = 0x2360 ∧ s = 0x0B then d.stageImage by_ off data last
      else
        let key := segKey by_.sess i s
        let have_ := if off = 0 then [] else Tab.getD d.segs key []
        let all := have_ ++ data
        if have_.length ≠ off then d.res stSegment
        else if !r.maxOk all.length then d.res stType
        else if last then
          Dev.writeValue mem by_ i s all { d with segs := Tab.setD d.segs key [] [] }
        else if d.standby && !isLocal i then d.res stStandby
        else ({ d with segs := Tab.setD d.segs key all [] } : Dev).res stOk

/-- Where a written object waits for its tick: wing and tick (R90). -/
def Dev.waitsFor (d : Dev) (i : Nat) : Option (Nat × Nat) :=
  if d.duplex && !isLocal i then
    let w := (d.objWing i).getD 0
    some (w, d.tickFrom w (d.now + 2000000))
  else none

/-! ### The stage (R63, R64, R84) -/

/-- A record of a stage after a further segment: none where the offset does not follow. -/
def stageWith (stage : List Rec) (i s off : Nat) (last isDom : Bool) (data : List Byte) : Option (List Rec) :=
  let same := fun (r : Rec) => r.idx == i && r.sub == s
  if !isDom || off == 0 then
    some (stage.filter (!same ·) ++ [{ idx := i, sub := s, data := data, complete := !isDom || last }])
  else match stage.find? same with
    | some r =>
      if r.complete ∨ r.data.length ≠ off then none
      else some (stage.map fun x =>
        if same x then { x with data := x.data ++ data, complete := last } else x)
    | none => none

/-- DOMAIN bytes that a stage holds. -/
def stageBytes (stage : List Rec) : Nat :=
  stage.foldl (fun n r => match objRow r.idx r.sub with
    | some x => if x.ty = .dom then n + r.data.length else n
    | none => n) 0

/-- The range of an object that depends on others (Tables 2.3, 4.6, 8.5, 9.7, 10.5), with the values of this
configuration. -/
def Dev.rangeHere (d : Dev) (i s : Nat) : Option (Nat × Nat) :=
  let below := fun n => some (0, n - 1)
  if inRange i 0x2010 4 && s == 2 then below (ceilDiv (d.period (i - 0x2010)).n (d.period (i - 0x2010)).d)
  else if inRange i 0x3000 256 && s == 0x1E then some (0, d.rd i 5 - 16)
  else if inRange i 0x3000 256 && s == 0x1F then below (d.rd i 6)
  else if inRange i 0x3400 128 && s == 4 then (d.timing (i - 0x3400)).bind fun tm => below tm.vt
  else if inRange i 0x3500 16 && s == 0x0C then some (8, ceilDiv (d.rd i 0x0B) (ctuSize (d.rd i 2)))
  else if inRange i 0x3500 16 && s == 0x0D then
    let p := d.period (encWing (i - 0x3500))
    some (0, p.n / (16 * p.d))
  else none

/-- Checks of one record against the whole value that it gives, and the stage with it (R64): existence,
access, class, type, range. A range that depends on other objects is that of the values staged before it, and of those
that stand for the rest (log entry 150). -/
def Dev.stageRec (d : Dev) (level : Nat) (stage : List Rec) (i s off : Nat) (last : Bool) (data : List Byte) :
    Nat × List Rec :=
  let a := d.accessStatus level i s
  if a ≠ stOk then (a, stage)
  else match d.objAt i s with
    | none => (stNoObject, stage)
    | some r =>
      if r.com ≠ .t then (stWrongClass, stage)
      else match stageWith stage i s off last (r.ty == .dom) data with
        | none => (stSegment, stage)
        | some st =>
          let v := ((st.find? fun x => x.idx == i && x.sub == s).map (·.data)).getD []
          if r.ty = .dom ∧ !last then (if r.maxOk v.length then stOk else stType, st)
          else
            let a := d.valueStatus level i s v
            let out := ((d.setRecs (stage.filter (·.complete))).rangeHere i s).any fun r =>
              decide (leNat v < r.1) || decide (r.2 < leNat v)
            (if a = stOk ∧ out then stRange else a, st)

end Sys2Proof.Machine
end

