-- ==== Sys2Proof/Machine/Resync.lean ====
section
/-! DEFINITION. The phases of a standby resynchronisation (R364 to R367), mirrored writes on their way (R90), and
the end of an aborted long operation (R58). -/
namespace Sys2Proof.Machine

/-! ### Mirrored writes (R90) -/

/-- MIRRORED_WRITE_RECEIVED: a standby that takes part queues it for its tick; during phase 1 of a
resynchronisation too (R365). -/
def execMirroredWriteReceived (t : Nat) (key : ObjKey) (data : List Byte) (wing tick : Nat) (s : State) :
    Host.Outcome State Fault Refusal :=
  onDev t (fun d =>
    if d.standby && (d.dup.inStep || d.resyncPhase == 1) then
      { d with mirror := d.mirror ++
        [{ wing := wing % 4, tick := tick, rec_ := { idx := key.idx, sub := key.sub, data := data }
           by_ := ⟨partnerSess 0, 3⟩ }] }
    else d) s

/-! ### Phase 1 -/

/-- An object that the snapshot of phase 1 covers: mirrored, written by hosts, and not P-class (R365). -/
def inSnapshot (i s : Nat) : Bool :=
  !isLocal i && match objRow i s with
    | some r => r.com == .t || (r.com == .i && match r.acc with | .rw _ => true | _ => false)
    | none => false

/-- The objects that a device holds away from their defaults and the snapshot does not list: they take their
defaults. -/
def Dev.toDefaults (d : Dev) (objs : List Wr) : List Rec :=
  let at_ := fun (k : Nat) => (k / 65536 / 256, k / 65536 % 256)
  let gone := fun (k : Nat) => inSnapshot (at_ k).1 (at_ k).2 &&
    !objs.any fun o => (o.idx, o.sub) == at_ k
  ((d.regs.map (·.1)).filter gone).map (fun k =>
    { idx := (at_ k).1, sub := (at_ k).2
      data := leBytes (((objRow (at_ k).1 (at_ k).2).map fun r => r.ty.size).getD 0) (regDefault k) }) ++
  ((d.doms.map (·.1)).filter gone).map fun k => { idx := (at_ k).1, sub := (at_ k).2, data := domDefault k }

/-- The content and state of a graphics slot, as the active has it. -/
def Dev.takeSlot (s : Dev × Mem) (c : SlotCopy) : Dev × Mem :=
  match (s.1.layer c.layer).slots.find? fun x => x.num == c.slot with
  | none => s
  | some x =>
    let mem := foldNat (fun (m : Mem) j => m.write (x.base + j) (c.data.getD j 0)) (min c.data.length x.size) s.2
    let d := s.1.setLayer c.layer ((s.1.layer c.layer).updSlot c.slot x.gen (·.enter c.state))
    (if c.state = 2 then d.makeCurrent c.layer c.slot else d, mem)

/-- Phase 1 ends: the standby admits the configuration, takes it, and is in step from the next W0 tick
(R365). -/
def Dev.takeConfiguration (d : Dev) (mem : Mem) (k : Nat) (objs : List Wr) (pending : List MirrorBatch)
    (slots : List SlotCopy) (applied : Nat) : Dev × Mem :=
  let recs := d.toDefaults objs ++ objs.map fun o => { idx := o.idx, sub := o.sub, data := o.data : Rec }
  let mine := pending.map ofMirror
  let queued := d.batches.filter fun b => !mine.any fun m => m.num == b.num
  let new := d.setRecs recs
  let v := Dev.judgeLater d new recs
  let v := if v.st ≠ stOk then v else judgeAll new (byTick (d.inOrder (mine ++ queued)))
  if v.st ≠ stOk then (d.resyncFail 5, mem)
  else
    let old := d
    let (d, mem) := Dev.applyEffects old [0, 1, 2, 3, 4] recs [] mem new
    let (d, mem) := slots.foldl Dev.takeSlot (d, mem)
    let last := (mine ++ queued).foldl (fun n b => max n b.num) (max d.batchNum applied)
    let d := { d with batches := mine ++ queued, batchNum := last }
    let on := (List.range 256).filter d.srcOn
    let d := d.setDup { d.dup with inStep := true, applied := applied, counted := on, filled := [] }
    (d.keepPeaks.nextPhase k 3 on.length, mem)

/-! ### Phases 2 to 4 -/

/-- Enabled encoder channels. -/
def Dev.channelsOn (d : Dev) : List Nat := (List.range 16).filter fun c => d.rdb (encIdx c) 1

/-- Phase 2 ends when every counted source is filled (R366): the channels follow from their next cycle
start. -/
def Dev.sourcesFilled (d : Dev) (k : Nat) (without : List Nat) : Dev :=
  if d.dup.counted.all fun n => d.dup.filled.contains n || without.contains n then
    let d := d.channelsOn.foldl (fun d c => d.setEnc c { d.enc c with followWanted := true }) d
    d.nextPhase k 4 ((List.range 16).foldl (fun a c => a + d.followLeft c) 0)
  else d

/-- Phase 3 ends when every channel has raised FOLLOW_COMPLETE. -/
def Dev.encodersFollowed (d : Dev) (k : Nat) : Dev :=
  if d.channelsOn.all fun c => !(d.enc c).followWanted && (d.enc c).followCycle.isNone then
    let outs := (List.range 128).filter d.outOn
    (d.setDup { d.dup with matched := [] }).nextPhase k 5 (outs.length + d.channelsOn.length)
  else d

/-- Phase 4 ends when each output and channel has a result 1: the standby is READY (R367). -/
def Dev.outputsCompared (d : Dev) (k : Nat) : Dev :=
  let all := ((List.range 128).filter d.outOn) ++ d.channelsOn.map (256 + ·)
  if all.all d.dup.matched.contains then (d.finishLong k 0).setPair 4 else d

/-- RESYNC_PHASE_DONE: what the phase has brought (Table 16.6); for another phase than the one that runs it has
no effect, nor once an abort is asked. -/
def Dev.phaseDone (d : Dev) (mem : Mem) (obs : ResyncObs) : Dev × Mem :=
  match d.resyncSlot with
  | none => (d, mem)
  | some k =>
    if (d.longOp k).abortAsked then (d, mem)
    else match obs, d.resyncPhase with
      | .configuration objs pending slots applied, 1 => d.takeConfiguration mem k objs pending slots applied
      | .sources without, 2 => (d.sourcesFilled k without, mem)
      | .encoders, 3 => (d.encodersFollowed k, mem)
      | .outputs, 4 => (d.outputsCompared k, mem)
      | _, _ => (d, mem)

def execResyncPhaseDone (t : Nat) (obs : ResyncObs) (s : State) : Host.Outcome State Fault Refusal :=
  onDevMem t (fun mem d => d.phaseDone mem obs) s

/-! ### Aborted operations (R58) -/

/-- An operation for which an abort is asked reaches its next abort point. -/
def Dev.aborted (d : Dev) (k : Nat) : Dev :=
  if d.slotState k ≠ 1 ∨ !(d.longOp k).abortAsked then d
  else match d.rd (0x2080 + k) 1 with
    | 1 => (d.abortLong k).setPair 2
    | 2 => d.calAbort k
    | 5 => (d.setPwr { d.pwr with stage := none }).abortLong k
    | 6 => { d.abortLong k with ring := { d.ring with snapAt := none, snapParts := [] } }
    | 9 => { d.abortLong k with saving := none }
    | _ => d.abortLong k

/-- LONG_OP_ABORTED. -/
def execLongOpAborted (t slot : Nat) (s : State) : Host.Outcome State Fault Refusal :=
  onAon t (fun d => if d.alive || d.recovery then d.aborted slot else d) s

end Sys2Proof.Machine
end

