-- ==== Sys2Proof/Machine/Can.lean ====
section
/-! DEFINITION. The CANopen FD interface (R83 to R87): USDO accesses, its stage and commit, PDOs, NMT and the
heartbeat. -/
namespace Sys2Proof.Machine

/-- The interface serves what arrives: enabled at the last reset and not stopped (R87). -/
def Dev.canServes (d : Dev) : Bool := d.alive && d.canSends

/-- The node on the bus: its session number and the one level of 0x2043:05 (R83). -/
def Dev.canBy (d : Dev) : Requester := ⟨d.canSess, d.rd 0x2043 5⟩

/-! ### Abort codes (Table 3.10) -/

/-- The index has at least one subindex here. -/
def Dev.hasIndex (d : Dev) (i : Nat) : Bool := (List.range 256).any fun s => (d.objAt i s).isSome

/-- The abort code of a status, for an access to an object; 0 for none. -/
def Dev.abortCode (d : Dev) (write : Bool) (i st : Nat) : Nat :=
  if st = stOk then 0
  else if st = stNoObject then (if d.hasIndex i then 0x06090011 else 0x06020000)
  else if st = stAccess ∨ st = stWrongClass then 0x08000021
  else if st = stNotWritable then (if write then 0x06010002 else 0x06010001)
  else if st = stType then 0x06070010
  else if st = stRange then 0x06090030
  else if [stStandby, stBusy, stWrongState, stOnLoan].contains st then 0x08000022
  else if [stCapacity, stTooLate, stTooFar, stConflict, stUncoupled, stModeRate, stStageFull, stSegment].contains st
    then 0x08000020
  else 0x08000000

/-! ### USDO (R83, R84) -/

/-- A USDO read is answered with the object's bytes, or aborted. -/
def Dev.usdoRead (d : Dev) (i s : Nat) : Dev :=
  if !d.canServes then d
  else
    let st := d.readStatus i s
    if st ≠ stOk then d.send (.usdo (d.abortCode false i st) [])
    else (d.send (.usdo 0 (d.readObj i s))).readEffect i s

/-- USDO_READ. -/
def execUsdoRead (t index sub : Nat) (s : State) : Host.Outcome State Fault Refusal :=
  onAon t (fun d => d.usdoRead index sub) s

/-- Where a segment of a T-class value belongs: behind what the stage holds of it. -/
def segmentOffset (stage : List Rec) (i s : Nat) : Nat :=
  match stage.find? fun r => r.idx == i && r.sub == s with
  | some r => if r.complete then 0 else r.data.length
  | none => 0

/-- A write of a T-class object goes into the CANopen stage: 256 records and 64 KiB of DOMAIN data (R84). -/
def Dev.canStageWrite (d : Dev) (i s : Nat) (data : List Byte) (last : Bool) : Nat × Dev :=
  let (st, stage) := d.stageRec d.canBy.level d.canStage i s (segmentOffset d.canStage i s) last data
  if st ≠ stOk then (st, d)
  else if 256 < stage.length ∨ 65536 < stageBytes stage then (stStageFull, d)
  else (stOk, { d with canStage := stage })

/-- A USDO write: a T-class object is staged, another one written. -/
def Dev.usdoWritten (mem : Mem) (i s : Nat) (data : List Byte) (last : Bool) (d : Dev) : Nat × Dev :=
  match d.objAt i s with
  | some r =>
    if r.com = .t then d.canStageWrite i s data last
    else
      let have_ := (Tab.getD d.segs (segKey d.canSess i s) []).length
      let x := Dev.writeSeg mem d.canBy i s (if r.ty = .dom then have_ else 0) last data d
      (x.st, x.dev)
  | none => (stNoObject, d)

/-- A USDO write is confirmed or aborted; a PDO mapping of an object that cannot be mapped has an abort code of
its own (R85). -/
def Dev.usdoWrite (mem : Mem) (i s : Nat) (data : List Byte) (last : Bool) (d : Dev) : Dev :=
  if !d.canServes then d
  else
    let (st, d') := Dev.usdoWritten mem i s data last d
    let code := if st = stRange ∧ !d.mappable i s (leNat data) then 0x06040041 else d.abortCode true i st
    -- a commit has written its own admission result
    let d' := if code = 0x08000020 ∧ !(i == 0x2043 && s == 6) then d'.admissionShows { st := st } d.canSess 0 0 else d'
    d'.send (.usdo code [])

/-- USDO_WRITE. -/
def execUsdoWrite (t index sub : Nat) (data : List Byte) (last : Bool) (s : State) :
    Host.Outcome State Fault Refusal :=
  onAonMem t (fun mem d => (Dev.usdoWrite mem index sub data last d, mem)) s

/-- CANOPEN_COMMIT_TICK: a USDO write of a tick number to 0x2043:06 (R84). -/
def execCanopenCommitTick (t tick : Nat) (s : State) : Host.Outcome State Fault Refusal :=
  onAonMem t (fun mem d => (Dev.usdoWrite mem 0x2043 6 (leBytes 8 tick) true d, mem)) s

/-! ### PDOs (R85) -/

/-- The mapped objects of a PDO: index, subindex and bytes of each (layout of CiA 301). An entry of 0 maps nothing, as
subindex 00 cannot count them (R13, log entry 14). -/
def Dev.mapping (d : Dev) (i : Nat) : List (Nat × Nat × Nat) :=
  (((List.range 64).map fun k => d.rd i (k + 1)).filter (· != 0)).map fun v => (v / 65536, v / 256 % 256, v % 256 / 8)

/-- A PDO exists: its COB-ID's bit 31 is 0; and it moves in the NMT state operational. -/
def Dev.pdoOn (d : Dev) (comm : Nat) : Bool := d.nmt == .operational && !(d.rd comm 1).testBit 31

/-- The mapped values of an RPDO are written in order. -/
def Dev.rpdoWrite (mem : Mem) : List (Nat × Nat × Nat) → List Byte → Dev → Dev
  | [], _, d => d
  | (i, s, n) :: r, data, d =>
    Dev.rpdoWrite mem r (data.drop n) (Dev.writeValue mem d.canBy i s (data.take n) d).dev

/-- An RPDO that carries all its mapped bytes writes its mapped I-class objects. -/
def Dev.rpdo (mem : Mem) (n : Nat) (data : List Byte) (d : Dev) : Dev :=
  if !(d.canServes && decide (n < 8) && d.pdoOn (0x1400 + n)) then d
  else
    let m := d.mapping (0x1600 + n)
    if data.length < m.foldl (fun a e => a + e.2.2) 0 then d else Dev.rpdoWrite mem m data d

/-- RPDO_RECEIVED. -/
def execRpdoReceived (t n : Nat) (data : List Byte) (s : State) : Host.Outcome State Fault Refusal :=
  onAonMem t (fun mem d => (Dev.rpdo mem n data d, mem)) s

/-- The bytes of a TPDO now. -/
def Dev.tpdoBytes (d : Dev) (n : Nat) : List Byte :=
  ((d.mapping (0x1A00 + n)).flatMap fun e => padTo e.2.2 (d.readObj e.1 e.2.1)).take 64

/-- Sends a TPDO. -/
def Dev.sendTpdo (d : Dev) (n : Nat) (data : List Byte) : Dev :=
  { d with tpdos := Tab.setD d.tpdos n (data, d.now) ([], 0) }.send (.can (d.rd (0x1800 + n) 1 % 2 ^ 30) data)

/-- A TPDO after the tick's batches: with every `n`-th SYNC, or on a change of a mapped value outside its inhibit
time. -/
def Dev.tpdoTick (synced : Bool) (d : Dev) (n : Nat) : Dev :=
  if !d.pdoOn (0x1800 + n) then d
  else
    let ty := d.rd (0x1800 + n) 2
    let data := d.tpdoBytes n
    let (old, at_) := Tab.getD d.tpdos n ([], 0)
    if 1 ≤ ty ∧ ty ≤ 240 then (if synced && d.syncs % ty == 0 then d.sendTpdo n data else d)
    else if ty = 254 ∧ data ≠ old ∧ (at_ = 0 ∨ at_ + d.rd (0x1800 + n) 3 * 100000 ≤ d.now) then d.sendTpdo n data
    else d

/-- SYNC at T+0 of a W0 tick, which is produced in every NMT state, and the TPDOs of that tick (R85, R87). -/
def Dev.canTick (d : Dev) : Dev :=
  if d.bootRd 0x2043 1 = 0 then d
  else
    let synced := (d.rd 0x1005 0).testBit 30
    let d := if synced then { d with syncs := d.syncs + 1 }.send (.can (d.rd 0x1005 0 % 0x800) []) else d
    foldNat (Dev.tpdoTick synced) 8 d

/-! ### NMT and heartbeat (R87) -/

/-- CANopen communication objects, which an NMT reset restores. -/
def isComm (i : Nat) : Bool :=
  i == 0x1005 || i == 0x1014 || i == 0x1015 || i == 0x1017 || (decide (0x1400 ≤ i) && decide (i < 0x1C00))

/-- An NMT reset of the CANopen interface: its communication objects take the values of the last reset, and it
boots up into pre-operational. -/
def Dev.nmtReset (d : Dev) : Dev :=
  let d := { d.dropObjs isComm (fun _ => false) with nmt := .preOperational, tpdos := [] }
  d.send (.can (0x700 + d.bootRd 0x2043 2) [0])

/-- An NMT command acts on the CANopen interface only (R87). -/
def Dev.nmtCommand (d : Dev) (cmd : NmtCmd) : Dev :=
  if d.bootRd 0x2043 1 = 0 then d
  else match cmd with
    | .start => { d with nmt := .operational }
    | .stop => { d with nmt := .stopped }
    | .preOperational => { d with nmt := .preOperational }
    | .resetNode => d.nmtReset
    | .resetCommunication => d.nmtReset

/-- NMT_COMMAND. -/
def execNmtCommand (t : Nat) (cmd : NmtCmd) (s : State) : Host.Outcome State Fault Refusal :=
  onDev t (·.nmtCommand cmd) s

/-- The heartbeat's state byte (CiA 301). -/
def nmtByte : NmtState → Byte
  | .operational => 5
  | .stopped => 4
  | .preOperational => 0x7F

/-- PRODUCER_HEARTBEAT: the time of 0x1017 has passed; 0 switches the heartbeat off. -/
def execProducerHeartbeat (t : Nat) (s : State) : Host.Outcome State Fault Refusal :=
  onDev t (fun d =>
    if d.bootRd 0x2043 1 = 0 ∨ d.rd 0x1017 0 = 0 then d
    else d.send (.can (0x700 + d.bootRd 0x2043 2) [nmtByte d.nmt])) s

end Sys2Proof.Machine
end

