-- ==== Sys2Proof/Machine/Tick.lean ====
section
/-! DEFINITION. T+0 of a wing tick (R31 to R37): what happens before the batches, the batches, the selections and
the messages of the tick; and the activations that the NMOS node commits (R104). -/
namespace Sys2Proof.Machine

/-! ### Before the batches -/

/-- POOL_EXHAUSTED at the T+0 that ends a tick with discarded frames, at the time of the first (R110). -/
def Dev.poolReports (d : Dev) (w : Nat) : Dev :=
  foldNat (fun d n =>
    let x := d.src n
    if x.dropped = 0 ∨ d.srcWing n ≠ w then d
    else
      let u := uIntake w
      let d := d.setSrc n { x with dropped := 0, droppedAt := 0 }
      (d.notify 3 x.droppedAt (unitEventBody u 0x0403 n x.dropped)).report
        { unit := u, code := 0x0403, p1 := n, p2 := x.dropped % 2 ^ 32, sev := sevDegraded, time := x.droppedAt }) 256 d

/-- Bays of a composition that have a band still to write. -/
def Comp.lateBays (c : Comp) : List Nat :=
  let n := bandCount c.height
  (((List.range n).filter fun b => !c.written.contains b).map fun b => (bandPlace c.mask n b).1).eraseDups

/-- TICK_OVERRUN for work of an earlier tick that is not complete, once per unit, target and tick (R37). -/
def Dev.overruns (d : Dev) (w k : Nat) : Dev :=
  let outs := (List.range 128).filter fun o => outWing o == w
  let late := (outs.flatMap fun o => (d.out o).comps) ++ d.layerComps.filter fun c => c.wing == w
  let beyond := (late.filter fun c => decide (c.work < k) && !c.complete).flatMap fun c =>
    c.lateBays.map fun b => (b, c.target)
  beyond.eraseDups.foldl (fun d e => d.raise (uBay (8 * w + e.1)) 0x0201 e.2 k sevDegraded) d

/-- A slot that a writer job list has finished becomes CURRENT at the next T+0 of its home wing (R151). -/
def Dev.jobSlots (d : Dev) (w : Nat) : Dev :=
  foldNat (fun d l =>
    match (d.layer l).next with
    | some k => if d.layWing l = w then
        (d.setLayer l { d.layer l with next := none }).makeCurrent l k else d
    | none => d) 512 d

/-- Sources of a wing change to or from the ring (R384). -/
def Dev.ringSources (d : Dev) (w : Nat) : Dev :=
  foldNat (fun d n => if d.srcWing n = w then d.refreshTaking n else d) 256 d

/-- The standby applies nothing of the active in phase 1 of a resynchronisation (R365). -/
def Dev.waitsForCopy (d : Dev) : Bool := d.standby && d.resyncPhase == 1

/-- Mirrored writes that have come to their tick act in the order of their arrival (R90). -/
def Dev.mirrorDue (mem : Mem) (w k : Nat) (d : Dev) : Dev :=
  if d.waitsForCopy then d
  else
    let due := fun (m : MirWrite) => m.wing == w && decide (m.tick ≤ k)
    let ms := d.mirror.filter due
    ms.foldl (fun d m => (Dev.effectOf mem m.by_ m.rec_.idx m.rec_.sub m.rec_.data d).dev)
      { d with mirror := d.mirror.filter fun m => !due m }

/-! ### Batches -/

/-- A batch that the partner committed. -/
def Batch.ofPartner (b : Batch) : Bool := decide (0x8000 ≤ b.sess)

/-- NOTIFY BATCH_APPLIED to the sessions that committed what applies at this tick (R36, R82). -/
def Dev.tellApplied (d : Dev) (w k : Nat) (bs : List Batch) : Dev :=
  bs.foldl (fun d b =>
    if b.ofPartner then d
    else d.notifyTo b.sess 2 d.now (leBytes 4 b.num ++ leBytes 1 w ++ leBytes 3 0 ++ leBytes 8 k)) d

/-- The batches of tick `k` of wing `w` apply (R36); those of the active wait during phase 1. -/
def Dev.batchTick (d : Dev) (w k : Nat) (lost : List Nat) (mem : Mem) : Dev × Mem :=
  let wait := if d.waitsForCopy then d.batches.filter Batch.ofPartner else []
  let d : Dev := if d.waitsForCopy then { d with batches := d.batches.filter fun b => !b.ofPartner } else d
  let told := (d.batches.filter fun b => d.batchDue b w k).filter fun b => !(d.batchHere (appliesAt w) b).isEmpty
  let (d, mem) := d.applyBatches w k lost mem
  (({ d with batches := d.batches ++ wait } : Dev).tellApplied w k told, mem)

/-! ### Selections and messages -/

/-- Framed outputs select, and job lists of graphics layers (R30, R151). An output whose composition has overrun
omits the one of this tick (R37, R201). -/
def Dev.selections (d : Dev) (w k : Nat) : Dev :=
  let d := ((List.range 128).filter fun o => outWing o == w && d.outOn o && !d.racing o &&
      (d.out o).comps.all Comp.complete).foldl
    (fun d o => d.selectOutput o k) d
  foldNat (fun d j =>
    let t := d.jobTarget j
    let l := t.2 % 512
    if d.rdb (0x4000 + j) 2 && t.1 == 1 && d.rdb (layIdx l) 1 && d.rd (layIdx l) 0x1B == 1 && d.layWing l == w then
      d.selectLayer l j k
    else d) 256 d

/-- A record of a data message, in the layout of a READ response. -/
def Dev.sampled (d : Dev) (o : ObjKey) : List Byte :=
  let st := d.readStatus o.idx o.sub
  let v := if st = stOk then d.readObj o.idx o.sub else []
  leBytes 2 o.idx ++ leBytes 1 o.sub ++ leBytes 1 st ++ leBytes 2 v.length ++ leBytes 2 0 ++ pad4 v

/-- Data messages of kind 0 for the ticks of wing `w` (R81). -/
def Dev.dataMessages (d : Dev) (w k : Nat) : Dev :=
  sessionNumbers.foldl (fun d n =>
    match d.session n with
    | none => d
    | some x => x.subs.foldl (fun d b =>
        if b.kind = 0 ∧ b.wing = w ∧ k % max b.period 1 = 0 then
          d.sendDev n 0x18 0 (leBytes 1 b.num ++ leBytes 1 0 ++ leBytes 1 w ++ [0] ++ leBytes 8 k ++
            b.objs.flatMap d.sampled)
        else d) d) d

/-! ### T+0 -/

/-- Tick `k` of wing `w` is raised now: its instant has come, it has not been raised, and no pause lies over it
(R33, R35, R264, R427). -/
def Dev.raises (d : Dev) (w k : Nat) : Bool :=
  let x := d.wing w
  decide (w < 4) && !x.stopped && decide (byteAt (d.rdd 0x2300 8) w < 2) && decide (x.quietUntil ≤ d.tickTime w k) &&
    (!x.raised || decide (x.tick < k))

/-- The steps of R31 at T+0 of tick `k` of wing `w`. A tick that gives the wing a new timing releases no work
(R35). -/
def Dev.tick (w k : Nat) (lost : List Nat) (d : Dev) (mem : Mem) : Dev × Mem :=
  let d := d.setWing w { d.wing w with tick := k, at_ := d.tickTime w k, raised := true, late := [] }
  let d := (d.poolReports w).overruns w k
  let d := if w = 0 then (d.swapTick k).evtTick else d
  let d := (Dev.mirrorDue mem w k ((d.jobSlots w).ringSources w)).launchSlots w k (d.tickTime w k)
  let (d, mem) := d.releaseDue w k mem
  let old := d
  let (d, mem) := d.batchTick w k lost mem
  let d := if rateChanged old d w || d.wingDown w then d else d.selections w k
  let d := (d.dataMessages w k).snapTick w k
  (if w = 0 then d.canTick else d, mem)

/-- WING_TICK (R31): the latest tick of the wing at this instant, once it has come and unless it is past. -/
def execWingTick (t w : Nat) (lost : List Nat) (s : State) : Host.Outcome State Fault Refusal :=
  onDevMem t (fun mem d =>
    let k := d.tickOf w d.now
    if d.alive && d.raises w k then Dev.tick w k lost d mem else (d, mem)) s

/-! ### IS-05 activations (R104) -/

/-- Name of a status (Table 3.6). -/
def statusName (st : Nat) : String :=
  ["OK", "CAPACITY", "TOO_LATE", "TOO_FAR", "CONFLICT", "UNCOUPLED", "MODE_RATE", "RANGE", "NO_OBJECT", "ACCESS",
   "NOT_WRITABLE", "TYPE", "WRONG_CLASS", "STAGE_FULL", "AUTH", "SEQUENCE", "NO_SESSION", "BUSY", "STANDBY",
   "NO_SLOT", "WRONG_STATE", "ON_LOAN", "TOO_LARGE", "SEGMENT", "NO_BATCH"].getD st ""

/-- Subs of a source object that a transport file is mapped to (R104). -/
def sdpSub (s : Nat) : Bool := s == 3 || (decide (5 ≤ s) && decide (s ≤ 0x19)) || s == 0x25

/-- The records of a transport file, with the first refusal of one of its values. -/
def Dev.sdpRecs (d : Dev) (n : Nat) (f : Sdp) : Nat × List Rec :=
  let vals := f.vals.filter fun v => sdpSub v.1
  let i := srcIdx n
  let st := (vals.map fun v => d.valueStatus (d.rd 0x2036 5) i v.1 v.2).find? fun st => st != stOk
  (st.getD stOk, vals.map fun v => { idx := i, sub := v.1, data := v.2 })

/-- An activation: one batch at the first tick of the source's owning wing from the requested time on. -/
def Dev.activateReceiver (d : Dev) (n : Nat) (f : Sdp) (at_ : Option Nat) : Dev :=
  let answer := fun (d : Dev) code body => d.send (.http d.nmosIface code body)
  if !d.nmos.node || !d.nmosUp || !decide (n < 256) then d
  else if d.standby then answer d 500 "STANDBY"
  else if f.unsupported then answer d 400 ""
  else
    let d : Dev := { d with nmos := { d.nmos with staged := Tab.setD d.nmos.staged n f.vals [] } }
    let (st, recs) := d.sdpRecs n f
    let w := d.srcWing n
    let k := d.tickFrom w (at_.getD (d.now + d.rd 0x2036 7 * 1000000))
    if d.pwr.state = 4 then answer d 400 (statusName stWrongState)
    else if st ≠ stOk then answer d 400 (statusName st)
    else
      let (c, d) := d.commit 0x0200 w k recs
      if c.st = stOk then answer d 200 "" else answer d 400 (statusName c.st)

/-- IS05_ACTIVATION. -/
def execIs05Activation (t n : Nat) (f : Sdp) (at_ : Option Nat) (s : State) : Host.Outcome State Fault Refusal :=
  onCurator t (·.activateReceiver n f at_) s

end Sys2Proof.Machine
end

