-- ==== Sys2Proof/Machine/Wdp.lean ====
section
/-! DEFINITION. The Worlia Dictionary Protocol: datagrams, opening and closing of sessions (R73 to R76, R92), the
order of requests (R77), and every request (Tables 3.5, 3.7). -/
namespace Sys2Proof.Machine

/-! ### Datagrams (R73, Table 3.4) -/

/-- The header of a message that arrives. -/
structure WdpHead where
  ty : Nat
  sess : Nat
  flags : Nat
  seq : Nat
  len : Nat

/-- The header of a datagram; none where its mark, version or length is wrong. -/
def wdpHead (b : List Byte) : Option WdpHead :=
  let len := fieldAt b 12 2
  if byteAt b 0 = 0x57 ∧ byteAt b 1 = 0x44 ∧ byteAt b 2 = 1 ∧ len ≤ 1424 ∧ b.length = 48 + len then
    some { ty := byteAt b 3, sess := fieldAt b 4 2, flags := byteAt b 6, seq := fieldAt b 8 4, len := len }
  else none

/-- Header and payload of a datagram: what its tag covers (R76). -/
def wdpSigned (b : List Byte) : List Byte := b.take (b.length - 32)

/-- The tag of a datagram. -/
def wdpTagOf (b : List Byte) : List Byte := b.drop (b.length - 32)

/-- The payload of a datagram. -/
def wdpPayload (b : List Byte) : List Byte := (wdpSigned b).drop 16

/-- The UDP port of WDP: 0x2042:01 as the last reset loaded it; in recovery its default (R73, R453). -/
def Dev.wdpPort (d : Dev) : Nat := if d.recovery then 4870 else d.bootRd 0x2042 1

/-- A datagram is sent to the UDP port of WDP; a mailbox channel has no ports (R73, R88). -/
def Dev.wdpAddressed (d : Dev) (via : Transport) (g : Datagram) : Bool :=
  match via with
  | .pcie _ => true
  | _ => g.port == d.wdpPort

/-- Whether WDP is served where a datagram arrives: on both management ports and on the in-band port, in a mailbox
channel of an enabled endpoint (R73, R88, R451); in recovery on MGT0 only (R453). -/
def Dev.wdpServed (d : Dev) (via : Transport) : Bool :=
  if d.recovery then (match via with | .mgt 0 _ => true | _ => false)
  else d.alive && match via with
    | .mgt g _ => decide (g < 2)
    | .inband p _ => decide (p < 8) && d.bootRd 0x2042 7 == p && d.linkUp p
    | .pcie ch => decide (ch < 8) && d.bootRd 0x2044 1 == 1 && d.pwr.perst

/-- The sender's IPv4 address; a mailbox channel has none. -/
def viaIp : Transport → Option Nat
  | .mgt _ ip => some ip
  | .inband _ ip => some ip
  | .pcie _ => none

/-- Sends a response where its request came from; in a mailbox channel it fills the response buffer, with the
channel's first vector (R88). -/
def Dev.respond (d : Dev) (via : Transport) (msg : List Byte) : Dev :=
  match via with
  | .pcie ch => ((d.setMbx ch { d.mbx ch with rsp := msg, valid := true }).send (.wdp via msg)).send (.msix (2 * ch))
  | via => d.sendVia via msg

/-- A response outside a session: nothing keys its tag. -/
def Dev.respondPlain (d : Dev) (via : Transport) (h : WdpHead) (status : Nat) : Dev :=
  d.respond via (wdpHeader h.ty h.sess 1 status h.seq 0 ++ List.replicate 32 0)

/-! ### Opening (R75, R92) -/

/-- A persistent record in flash holds a Supervisor key. -/
def Dev.savedKey (d : Dev) : Option (List Byte) :=
  match d.newestSave [] with
  | some (_, x) =>
    match Tab.getD x.doms (domKey 0x2041 4 0) [] with
    | [] => none
    | k => some k
  | none => none

/-- The key a session at a level proves (R75, R92, R453): the factory key, through MGT0 at Supervisor level,
until a Supervisor key has been saved. -/
def Dev.levelKeyFor (d : Dev) (via : Transport) (level : Nat) : Option (List Byte) :=
  match d.savedKey with
  | none => if level = 3 then (match via with | .mgt 0 _ => some (Config.factoryKey 0) | _ => none) else none
  | some k3 =>
    if d.recovery then (if level = 3 then some k3 else none)
    else if 3 < level then none
    else match d.rdd 0x2041 (level + 1) with
      | [] => none
      | k => some k

/-- The free session number for a transport. -/
def Dev.freeSession (d : Dev) (via : Transport) : Option Nat :=
  match via with
  | .pcie ch => if (d.session (64 + ch)).isNone then some (64 + ch) else none
  | _ => ((List.range 32).map (· + 1)).find? fun n => (d.session n).isNone

/-- The requesting address is blocked. -/
def Dev.isBlocked (d : Dev) (via : Transport) : Bool :=
  match viaIp via with
  | some ip => decide (d.now < Tab.getD d.blocked ip 0)
  | none => false

/-- HELLO (R75). -/
def Dev.hello (d : Dev) (via : Transport) (h : WdpHead) (b : List Byte) : Dev :=
  let p := wdpPayload b
  let level := byteAt p 0
  if h.sess ≠ 0 ∨ p.length ≠ 20 ∨ !allZero (wdpTagOf b) then { d with wdpDropped := d.wdpDropped + 1 }
  else match d.levelKeyFor via level with
    | none => d.respondPlain via h stAuth
    | some kv =>
      if d.isBlocked via then d.respondPlain via h stAuth
      else match d.freeSession via with
        | none => d.respondPlain via h stBusy
        | some n =>
          let (nd, d) := d.freeBytes 16
          let ks := wdpTag kv ([0x57, 0x44, 0x50, 0x31] ++ slice p 4 16 ++ nd ++ leBytes 2 n ++ leBytes 1 level)
          let d := d.setSession n (some { num := n, level := level, via := via, key := ks, openedAt := d.now
                                          lastValid := d.now })
          d.respond via (wdpMessage ks 2 n 1 stOk h.seq
            (leBytes 1 level ++ leBytes 3 0 ++ nd ++ leBytes 4 (d.rd 0x1018 4)))

/-- An AUTH with a wrong tag (R75): five within 60 s from one address block it for 60 s. -/
def Dev.authFailed (d : Dev) (via : Transport) : Dev :=
  let d := d.wr 0x2040 4 ((d.rd 0x2040 4 + 1) % 2 ^ 32)
  match viaIp via with
  | none => d
  | some ip =>
    let times := ((Tab.getD d.authFails ip []).filter fun t => decide (d.now < t + 60000000000)) ++ [d.now]
    if times.length < 5 then { d with authFails := Tab.setD d.authFails ip times [] }
    else
      let unit := match via with
        | .mgt g _ => uMgt g
        | .inband p _ => uNet p
        | .pcie _ => uPcie
      { d with authFails := Tab.setD d.authFails ip [] []
               blocked := Tab.setD d.blocked ip (d.now + 60000000000) 0 }.raise unit 0x0302 ip 0 sevInfo

/-- AUTH (R75). In an open session it is a request like any other, already processed as sequence 1. -/
def Dev.auth (d : Dev) (via : Transport) (h : WdpHead) (b : List Byte) (x : Session) : Dev :=
  if wdpTagOf b ≠ wdpTag x.key (wdpSigned b) then d.authFailed via
  else if x.openedAt + 2000000000 < d.now then (d.setSession h.sess none).respondPlain via h stNoSession
  else if h.seq ≠ 1 then d.respond via (wdpMessage x.key 3 h.sess 1 stSequence h.seq [])
  else
    let msg := wdpMessage x.key 3 h.sess 1 stOk 1 []
    let x := { x with isOpen := true, openedAt := d.now, lastValid := d.now, lastSeq := 1, cached := msg
                      requests := 1 }
    (d.setSession h.sess (some x)).respond via msg

/-- CHALLENGE_TIMEOUT: 2 s have passed without AUTH (R75). -/
def execChallengeTimeout (t sess : Nat) (s : State) : Host.Outcome State Fault Refusal :=
  onAon t (fun d =>
    match d.session sess with
    | some x => if !x.isOpen && decide (x.openedAt + 2000000000 ≤ d.now) then d.setSession sess none else d
    | none => d) s

/-- WDP_BLOCK_EXPIRY: the block of an address ends after 60 s (R75). -/
def execWdpBlockExpiry (t addr : Nat) (s : State) : Host.Outcome State Fault Refusal :=
  onAon t (fun d =>
    if Tab.getD d.blocked addr 0 ≤ d.now then { d with blocked := Tab.setD d.blocked addr 0 0 } else d) s

/-- SESSION_TIMEOUT: no valid message for the time of 0x2040:03 (R76). -/
def execSessionTimeout (t sess : Nat) (s : State) : Host.Outcome State Fault Refusal :=
  onAon t (fun d =>
    match d.session sess with
    | some x =>
      if (d.alive || d.recovery) && x.isOpen && decide (x.lastValid + d.rd 0x2040 3 * 1000000000 ≤ d.now) then
        d.closeSession sess 1
      else d
    | none => d) s

/-! ### Requests -/

/-- What a request answers. -/
structure Reply where
  st : Nat
  body : List Byte := []

/-- Whose level and number a session's writes carry. -/
def Session.by (x : Session) : Requester := ⟨x.num, x.level⟩

/-- One record of a READ (Table 3.7): head and data. A DOMAIN gives what fits into `room`. -/
def Dev.readRec (d : Dev) (x : Session) (b : List Byte) (room : Nat) : List Byte × Dev :=
  let i := fieldAt b 0 2
  let s := byteAt b 2
  let answer := fun (st : Nat) (data : List Byte) =>
    leBytes 2 i ++ leBytes 1 s ++ leBytes 1 st ++ leBytes 2 data.length ++ leBytes 2 0 ++ pad4 data
  let cut := fun (v : List Byte) =>
    if ((objRow i s).map (·.ty)).getD .u8 = .dom then (v.drop (fieldAt b 4 4)).take (room / 4 * 4) else v
  if (byteAt b 3).testBit 0 then
    match x.stage.find? fun r => r.idx == i && r.sub == s with
    | some r => (answer stOk (cut r.data), d)
    | none => (answer stNoObject [], d)
  else
    let st := d.readStatus i s
    if st ≠ stOk then (answer st [], d) else (answer stOk (cut (d.readObj i s)), d.readEffect i s)

/-- The records of a READ in order; each DOMAIN leaves room for the heads that follow. -/
def Dev.readRecs (x : Session) : List (List Byte) → List Byte → Dev → List Byte × Dev
  | [], out, d => (out, d)
  | b :: r, out, d =>
    let (a, d) := d.readRec x b (1424 - out.length - 8 * (r.length + 1))
    Dev.readRecs x r (out ++ a) d

/-- READ (R68). -/
def Dev.wdpRead (d : Dev) (x : Session) (p : List Byte) : Reply × Dev :=
  if p.length % 8 ≠ 0 ∨ p.length = 0 ∨ 64 * 8 < p.length then ({ st := stRange }, d)
  else
    let (out, d') := Dev.readRecs x (chunks 8 p) [] d
    if 1424 < out.length then ({ st := stTooLarge }, d) else ({ st := stOk, body := out }, d')

/-- A record of a WRITE or a STAGE (Table 3.7). -/
structure WRec where
  idx : Nat
  sub : Nat
  last : Bool
  off : Nat
  data : List Byte

/-- The records of a payload; none where they do not fill it. -/
def parseWrites : Nat → List Byte → Option (List WRec)
  | 0, b => if b = [] then some [] else none
  | f + 1, b =>
    if b = [] then some []
    else
      let len := fieldAt b 8 2
      let n := 12 + (len + 3) / 4 * 4
      if b.length < n then none
      else (parseWrites f (b.drop n)).map fun r =>
        { idx := fieldAt b 0 2, sub := byteAt b 2, last := (byteAt b 3).testBit 0, off := fieldAt b 4 4
          data := slice b 12 len } :: r

/-- The later of two ticks, or of equal instants the one of the lower wing (R90). -/
def Dev.laterTick (d : Dev) (a b : Option (Nat × Nat)) : Option (Nat × Nat) :=
  match a, b with
  | none, b => b
  | a, none => a
  | some (v, j), some (w, k) =>
    let x := d.tickTime v j
    let y := d.tickTime w k
    if x < y ∨ (x = y ∧ w < v) then some (w, k) else some (v, j)

/-- What a WRITE has done. -/
structure Written where
  st : Nat := 0
  applied : Nat := 0
  failing : Nat := 0xFFFF
  tick : Option (Nat × Nat) := none

/-- The records of a WRITE in order, up to the first that fails (R79). -/
def Dev.writeRecs (mem : Mem) (by_ : Requester) : List WRec → Written → Dev → Written × Dev
  | [], a, d => (a, d)
  | r :: rs, a, d =>
    let x := Dev.writeSeg mem by_ r.idx r.sub r.off r.last r.data d
    if x.st ≠ stOk then ({ a with st := x.st, failing := a.applied }, x.dev)
    else
      Dev.writeRecs mem by_ rs
        { a with applied := a.applied + 1, tick := d.laterTick a.tick (d.waitsFor r.idx) } x.dev

/-- WRITE (R79, R90). -/
def Dev.wdpWrite (mem : Mem) (d : Dev) (x : Session) (p : List Byte) : Reply × Dev :=
  match parseWrites 119 p with
  | none => ({ st := stRange, body := leBytes 2 0 ++ leBytes 2 0xFFFF ++ leBytes 4 0 ++ [0xFF, 0, 0, 0] }, d)
  | some rs =>
    let (a, d) := Dev.writeRecs mem x.by rs {} d
    let (w, k) := a.tick.getD (0xFF, 0)
    ({ st := a.st
       body := leBytes 2 a.applied ++ leBytes 2 a.failing ++ leBytes 4 k ++ leBytes 1 w ++ leBytes 3 0 }, d)

/-- The records of a STAGE in order: the stage with them, or the status and the place of the first that
fails (R64). -/
def Dev.stageRecs (d : Dev) (level : Nat) : List WRec → Nat → List Rec → Nat × Nat × List Rec
  | [], _, stage => (stOk, 0xFFFF, stage)
  | r :: rs, k, stage =>
    let (st, stage) := d.stageRec level stage r.idx r.sub r.off r.last r.data
    if st ≠ stOk then (st, k, stage) else Dev.stageRecs d level rs (k + 1) stage

/-- Stores a session's stage. -/
def Dev.setStage (d : Dev) (n : Nat) (stage : List Rec) : Dev :=
  match d.session n with
  | some x => d.setSession n (some { x with stage := stage })
  | none => d

/-- STAGE (R63, R64). -/
def Dev.wdpStage (d : Dev) (x : Session) (p : List Byte) : Reply × Dev :=
  let no := fun st k => (({ st := st, body := leBytes 2 x.stage.length ++ leBytes 2 k } : Reply), d)
  match parseWrites 119 p with
  | none => no stRange 0xFFFF
  | some rs =>
    let (st, k, stage) := d.stageRecs x.level rs 0 x.stage
    if st ≠ stOk then no st k
    else if 4096 < stage.length ∨ 64 * 2 ^ 20 < stageBytes stage then no stStageFull 0xFFFF
    else ({ st := stOk, body := leBytes 2 stage.length ++ leBytes 2 0xFFFF }, d.setStage x.num stage)

/-- COMMIT-AT-TICK (R65); in boot phase 5 it is refused before admission (R449). A payload of a wrong layout leaves the
stage as it was (DESIGN CHOICE: R65 empties it on a refusal by admission, and this message does not reach admission; log
entry 160). -/
def Dev.wdpCommit (d : Dev) (x : Session) (p : List Byte) : Reply × Dev :=
  if d.pwr.state = 4 then ({ st := stWrongState, body := List.replicate 12 0 }, d)
  else if p.length ≠ 12 then ({ st := stRange, body := List.replicate 12 0 }, d)
  else
    let (c, d) := (d.setStage x.num []).commit x.num (byteAt p 0) (fieldAt p 4 8) x.stage
    ({ st := c.st, body := c.bytes }, d)

/-- CANCEL (R67). -/
def Dev.wdpCancel (d : Dev) (x : Session) (p : List Byte) : Reply × Dev :=
  if d.pwr.state = 4 then ({ st := stWrongState }, d)
  else if p.length ≠ 4 then ({ st := stRange }, d)
  else
    let (st, d) := d.cancel x.by (fieldAt p 0 4)
    ({ st := st }, d)

/-- Declared size of an object: its type's size, or for a string the highest length. -/
def declaredSize (i s : Nat) : Nat :=
  match objRow i s with
  | some r => if r.ty.varLen then (match r.rng with | .len _ hi => hi | .lenMul _ hi _ => hi | _ => 0) else r.ty.size
  | none => 0

/-- The status of a subscription (R80). Its sizes are those of the data message (R81), heads and padding
included. -/
def Dev.subStatus (d : Dev) (b : Sub) : Nat :=
  if 7 < b.num ∨ 3 < b.kind ∨ 3 < b.wing then stRange
  else if b.kind = 0 then
    if b.objs.isEmpty ∨ 64 < b.objs.length then stRange
    else match b.objs.find? fun o => d.readStatus o.idx o.sub != stOk with
      | some o => d.readStatus o.idx o.sub
      | none =>
        if b.objs.any fun o => ((objRow o.idx o.sub).map (·.ty)).getD .dom == .dom then stRange
        else if 1412 < b.objs.foldl (fun n o => n + 8 + (declaredSize o.idx o.sub + 3) / 4 * 4) 0 then stTooLarge
        else stOk
  else if b.kind = 1 then (if b.param < 64 ∨ b.param = 0xFF then stOk else stRange)
  else if b.kind = 3 then (if b.param < 128 then stOk else stRange)
  else stOk

/-- SUBSCRIBE (R80). -/
def Dev.wdpSubscribe (d : Dev) (x : Session) (p : List Byte) : Reply × Dev :=
  let count := fieldAt p 8 2
  let b : Sub :=
    { num := byteAt p 0, kind := byteAt p 1, period := byteAt p 2, wing := byteAt p 3, param := fieldAt p 4 4
      objs := (chunks 4 (p.drop 12)).map fun e => { idx := fieldAt e 0 2, sub := byteAt e 2 } }
  let put := fun subs => d.setSession x.num (some { x with subs := subs })
  let rest := x.subs.filter fun s => s.num != b.num
  if p.length < 12 ∨ p.length ≠ 12 + 4 * count then ({ st := stRange }, d)
  else if b.period = 0 then (if 7 < b.num then ({ st := stRange }, d) else ({ st := stOk }, put rest))
  else
    let st := d.subStatus b
    if st ≠ stOk then ({ st := st }, d) else ({ st := stOk }, put (rest ++ [b]))

/-- CLOSE of the own session, or, with a payload that names it, of another one by a Supervisor (R66,
Table 3.8). -/
def Dev.wdpClose (d : Dev) (x : Session) (p : List Byte) : Reply × Dev :=
  let n := if p.length = 2 then fieldAt p 0 2 else x.num
  if n = x.num then ({ st := stOk }, d.closeSession n 0)
  else match d.session n with
    | none => ({ st := stNoSession }, d)
    | some y =>
      if !y.isOpen then ({ st := stNoSession }, d)
      else if x.level < 3 then ({ st := stAccess }, d)
      else ({ st := stOk }, d.closeSession n 3)

/-- Carries out a request of an open session, by its type (Table 3.5). -/
def Dev.perform (mem : Mem) (x : Session) (ty : Nat) (p : List Byte) (d : Dev) : Reply × Dev :=
  match ty with
  | 0x04 => d.wdpClose x p
  | 0x05 => ({ st := stOk }, d)
  | 0x10 => d.wdpRead x p
  | 0x11 => Dev.wdpWrite mem d x p
  | 0x12 => d.wdpStage x p
  | 0x13 => d.wdpCommit x p
  | 0x14 => ({ st := stOk }, d.setStage x.num [])
  | 0x15 => d.wdpCancel x p
  | 0x18 => d.wdpSubscribe x p
  | _ => ({ st := stWrongState }, d)

/-- Processes a request and answers it; the response is kept (R77). -/
def Dev.serve (mem : Mem) (via : Transport) (n : Nat) (b : List Byte) (d : Dev) : Dev :=
  match d.session n with
  | none => d
  | some x =>
    let ty := byteAt b 3
    let seq := fieldAt b 8 4
    let (r, d) := Dev.perform mem x ty (wdpPayload b) d
    let msg := wdpMessage x.key ty n 1 r.st seq r.body
    let d := match d.session n with
      | some y => d.setSession n (some { y with lastSeq := seq, cached := msg, requests := y.requests + 1 })
      | none => d
    d.respond via msg

/-- Processes the requests that arrived early and are due now (R77). -/
def Dev.drainEarly (mem : Mem) (via : Transport) (n : Nat) : Nat → Dev → Dev
  | 0, d => d
  | f + 1, d =>
    match d.session n with
    | none => d
    | some x =>
      match x.early.find? fun e => e.1 == x.lastSeq + 1 with
      | none => d
      | some e =>
        let d := d.setSession n (some { x with early := x.early.filter fun y => y.1 != e.1 })
        Dev.drainEarly mem via n f (Dev.serve mem via n e.2 d)

/-- A host acknowledges a NOTIFY (R82). -/
def Dev.acknowledge (d : Dev) (n : Nat) (x : Session) (p : List Byte) : Dev :=
  let q := fieldAt p 0 4
  let d := d.setSession n (some { x with unacked := x.unacked.filter fun u => u.nseq != q })
  match x.via with
  | .pcie ch => d.setMbx ch { d.mbx ch with waiting := (d.mbx ch).waiting.filter (· != q) }
  | _ => d

/-- A message of an open session, its tag right: the order of R77. A ninth request that comes early is dropped without
an answer (DESIGN CHOICE: R77 keeps up to 8 and does not say; log entry 160). -/
def Dev.inSession (mem : Mem) (via : Transport) (h : WdpHead) (b : List Byte) (x : Session) (d : Dev) : Dev :=
  let n := h.sess
  if h.ty = 0x20 then (if h.flags.testBit 0 then d.acknowledge n x (wdpPayload b) else d)
  else if h.seq = x.lastSeq then d.respond via x.cached
  else if h.seq < x.lastSeq then d.respond via (wdpMessage x.key h.ty n 1 stSequence h.seq [])
  else if h.seq = x.lastSeq + 1 then Dev.drainEarly mem via n 8 (Dev.serve mem via n b d)
  else if x.early.length < 8 ∧ !(x.early.any fun e => e.1 == h.seq) then
    d.setSession n (some { x with early := x.early ++ [(h.seq, b)] })
  else d

/-- The session that a datagram may use where it arrives: a mailbox channel has its own (R88). -/
def viaUses (via : Transport) (n : Nat) : Bool :=
  match via with
  | .pcie ch => n == 64 + ch
  | _ => decide (1 ≤ n) && decide (n ≤ 32)

/-- A WDP message arrives (R73, R75 to R77). -/
def Dev.wdpMessageIn (mem : Mem) (via : Transport) (h : WdpHead) (b : List Byte) (d : Dev) : Dev :=
  if h.ty = 1 then d.hello via h b
  else match if viaUses via h.sess then d.session h.sess else none with
    | none => if h.ty = 0x20 then d else d.respondPlain via h stNoSession
    | some x =>
      if !x.isOpen then
        if h.ty = 3 then d.auth via h b x
        else if h.ty = 0x20 then d else d.respondPlain via h stNoSession
      else if wdpTagOf b ≠ wdpTag x.key (wdpSigned b) then
        d.setSession h.sess (some { x with badTags := x.badTags + 1 })
      else
        let x := { x with lastValid := d.now }
        Dev.inSession mem via h b x (d.setSession h.sess (some x))

/-- A datagram arrives: one that is malformed is dropped and counted (R73). A reset that it commands follows
its response (R440). -/
def Dev.datagramIn (via : Transport) (g : Datagram) (ok : Nat → Bool) (d : Dev) (mem : Mem) : Dev × Mem :=
  if !d.wdpServed via || !d.wdpAddressed via g then (d, mem)
  else match wdpHead g.bytes with
    | none => ({ d with wdpDropped := d.wdpDropped + 1 }, mem)
    | some h => if ok h.ty then Dev.finishReset (Dev.wdpMessageIn mem via h g.bytes d, mem) else (d, mem)

/-- The command of one message type. -/
def onWdp (t : Nat) (via : Transport) (g : Datagram) (ty : Nat) (s : State) : Host.Outcome State Fault Refusal :=
  onAonMem t (fun mem d => Dev.datagramIn via g (· == ty) d mem) s

/-- HELLO (R75). -/
def execHello (t : Nat) (via : Transport) (d : Datagram) (s : State) : Host.Outcome State Fault Refusal :=
  onWdp t via d 0x01 s

/-- AUTH (R75). -/
def execAuth (t : Nat) (via : Transport) (d : Datagram) (s : State) : Host.Outcome State Fault Refusal :=
  onWdp t via d 0x03 s

/-- CLOSE (R66). -/
def execClose (t : Nat) (via : Transport) (d : Datagram) (s : State) : Host.Outcome State Fault Refusal :=
  onWdp t via d 0x04 s

/-- ECHO (R78). -/
def execEcho (t : Nat) (via : Transport) (d : Datagram) (s : State) : Host.Outcome State Fault Refusal :=
  onWdp t via d 0x05 s

/-- READ (R68). -/
def execRead (t : Nat) (via : Transport) (d : Datagram) (s : State) : Host.Outcome State Fault Refusal :=
  onWdp t via d 0x10 s

/-- WRITE (R79). -/
def execWrite (t : Nat) (via : Transport) (d : Datagram) (s : State) : Host.Outcome State Fault Refusal :=
  onWdp t via d 0x11 s

/-- STAGE (R64). -/
def execStage (t : Nat) (via : Transport) (d : Datagram) (s : State) : Host.Outcome State Fault Refusal :=
  onWdp t via d 0x12 s

/-- COMMIT_AT_TICK (R65). -/
def execCommitAtTick (t : Nat) (via : Transport) (d : Datagram) (s : State) : Host.Outcome State Fault Refusal :=
  onWdp t via d 0x13 s

/-- DISCARD (R66). -/
def execDiscard (t : Nat) (via : Transport) (d : Datagram) (s : State) : Host.Outcome State Fault Refusal :=
  onWdp t via d 0x14 s

/-- CANCEL (R67). -/
def execCancel (t : Nat) (via : Transport) (d : Datagram) (s : State) : Host.Outcome State Fault Refusal :=
  onWdp t via d 0x15 s

/-- SUBSCRIBE (R80). -/
def execSubscribe (t : Nat) (via : Transport) (d : Datagram) (s : State) : Host.Outcome State Fault Refusal :=
  onWdp t via d 0x18 s

/-- NOTIFY_ACKNOWLEDGE (R82). -/
def execNotifyAcknowledge (t : Nat) (via : Transport) (d : Datagram) (s : State) :
    Host.Outcome State Fault Refusal := onWdp t via d 0x20 s

/-! ### NOTIFY again (R82) -/

/-- NOTIFY_RESEND: an unacknowledged NOTIFY is sent again, four times at most, and then counts as lost. -/
def Dev.notifyAgain (d : Dev) (n q : Nat) : Dev :=
  match d.session n with
  | none => d
  | some x =>
    match x.unacked.find? fun u => u.nseq == q with
    | none => d
    | some u =>
      if !x.isOpen then d
      else if 5 ≤ u.sent then
        let d := d.setSession n (some { x with
          unacked := x.unacked.filter fun v => v.nseq != q, lost := x.lost + 1 })
        match x.via with
        | .pcie ch => d.setMbx ch { d.mbx ch with waiting := (d.mbx ch).waiting.filter (· != q) }
        | _ => d
      else
        let x := { x with unacked := x.unacked.map fun v => if v.nseq = q then { v with sent := v.sent + 1 } else v }
        (d.setSession n (some x)).sendDev n 0x20 0 u.body

def execNotifyResend (t sess nseq : Nat) (s : State) : Host.Outcome State Fault Refusal :=
  onAon t (fun d => if d.alive || d.recovery then d.notifyAgain sess nseq else d) s

/-! ### Mailbox channels (R88) -/

/-- The host reads RSP_LEN: the length of the response and, in bit 31, whether it is valid, which the read clears
(Table 3.11). -/
def Mbx.readLen (x : Mbx) : Nat × Mbx := (x.rsp.length % 65536 + (if x.valid then 2 ^ 31 else 0), { x with valid := false })

/-- MAILBOX_DOORBELL: the host has written a message and its length; `rspRead`: it has read RSP_LEN before. -/
def execMailboxDoorbell (t ch : Nat) (d : Datagram) (rspRead : Bool) (s : State) : Host.Outcome State Fault Refusal :=
  onAonMem t (fun mem dev =>
    let dev := if rspRead ∧ ch < 8 then dev.setMbx ch (dev.mbx ch).readLen.2 else dev
    let dev := if dev.wdpServed (.pcie ch) then dev.setMbx ch { dev.mbx ch with req := d.bytes } else dev
    Dev.datagramIn (.pcie ch) d (fun _ => true) dev mem) s

/-- The NOTIFYs that wait for space are placed, in order, while they fit. -/
def Dev.placeWaiting (n ch : Nat) : Nat → Dev → Dev
  | 0, d => d
  | f + 1, d =>
    match (d.mbx ch).waiting, d.session n with
    | q :: rest, some x =>
      let d' := d.setMbx ch { d.mbx ch with waiting := rest }
      match x.unacked.find? fun u => u.nseq == q with
      | none => Dev.placeWaiting n ch f d'
      | some u =>
        let e := d'.sendDev n 0x20 0 u.body
        if (e.mbx ch).waiting.contains q then d else Dev.placeWaiting n ch f e
    | _, _ => d

/-- EVT_TAIL: the host has read the event ring up to an offset. -/
def execEvtTail (t ch off : Nat) (s : State) : Host.Outcome State Fault Refusal :=
  onDev t (fun d =>
    if d.wdpServed (.pcie ch) then
      let d := d.setMbx ch { d.mbx ch with tail := off % eventRing }
      Dev.placeWaiting (64 + ch) ch (d.mbx ch).waiting.length d
    else d) s

end Sys2Proof.Machine
end

