-- ==== Sys2Proof/Machine/Dispatch.lean ====
section
/-! DEFINITION. One arm per command: its meaning. -/
namespace Sys2Proof.Machine

def exec (i : Instr) (s : State) : Host.Outcome State Fault Refusal :=
  match i with
  | .wingTick t w lost => Sys2Proof.Machine.execWingTick t w lost s
  | .racingSelection t o => Sys2Proof.Machine.execRacingSelection t o s
  | .bandRelease t o band => Sys2Proof.Machine.execBandRelease t o band s
  | .bandWritten t target band obs => Sys2Proof.Machine.execBandWritten t target band obs s
  | .mediaPacket t p => Sys2Proof.Machine.execMediaPacket t p s
  | .frameCompletionTimeout t src => Sys2Proof.Machine.execFrameCompletionTimeout t src s
  | .framePublished t src => Sys2Proof.Machine.execFramePublished t src s
  | .legLost t src leg => Sys2Proof.Machine.execLegLost t src leg s
  | .sourceSilence t src => Sys2Proof.Machine.execSourceSilence t src s
  | .netLinkDown t port => Sys2Proof.Machine.execNetLinkDown t port s
  | .netLinkUp t port => Sys2Proof.Machine.execNetLinkUp t port s
  | .arpRequest t port addr => Sys2Proof.Machine.execArpRequest t port addr s
  | .neighbourSolicitation t port addr => Sys2Proof.Machine.execNeighbourSolicitation t port addr s
  | .icmpEchoRequest t port addr payload => Sys2Proof.Machine.execIcmpEchoRequest t port addr payload s
  | .membershipQuery t port v6 group sources => Sys2Proof.Machine.execMembershipQuery t port v6 group sources s
  | .joinReportRepeat t port group addr => Sys2Proof.Machine.execJoinReportRepeat t port group addr s
  | .is05Activation t src sdp at_ => Sys2Proof.Machine.execIs05Activation t src sdp at_ s
  | .accessUnit t sess au => Sys2Proof.Machine.execAccessUnit t sess au s
  | .decodedPictureOutput t sess pic => Sys2Proof.Machine.execDecodedPictureOutput t sess pic s
  | .decoderRearm t by_ sess => Sys2Proof.Machine.execDecoderRearm t by_ sess s
  | .rasterFrameStart t o listFault => Sys2Proof.Machine.execRasterFrameStart t o listFault s
  | .rasterLine t o line missingFrom => Sys2Proof.Machine.execRasterLine t o line missingFrom s
  | .startOfBlanking t o => Sys2Proof.Machine.execStartOfBlanking t o s
  | .lineMatch t o => Sys2Proof.Machine.execLineMatch t o s
  | .headFrameDone t o => Sys2Proof.Machine.execHeadFrameDone t o s
  | .ledgerEntry t o => Sys2Proof.Machine.execLedgerEntry t o s
  | .ipPacketLaunch t o j missing => Sys2Proof.Machine.execIpPacketLaunch t o j missing s
  | .dpHpdHigh t p caps => Sys2Proof.Machine.execDpHpdHigh t p caps s
  | .dpUnplug t p => Sys2Proof.Machine.execDpUnplug t p s
  | .dpIrqHpd t p lockLost errors => Sys2Proof.Machine.execDpIrqHpd t p lockLost errors s
  | .dpTrainingDone t p ok params => Sys2Proof.Machine.execDpTrainingDone t p ok params s
  | .dpTrainingRetry t p => Sys2Proof.Machine.execDpTrainingRetry t p s
  | .dpRetrain t by_ p => Sys2Proof.Machine.execDpRetrain t by_ p s
  | .encoderSelection t c listFault => Sys2Proof.Machine.execEncoderSelection t c listFault s
  | .rowDecision t c row => Sys2Proof.Machine.execRowDecision t c row s
  | .sliceRelease t c row obs => Sys2Proof.Machine.execSliceRelease t c row obs s
  | .encoderPacketSend t c => Sys2Proof.Machine.execEncoderPacketSend t c s
  | .pictureRecord t c => Sys2Proof.Machine.execPictureRecord t c s
  | .rowRecordReceived t c set => Sys2Proof.Machine.execRowRecordReceived t c set s
  | .followLost t c => Sys2Proof.Machine.execFollowLost t c s
  | .hello t via d => Sys2Proof.Machine.execHello t via d s
  | .auth t via d => Sys2Proof.Machine.execAuth t via d s
  | .challengeTimeout t sess => Sys2Proof.Machine.execChallengeTimeout t sess s
  | .wdpBlockExpiry t addr => Sys2Proof.Machine.execWdpBlockExpiry t addr s
  | .sessionTimeout t sess => Sys2Proof.Machine.execSessionTimeout t sess s
  | .close t via d => Sys2Proof.Machine.execClose t via d s
  | .echo t via d => Sys2Proof.Machine.execEcho t via d s
  | .read t via d => Sys2Proof.Machine.execRead t via d s
  | .write t via d => Sys2Proof.Machine.execWrite t via d s
  | .stage t via d => Sys2Proof.Machine.execStage t via d s
  | .commitAtTick t via d => Sys2Proof.Machine.execCommitAtTick t via d s
  | .discard t via d => Sys2Proof.Machine.execDiscard t via d s
  | .cancel t via d => Sys2Proof.Machine.execCancel t via d s
  | .subscribe t via d => Sys2Proof.Machine.execSubscribe t via d s
  | .notifyAcknowledge t via d => Sys2Proof.Machine.execNotifyAcknowledge t via d s
  | .notifyResend t sess nseq => Sys2Proof.Machine.execNotifyResend t sess nseq s
  | .levelKeyWrite t by_ level key => Sys2Proof.Machine.execLevelKeyWrite t by_ level key s
  | .saveAll t by_ sig => Sys2Proof.Machine.execSaveAll t by_ sig s
  | .saveDone t result => Sys2Proof.Machine.execSaveDone t result s
  | .loadDefaults t by_ sig => Sys2Proof.Machine.execLoadDefaults t by_ sig s
  | .longOpAbort t by_ slot => Sys2Proof.Machine.execLongOpAbort t by_ slot s
  | .longOpAborted t slot => Sys2Proof.Machine.execLongOpAborted t slot s
  | .longOpClear t by_ slot => Sys2Proof.Machine.execLongOpClear t by_ slot s
  | .usdoRead t index sub => Sys2Proof.Machine.execUsdoRead t index sub s
  | .usdoWrite t index sub data last => Sys2Proof.Machine.execUsdoWrite t index sub data last s
  | .canopenCommitTick t tick => Sys2Proof.Machine.execCanopenCommitTick t tick s
  | .rpdoReceived t n data => Sys2Proof.Machine.execRpdoReceived t n data s
  | .nmtCommand t cmd => Sys2Proof.Machine.execNmtCommand t cmd s
  | .mailboxDoorbell t ch d rspRead => Sys2Proof.Machine.execMailboxDoorbell t ch d rspRead s
  | .pcieWindowWrite t win off data => Sys2Proof.Machine.execPcieWindowWrite t win off data s
  | .mdioRead t by_ phy reg value => Sys2Proof.Machine.execMdioRead t by_ phy reg value s
  | .mdioWrite t by_ phy reg value => Sys2Proof.Machine.execMdioWrite t by_ phy reg value s
  | .phyPoll t port up => Sys2Proof.Machine.execPhyPoll t port up s
  | .layerClaim t by_ layer slot => Sys2Proof.Machine.execLayerClaim t by_ layer slot s
  | .legendSetLoad t by_ set => Sys2Proof.Machine.execLegendSetLoad t by_ set s
  | .fabricAccess t a m => Sys2Proof.Machine.execFabricAccess t a m s
  | .accessRetire t part => Sys2Proof.Machine.execAccessRetire t part s
  | .curatorSwapPoint t core => Sys2Proof.Machine.execCuratorSwapPoint t core s
  | .swapLate t core => Sys2Proof.Machine.execSwapLate t core s
  | .violationClear t by_ mask => Sys2Proof.Machine.execViolationClear t by_ mask s
  | .writeQueueDrain t pc => Sys2Proof.Machine.execWriteQueueDrain t pc s
  | .refresh t pc bank => Sys2Proof.Machine.execRefresh t pc bank s
  | .hbmParityError t pc cmdId => Sys2Proof.Machine.execHbmParityError t pc cmdId s
  | .pcRecovered t pc ok => Sys2Proof.Machine.execPcRecovered t pc ok s
  | .hbmTemperature t m degC => Sys2Proof.Machine.execHbmTemperature t m degC s
  | .rowDisturbanceWindow t pc bank => Sys2Proof.Machine.execRowDisturbanceWindow t pc bank s
  | .maintenanceWindow t m trainOk => Sys2Proof.Machine.execMaintenanceWindow t m trainOk s
  | .memScrub t by_ m => Sys2Proof.Machine.execMemScrub t by_ m s
  | .scrubDone t m => Sys2Proof.Machine.execScrubDone t m s
  | .memTest t by_ m => Sys2Proof.Machine.execMemTest t by_ m s
  | .memoryTestChunk t m failed => Sys2Proof.Machine.execMemoryTestChunk t m failed s
  | .memLiveRepair t by_ m => Sys2Proof.Machine.execMemLiveRepair t by_ m s
  | .memRecordCandidates t by_ m => Sys2Proof.Machine.execMemRecordCandidates t by_ m s
  | .memClearCandidates t by_ m => Sys2Proof.Machine.execMemClearCandidates t by_ m s
  | .memRecoverPc t by_ m => Sys2Proof.Machine.execMemRecoverPc t by_ m s
  | .memClearRepairRecord t by_ m => Sys2Proof.Machine.execMemClearRepairRecord t by_ m s
  | .flashWriteDone t slot result => Sys2Proof.Machine.execFlashWriteDone t slot result s
  | .ptpSyncReceived t port m => Sys2Proof.Machine.execPtpSyncReceived t port m s
  | .ptpAnnounceReceived t port a => Sys2Proof.Machine.execPtpAnnounceReceived t port a s
  | .ptpDelayRespReceived t port stamp => Sys2Proof.Machine.execPtpDelayRespReceived t port stamp s
  | .ptpDelayReqReceived t port mac fec req => Sys2Proof.Machine.execPtpDelayReqReceived t port mac fec req s
  | .ptpMessageInterval t port msg mac => Sys2Proof.Machine.execPtpMessageInterval t port msg mac s
  | .ptpAnnounceTimeout t port => Sys2Proof.Machine.execPtpAnnounceTimeout t port s
  | .timeRestep t by_ => Sys2Proof.Machine.execTimeRestep t by_ s
  | .timeSlew t by_ => Sys2Proof.Machine.execTimeSlew t by_ s
  | .timeHold t by_ => Sys2Proof.Machine.execTimeHold t by_ s
  | .evtEdge t cap level at_ => Sys2Proof.Machine.execEvtEdge t cap level at_ s
  | .evtMerging t cap => Sys2Proof.Machine.execEvtMerging t cap s
  | .evtStuck t cap => Sys2Proof.Machine.execEvtStuck t cap s
  | .evtReleased t cap => Sys2Proof.Machine.execEvtReleased t cap s
  | .ppsOutPulse t => Sys2Proof.Machine.execPpsOutPulse t s
  | .launchArm t by_ e => Sys2Proof.Machine.execLaunchArm t by_ e s
  | .launchDisarm t by_ e => Sys2Proof.Machine.execLaunchDisarm t by_ e s
  | .launchTime t e => Sys2Proof.Machine.execLaunchTime t e s
  | .pulseEnd t => Sys2Proof.Machine.execPulseEnd t s
  | .audioFrame t a left right bclks => Sys2Proof.Machine.execAudioFrame t a left right bclks s
  | .audUnderrun t a => Sys2Proof.Machine.execAudUnderrun t a s
  | .audioDriftGate t a edges => Sys2Proof.Machine.execAudioDriftGate t a edges s
  | .bclkStopped t a => Sys2Proof.Machine.execBclkStopped t a s
  | .audioPortRearm t by_ a => Sys2Proof.Machine.execAudioPortRearm t by_ a s
  | .audioGroupArm t by_ g => Sys2Proof.Machine.execAudioGroupArm t by_ g s
  | .audioGroupStop t by_ g => Sys2Proof.Machine.execAudioGroupStop t by_ g s
  | .audioGroupStart t g => Sys2Proof.Machine.execAudioGroupStart t g s
  | .audioPacketReceived t st p => Sys2Proof.Machine.execAudioPacketReceived t st p s
  | .audioPesReceived t st p => Sys2Proof.Machine.execAudioPesReceived t st p s
  | .audioPacketSend t st => Sys2Proof.Machine.execAudioPacketSend t st s
  | .audStreamSilent t st => Sys2Proof.Machine.execAudStreamSilent t st s
  | .touchScan t => Sys2Proof.Machine.execTouchScan t s
  | .touchReport t raw listen => Sys2Proof.Machine.execTouchReport t raw listen s
  | .touchRebaseline t by_ sf => Sys2Proof.Machine.execTouchRebaseline t by_ sf s
  | .heartbeat t => Sys2Proof.Machine.execHeartbeat t s
  | .ilkHoldEdge t aon => Sys2Proof.Machine.execIlkHoldEdge t aon s
  | .detectorExpiry t => Sys2Proof.Machine.execDetectorExpiry t s
  | .ilkTakeIn t => Sys2Proof.Machine.execIlkTakeIn t s
  | .claimPulseEnd t => Sys2Proof.Machine.execClaimPulseEnd t s
  | .claim t by_ => Sys2Proof.Machine.execClaim t by_ s
  | .swap t by_ => Sys2Proof.Machine.execSwap t by_ s
  | .cancelSwap t by_ => Sys2Proof.Machine.execCancelSwap t by_ s
  | .swapPrepare t m => Sys2Proof.Machine.execSwapPrepare t m s
  | .swapConfirmation t answer => Sys2Proof.Machine.execSwapConfirmation t answer s
  | .swapConfirmDeadline t => Sys2Proof.Machine.execSwapConfirmDeadline t s
  | .resynchronise t by_ => Sys2Proof.Machine.execResynchronise t by_ s
  | .resyncPhaseDone t obs => Sys2Proof.Machine.execResyncPhaseDone t obs s
  | .refollow t by_ => Sys2Proof.Machine.execRefollow t by_ s
  | .mirroredBatchReceived t b => Sys2Proof.Machine.execMirroredBatchReceived t b s
  | .mirroredWriteReceived t key data wing tick => Sys2Proof.Machine.execMirroredWriteReceived t key data wing tick s
  | .linkParametersReceived t p params => Sys2Proof.Machine.execLinkParametersReceived t p params s
  | .compareRecord t r => Sys2Proof.Machine.execCompareRecord t r s
  | .compareTimeout t kind n count => Sys2Proof.Machine.execCompareTimeout t kind n count s
  | .ringAlign t side lanes neighbour => Sys2Proof.Machine.execRingAlign t side lanes neighbour s
  | .ringAlignRetry t side => Sys2Proof.Machine.execRingAlignRetry t side s
  | .ringLockLost t side => Sys2Proof.Machine.execRingLockLost t side s
  | .ringLane t side lane => Sys2Proof.Machine.execRingLane t side lane s
  | .ringTick t => Sys2Proof.Machine.execRingTick t s
  | .ringSlot t side => Sys2Proof.Machine.execRingSlot t side s
  | .ringFrame t side f => Sys2Proof.Machine.execRingFrame t side f s
  | .urgentBlock t side copies => Sys2Proof.Machine.execUrgentBlock t side copies s
  | .ringReset t by_ => Sys2Proof.Machine.execRingReset t by_ s
  | .ringRealign t by_ => Sys2Proof.Machine.execRingRealign t by_ s
  | .urgentNotify t by_ body => Sys2Proof.Machine.execUrgentNotify t by_ body s
  | .slotTableChange t by_ ring atTick => Sys2Proof.Machine.execSlotTableChange t by_ ring atTick s
  | .sharedSourceChange t by_ atTick => Sys2Proof.Machine.execSharedSourceChange t by_ atTick s
  | .snapshot t by_ => Sys2Proof.Machine.execSnapshot t by_ s
  | .snapshotExportDone t => Sys2Proof.Machine.execSnapshotExportDone t s
  | .journalRecord t => Sys2Proof.Machine.execJournalRecord t s
  | .journalClearEntry t by_ e => Sys2Proof.Machine.execJournalClearEntry t by_ e s
  | .journalClearAll t by_ => Sys2Proof.Machine.execJournalClearAll t by_ s
  | .journalEmpty t by_ => Sys2Proof.Machine.execJournalEmpty t by_ s
  | .aonRecordClear t by_ => Sys2Proof.Machine.execAonRecordClear t by_ s
  | .cvuData t by_ u data => Sys2Proof.Machine.execCvuData t by_ u data s
  | .cvuStartDma t by_ u => Sys2Proof.Machine.execCvuStartDma t by_ u s
  | .cvuAbort t by_ u => Sys2Proof.Machine.execCvuAbort t by_ u s
  | .cvuInitialise t by_ u => Sys2Proof.Machine.execCvuInitialise t by_ u s
  | .cvuRunningValueWrite t by_ u v => Sys2Proof.Machine.execCvuRunningValueWrite t by_ u v s
  | .cvuDmaEnd t u obs => Sys2Proof.Machine.execCvuDmaEnd t u obs s
  | .calStartCampaign t by_ => Sys2Proof.Machine.execCalStartCampaign t by_ s
  | .calStoreRecord t by_ => Sys2Proof.Machine.execCalStoreRecord t by_ s
  | .calInstance t item inst run1 run2 idle => Sys2Proof.Machine.execCalInstance t item inst run1 run2 idle s
  | .calSkipped t item inst => Sys2Proof.Machine.execCalSkipped t item inst s
  | .deviceSleep t by_ => Sys2Proof.Machine.execDeviceSleep t by_ s
  | .deviceDeepSleep t by_ => Sys2Proof.Machine.execDeviceDeepSleep t by_ s
  | .deviceOff t by_ => Sys2Proof.Machine.execDeviceOff t by_ s
  | .powerEntryStep t => Sys2Proof.Machine.execPowerEntryStep t s
  | .wakeNFall t => Sys2Proof.Machine.execWakeNFall t s
  | .wakeNArm t => Sys2Proof.Machine.execWakeNArm t s
  | .canRxWake t => Sys2Proof.Machine.execCanRxWake t s
  | .wakeTimer t => Sys2Proof.Machine.execWakeTimer t s
  | .wakeStep t obs => Sys2Proof.Machine.execWakeStep t obs s
  | .wakeStepTimeout t => Sys2Proof.Machine.execWakeStepTimeout t s
  | .retentionRelease t by_ bank => Sys2Proof.Machine.execRetentionRelease t by_ bank s
  | .thermalSample t temps => Sys2Proof.Machine.execThermalSample t temps s
  | .wingFault t w cause => Sys2Proof.Machine.execWingFault t w cause s
  | .curatorStopped t w core trap => Sys2Proof.Machine.execCuratorStopped t w core trap s
  | .lockstepMismatch t pc => Sys2Proof.Machine.execLockstepMismatch t pc s
  | .socSupply t input => Sys2Proof.Machine.execSocSupply t input s
  | .vddAonPowerOn t => Sys2Proof.Machine.execVddAonPowerOn t s
  | .resetNLow t => Sys2Proof.Machine.execResetNLow t s
  | .resetRelease t pos bootsel => Sys2Proof.Machine.execResetRelease t pos bootsel s
  | .bootStep t obs => Sys2Proof.Machine.execBootStep t obs s
  | .firmwareReset t by_ => Sys2Proof.Machine.execFirmwareReset t by_ s
  | .armTrial t by_ => Sys2Proof.Machine.execArmTrial t by_ s
  | .confirmTrial t by_ => Sys2Proof.Machine.execConfirmTrial t by_ s
  | .raiseSecurityCounter t by_ => Sys2Proof.Machine.execRaiseSecurityCounter t by_ s
  | .cancelTrial t by_ => Sys2Proof.Machine.execCancelTrial t by_ s
  | .stageImage t by_ off data last => Sys2Proof.Machine.execStageImage t by_ off data last s
  | .stagingDone t result => Sys2Proof.Machine.execStagingDone t result s
  | .debugToken t by_ token => Sys2Proof.Machine.execDebugToken t by_ token s
  | .pciePerstHigh t => Sys2Proof.Machine.execPciePerstHigh t s
  | .jtagInstruction t ir data => Sys2Proof.Machine.execJtagInstruction t ir data s
  | .sourceCounterReset t by_ src => Sys2Proof.Machine.execSourceCounterReset t by_ src s
  | .decoderCounterReset t by_ sess => Sys2Proof.Machine.execDecoderCounterReset t by_ sess s
  | .outputCounterReset t by_ o => Sys2Proof.Machine.execOutputCounterReset t by_ o s
  | .encoderCounterReset t by_ c => Sys2Proof.Machine.execEncoderCounterReset t by_ c s
  | .rateControlCounterReset t by_ c => Sys2Proof.Machine.execRateControlCounterReset t by_ c s
  | .audioCounterReset t by_ => Sys2Proof.Machine.execAudioCounterReset t by_ s
  | .memoryCounterReset t by_ => Sys2Proof.Machine.execMemoryCounterReset t by_ s
  | .duplexCounterReset t by_ => Sys2Proof.Machine.execDuplexCounterReset t by_ s
  | .ilkTakeInFall t => Sys2Proof.Machine.execIlkTakeInFall t s
  | .vddAonLost t => Sys2Proof.Machine.execVddAonLost t s
  | .producerHeartbeat t => Sys2Proof.Machine.execProducerHeartbeat t s
  | .evtTail t ch off => Sys2Proof.Machine.execEvtTail t ch off s

end Sys2Proof.Machine
end

