-- ==== Sys2Proof/Machine/Package.lean ====
section
/-! DEFINITION. The package: the name of a ball and the net it carries, from the region rules (R458 to R463), and
the equivalent age that a host counts (R476). -/
namespace Sys2Proof.Machine

/-! ### Names (R458, Table 22.1) -/

/-- The letters of single-letter rows, and the second letters of the others. -/
def rowLetters : List String :=
  ["A", "B", "C", "D", "E", "F", "G", "H", "J", "K", "L", "M", "N", "P", "T", "U", "V", "W", "Y"]

/-- Row letters of a row index of 1 to 62. -/
def rowName (r : Nat) : String :=
  if r < 20 then rowLetters.getD (r - 1) ""
  else if r < 39 then "A" ++ rowLetters.getD (r - 20) ""
  else if r < 58 then "B" ++ rowLetters.getD (r - 39) ""
  else "C" ++ rowLetters.getD (r - 58) ""

/-- The name of a ball. -/
def ballName (r c : Nat) : String := rowName r ++ decStr c

/-- The four corners do not exist (R458). -/
def ballExists (r c : Nat) : Bool :=
  decide (1 ≤ r) && decide (r ≤ 62) && decide (1 ≤ c) && decide (c ≤ 62) &&
    !((r == 1 || r == 62) && (c == 1 || c == 62))

/-! ### Nets -/

/-- `name[k]`. -/
def netBit (name : String) (k : Nat) : String := name ++ "[" ++ decStr k ++ "]"

/-- Signals of a DisplayPort block by row offset and column (Table 22.3), without the port's prefix. -/
def dpSignal (o k : Nat) : String :=
  let pair := fun (name : String) (i : Nat) => netBit name (i + k / 2) ++ (if k % 2 = 0 then "P" else "N")
  match o with
  | 0 => pair "TX" 0
  | 2 => pair "TX" 2
  | 3 => ["VSS", "AUXP", "AUXN", "HPD"].getD k ""
  | 4 => pair "PTI" 0
  | 6 => pair "PTI" 2
  | 7 => ["VSS", "PTAUXP", "PTAUXN", "PTHPD"].getD k ""
  | _ => "VSS"

/-- The net of a ball of the DisplayPort blocks (R460). -/
def dpNet (r c : Nat) : String :=
  let p := (c - 15) / 4 + (if r ≤ 8 then 0 else 8)
  let n := dpSignal (if r ≤ 8 then r - 1 else 62 - r) ((c - 15) % 4)
  if n = "VSS" then n else "DP" ++ decStr p ++ "_" ++ n

/-- The pair of a lane row of the left band (Table 22.4). -/
def leftPair (r : Nat) : Option String :=
  if r ≤ 40 then some (netBit (if r % 2 = 1 then "NET_TX" else "NET_RX") ((r - 9) / 2)) else none

/-- The pair of a lane row of the right band (Table 22.4). -/
def rightPair (r : Nat) : Option String :=
  let lane := fun (tx rx : String) (first : Nat) => some (netBit (if r % 2 = 1 then tx else rx) ((r - first) / 2))
  if r ≤ 16 then lane "RING_E_TX" "RING_E_RX" 9
  else if r ≤ 24 then lane "RING_W_TX" "RING_W_RX" 17
  else if r ≤ 32 then lane "PCIE_TX" "PCIE_RX" 25
  else match r with
    | 33 => some "MGT0_TX"
    | 34 => some "MGT0_RX"
    | 35 => some "MGT1_TX"
    | 36 => some "MGT1_RX"
    | 37 => some "NET_REFCLK"
    | 38 => some "RING_REFCLK"
    | 39 => some "PCIE_REFCLK"
    | _ => none

/-- A lane row's signal columns hold VSS, P, N, VSS (R461). -/
def laneNet (pair : Option String) (k : Nat) : String :=
  match pair, k with
  | some n, 1 => n ++ "P"
  | some n, 2 => n ++ "N"
  | _, _ => "VSS"

/-- Supply columns of a band, from the inner edge outwards (R461). -/
def bandSupply (k : Nat) : String := ["VSS", "VDD_SD085", "VSS", "VDD_SD12"].getD k ""

/-- The net of a ball of the left or the right band (R461). -/
def bandNet (r c : Nat) : String :=
  if c ≤ 4 then laneNet (leftPair r) (c - 1)
  else if c ≤ 8 then bandSupply (8 - c)
  else if c ≤ 58 then bandSupply (c - 55)
  else laneNet (rightPair r) (c - 59)

/-- `n` signals `name[0]` on. -/
def netBus (name : String) (n : Nat) : List String := (List.range n).map (netBit name)

/-- Signals of the top-left block, in order (Table 22.5). -/
def topLeftSignals : List String :=
  List.replicate 8 "VDD_AON" ++
  ["RESET_N", "WAKE_N", "FAULT_N", "SYSRST_OUT_N", "POS", "BOOTSEL[0]", "BOOTSEL[1]", "ILK_HOLD_OUT",
   "ILK_HOLD_IN", "ILK_TAKE_OUT", "ILK_TAKE_IN"] ++ netBus "PWR_EN" 6 ++ netBus "PWR_OK" 6 ++
  ["XIN", "XOUT", "THERMDA", "THERMDC", "TCK", "TMS", "TDI", "TDO", "TRST_N", "XSPI_CLK", "XSPI_CS_N",
   "XSPI_DQS"] ++ netBus "XSPI_DQ" 8 ++ ["XSPI_RST_N"]

/-- Signals of the top-right block. -/
def topRightSignals : List String :=
  ["AUD_MCLK0", "AUD_MCLK1"] ++
  (List.range 16).flatMap (fun a =>
    let n := "AUD" ++ decStr a
    [n ++ "_BCLK", n ++ "_WS", n ++ "_SD"]) ++
  ["CAN_TX", "CAN_RX", "MDC", "MDIO", "PERST_N"]

/-- Signals of the bottom-left block. -/
def bottomLeftSignals : List String := ["TCH_GUARD"] ++ netBus "TCH_DRV" 32 ++ netBus "TCH_SNS" 48

/-- Signals of the bottom-right block. -/
def bottomRightSignals : List String := ["PPS_IN", "PPS_OUT"] ++ netBus "EVT" 24

/-- A corner block's net at a place of its edge order, counted from 0 (R462). -/
def cornerAt (signals : List String) (n : Nat) : String :=
  if n < signals.length then signals.getD n ""
  else if (n - signals.length) % 2 = 0 then "VSS" else "VDD_IO"

/-- The net of a ball of a corner block (R462): row `o` from the edge; the absent corner is skipped. -/
def cornerNet (r c : Nat) : String :=
  let o := if r ≤ 8 then r - 1 else 62 - r
  if c ≤ 14 then cornerAt (if r ≤ 8 then topLeftSignals else bottomLeftSignals) (14 * o + (c - 1) - 1)
  else
    let n := 16 * o + (c - 47)
    cornerAt (if r ≤ 8 then topRightSignals else bottomRightSignals) (if o = 0 then n else n - 1)

/-- The supply of a core ball whose row index plus column is odd (Table 22.6). -/
def coreSupply (r c : Nat) : String :=
  let outer := c ≤ 20 ∨ 43 ≤ c
  if r ≤ 26 then (if c ≤ 31 then "VDD_W0" else "VDD_W1")
  else if 37 ≤ r then (if c ≤ 31 then "VDD_W2" else "VDD_W3")
  else if !outer then "VDD_SOC"
  else if r ≤ 30 then "HBM_VDDC" else if r ≤ 34 then "HBM_VDDQ" else "HBM_VPP"

/-- The net of a ball: row index and column (R459). -/
def ballNet (r c : Nat) : String :=
  if 9 ≤ r ∧ r ≤ 54 then
    if c ≤ 8 ∨ 55 ≤ c then bandNet r c
    else if (r + c) % 2 = 0 then "VSS" else coreSupply r c
  else if 15 ≤ c ∧ c ≤ 46 then dpNet r c
  else cornerNet r c

/-! ### Service life (R476) -/

/-- Tenths of an hour that an hour adds to the equivalent age, at a junction temperature in 0.1 °C while the
device is powered; the host counts them. -/
def ageOfHour (tj : Int) : Nat := if tj ≤ 950 then 10 else if tj ≤ 1000 then 16 else 25

end Sys2Proof.Machine
end

