-- ==== Sys2Proof/Safety.lean ====
section
/-! DEFINITION. The words that claims are stated in: the device as a command finds it, the invariant of a safe run,
when the write of a command object acts at once, and which commands are such writes. -/
namespace Sys2Proof.Machine

/-- The device as a command at instant `t` finds it: the time base reads `t`, and what the command before it sent is
gone (log entries 1 and 3). -/
def State.found (s : State) (t : Nat) : Dev := { s.dev with now := t, outbox := [] }

/-- What every step keeps: the HBM is in its canonical form. -/
def State.Inv (s : State) : Prop := Mem.wf s.mem = true

/-- The write of a command object by `by_` acts at once: the device is in Run, the write passes the checks of every
write, and the object is not one whose writes a pair carries to a common tick (R60, R61, R90, R91). -/
def Dev.grants (d : Dev) (by_ : Requester) (i sub : Nat) (data : List Byte) : Prop :=
  d.alive = true ∧ d.commandStatus by_ i sub data = stOk ∧ (d.duplex = false ∨ isLocal i = true)

/-- The device with OK sent back to the writer. -/
def Dev.grantedTo (d : Dev) (by_ : Requester) : Dev := d.send (.answer by_ stOk none)

/-- The device with OK and the slot of the long operation that the write started sent back to the writer (R54). -/
def Dev.grantedSlot (d : Dev) (by_ : Requester) (k : Nat) : Dev := d.send (.answer by_ stOk (some k))

/-- A datagram arrives where WDP is served, at its UDP port (R73, R88). -/
def Dev.wdpArrives (d : Dev) (via : Transport) (g : Datagram) : Prop :=
  d.wdpServed via = true ∧ d.wdpAddressed via g = true

/-- A datagram that arrives is a message of type `ty` of the open session `x`, rightly tagged, where WDP is
served, at its UDP port (R73, R76). -/
def Dev.wdpReady (d : Dev) (via : Transport) (g : Datagram) (ty : Nat) (h : WdpHead) (x : Session) : Prop :=
  d.wdpArrives via g ∧ wdpHead g.bytes = some h ∧ h.ty = ty ∧ viaUses via h.sess = true ∧
    d.session h.sess = some x ∧ x.isOpen = true ∧ wdpTagOf g.bytes = wdpTag x.key (wdpSigned g.bytes)

/-- The commands that are a write of a command object with nothing judged before the checks of every write: instant,
writer, index, subindex and value. -/
def commandObject : Instr → Option (Nat × Requester × Nat × Nat × List Byte)
  | .decoderRearm t by_ sess => some (t, by_, decIdx sess, 9, [1])
  | .dpRetrain t by_ p => some (t, by_, outIdx (4 * p), 0x3F, [1])
  | .levelKeyWrite t by_ level key => some (t, by_, 0x2041, level % 4 + 1, key)
  | .saveAll t by_ sig => some (t, by_, 0x1010, 1, leBytes 4 sig)
  | .loadDefaults t by_ sig => some (t, by_, 0x1011, 1, leBytes 4 sig)
  | .longOpAbort t by_ slot => some (t, by_, 0x2080 + slot, 0x0E, [1])
  | .longOpClear t by_ slot => some (t, by_, 0x2080 + slot, 0x0E, [2])
  | .mdioRead t by_ phy reg _ => some (t, by_, 0x2046, 5, leBytes 4 (mdioWord 0 phy reg 0))
  | .mdioWrite t by_ phy reg value => some (t, by_, 0x2046, 5, leBytes 4 (mdioWord 1 phy reg value))
  | .layerClaim t by_ layer slot => some (t, by_, layIdx layer, 0x1A, leBytes 1 slot)
  | .legendSetLoad t by_ set => some (t, by_, 0x34F5, 1, set)
  | .violationClear t by_ mask => some (t, by_, 0x2504, 3, leBytes 4 mask)
  | .memScrub t by_ m => some (t, by_, hbmIdx (m % 2), 0x0C, [1])
  | .memTest t by_ m => some (t, by_, hbmIdx (m % 2), 0x0C, [2])
  | .memLiveRepair t by_ m => some (t, by_, hbmIdx (m % 2), 0x0C, [3])
  | .memRecordCandidates t by_ m => some (t, by_, hbmIdx (m % 2), 0x0C, [4])
  | .memClearCandidates t by_ m => some (t, by_, hbmIdx (m % 2), 0x0C, [5])
  | .memRecoverPc t by_ m => some (t, by_, hbmIdx (m % 2), 0x0C, [6])
  | .memClearRepairRecord t by_ m => some (t, by_, hbmIdx (m % 2), 0x0C, [7])
  | .timeRestep t by_ => some (t, by_, 0x2200, 0x0B, [1])
  | .timeSlew t by_ => some (t, by_, 0x2200, 0x0B, [2])
  | .timeHold t by_ => some (t, by_, 0x2200, 0x0B, [3])
  | .launchArm t by_ e => some (t, by_, launchIdx e, 8, [1])
  | .launchDisarm t by_ e => some (t, by_, launchIdx e, 8, [0])
  | .audioPortRearm t by_ a => some (t, by_, audIdx a, 0x0C, [1])
  | .audioGroupArm t by_ g => some (t, by_, 0x3610 + g, 5, [1])
  | .audioGroupStop t by_ g => some (t, by_, 0x3610 + g, 5, [2])
  | .touchRebaseline t by_ sf => some (t, by_, surfIdx sf, 0x0E, [1])
  | .claim t by_ => some (t, by_, 0x2100, 5, [1])
  | .swap t by_ => some (t, by_, 0x2100, 5, [2])
  | .cancelSwap t by_ => some (t, by_, 0x2100, 5, [3])
  | .resynchronise t by_ => some (t, by_, 0x2100, 5, [4])
  | .refollow t by_ => some (t, by_, 0x2100, 5, [5])
  | .ringReset t by_ => some (t, by_, 0x2110, 7, [1])
  | .ringRealign t by_ => some (t, by_, 0x2110, 7, [2])
  | .urgentNotify t by_ body => some (t, by_, 0x2110, 8, body)
  | .slotTableChange t by_ ring atTick => some (t, by_, 0x2120 + ring % 2, 3, leBytes 8 atTick)
  | .sharedSourceChange t by_ atTick => some (t, by_, 0x2122, 2, leBytes 8 atTick)
  | .snapshot t by_ => some (t, by_, 0x2130, 2, [1])
  | .journalClearEntry t by_ e => some (t, by_, 0x2400, 5, leBytes 2 e)
  | .journalClearAll t by_ => some (t, by_, 0x2400, 6, [1])
  | .journalEmpty t by_ => some (t, by_, 0x2400, 7, [1])
  | .aonRecordClear t by_ => some (t, by_, 0x2402, 3, [1])
  | .cvuData t by_ u data => some (t, by_, cvuIdx u, 6, data)
  | .cvuStartDma t by_ u => some (t, by_, cvuIdx u, 9, [1])
  | .cvuAbort t by_ u => some (t, by_, cvuIdx u, 9, [2])
  | .cvuInitialise t by_ u => some (t, by_, cvuIdx u, 9, [3])
  | .cvuRunningValueWrite t by_ u v => some (t, by_, cvuIdx u, 4, leBytes 8 v)
  | .calStartCampaign t by_ => some (t, by_, 0x2340, 3, [1])
  | .calStoreRecord t by_ => some (t, by_, 0x2340, 3, [2])
  | .deviceSleep t by_ => some (t, by_, 0x2300, 5, [1])
  | .deviceDeepSleep t by_ => some (t, by_, 0x2300, 5, [2])
  | .deviceOff t by_ => some (t, by_, 0x2300, 5, [3])
  | .retentionRelease t by_ bank => some (t, by_, 0x2300, 0x0B, [BitVec.ofNat 8 bank])
  | .armTrial t by_ => some (t, by_, 0x2360, 7, [2])
  | .confirmTrial t by_ => some (t, by_, 0x2360, 7, [3])
  | .raiseSecurityCounter t by_ => some (t, by_, 0x2360, 7, [4])
  | .cancelTrial t by_ => some (t, by_, 0x2360, 7, [5])
  | .debugToken t by_ token => some (t, by_, 0x2360, 0x0E, token)
  | .sourceCounterReset t by_ src => some (t, by_, srcIdx src, 0x24, [1])
  | .decoderCounterReset t by_ sess => some (t, by_, decIdx sess, 0x0F, [1])
  | .outputCounterReset t by_ o => some (t, by_, outIdx o, 0x16, [1])
  | .encoderCounterReset t by_ c => some (t, by_, encIdx c, 0x29, [1])
  | .rateControlCounterReset t by_ c => some (t, by_, rcIdx c, 0x0C, [1])
  | .audioCounterReset t by_ => some (t, by_, 0x3600, 5, [1])
  | .memoryCounterReset t by_ => some (t, by_, 0x2600, 4, [1])
  | .duplexCounterReset t by_ => some (t, by_, 0x2100, 0x0F, [1])
  | _ => none

/-- The commands that act only in Run, with the fabric domain's supply standing (R22, R424, R449): their instants. -/
def needsRun : Instr → Option Nat
  | .racingSelection t _ => some t
  | .bandRelease t _ _ => some t
  | .mediaPacket t _ => some t
  | .frameCompletionTimeout t _ => some t
  | .framePublished t _ => some t
  | .legLost t _ _ => some t
  | .sourceSilence t _ => some t
  | .netLinkDown t _ => some t
  | .netLinkUp t _ => some t
  | .arpRequest t _ _ => some t
  | .neighbourSolicitation t _ _ => some t
  | .icmpEchoRequest t _ _ _ => some t
  | .membershipQuery t _ _ _ _ => some t
  | .joinReportRepeat t _ _ _ => some t
  | .is05Activation t _ _ _ => some t
  | .accessUnit t _ _ => some t
  | .decodedPictureOutput t _ _ => some t
  | .rasterFrameStart t _ _ => some t
  | .rasterLine t _ _ _ => some t
  | .startOfBlanking t _ => some t
  | .lineMatch t _ => some t
  | .headFrameDone t _ => some t
  | .ledgerEntry t _ => some t
  | .ipPacketLaunch t _ _ _ => some t
  | .dpHpdHigh t _ _ => some t
  | .dpUnplug t _ => some t
  | .dpIrqHpd t _ _ _ => some t
  | .dpTrainingDone t _ _ _ => some t
  | .dpTrainingRetry t _ => some t
  | .encoderSelection t _ _ => some t
  | .rowDecision t _ _ => some t
  | .sliceRelease t _ _ _ => some t
  | .encoderPacketSend t _ => some t
  | .pictureRecord t _ => some t
  | .rowRecordReceived t _ _ => some t
  | .followLost t _ => some t
  | .saveDone t _ => some t
  | .nmtCommand t _ => some t
  | .phyPoll t _ _ => some t
  | .accessRetire t _ => some t
  | .curatorSwapPoint t _ => some t
  | .swapLate t _ => some t
  | .refresh t _ _ => some t
  | .hbmParityError t _ _ => some t
  | .pcRecovered t _ _ => some t
  | .hbmTemperature t _ _ => some t
  | .rowDisturbanceWindow t _ _ => some t
  | .ptpSyncReceived t _ _ => some t
  | .ptpAnnounceReceived t _ _ => some t
  | .ptpDelayRespReceived t _ _ => some t
  | .ptpDelayReqReceived t _ _ _ _ => some t
  | .ptpMessageInterval t _ _ _ => some t
  | .ptpAnnounceTimeout t _ => some t
  | .evtEdge t _ _ _ => some t
  | .evtMerging t _ => some t
  | .evtStuck t _ => some t
  | .evtReleased t _ => some t
  | .ppsOutPulse t => some t
  | .launchTime t _ => some t
  | .pulseEnd t => some t
  | .audioFrame t _ _ _ _ => some t
  | .audUnderrun t _ => some t
  | .audioDriftGate t _ _ => some t
  | .bclkStopped t _ => some t
  | .audioGroupStart t _ => some t
  | .audioPacketReceived t _ _ => some t
  | .audioPesReceived t _ _ => some t
  | .audioPacketSend t _ => some t
  | .audStreamSilent t _ => some t
  | .touchScan t => some t
  | .touchReport t _ _ => some t
  | .swapPrepare t _ => some t
  | .swapConfirmation t _ => some t
  | .swapConfirmDeadline t => some t
  | .mirroredBatchReceived t _ => some t
  | .mirroredWriteReceived t _ _ _ _ => some t
  | .linkParametersReceived t _ _ => some t
  | .compareRecord t _ => some t
  | .compareTimeout t _ _ _ => some t
  | .ringAlign t _ _ _ => some t
  | .ringAlignRetry t _ => some t
  | .ringLockLost t _ => some t
  | .ringLane t _ _ => some t
  | .ringTick t => some t
  | .ringSlot t _ => some t
  | .ringFrame t _ _ => some t
  | .urgentBlock t _ _ => some t
  | .snapshotExportDone t => some t
  | .cvuDmaEnd t _ _ => some t
  | .calInstance t _ _ _ _ _ => some t
  | .calSkipped t _ _ => some t
  | .thermalSample t _ => some t
  | .wingFault t _ _ => some t
  | .curatorStopped t _ _ _ => some t
  | .socSupply t _ => some t
  | .producerHeartbeat t => some t
  | .evtTail t _ _ => some t
  | _ => none

/-- The commands that write bytes of the HBM, clear it or let a reset do so. -/
def reachesMemory : Instr → Bool
  | .wingTick _ _ _ => true
  | .bandWritten _ _ _ _ => true
  | .hello _ _ _ => true
  | .auth _ _ _ => true
  | .close _ _ _ => true
  | .echo _ _ _ => true
  | .read _ _ _ => true
  | .write _ _ _ => true
  | .stage _ _ _ => true
  | .commitAtTick _ _ _ => true
  | .discard _ _ _ => true
  | .cancel _ _ _ => true
  | .subscribe _ _ _ => true
  | .notifyAcknowledge _ _ _ => true
  | .mailboxDoorbell _ _ _ _ => true
  | .pcieWindowWrite _ _ _ _ => true
  | .fabricAccess _ _ _ => true
  | .writeQueueDrain _ _ => true
  | .maintenanceWindow _ _ _ => true
  | .scrubDone _ _ => true
  | .memoryTestChunk _ _ _ => true
  | .resyncPhaseDone _ _ => true
  | .powerEntryStep _ => true
  | .wakeStep _ _ => true
  | .wakeStepTimeout _ => true
  | .vddAonPowerOn _ => true
  | .resetNLow _ => true
  | .bootStep _ _ => true
  | .firmwareReset _ _ => true
  | .vddAonLost _ => true
  | _ => false

/-- The commands that leave the HBM alone or, in a reset or without supply, empty. -/
def mayReset : Instr → Bool
  | .hello _ _ _ => true
  | .auth _ _ _ => true
  | .close _ _ _ => true
  | .echo _ _ _ => true
  | .read _ _ _ => true
  | .write _ _ _ => true
  | .stage _ _ _ => true
  | .commitAtTick _ _ _ => true
  | .discard _ _ _ => true
  | .cancel _ _ _ => true
  | .subscribe _ _ _ => true
  | .notifyAcknowledge _ _ _ => true
  | .mailboxDoorbell _ _ _ _ => true
  | .powerEntryStep _ => true
  | .wakeStep _ _ => true
  | .wakeStepTimeout _ => true
  | .vddAonPowerOn _ => true
  | .resetNLow _ => true
  | .firmwareReset _ _ => true
  | .vddAonLost _ => true
  | _ => false

/-- Writes of mirrored command objects that have no check of their own at arrival. -/
def plainMirrored : Instr → Bool
  | .sourceCounterReset _ _ _ => true
  | .decoderCounterReset _ _ _ => true
  | .outputCounterReset _ _ _ => true
  | .encoderCounterReset _ _ _ => true
  | .rateControlCounterReset _ _ _ => true
  | .audioCounterReset _ _ => true
  | .audioGroupStop _ _ _ => true
  | .launchDisarm _ _ _ => true
  | _ => false

end Sys2Proof.Machine
end

