-- ==== Sys2Proof/Certificates/Slice0/Obligations.lean ====
section
/-! DEFINITION. The statements that the provers are asked for. -/
section

open Sys2Proof Sys2Proof.Machine

/-- A step runs the command at the front of the queue (95_what_each_step_holds.md, notes/assumptions/6.md). -/
def Obligations.StepRunsTheFrontCommand : Prop :=
  (∀ (c : Instr) (rest : List Instr) (s : State), s.pending = c :: rest →
    step s = exec c { s with pending := rest }) ∧
  ∀ s : State, s.pending = [] → step s = .next s

/-- Every command answers a next state, and none touches the queue (95_what_each_step_holds.md,
notes/assumptions/129.md). -/
def Obligations.EveryCommandAnswersAndKeepsTheQueue : Prop :=
  ∀ (c : Instr) (s : State), ∃ t : State, exec c s = .next t ∧ t.pending = s.pending

/-- Reset meets the invariant and leaves the defaults the tables state (02_tick_and_admission.md,
03_object_dictionary.md, 11_time.md, 20_power_states.md). -/
def Obligations.ResetLeavesTheStatedDefaults : Prop :=
  State.reset.Inv ∧ State.reset.pending = [] ∧
  (∀ w, w < 4 → State.reset.dev.rd (0x2010 + w) 1 = 8 ∧ State.reset.dev.rd (0x2010 + w) 2 = 0) ∧
  State.reset.dev.rd 0x2000 1 = 0 ∧ State.reset.dev.rd 0x2000 2 = 0 ∧ State.reset.dev.rd 0x2030 5 = 900 ∧
  (∀ k, k < 64 → State.reset.dev.slotState k = 0) ∧
  (∀ n, State.reset.dev.session n = none) ∧ State.reset.dev.batches = []

/-- Every step keeps the HBM in its canonical form (01_architecture.md, 14_memory.md, R29, R306). -/
def Obligations.StepKeepsTheMemoryCanonical : Prop :=
  ∀ s t : State, s.Inv → step s = .next t → t.Inv

/-- All of memory is unchanged by every command that does not reach the HBM; a reset at most clears it
(01_architecture.md, 14_memory.md, 15_access_control.md, 21_bring_up.md). -/
def Obligations.OnlyMemoryCommandsTouchMemory : Prop :=
  (∀ (c : Instr) (s t : State), reachesMemory c = false → exec c s = .next t →
    ∀ a, Mem.read t.mem a = Mem.read s.mem a) ∧
  ∀ (c : Instr) (s t : State), mayReset c = true → exec c s = .next t → t.mem = s.mem ∨ t.mem = []

/-- A command to a unit of the spine or of a wing does nothing while the device is not in Run (R22, R424, R449,
notes/assumptions/9.md). -/
def Obligations.UnitsRestOutsideRun : Prop :=
  ∀ (c : Instr) (s : State) (t : Nat), needsRun c = some t → (s.found t).alive = false →
    exec c s = .next { s with dev := s.found t }

/-- A write of a command object that a check refuses is answered with its status and changes nothing (R59, R60,
R61, R91, 03_object_dictionary.md). -/
def Obligations.ARefusedWriteChangesNothing : Prop :=
  ∀ (c : Instr) (s : State) (t i sub : Nat) (by_ : Requester) (data : List Byte),
    commandObject c = some (t, by_, i, sub, data) → (s.found t).alive = true →
    (s.found t).commandStatus by_ i sub data ≠ stOk →
    exec c s = .next { s with
      dev := (s.found t).send (.answer by_ ((s.found t).commandStatus by_ i sub data) none) }

/-- A standby refuses the write of every mirrored object with STANDBY (R91, 16_duplex.md). -/
def Obligations.AStandbyRefusesMirroredWrites : Prop :=
  ∀ (d : Dev) (by_ : Requester) (i sub : Nat) (data : List Byte),
    d.valueStatus by_.level i sub data = stOk →
    ((d.standby = true ∧ isLocal i = false) → d.commandStatus by_ i sub data = stStandby) ∧
    ((d.standby = false ∨ isLocal i = true) → d.commandStatus by_ i sub data = stOk)

/-- In a pair, the write of a mirrored command object waits for a tick at least 2 ms ahead (R62, R90, R65). -/
def Obligations.MirroredCommandsWaitForTheirTick : Prop :=
  ∀ (c : Instr) (s : State) (t i sub : Nat) (by_ : Requester) (data : List Byte),
    plainMirrored c = true → commandObject c = some (t, by_, i, sub, data) →
    let d := s.found t
    d.alive = true → d.duplex = true → isLocal i = false → d.commandStatus by_ i sub data = stOk →
    let w := (d.objWing i).getD 0
    let m : MirWrite := { wing := w, tick := d.tickFrom w (t + 2000000)
                          rec_ := { idx := i, sub := sub, data := data }, by_ := by_ }
    exec c s = .next { s with dev := (({ d with mirror := d.mirror ++ [m] } : Dev).sendMirror m).grantedTo by_ } ∧
    ({ d with mirror := d.mirror ++ [m] } : Dev).regs = s.dev.regs

/-- Two wings are tick-coupled when rate code and phase are equal, and the mask shows it (R34). -/
def Obligations.CoupledWingsAreThoseOfEqualTiming : Prop :=
  ∀ (d : Dev) (v w : Nat), v < 4 → w < 4 →
    (d.coupled w v = true ↔ d.rd (0x2010 + w) 1 = d.rd (0x2010 + v) 1 ∧ d.rd (0x2010 + w) 2 = d.rd (0x2010 + v) 2) ∧
    ((d.coupledMask w).testBit v = d.coupled w v) ∧
    d.readObj (0x2010 + w) 6 = leBytes 1 (d.coupledMask w)

/-- A tick is raised at the first ns count at or after its exact instant, and numbered from the epoch (R32, R33,
02_tick_and_admission.md). -/
def Obligations.TicksAreRaisedAtTheFirstCount : Prop :=
  ∀ code phase k t : Nat,
    let num := periodNum code * 1000000000
    let den := periodDen code
    (phase * den + k * num ≤ tickInstant code phase k * den ∧
      tickInstant code phase k * den < phase * den + k * num + den) ∧
    (phase ≤ t → phase * den + tickNumber code phase t * num ≤ t * den ∧
      t * den < phase * den + (tickNumber code phase t + 1) * num) ∧
    (phase ≤ t → t * den ≤ phase * den + tickAtOrAfter code phase t * num ∧
      ∀ j, t * den ≤ phase * den + j * num → tickAtOrAfter code phase t ≤ j)

/-- A wing tick whose instant has come runs the steps of T+0; one that was raised does nothing (R31, R33, R35,
notes/assumptions/119.md). -/
def Obligations.WingTickActsOnceForEachTick : Prop :=
  ∀ (s : State) (t w : Nat) (lost : List Nat) (b : Batch) (sub : Nat) (data : List Byte),
    let d := s.found t
    let k := d.tickOf w t
    (d.memUp = true → d.alive = true → d.raises w k = true →
      exec (.wingTick t w lost) s =
        .next { s with dev := (Dev.tick w k lost d s.mem).1, mem := (Dev.tick w k lost d s.mem).2 }) ∧
    (d.raises w k = false → exec (.wingTick t w lost) s = .next { s with dev := d }) ∧
    (d.alive = true → d.raises w k = true → d.mirror = [] → d.pwr.releases = [] → d.duplex = false → d.batches = [] →
      ∃ u, exec (.wingTick t w lost) s = .next u ∧ u.mem = s.mem ∧ u.dev.batches = [] ∧ (u.dev.wing w).tick = k ∧
        (u.dev.wing w).at_ = d.tickTime w k ∧ (u.dev.wing w).raised = true ∧
        (∀ v, v ≠ w → u.dev.wing v = d.wing v) ∧
        ∀ o, o < 128 → outWing o = w → d.outOn o = true → d.racing o = false →
          (∀ c ∈ (d.out o).comps, c.complete = true) →
          ∃ c, (u.dev.out o).comps = (d.out o).comps ++ [c] ∧ c.target = o ∧ c.tick = k ∧ c.work = k ∧ c.selAt = t ∧
            c.racing = false ∧ c.written = [] ∧ (c.width, c.height) = d.outSize o ∧
            c.released = List.range (bandCount c.height)) ∧
    (d.alive = true → w = 0 → d.raises 0 k = true → d.mirror = [] → d.pwr.releases = [] → d.duplex = false →
      d.batches = [b] → b.wing = 0 → b.tick ≤ k → b.done = [] →
      b.recs = [{ idx := 0x34F2, sub := sub, data := data }] → 1 ≤ sub → sub ≤ 0x0C →
      ∃ u, exec (.wingTick t w lost) s = .next u ∧ u.mem = s.mem ∧ u.dev.batches = [] ∧
        u.dev.rd 0x34F2 sub = leNat data ∧ u.dev.dup.applied = max d.dup.applied b.num)

/-- A long operation starts in the lowest idle slot, or is refused with NO_SLOT and nothing starts (R54,
02_tick_and_admission.md). -/
def Obligations.LongOperationsTakeTheLowestIdleSlot : Prop :=
  ∀ (d : Dev) (by_ : Requester) (kind unit phases total arg arg2 : Nat) (target : String),
    let r := d.startLong by_ kind unit phases total target arg arg2
    ((∀ k, k < 64 → d.slotState k ≠ 0) → r.st = stNoSlot ∧ r.slot = none ∧ r.dev = d) ∧
    ((∃ k, k < 64 ∧ d.slotState k = 0) → ∃ k, r.st = stOk ∧ r.slot = some k ∧ k < 64 ∧ d.slotState k = 0 ∧
      (∀ j, j < k → d.slotState j ≠ 0) ∧ r.dev.slotState k = 1 ∧ r.dev.rd (0x2080 + k) 1 = kind)

/-- Abort and clear of a long-operation slot, and the end of an aborted one (R55, R58, 02_tick_and_admission.md). -/
def Obligations.LongOperationCommandsComplete : Prop :=
  ∀ (s : State) (t slot : Nat) (by_ : Requester),
    let d := s.found t
    (d.grants by_ (0x2080 + slot) 0x0E [1] → d.slotState slot = 1 →
      (by_.sess = d.rd (0x2080 + slot) 0x0C ∨ (d.longOp slot).ownerLevel < by_.level) →
      exec (.longOpAbort t by_ slot) s = .next { s with
        dev := (d.setLongOp slot { d.longOp slot with abortAsked := true }).grantedTo by_ }) ∧
    (d.grants by_ (0x2080 + slot) 0x0E [1] → d.slotState slot ≠ 1 →
      exec (.longOpAbort t by_ slot) s = .next { s with dev := d.send (.answer by_ stWrongState none) }) ∧
    (d.grants by_ (0x2080 + slot) 0x0E [2] → 2 ≤ d.slotState slot → ∃ u : State,
      exec (.longOpClear t by_ slot) s = .next u ∧ u.dev.slotState slot = 0 ∧ u.dev.rd (0x2080 + slot) 1 = 0 ∧
        u.mem = s.mem) ∧
    (d.grants by_ (0x2080 + slot) 0x0E [2] → d.slotState slot < 2 →
      exec (.longOpClear t by_ slot) s = .next { s with dev := d.send (.answer by_ stWrongState none) }) ∧
    (d.alive = true → d.slotState slot = 1 → (d.longOp slot).abortAsked = true →
      d.rd (0x2080 + slot) 1 ∈ [3, 4, 7, 8] →
      exec (.longOpAborted t slot) s = .next { s with dev := d.abortLong slot } ∧ (d.abortLong slot).slotState slot = 4) ∧
    (d.alive = true → slot < 64 → d.slotState slot = 1 → (d.longOp slot).abortAsked = true →
      d.rd (0x2080 + slot) 1 ≠ 1 → d.rd (0x2080 + slot) 1 ≠ 2 →
      ∃ u : State, exec (.longOpAborted t slot) s = .next u ∧ u.mem = s.mem ∧ u.dev.slotState slot = 4 ∧
        u.dev.rd (0x2080 + slot) 0x0A = time48 t ∧
        (d.rd (0x2080 + slot) 1 = 5 → u.dev.pwr.stage = none) ∧
        (d.rd (0x2080 + slot) 1 = 6 → u.dev.ring.snapAt = none) ∧
        (d.rd (0x2080 + slot) 1 = 9 → u.dev.saving = none))

/-- A wing fault, a stopped curator, a lockstep mismatch, a failed VDD_SOC and the management PHYs (R22, R25, R26,
01_architecture.md, R93). -/
def Obligations.FaultsThatStopAUnitComplete : Prop :=
  ∀ (s : State) (t w core trap pc input phy reg v g : Nat) (cause : Nat) (up : Bool) (by_ : Requester),
    let d := s.found t
    (d.alive = true → (d.wing w).stopped = false → exec (.wingFault t w cause) s = .next { s with
      dev := ((Dev.stopWing false d w).setWing w { (Dev.stopWing false d w).wing w with stopped := true }).raise
        (uWing w) 0x0103 cause 0 sevService }) ∧
    (d.alive = true → d.curStopped.contains w = false → exec (.curatorStopped t w core trap) s = .next { s with
      dev := ({ d with curStopped := d.curStopped ++ [w] } : Dev).raise (uCur w) 0x0104 core trap sevService }) ∧
    (d.guardOn = true → d.guardianStopped = false → exec (.lockstepMismatch t pc) s = .next { s with
      dev := (({ d.keepPlanes with guardianStopped := true, aonFault := true } : Dev).aonRecord uGuard 0x0105 sevDevice
        t).raise uGuard 0x0105 pc 0 sevDevice }) ∧
    (d.alive = true → exec (.socSupply t input) s = .next { s with
      dev := (d.setPwr { d.pwr with socDown := true }).report
        { unit := uDevice, code := 0x0106, p1 := input, p2 := 0, sev := sevDevice, time := t } }) ∧
    (d.grants by_ 0x2046 5 (leBytes 4 (mdioWord 0 phy reg 0)) → d.mdioOn = true →
      exec (.mdioRead t by_ phy reg v) s = .next { s with
        dev := (((d.wr 0x2046 6 0).mdioFrame 0 (phy % 32) (reg % 32) 0).wr 0x2046 6 (2 ^ 31 + v % 65536)).grantedTo by_ } ∧
      ∃ u, exec (.mdioRead t by_ phy reg v) s = .next u ∧ u.mem = s.mem ∧ u.dev.rd 0x2046 6 = 2 ^ 31 + v % 65536 ∧
        u.dev.outbox = [.pin "mdio" [0, phy % 32, reg % 32, 0], .answer by_ stOk none]) ∧
    (d.grants by_ 0x2046 5 (leBytes 4 (mdioWord 1 phy reg v)) → d.mdioOn = true →
      exec (.mdioWrite t by_ phy reg v) s = .next { s with
        dev := (((d.wr 0x2046 6 0).mdioFrame 1 (phy % 32) (reg % 32) (v % 65536)).wr 0x2046 6 (2 ^ 31)).grantedTo by_ } ∧
      ∃ u, exec (.mdioWrite t by_ phy reg v) s = .next u ∧ u.mem = s.mem ∧ u.dev.rd 0x2046 6 = 2 ^ 31 ∧
        u.dev.outbox = [.pin "mdio" [1, phy % 32, reg % 32, v % 65536], .answer by_ stOk none]) ∧
    (d.alive = true → d.sgmii (g % 2) = true →
      bits (d.rd 0x2046 7) (2 * (g % 2) + 1) (2 * (g % 2)) ≠ (if up then 2 else 0) →
      ∃ e : Dev, e.rd 0x2046 7 = d.rd 0x2046 7 - bits (d.rd 0x2046 7) (2 * (g % 2) + 1) (2 * (g % 2)) * 4 ^ (g % 2) +
          (if up then 2 else 0) * 4 ^ (g % 2) ∧
        exec (.phyPoll t g up) s = .next { s with
          dev := e.raise (uMgt (g % 2)) 0x0303 (if up then 2 else 0) 0 (if up then sevInfo else sevDegraded) }) ∧
    (d.alive = true → (d.wing w).stopped = false → w < 4 → ∃ u, exec (.wingFault t w cause) s = .next u ∧ u.mem = s.mem ∧
      u.dev.wingDown w = true ∧
      (∀ o, o < 128 → outWing o = w → d.outOn o = true → u.dev.outOn o = false ∧ (u.dev.out o).comps = [] ∧
        (u.dev.out o).raster = none) ∧
      (∀ c, c < 4 → (u.dev.enc (4 * w + c)).pics = [] ∧ (u.dev.enc (4 * w + c)).nals = []) ∧
      ∀ v, v ≠ w → (u.dev.wing v).stopped = (d.wing v).stopped) ∧
    (d.guardOn = true → d.guardianStopped = false → ∃ u, exec (.lockstepMismatch t pc) s = .next u ∧ u.mem = s.mem ∧
      u.dev.guardianStopped = true ∧ u.dev.aonFault = true ∧ u.dev.dup.holdOut = d.dup.holdOut ∧
      u.dev.rd 0x2402 2 = (d.rd 0x2402 2 + 1) % 2 ^ 32 ∧
      u.dev.rdc 0x2402 1 (d.rd 0x2402 2 % 8) = time48Bytes t ++ leBytes 2 uGuard ++ leBytes 2 0x0105 ++
        leBytes 1 sevDevice ++ leBytes 1 (d.rd 0x2360 0x0A % 128) ∧
      ∀ o r, o < 128 → (d.out o).raster = some r → (u.dev.out o).plane = some r.list)

/-- After a lockstep mismatch ILK_HOLD_OUT stays at its level and no heartbeat leaves (R26, R347, 16_duplex.md). -/
def Obligations.AStoppedGuardianPairStopsTheHeartbeat : Prop :=
  (∀ (s : State) (t pc : Nat), (s.found t).guardAlive = true → s.dev.guardianStopped = false →
    ∃ u : State, exec (.lockstepMismatch t pc) s = .next u ∧ u.dev.guardianStopped = true ∧ u.dev.aonFault = true ∧
      u.dev.dup.holdOut = s.dev.dup.holdOut ∧ u.mem = s.mem) ∧
  ∀ (s : State) (t : Nat), s.dev.guardianStopped = true →
    exec (.heartbeat t) s = .next { s with dev := s.found t } ∧
    exec (.journalRecord t) s = .next { s with dev := s.found t }

/-- Network ports: link down and up, and what is answered on a port whose link is up (R95, R96, R97, R98, R103,
04_intake.md). -/
def Obligations.NetworkPortCommandsComplete : Prop :=
  ∀ (s : State) (t p addr : Nat) (ip pay grp src mac : List Byte) (srcs : List (List Byte))
      (v6 : Bool) (r : JoinRepeat),
    let d := s.found t
    let sent := fun (e : Dev) (what : String) (b : List Byte) =>
      ((e.incf (netIdx p) 0x0B 2).addf (netIdx p) 0x0B 3 b.length 8).send (.net p what b)
    d.alive = true →
    (p < 8 → d.rd (netIdx p) 0x0A ≠ 0 → exec (.netLinkDown t p) s = .next { s with
      dev := ((d.wr (netIdx p) 0x0A 0).incf (netIdx p) 0x0B 7).raise (uNet p) 0x0405 p 0 sevDegraded }) ∧
    (d.portExists p = true → d.linkUp p = false → exec (.netLinkUp t p) s = .next { s with
      dev := (d.wr (netIdx p) 0x0A 2).event (uNet p) 0x0405 p 2 }) ∧
    (d.linkUp p = true → addr ≠ 0 → addr = d.portV4 p → exec (.arpRequest t p addr) s = .next { s with
      dev := sent d "arp-reply" (d.rdd (netIdx p) 1 ++ beBytes 4 addr) }) ∧
    (d.linkUp p = true → addr ≠ 0 → addr ≠ d.portV4 p → addr = d.rd (netIdx p) 0x0D → d.active = true →
      exec (.arpRequest t p addr) s = .next { s with
        dev := sent d "arp-reply" (d.serviceMac p ++ beBytes 4 addr) }) ∧
    (addr ≠ d.portV4 p → d.active = false → exec (.arpRequest t p addr) s = .next { s with dev := d }) ∧
    (d.linkUp p = true → d.v6Answer p ip = some mac → exec (.neighbourSolicitation t p ip) s = .next { s with
      dev := sent d "neighbour-advertisement" (mac ++ ip) }) ∧
    (d.linkUp p = true → mappedV4 ip = some addr → addr ≠ 0 → addr = d.portV4 p →
      exec (.icmpEchoRequest t p ip pay) s = .next { s with dev := sent d "icmp-echo-reply" (ip ++ pay) }) ∧
    (d.linkUp p = true → mappedV4 ip = none → d.v6Answer p ip = some mac →
      exec (.icmpEchoRequest t p ip pay) s = .next { s with dev := sent d "icmp-echo-reply" (ip ++ pay) }) ∧
    (d.curDown (p / 2) = false → exec (.membershipQuery t p v6 grp srcs) s = .next { s with dev := d.query p v6 grp srcs }) ∧
    (d.curDown (p / 2) = false → d.linkUp p = true → d.joinRepeats = [r] → r.port = p → r.group = grp → r.addr = src →
      r.due ≤ t → exec (.joinReportRepeat t p grp src) s = .next { s with
        dev := sent { d with joinRepeats := [] } (joinKind grp) (joinBytes r.join grp src) }) ∧
    (d.linkUp p = true → mappedV4 ip = none → d.v6Answer p ip = none → exec (.icmpEchoRequest t p ip pay) s =
      .next { s with dev := d.wr (netIdx p) 0x0C ((d.rd (netIdx p) 0x0C + 1) % 2 ^ 64) }) ∧
    (d.curDown (p / 2) = false → d.linkUp p = true → d.memberships p = [(grp, src)] → (mappedV4 grp).isSome = !v6 → grp ≠ [] →
      (allZero src = true → exec (.membershipQuery t p v6 [] []) s = .next { s with
        dev := sent d (joinKind grp) ([2] ++ grp) }) ∧
      (allZero src = false →
        exec (.membershipQuery t p v6 grp []) s = .next { s with dev := sent d (joinKind grp) ([1] ++ grp ++ src) } ∧
        exec (.membershipQuery t p v6 grp [src]) s = .next { s with dev := sent d (joinKind grp) ([1] ++ grp ++ src) } ∧
        (src ∉ srcs → srcs ≠ [] → exec (.membershipQuery t p v6 grp srcs) s = .next { s with dev := d })))

/-- A media packet is counted on its port and goes to each enabled source whose leg takes it (R98, R99, R102,
R107, R478, 04_intake.md). -/
def Obligations.MediaPacketsReachTheirSources : Prop :=
  ∀ (s : State) (t n id v : Nat) (p : Packet) (rows : List RowData) (int : Bool) (x : SourceRt) (ws : List Nat)
      (bytes : List Byte) (auEnd : Bool),
    let d := s.found t
    let e := (d.incf (netIdx p.port) 0x0B 0).addf (netIdx p.port) 0x0B 1 p.len 8
    let i := srcIdx n
    let k := d.rd i 0x1B
    d.alive = true → d.linkUp p.port = true →
    (p.body = .unicast → exec (.mediaPacket t p) s = .next { s with
      dev := e.wr (netIdx p.port) 0x0C ((d.rd (netIdx p.port) 0x0C + 1) % 2 ^ 64) }) ∧
    (p.body = .video rows int →
      exec (.mediaPacket t p) s = .next { s with
        dev := (List.range 256).foldl (fun e n =>
          if e.srcOn n then
            (e.srcLegs n).foldl (fun e b => if e.legTakes n b p (e.leg n b).udp then e.legPacket n b p else e) e
          else e) e }) ∧
    (p.body = .video rows int →
      (∀ n b, n < 256 → b < 2 → e.srcOn n = true → e.legTakes n b p (e.leg n b).udp = false) →
      exec (.mediaPacket t p) s = .next { s with dev := e }) ∧
    (∀ n b, p.body = .video rows int → d.rd (srcIdx n) 3 = 1 → ∃ f : Dev,
      d.legPacket n b p = f.videoPacket n b { p with seq := extendSeq (2 ^ 32) p.seq (d.src n).lastSeq } rows int ∧
      f.rdf (srcIdx n) 0x23 b = (d.rdf (srcIdx n) 0x23 b + 1) % 2 ^ 64 ∧
      (if b = 0 then (f.src n).lastA else (f.src n).lastB) = some t) ∧
    (n < 256 → d.srcOn n = true → (∀ m, m < 256 → m ≠ n → d.srcOn m = false) → d.takesRing n = false →
      d.rdb i 0x12 = false → d.legTakes n 0 p (d.leg n 0).udp = true → d.legState n 0 = 1 → d.src n = x → x.frames = [] →
      (d.rd i 3 = 1 → p.body = .video rows false → d.videoPoliced n p rows false = false → d.rd i 0x19 ≤ 1000000 →
        x.vrxA.1 = 0 → x.seen = [] → x.newA = none → x.take.map (·.1) = some id →
        ∃ u f, exec (.mediaPacket t p) s = .next u ∧ u.mem = s.mem ∧ u.dev.outbox = [] ∧
          u.dev.rdf (netIdx p.port) 0x0B 0 = (d.rdf (netIdx p.port) 0x0B 0 + 1) % 2 ^ 64 ∧
          u.dev.rdf (netIdx p.port) 0x0B 1 = (d.rdf (netIdx p.port) 0x0B 1 + p.len) % 2 ^ 64 ∧
          u.dev.rdf i 0x23 0 = (d.rdf i 0x23 0 + 1) % 2 ^ 64 ∧ (u.dev.src n).lastA = some t ∧
          (u.dev.src n).frames = [f] ∧ f.ts = p.ts ∧ f.first = t ∧ f.buf = some id ∧ f.ended = p.marker ∧ f.lost = 0 ∧
          f.gotA = [extendSeq (2 ^ 32) p.seq x.lastSeq] ∧ f.gotB = [] ∧
          f.pix = rows.foldl (fun q r => storeRow (d.rd i 8) (d.rd i 9) (d.rd i 5) q
            { sampling := d.rd i 8, depth := d.rd i 9 } r) []) ∧
      (2 ≤ d.rd i 3 → p.body = .coded bytes auEnd false → p.pt = d.rd i 0x18 → codedExcluded (d.rd i 3) bytes = false →
        p.len * 8 ≤ d.rd i 0x1A * 125 → x.rateA = [] → x.units = [] → x.cut = [] → x.policedTs = none → k < 128 → d.dec k = {} →
        d.decState k = 1 → p.len ≤ d.rd (decIdx k) 5 * 1024 →
        ∃ u w, exec (.mediaPacket t p) s = .next u ∧ u.mem = s.mem ∧ u.dev.outbox = [] ∧
          u.dev.rdf i 0x23 0 = (d.rdf i 0x23 0 + 1) % 2 ^ 64 ∧ (u.dev.src n).units = [w] ∧ w.ts = p.ts ∧ w.bytes = p.len ∧
          w.first = t ∧ w.complete = auEnd ∧ w.lost = false ∧ w.overflow = false ∧ (u.dev.dec k).fill = p.len ∧
          u.dev.rdf (decIdx k) 0x0E 9 = (d.rdf (decIdx k) 0x0E 9 + p.len) % 2 ^ 64)) ∧
    (n < 256 → d.srcOn n = true → (∀ m, m < 256 → m ≠ n → d.srcOn m = false) → d.takesRing n = false →
      d.legTakes n 0 p ((d.leg n 0).udp + 2) = true → d.rd i 0x1C = 1 → p.body = .anc (v / 256) (v % 256) ws →
      v = d.rd i 0x1D → 4 ≤ ws.length → (∀ q ∈ ws, q < 256) →
      ∃ u, exec (.mediaPacket t p) s = .next u ∧ u.mem = s.mem ∧ (u.dev.src n).frames = (d.src n).frames ∧
        Tab.getD (u.dev.src n).ancTokens p.ts 0 = leNat ((ws.take 4).reverse.map (BitVec.ofNat 8)))

/-- Frames of a source: completion timeout, publication, lost legs and silence (R108, R109, R110, R112, R478,
04_intake.md). -/
def Obligations.FramesEndAndArePublished : Prop :=
  ∀ (s : State) (t n leg a : Nat) (f : InFrame) (id : Nat),
    let d := s.found t
    d.alive = true →
    ((d.src n).frames.find? (fun g => !g.ended) = some f →
      f.first + periodNs (d.rd (srcIdx n) 7) + (if d.rdb (srcIdx n) 0x12 then d.rd (srcIdx n) 0x17 * 1000000 else 0) ≤ t →
      (∀ g ∈ (d.src n).frames, g.mismatch = false) →
      ∃ u : State, exec (.frameCompletionTimeout t n) s = .next u ∧ u.mem = s.mem ∧ u.dev.regs = s.dev.regs ∧
        (u.dev.src n).bufs = (d.src n).bufs ∧ f ∈ (d.src n).frames ∧ ((d.src n).finish f).ended = true ∧
        (u.dev.src n).frames = (d.src n).frames.map fun g =>
          if !g.ended ∧ g.first + periodNs (d.rd (srcIdx n) 7) +
            (if d.rdb (srcIdx n) 0x12 then d.rd (srcIdx n) 0x17 * 1000000 else 0) ≤ t then (d.src n).finish g else g) ∧
    ((d.src n).frames = [f] → f.ended = true → f.buf = none → f.tooSoon = false → f.policed = [] →
      exec (.framePublished t n) s = .next { s with
        dev := (((d.setSrc n { d.src n with frames := [] }).addf (srcIdx n) 0x23 2 f.lost 8).addf (srcIdx n) 0x23 3
          (if d.rdb (srcIdx n) 0x12 then f.recovered else 0) 8) }) ∧
    ((d.src n).frames = [f] → f.ended = true → f.buf = some id → f.tooSoon = false → f.policed = [] → f.lost = 0 →
      f.marker.isSome = true →
      ∃ u : State, exec (.framePublished t n) s = .next u ∧ u.mem = s.mem ∧ (u.dev.src n).newest = some id ∧
        (u.dev.src n).frames = [] ∧ (u.dev.src n).mismatched = 0 ∧
        u.dev.rdf (srcIdx n) 0x23 4 = (d.rdf (srcIdx n) 0x23 4 + 1) % 2 ^ 64) ∧
    ((if leg = 0 then (d.src n).lastA else (d.src n).lastB) = some a → a + 100000000 ≤ t → d.legState n leg = 1 →
      exec (.legLost t n leg) s = .next { s with dev := ((d.setLegState n leg 2).endFrames n).mergeDue n }) ∧
    ((d.src n).lastA = some a → a + 100000000 ≤ t → d.rdb (srcIdx n) 0x12 = false → d.srcState n = 2 →
      exec (.sourceSilence t n) s = .next { s with
        dev := (d.wr (srcIdx n) 0x20 3).raise (uIntake (d.srcWing n)) 0x0401 n 3 sevInfo }) ∧
    (leg < 2 → (if leg = 0 then (d.src n).lastA else (d.src n).lastB) = some a → a + 100000000 ≤ t → d.legState n leg = 1 →
      (d.src n).frames = [] → d.rd (srcIdx n) 3 = 1 → d.rd (srcIdx n) 0x21 < 16 →
      ∃ u, exec (.legLost t n leg) s = .next u ∧ u.mem = s.mem ∧ u.dev.legState n leg = 2 ∧
        u.dev.legState n (1 - leg) = d.legState n (1 - leg) ∧ (u.dev.src n).frames = [])

/-- An IS-05 activation commits one batch for the source, or is refused with its reason (R104, R65, R91,
04_intake.md). -/
def Obligations.Is05ActivationCommitsABatch : Prop :=
  ∀ (s : State) (t n : Nat) (f : Sdp) (at_ : Option Nat),
    let d := s.found t
    d.alive = true → d.curDown 0 = false → d.nmos.node = true → d.nmosUp = true → n < 256 →
    (d.standby = true → exec (.is05Activation t n f at_) s = .next { s with
      dev := d.send (.http (d.bootRd 0x2036 4) 500 "STANDBY") }) ∧
    (d.standby = false → f.unsupported = true →
      exec (.is05Activation t n f at_) s = .next { s with dev := d.send (.http (d.bootRd 0x2036 4) 400 "") }) ∧
    (d.standby = false → f.unsupported = false → d.pwr.state = 0 →
      (d.sdpRecs n f).1 = stOk →
      let e : Dev := { d with nmos := { d.nmos with staged := Tab.setD d.nmos.staged n f.vals [] } }
      let r := e.commit 0x0200 (d.srcWing n)
        (d.tickFrom (d.srcWing n) (at_.getD (t + d.rd 0x2036 7 * 1000000))) (d.sdpRecs n f).2
      (r.1.st = stOk → exec (.is05Activation t n f at_) s = .next { s with
        dev := r.2.send (.http (d.bootRd 0x2036 4) 200 "") } ∧
        ∃ u, exec (.is05Activation t n f at_) s = .next u ∧ u.mem = s.mem ∧ u.dev.batchNum = d.batchNum + 1 ∧
          u.dev.nmos.staged = e.nmos.staged ∧
          ((d.sdpRecs n f).2 ≠ [] → u.dev.batches = d.batches ++ [{ num := d.batchNum + 1, sess := 0x0200
                                                                    wing := d.srcWing n
                                                                    tick := d.tickFrom (d.srcWing n)
                                                                      (at_.getD (t + d.rd 0x2036 7 * 1000000))
                                                                    recs := (d.sdpRecs n f).2 }])) ∧
      (r.1.st ≠ stOk → exec (.is05Activation t n f at_) s =
        .next { s with dev := r.2.send (.http (d.bootRd 0x2036 4) 400 (statusName r.1.st)) })) ∧
    (d.standby = false → f.unsupported = false → d.pwr.state = 0 → (d.sdpRecs n f).1 ≠ stOk →
      exec (.is05Activation t n f at_) s = .next { s with
        dev := ({ d with nmos := { d.nmos with staged := Tab.setD d.nmos.staged n f.vals [] } } : Dev).send
          (.http (d.bootRd 0x2036 4) 400 (statusName (d.sdpRecs n f).1)) })

/-- Decoder sessions: access units, picture output and re-arm (R117, R120, R121, R122, R125, R126, R127,
05_decode.md). -/
def Obligations.DecoderCommandsComplete : Prop :=
  ∀ (s : State) (t k n id : Nat) (au : AccessUnit) (o : PictureOut) (w : InUnit) (p : DecPic) (q : Nat) (by_ : Requester)
      (x : SourceRt),
    let d := s.found t
    let i := decIdx k
    let e := (((((d.setSrc n { d.src n with units := (d.src n).units.erase w }).setDec k
          { d.dec k with fill := (d.dec k).fill - w.bytes }).addf (srcIdx n) 0x23 3 w.once.length 8).incf i 0x0E 0).addf
            i 0x0E 6 au.discardedNals 8)
    let pic : DecPic := { id := au.pic, order := au.order, flushes := au.flushes, ts := w.ts, first := w.first, ext := w.ext
                          legs := w.legs, chroma := au.chroma, depth := au.depth
                          token := ((d.src n).ancTokens.find? fun y => y.1 == w.ts).map (·.2) }
    let taken := d.alive = true ∧ d.boundSource k = some n ∧ (d.dec (d.rd (srcIdx n) 0x1B)).ahead = [] ∧
      (d.src n).units.find? (·.complete) = some w
    let sound := w.abandoned = false ∧ w.lost = false ∧ w.overflow = false ∧ au.syntaxError = false ∧ au.hashWrong = false ∧
      d.formatError n k au = false ∧ au.rasl = none
    (taken → w.abandoned = true → (w.lost = true ∨ w.overflow = true) →
      exec (.accessUnit t k au) s = .next { s with dev := e }) ∧
    (taken → w.abandoned = false →
      (e.decState k = 1 → exec (.accessUnit t k au) s = .next { s with dev := e.waitingUnit n k w au }) ∧
      (e.decState k = 3 → exec (.accessUnit t k au) s = .next { s with dev := e.liveUnit n k w au })) ∧
    (d.alive = true → d.boundSource k = some n → (d.dec k).next = some p → o.pic = p.id →
      (d.dec k).lastOutTs = none → d.decState k = 3 →
      exec (.decodedPictureOutput t k o) s = .next { s with
        dev := (d.setDec k { d.dec k with
          pics := (d.dec k).pics.filter (·.id != o.pic), lastOutTs := some p.ts }).publishPicture n k p o }) ∧
    (d.alive = true → d.boundSource k = some n → (d.dec k).next = some p → o.pic = p.id →
      (d.dec k).lastOutTs = some q → p.ts = q → q < 2 ^ 32 →
      exec (.decodedPictureOutput t k o) s = .next { s with
        dev := (d.setDec k { d.dec k with
          pics := (d.dec k).pics.filter (·.id != o.pic), lastOutTs := some p.ts }).decError n k 4
            ((d.decCapture n p.ext p.first).2.1 % 2 ^ 32) }) ∧
    (d.grants by_ (decIdx k) 9 [1] → d.decState k = 4 →
      exec (.decoderRearm t by_ k) s = .next { s with
        dev := ((d.incf (decIdx k) 0x0E 8).decRestart k 1).grantedTo by_ } ∧
      ∃ u, exec (.decoderRearm t by_ k) s = .next u ∧ u.mem = s.mem ∧ u.dev.dec k = {} ∧ u.dev.decState k = 1 ∧
        u.dev.rdf (decIdx k) 0x0E 8 = (d.rdf (decIdx k) 0x0E 8 + 1) % 2 ^ 64) ∧
    (d.grants by_ (decIdx k) 9 [1] → d.decState k ≠ 4 →
      exec (.decoderRearm t by_ k) s = .next { s with dev := d.send (.answer by_ stWrongState none) }) ∧
    (taken → sound → au.kind = .random → au.refs = [] → d.decState k = 1 →
      ∃ u, exec (.accessUnit t k au) s = .next u ∧ u.mem = s.mem ∧ u.dev.decState k = 3 ∧
        (u.dev.dec k).pics = [pic] ∧ (u.dev.dec k).refs = [au.pic] ∧ (u.dev.dec k).lastOutTs = none ∧
        u.dev.rdd i 0x0D = streamInfo au ∧ u.dev.rdf i 0x0E 0 = (d.rdf i 0x0E 0 + 1) % 2 ^ 64 ∧
        u.dev.rdf i 0x0E 1 = (d.rdf i 0x0E 1 + 1) % 2 ^ 64) ∧
    (taken → sound → au.kind = .picture →
      (d.decState k = 1 → ∃ u, exec (.accessUnit t k au) s = .next u ∧ u.mem = s.mem ∧ u.dev.decState k = 1 ∧
        (u.dev.dec k).pics = (d.dec k).pics ∧ u.dev.rdf i 0x0E 5 = (d.rdf i 0x0E 5 + 1) % 2 ^ 64) ∧
      (d.decState k = 3 → (∀ y ∈ au.refs, y ∈ (d.dec k).refs) →
        ∃ u, exec (.accessUnit t k au) s = .next u ∧ u.mem = s.mem ∧ u.dev.decState k = 3 ∧
          (u.dev.dec k).pics = (d.dec k).pics ++ [pic] ∧ u.dev.rdd i 0x0D = streamInfo au ∧
          (u.dev.dec k).refs = ((d.dec k).refs.filter fun y => au.keep.contains y) ++ [au.pic] ∧
          (u.dev.dec k).fill = (d.dec k).fill - w.bytes ∧ u.dev.rdf i 0x0E 0 = (d.rdf i 0x0E 0 + 1) % 2 ^ 64 ∧
          u.dev.rdf i 0x0E 1 = (d.rdf i 0x0E 1 + 1) % 2 ^ 64)) ∧
    (d.alive = true → d.boundSource k = some n → (d.dec k).next = some p → o.pic = p.id → (d.dec k).lastOutTs = none →
      d.decState k = 3 → (d.src n).take = some (id, x) →
      ∃ u f, exec (.decodedPictureOutput t k o) s = .next u ∧ u.mem = s.mem ∧ u.dev.decState k = 3 ∧
        (u.dev.dec k).pics = (d.dec k).pics.filter (·.id != o.pic) ∧ (u.dev.dec k).lastOutTs = some p.ts ∧
        (u.dev.src n).newest = some id ∧ (u.dev.src n).mismatched = 0 ∧
        ((u.dev.src n).buf id).bind (·.frame) = some f ∧ f.pix = d.converted n p o ∧ f.complete = true ∧ f.arrival = p.first ∧
        f.ts = p.ts % 2 ^ 32 ∧ f.published = t ∧ u.dev.rdf i 0x0E 2 = (d.rdf i 0x0E 2 + 1) % 2 ^ 64 ∧
        u.dev.rdf (srcIdx n) 0x23 4 = (d.rdf (srcIdx n) 0x23 4 + 1) % 2 ^ 64)

/-- Every counter reset leaves the counters of its object at 0 and answers OK, and writes nothing else (R62,
04_intake.md, 05_decode.md, 08_scanout.md, 09_encoder.md, 12_audio.md, 14_memory.md, 16_duplex.md). -/
def Obligations.CounterResetsClearTheirCounters : Prop :=
  ∀ (s : State) (t n : Nat) (by_ : Requester) (c : Instr) (i sub lo : Nat) (subs : List Nat) (fields : Nat),
    let d := s.found t
    ((c, i, sub, subs, fields) = (.sourceCounterReset t by_ n, srcIdx n, 0x24, [0x23], 9) ∨
      (c, i, sub, subs, fields) = (.decoderCounterReset t by_ n, decIdx n, 0x0F, [0x0E], 12) ∨
      (c, i, sub, subs, fields) = (.outputCounterReset t by_ n, outIdx n, 0x16, [0x13, 0x14, 0x15], 1) ∨
      (c, i, sub, subs, fields) = (.encoderCounterReset t by_ n, encIdx n, 0x29, [0x28], 8) ∨
      (c, i, sub, subs, fields) = (.rateControlCounterReset t by_ n, rcIdx n, 0x0C, [9, 0x0A, 0x0B], 1) ∨
      (c, i, sub, subs, fields) = (.duplexCounterReset t by_, 0x2100, 0x0F, [0x0E], 7)) →
    d.grants by_ i sub [1] →
    ∃ u : State, exec c s = .next u ∧ u.mem = s.mem ∧ u.dev.outbox = [.answer by_ stOk none] ∧
      u.dev.doms = s.dev.doms ∧
      (lo ∈ subs → ∀ f, f < fields → u.dev.rdf i lo f = 0) ∧
      ∀ j lo' f, lo' < 256 → f < 65536 → ¬ (j = i ∧ lo' ∈ subs ∧ f < fields) → u.dev.rdf j lo' f = s.dev.rdf j lo' f

/-- Composition: Racing selection, band release and the bands that the leaves write (R148, R151, R156, R157, R160,
R161, R480, 06_composition.md, 08_scanout.md). -/
def Obligations.CompositionCommandsComplete : Prop :=
  ∀ (s : State) (t o l band j n : Nat) (c : Comp) (b : BandObs),
    let d := s.found t
    let q := d.drainAll s.mem
    (d.alive = true → d.outOn o = true → d.racing o = true → d.racingFrame o = some n → d.fedAlready o n = false →
      (∀ e ∈ (d.out o).comps, e.racing = true → e.complete = true) →
      exec (.racingSelection t o) s = .next { s with
        dev := (d.selectOutput o (d.tickOf (outWing o) t)).feedRaster s.mem o }) ∧
    (d.alive = true → d.outOn o = true → d.racing o = true → d.racingFrame o = some n → d.fedAlready o n = false →
      c ∈ (d.out o).comps → c.racing = true → c.complete = false →
      exec (.racingSelection t o) s = .next { s with dev := d.feedRaster s.mem o }) ∧
    (d.alive = true → (d.out o).comps = [c] → c.racing = true → band ∉ c.released → band < bandCount c.height →
      c.selAt + d.lines o (16 * band) ≤ t →
      exec (.bandRelease t o band) s = .next { s with
        dev := d.setOut o { d.out o with
          comps := [{ c with released := c.released ++ [band], readyAt := Tab.insert c.readyAt band t }] } }) ∧
    (let e := q.1.cleanBand (.output o) band
     d.memUp = true → e.bandComp (e.out o).comps band = some c → c.written.length + 1 < bandCount c.height →
      let c' := e.writeBand q.2 c band b
      let f := (e.bandReports c band b).bandDone c band
      exec (.bandWritten t (.output o) band b) s = .next { s with
        mem := c'.storeBand c.place.1 c.place.2 band q.2
        dev := f.setOut o { f.out o with
          comps := (f.out o).comps.map fun x => if x.id = c.id then c' else x
          raster := (f.out o).raster.map fun r =>
            if r.comp.any (fun x => x.id == c.id) then { r with comp := some c' } else r } }) ∧
    (let e := q.1.cleanBand (.output o) band
     d.memUp = true → e.bandComp (e.out o).comps band = some c → c.racing = false →
      c.written.length + 1 = bandCount c.height →
      let c' := { e.writeBand q.2 c band b with crc := crc32c (e.writeBand q.2 c band b).bytes }
      let f := (c.loans.foldl Dev.returnLoan ((e.bandReports c band b).bandDone c band)).jobRun c.job
      exec (.bandWritten t (.output o) band b) s = .next { s with
        mem := c'.storeBand c.place.1 c.place.2 band q.2
        dev := f.setOut o { f.out o with
          comps := ((f.out o).comps.map fun y => if y.id = c.id then c' else y).filter (·.id != c.id)
          raster := (f.out o).raster.map fun r =>
            if r.comp.any (fun y => y.id == c.id) then { r with comp := some c' } else r
          ready := (f.out o).ready ++ [c'] } }) ∧
    (let e := q.1.cleanBand (.layer l) band
     d.memUp = true → e.bandComp (e.layerComps.filter fun x => x.target == l) band = some c →
      c.written.length + 1 = bandCount c.height → c.job = some j →
      ∃ u : State, exec (.bandWritten t (.layer l) band b) s = .next u ∧
        u.mem = (match e.compSlot c with
          | some k => (e.writeBand q.2 c band b).storeBand k.base k.pitch band q.2
          | none => q.2) ∧
        (∀ x ∈ u.dev.layerComps, x.id ≠ c.id) ∧
        u.dev.rd (0x4000 + j) 6 = (e.rd (0x4000 + j) 6 + 1) % 2 ^ 64) ∧
    (d.alive = true → d.outOn o = true → d.racing o = true → d.racingFrame o = none →
      exec (.racingSelection t o) s = .next { s with dev := d }) ∧
    (d.alive = true → d.outOn o = true → d.racing o = true → d.racingFrame o = some n → d.fedAlready o n = false →
      (∀ e ∈ (d.out o).comps, e.racing = true → e.complete = true) → (∀ r, (d.out o).raster = some r → r.waits = false) →
      ∃ (u : State) (c' : Comp), exec (.racingSelection t o) s = .next u ∧ u.mem = s.mem ∧
        (u.dev.out o).comps = (d.out o).comps ++ [c'] ∧ (u.dev.out o).raster = (d.out o).raster ∧
        c'.racing = true ∧ c'.tick = d.tickOf (outWing o) t ∧ c'.work = n ∧ c'.selAt = t ∧
        c'.released = [] ∧ c'.written = [] ∧ (c'.width, c'.height) = d.outSize o) ∧
    (d.alive = true → (d.out o).comps = [c] → t < c.selAt + d.lines o (16 * band) →
      exec (.bandRelease t o band) s = .next { s with dev := d }) ∧
    (let e := q.1.cleanBand (.output o) band
     d.memUp = true → (e.out o).comps = [c] → e.bandComp [c] band = some c →
      c.written.length + 1 < bandCount c.height → b.fault = 0 → b.stampMismatch = [] → b.poisoned = [] →
      ∃ (u : State) (c' : Comp), exec (.bandWritten t (.output o) band b) s = .next u ∧
        (u.dev.out o).comps = [c'] ∧ c'.written = c.written ++ [band] ∧ c'.impaired = c.impaired ∧
        u.mem = c'.storeBand c.place.1 c.place.2 band q.2 ∧
        ∀ x y, x < c.width → y < c.height →
          c'.at x y = if y / 16 = band then e.composePx q.2 c x y else c.at x y)

/-- A claim of a slot: each refusal of R162 with its event, and the claim of a free slot (R162,
06_composition.md). -/
def Obligations.LayerClaimsFollowTheirStatuses : Prop :=
  ∀ (s : State) (t l k : Nat) (by_ : Requester) (x : Slot),
    let d := s.found t
    let refused : Nat → State := fun st =>
      { s with dev := (d.event (uWing (d.layWing l)) 0x0605 l k).send (.answer by_ st none) }
    d.grants by_ (layIdx l) 0x1A (leBytes 1 k) →
    (d.rd (layIdx l) 0x1B = 1 ∨ (d.layer l).slots = [] → exec (.layerClaim t by_ l k) s = .next (refused stWrongState)) ∧
    (d.rd (layIdx l) 0x1B ≠ 1 → (d.layer l).slots ≠ [] → (∀ y ∈ (d.layer l).slots, y.num ≠ k) →
      exec (.layerClaim t by_ l k) s = .next (refused stRange)) ∧
    (d.rd (layIdx l) 0x1B ≠ 1 → (d.layer l).slots.find? (fun y => y.num == k) = some x →
      ((x.state = 2 ∨ x.state = 3) → exec (.layerClaim t by_ l k) s = .next (refused stOnLoan)) ∧
      (x.state = 0 ∨ x.state = 1 → ∃ u : State, exec (.layerClaim t by_ l k) s = .next u ∧ u.mem = s.mem ∧
        u.dev.regs = s.dev.regs ∧ u.dev.outbox = [.answer by_ stOk none] ∧
        (u.dev.layer l).slots = (d.layer l).slots.map
          (fun y => if y.num = k ∧ y.gen = x.gen ∧ y.state ≠ 1 then y.enter 1 else y)))

/-- A legend set is stored when its format and signature are right, and refused with RANGE when not (R183,
07_freshness.md). -/
def Obligations.LegendSetsAreVerified : Prop :=
  ∀ (s : State) (t : Nat) (by_ : Requester) (set : List Byte),
    let d := s.found t
    d.grants by_ 0x34F5 1 set →
    (set = [] → exec (.legendSetLoad t by_ set) s = .next { s with
      dev := ((d.wrd 0x34F5 1 []).wr 0x34F5 2 0).grantedTo by_ }) ∧
    (set ≠ [] → legendFormatOk set = true →
      Config.ecdsaVerify contentKey (set.take (set.length - 96)) (set.drop (set.length - 96)) = true →
      exec (.legendSetLoad t by_ set) s = .next { s with
        dev := ((d.wrd 0x34F5 1 set).wr 0x34F5 2 1).grantedTo by_ }) ∧
    (set ≠ [] → legendFormatOk set = false →
      exec (.legendSetLoad t by_ set) s = .next { s with
        dev := ((d.wr 0x34F5 2 2).raise uGuard 0x0704 0 1 sevInfo).send (.answer by_ stRange none) }) ∧
    (set ≠ [] → legendFormatOk set = true →
      Config.ecdsaVerify contentKey (set.take (set.length - 96)) (set.drop (set.length - 96)) = false →
      exec (.legendSetLoad t by_ set) s = .next { s with
        dev := ((d.wr 0x34F5 2 2).raise uGuard 0x0704 0 2 sevInfo).send (.answer by_ stRange none) })

/-- Scan-out: frame start, lines, blanking, line match, frame done and the ledger entry (R192, R193, R199, R202,
R186, R187, R188, 08_scanout.md, 07_freshness.md). -/
def Obligations.RasterCommandsComplete : Prop :=
  ∀ (s : State) (t o line m : Nat) (lf : Bool) (r : Raster) (tm : Timing) (missing : Option Nat) (c : Comp),
    let d := s.found t
    d.alive = true →
    (d.outOn o = true → (d.out o).hold ≤ t + 1 →
      ((d.rasterStart s.mem o lf).out o).count = (d.out o).count + 1 ∧
      exec (.rasterFrameStart t o lf) s = .next { s with dev := (d.rasterStart s.mem o lf).encRaster o }) ∧
    ((d.out o).raster = some r → r.top ≤ line → line < r.top + r.height → o < 64 → r.sent = true →
      r.comp.any (fun c => c.racing && !c.written.contains ((line - r.top) / 16)) = false → missing = none →
      let e := (d.setOut o { d.out o with raster := some r }).showRow o (line - r.top) r.marked
      e.rdb (outIdx o) 0x30 = false →
      exec (.rasterLine t o line missing) s = .next { s with
        dev := e.send (.dp (o / 4) "line" ([o % 4, line - r.top] ++ (List.range r.width).map fun x =>
          r.linkPx (e.rasterPx o r x (line - r.top) (r.delivered (line - r.top) x)))) }) ∧
    ((d.out o).raster = some r → r.top ≤ line → line < r.top + r.height →
      r.comp.isSome = true → r.comp.any (·.racing) = false → missing = some m → m < r.width →
      ∃ (u : State) (r' : Raster), exec (.rasterLine t o line missing) s = .next u ∧ u.mem = s.mem ∧
        (u.dev.out o).raster = some r' ∧ r'.missed = Tab.insert r.missed (line - r.top) (m + 1) ∧ r'.comp = r.comp) ∧
    ((d.out o).raster = some r →
      exec (.startOfBlanking t o) s = .next { s with
        dev := (d.outEvent o 0 (r.lineAt (r.top + r.height)) r.k).newSlots o }) ∧
    ((d.out o).raster = some r →
      exec (.lineMatch t o) s = .next { s with
        dev := d.outEvent o 1 (r.lineAt (d.rd (outIdx o) 0x0E)) (d.rd (outIdx o) 0x0E) }) ∧
    ((d.out o).raster = some r → r.comp = none → r.told.contains 2 = false →
      ∃ u : State, exec (.headFrameDone t o) s = .next u ∧ u.mem = s.mem ∧
        (u.dev.out o).entry = some (d.closeRaster o r) ∧
        (u.dev.out o).raster = some { r with told := r.told ++ [2] } ∧
        (r.underrun = true → (u.dev.out o).badRun = (d.out o).badRun + 1 ∧ (u.dev.out o).cleanRun = 0 ∧
          u.dev.rd (outIdx o) 0x13 = (d.rd (outIdx o) 0x13 + 1) % 2 ^ 64) ∧
        (r.underrun = false → (u.dev.out o).badRun = 0 ∧ (u.dev.out o).cleanRun = (d.out o).cleanRun + 1 ∧
          u.dev.rd (outIdx o) 0x13 = d.rd (outIdx o) 0x13)) ∧
    ((d.out o).entry = some r → d.guardianStopped = false → d.duplex = false →
      ∃ u : State, exec (.ledgerEntry t o) s = .next u ∧ u.mem = s.mem ∧ (u.dev.out o).entry = none ∧
        u.dev.rdc (0x5000 + o) 1 (r.k % 16) = r.entryBytes o 4 ∧ u.dev.rd (0x5000 + o) 2 = r.k % 2 ^ 32 ∧
        u.dev.rd (0x5000 + o) 3 = (d.rd (0x5000 + o) 3 + 1) % 2 ^ 64) ∧
    (o < 128 → d.outOn o = true → (d.out o).hold ≤ t + 1 → d.timing o = some tm →
      let i := outIdx o
      let at_ := fun n => d.tickTime (outWing o) (d.rasterTick o) + lineNs tm (d.rd i 3) (d.rd i 4 + n)
      ∃ (u : State) (r' : Raster), exec (.rasterFrameStart t o lf) s = .next u ∧ u.mem = s.mem ∧
        (u.dev.out o).raster = some r' ∧ (u.dev.out o).count = (d.out o).count + 1 ∧
        u.dev.rd i 0x12 = (d.out o).count % 2 ^ 64 ∧ r'.k = (d.out o).count ∧ (r'.width, r'.height) = d.outSize o ∧
        r'.start = at_ 0 ∧ r'.s0 = at_ tm.top) ∧
    (o < 128 → d.outOn o = true → (d.out o).hold ≤ t + 1 → d.racing o = false → (d.out o).blackNext = false →
      (d.out o).comps = [] → (d.out o).ready = [c] → c.tick + 1 = d.rasterTick o →
      ∃ (u : State) (r' : Raster), exec (.rasterFrameStart t o lf) s = .next u ∧
        (u.dev.out o).raster = some r' ∧ r'.comp = some c ∧ r'.notFed = false ∧ r'.repeated = false ∧
        (u.dev.out o).shown = some c ∧ (u.dev.out o).ready = []) ∧
    (o < 128 → (d.out o).raster = some r → r.told = [] →
      ∃ (u : State) (r' : Raster), exec (.startOfBlanking t o) s = .next u ∧ u.mem = s.mem ∧
        (u.dev.out o).raster = some r' ∧ r'.told = [0] ∧ r'.comp = r.comp ∧
        slice (u.dev.rdd (outIdx o) 0x11) 0 10 = time48Bytes (r.lineAt (r.top + r.height))) ∧
    (o < 128 → (d.out o).raster = some r → r.told = [] →
      ∃ (u : State) (r' : Raster), exec (.lineMatch t o) s = .next u ∧ u.mem = s.mem ∧
        (u.dev.out o).raster = some r' ∧ r'.told = [1] ∧ r'.comp = r.comp ∧
        slice (u.dev.rdd (outIdx o) 0x11) 10 10 = time48Bytes (r.lineAt (d.rd (outIdx o) 0x0E)))

/-- An IP output launches a packet on each leg whose port is up, and counts it in its sequence, sent or not (R97,
R208, R209, R210, R211, R355, 08_scanout.md). -/
def Obligations.IpPacketsLaunchInOrder : Prop :=
  ∀ (s : State) (t o j : Nat) (r : Raster),
    let d := s.found t
    let i := outIdx o
    let a := r.packet j
    let led := d.ledBy (outWing o)
    let k := led.rd i 0x20
    d.alive = true → 64 ≤ o → (d.out o).raster = some r → a.1 < r.height → (r.launchAt j).near 51 (Q.ofNat t) = true →
    r.comp = none → r.evals = [] →
    ∃ u : State, exec (.ipPacketLaunch t o j false) s = .next u ∧ u.mem = s.mem ∧
      (u.dev.out o).sendSeq = ((d.out o).sendSeq + 1) % 2 ^ 32 ∧
      (d.rd i 0x10 ≠ 3 → u.dev.outbox = []) ∧
      (d.rd i 0x10 = 3 → led.rdb i 1 = true → led.outLegs o = [0x20] → d.linkUp k = true → r.fmt = 3 → r.sampling = 0 →
        u.dev.outbox = [.media k
          ((d.seenBy (k / 2)).mediaHead k (led.rdd i 0x21) (led.rd i 0x22) (led.rd i 0x27) (led.rd i 0x2B)) "st2110-20"
          (rtpHeader (led.rd i 0x28) (decide (a.1 + 1 = r.height) && decide (r.width ≤ a.2.1 + a.2.2))
              ((d.out o).sendSeq % 65536) r.rtp (led.rd i 0x2D) ++
            (beBytes 2 ((d.out o).sendSeq / 65536) ++ beBytes 2 (a.2.2 * 15 / 4) ++ beBytes 2 a.1 ++ beBytes 2 a.2.1) ++
            packBits 10 (((d.setOut o { d.out o with raster := some r }).setOut o
              { d.out o with raster := some r, sendSeq := ((d.out o).sendSeq + 1) % 2 ^ 32 }).ipSamples o r a.1 a.2.1
                a.2.2 false))])

/-- DisplayPort: hot plug, unplug, IRQ, the end and the retry of training, and a commanded retraining (R197, R346,
08_scanout.md, 16_duplex.md). -/
def Obligations.DisplayPortCommandsComplete : Prop :=
  ∀ (s : State) (t p : Nat) (caps : SinkCaps) (params : List Byte) (by_ : Requester) (errs : List Nat),
    let d := s.found t
    let i := outIdx (4 * p)
    let e := foldNat (fun f k => f.addf i 0x40 k (errs.getD k 0) 4) 4 d
    let seen := d.setDp p { d.dp p with hpd := true, caps := some caps }
    (d.alive = true → (d.dp p).hpd = false → d.standby = true → exec (.dpHpdHigh t p caps) s = .next { s with
      dev := d.setDp p { d.dp p with hpd := true } }) ∧
    (d.alive = true → (d.dp p).hpd = false → d.standby = false → exec (.dpHpdHigh t p caps) s = .next { s with
      dev := ((((d.setDp p { d.dp p with hpd := true }).setDp p { d.dp p with hpd := true, caps := some caps }).wrd
        i 0x3C (padTo 512 caps.dpcd)).wrd i 0x3D (caps.edid.take 4096)).train p }) ∧
    ((d.dp p).hpd = true → d.standby = false →
      (d.sinkBelow p = true → d.train p = d.setLink p 5) ∧
      (d.sinkBelow p = false → d.train p =
        (d.setLink p 2).send (.dp p "train" [d.rd i 0x38, d.rd i 0x39, d.rd i 0x3A]))) ∧
    (d.alive = true → (d.dp p).hpd = true → exec (.dpUnplug t p) s = .next { s with
      dev := ((d.setDp p { d.dp p with hpd := false, caps := none }).addf i 0x40 5 1 4).setLink p 1 }) ∧
    (d.alive = true → (d.dp p).hpd = true → d.standby = false → exec (.dpIrqHpd t p true errs) s = .next { s with
      dev := (e.wr i 0x3E ((e.rd i 0x3E + 1) % 2 ^ 32)).train p }) ∧
    (d.alive = true → (d.dp p).hpd = true → d.standby = false →
      exec (.dpIrqHpd t p false errs) s = .next { s with dev := e }) ∧
    (d.alive = true → (d.dp p).link = 2 → d.duplex = false → exec (.dpTrainingDone t p true params) s = .next { s with
      dev := foldNat (fun f m => f.newSlots (4 * p + m)) 4
        ((d.setDp p { d.dp p with params := params }).setLink p 3) }) ∧
    (d.alive = true → (d.dp p).link = 2 → exec (.dpTrainingDone t p false params) s = .next { s with
      dev := ((d.setDp p { d.dp p with failedAt := t }).addf i 0x40 4 1 4).setLink p 4 }) ∧
    (d.alive = true → (d.dp p).link = 4 → (d.dp p).failedAt + 1000000000 ≤ t →
      exec (.dpTrainingRetry t p) s = .next { s with dev := d.train p }) ∧
    (d.grants by_ i 0x3F [1] → exec (.dpRetrain t by_ p) s = .next { s with
      dev := ((d.wr i 0x3E ((d.rd i 0x3E + 1) % 2 ^ 32)).train p).grantedTo by_ }) ∧
    (p < 16 → d.alive = true →
      ((d.dp p).hpd = false → d.standby = false → seen.sinkBelow p = false →
        ∃ u : State, exec (.dpHpdHigh t p caps) s = .next u ∧ u.mem = s.mem ∧ (u.dev.dp p).hpd = true ∧
          (u.dev.dp p).caps = some caps ∧ (u.dev.dp p).link = 2 ∧ u.dev.rdd i 0x3D = caps.edid.take 4096) ∧
      ((d.dp p).hpd = true → ∃ u : State, exec (.dpUnplug t p) s = .next u ∧ u.mem = s.mem ∧
          (u.dev.dp p).hpd = false ∧ (u.dev.dp p).caps = none ∧ (u.dev.dp p).link = 1 ∧
          u.dev.rdf i 0x40 5 = (d.rdf i 0x40 5 + 1) % 2 ^ 32) ∧
      ((d.dp p).hpd = true → d.standby = false → d.sinkBelow p = false →
        ∃ u : State, exec (.dpIrqHpd t p true errs) s = .next u ∧ u.mem = s.mem ∧ (u.dev.dp p).link = 2 ∧
          u.dev.rd i 0x3E = (d.rd i 0x3E + 1) % 2 ^ 32 ∧
          ∀ k, k < 4 → u.dev.rdf i 0x40 k = (d.rdf i 0x40 k + errs.getD k 0) % 2 ^ 32) ∧
      ((d.dp p).link = 2 → d.duplex = false →
        ∃ u : State, exec (.dpTrainingDone t p true params) s = .next u ∧ u.mem = s.mem ∧ (u.dev.dp p).link = 3 ∧
          (u.dev.dp p).params = params) ∧
      ((d.dp p).link = 2 → ∃ u : State, exec (.dpTrainingDone t p false params) s = .next u ∧ u.mem = s.mem ∧
          (u.dev.dp p).link = 4 ∧ (u.dev.dp p).failedAt = t ∧
          u.dev.rdf i 0x40 4 = (d.rdf i 0x40 4 + 1) % 2 ^ 32) ∧
      ((d.dp p).link = 4 → (d.dp p).failedAt + 1000000000 ≤ t → (d.dp p).hpd = true → d.standby = false →
        d.sinkBelow p = false → ∃ u : State, exec (.dpTrainingRetry t p) s = .next u ∧ u.mem = s.mem ∧
          (u.dev.dp p).link = 2) ∧
      (d.grants by_ i 0x3F [1] → (d.dp p).hpd = true → d.standby = false → d.sinkBelow p = false →
        ∃ u : State, exec (.dpRetrain t by_ p) s = .next u ∧ u.mem = s.mem ∧ (u.dev.dp p).link = 2 ∧
          u.dev.rd i 0x3E = (d.rd i 0x3E + 1) % 2 ^ 32))

/-- Encoder: selection, row decision, slice release, packets, picture records and following (R216, R232, R236,
R237, R239, R253, R254, 09_encoder.md, 10_rate_control.md). -/
def Obligations.EncoderCommandsComplete : Prop :=
  ∀ (s : State) (t c row tick : Nat) (lf : Bool) (ob : SliceObs) (p : EncPic) (r : RowRt)
      (q : OutNal) (m : RowRecordSet),
    let d := s.found t
    let i := encIdx c
    let led := d.ledBy (encWing c)
    d.alive = true →
    (d.rd i 6 ≠ 0 → d.encTakes c t = true → d.encTick c = some tick → (∀ x ∈ (d.enc c).pics, x.tick ≠ tick) →
      ∃ u : State, exec (.encoderSelection t c lf) s = .next u ∧ u.mem = s.mem ∧
      u.dev.rd i 0x24 = (d.rd i 0x24 + 1) % 2 ^ 64 ∧ (u.dev.enc c).pics.length = (d.enc c).pics.length + 1) ∧
    ((d.enc c).pics = [p] → p.rows.length = row → row < p.nRows → ∃ u : State,
      exec (.rowDecision t c row) s = .next u ∧ u.mem = s.mem ∧
      ∃ (p' : EncPic) (r' : RowRt), (u.dev.enc c).pics = [p'] ∧ p'.rows.length = row + 1 ∧ p'.rows.getLast? = some r' ∧
        r'.row = row ∧ r'.u = p.uAt row ∧ r'.actual = none) ∧
    ((d.enc c).pics = [p] → p.rows = [r] → r.row = 0 → r.actual = none → r.awaits = false → ob.fault = 0 →
      let k := (d.enc c).codeSlice p r ob.late
      ∃ (u : State) (p' : EncPic) (r' : RowRt), exec (.sliceRelease t c 0 ob) s = .next u ∧ u.mem = s.mem ∧
      (u.dev.enc c).nals.map (·.bytes) = (d.enc c).nals.map (·.bytes) ++ r.heads ++ [k.2] ∧
      (u.dev.enc c).pics = [p'] ∧ p'.bytes = p.bytes ++ r.heads.flatten ++ k.2 ∧ p'.rows = [r'] ∧
      r'.actual = some (8 * k.2.length) ∧ r'.ctus = k.1.ctus) ∧
    ((d.enc c).nals.head?.elim (d.rd i 0x11) (·.carriage) = 1 → d.encState c ≠ 0 → exec (.encoderPacketSend t c) s = .next { s with dev := d.encPacketTs c }) ∧
    (q.carriage ≠ 1 → (d.enc c).nals = [q] → (d.enc c).pics = [] →
      let f := nextFragment (led.rd i 0x1E) q
      exec (.encoderPacketSend t c) s = .next { s with
        dev := (d.setEnc c { d.enc c with nals := if q.bytes.length ≤ f.2 then [] else [{ q with sent := f.2 }] }).encRtp
          c (decide (q.bytes.length ≤ f.2)) q.ts "rtp-video" f.1 }) ∧
    (d.wingDown (encWing c) = false → d.duplex = false → (d.enc c).donePic = some p → p.closed = true →
      (d.enc c).begin_ ≠ 2 → (d.enc c).pics = [p] → Q.le (p.dAt (p.nRows - 1)) (Q.ofNat t) = true →
      d.resyncSlot = none → ∃ u : State,
      exec (.pictureRecord t c) s = .next u ∧ u.mem = s.mem ∧ (u.dev.enc c).pics = [] ∧
        u.dev.rd (0x3540 + c) 2 = p.count % 2 ^ 32 ∧ u.dev.rd (0x3540 + c) 3 = (d.rd (0x3540 + c) 3 + 1) % 2 ^ 64 ∧
        u.dev.rdc (0x3540 + c) 1 (p.count % 16) =
          p.recordBytes c p.inputCrc (crc32c p.bytes) 4) ∧
    (d.encState c = 3 → (d.enc c).pics = [] → d.resyncSlot = none →
      exec (.rowRecordReceived t c m) s = .next { s with
        dev := d.setEnc c { d.enc c with
          imports := ((d.enc c).imports.filter fun x => x.tick != m.tick && decide (m.tick < x.tick + 4)) ++ [m] } }) ∧
    (d.encState c = 3 → d.resyncSlot = none → (d.enc c).pics = [p] → p.rows = [r] → r.awaits = true →
      Q.le (r.u.add ((d.period (encWing c)).mul 2)) (Q.ofNat t) = true →
      ∃ u : State, exec (.followLost t c) s = .next u ∧ u.mem = s.mem ∧ u.dev.rd (rcIdx c) 8 = 3 ∧
        (u.dev.enc c).followCycle = none ∧ (u.dev.enc c).imports = []) ∧
    ((d.enc c).nals.head?.elim (d.rd i 0x11) (·.carriage) = 1 → d.encState c ≠ 0 →
      ∃ u : State, exec (.encoderPacketSend t c) s = .next u ∧ u.mem = s.mem ∧
        (u.dev.enc c).seq = ((d.enc c).seq + 1) % 2 ^ 32) ∧
    (q.carriage ≠ 1 → (d.enc c).nals = [q] → (d.enc c).pics = [] →
      let f := nextFragment (led.rd i 0x1E) q
      ∃ u : State, exec (.encoderPacketSend t c) s = .next u ∧ u.mem = s.mem ∧
        (u.dev.enc c).nals = (if q.bytes.length ≤ f.2 then [] else [{ q with sent := f.2 }]) ∧
        (u.dev.enc c).seq = ((d.enc c).seq + 1) % 2 ^ 32 ∧ (d.encSends c = false → u.dev.outbox = []) ∧
        (d.encSends c = true → led.encLegs c = [0x15] → d.linkUp (led.rd i 0x15) = true →
          u.dev.outbox = [.media (led.rd i 0x15) ((d.seenBy (led.rd i 0x15 / 2)).mediaHead (led.rd i 0x15)
            (led.rdd i 0x16) (led.rd i 0x17) (led.rd i 0x1C) (led.rd i 0x1F)) "rtp-video"
            (rtpHeader (led.rd i 0x1D) (decide (q.bytes.length ≤ f.2)) ((d.enc c).seq % 65536) q.ts (led.rd i 0x20) ++
              f.1)]))

/-- HELLO allocates a session number and its key, AUTH opens it, and both time out (R75, R76,
03_object_dictionary.md). -/
def Obligations.OpeningASessionCompletes : Prop :=
  ∀ (s : State) (t n addr : Nat) (via : Transport) (g : Datagram) (h : WdpHead) (x : Session) (kv : List Byte),
    let d := s.found t
    let p := wdpPayload g.bytes
    let nd := (d.freeBytes 16).1
    (d.wdpArrives via g → wdpHead g.bytes = some h → h.ty = 1 → h.sess = 0 → p.length = 20 →
      allZero (wdpTagOf g.bytes) = true → d.levelKeyFor via (byteAt p 0) = some kv → d.isBlocked via = false →
      d.freeSession via = some n → s.dev.pwr.resetAsked = false →
      ∃ u : State, exec (.hello t via g) s = .next u ∧ u.mem = s.mem ∧ u.dev.regs = s.dev.regs ∧
        u.dev.session n = some { num := n, level := byteAt p 0, via := via, openedAt := t, lastValid := t
                                 key := wdpTag kv ([0x57, 0x44, 0x50, 0x31] ++ slice p 4 16 ++ nd ++ leBytes 2 n ++
                                   leBytes 1 (byteAt p 0)) }) ∧
    (d.wdpArrives via g → wdpHead g.bytes = some h → h.ty = 3 → viaUses via h.sess = true →
      d.session h.sess = some x → x.isOpen = false → s.dev.pwr.resetAsked = false →
      wdpTagOf g.bytes = wdpTag x.key (wdpSigned g.bytes) → t ≤ x.openedAt + 2000000000 → h.seq = 1 →
      let msg := wdpMessage x.key 3 h.sess 1 stOk 1 []
      exec (.auth t via g) s = .next { s with
        dev := (d.setSession h.sess (some { x with
          isOpen := true, openedAt := t, lastValid := t, lastSeq := 1, cached := msg, requests := 1 })).respond via msg }) ∧
    (d.wdpArrives via g → wdpHead g.bytes = some h → h.ty = 3 → viaUses via h.sess = true →
      d.session h.sess = some x → x.isOpen = false → s.dev.pwr.resetAsked = false →
      wdpTagOf g.bytes ≠ wdpTag x.key (wdpSigned g.bytes) →
      ∃ u : State, exec (.auth t via g) s = .next u ∧ u.mem = s.mem ∧
        u.dev.rd 0x2040 4 = (d.rd 0x2040 4 + 1) % 2 ^ 32 ∧
        (∀ y, u.dev.session h.sess = some y → y.isOpen = false)) ∧
    (d.session n = some x → x.isOpen = false → x.openedAt + 2000000000 ≤ t →
      exec (.challengeTimeout t n) s = .next { s with dev := d.setSession n none }) ∧
    (Tab.getD d.blocked addr 0 ≤ t → exec (.wdpBlockExpiry t addr) s = .next { s with
      dev := { d with blocked := Tab.setD d.blocked addr 0 0 } }) ∧
    (d.alive = true → d.session n = some x → x.isOpen = true → x.lastValid + d.rd 0x2040 3 * 1000000000 ≤ t →
      exec (.sessionTimeout t n) s = .next { s with dev := d.closeSession n 1 } ∧ (d.closeSession n 1).session n = none)

/-- Requests of a session are served in the order of their sequence numbers, and a repeated one is answered again
(R73, R76, R77, 03_object_dictionary.md). -/
def Obligations.RequestsKeepTheirSequence : Prop :=
  ∀ (s : State) (t ty : Nat) (via : Transport) (g : Datagram) (h : WdpHead) (x : Session) (c : Instr),
    let d := s.found t
    let x' := { x with lastValid := t }
    let e := d.setSession h.sess (some x')
    (c, ty) ∈ [(Instr.close t via g, 0x04), (.echo t via g, 0x05), (.read t via g, 0x10), (.write t via g, 0x11),
      (.stage t via g, 0x12), (.commitAtTick t via g, 0x13), (.discard t via g, 0x14), (.cancel t via g, 0x15),
      (.subscribe t via g, 0x18)] →
    d.wdpReady via g ty h x → s.dev.pwr.resetAsked = false →
    (h.seq = x.lastSeq + 1 →
      let r := Dev.finishReset (Dev.drainEarly s.mem via h.sess 8 (Dev.serve s.mem via h.sess g.bytes e), s.mem)
      exec c s = .next { s with dev := r.1, mem := r.2 }) ∧
    (h.seq = x.lastSeq → exec c s = .next { s with dev := e.respond via x.cached }) ∧
    (h.seq < x.lastSeq → exec c s = .next { s with
      dev := e.respond via (wdpMessage x.key ty h.sess 1 stSequence h.seq []) }) ∧
    (x.lastSeq + 1 < h.seq → x.early.length < 8 → (∀ y ∈ x.early, y.1 ≠ h.seq) →
      ∃ u : State, exec c s = .next u ∧ u.mem = s.mem ∧ u.dev.regs = s.dev.regs ∧ u.dev.outbox = [] ∧
        u.dev.session h.sess = some { x' with early := x.early ++ [(h.seq, g.bytes)] })

/-- What each request of an open session does when its turn comes (R63, R64, R65, R66, R67, R68, R77, R78, R79,
R80). -/
def Obligations.RequestsDoWhatTheyAsk : Prop :=
  ∀ (s : State) (t : Nat) (via : Transport) (g : Datagram) (h : WdpHead) (x y : Session) (rs : List WRec) (k : Nat)
      (stage : List Rec) (b : Sub) (v : Byte) (row : Row) (bat : Batch),
    let d := s.found t
    let n := h.sess
    let p := wdpPayload g.bytes
    let x' := { x with lastValid := t }
    let e := d.setSession n (some x')
    let served := fun (u : State) (y : Session) (st : Nat) (body : List Byte) =>
      u.dev.session n = some { y with
        lastSeq := h.seq, cached := wdpMessage x.key h.ty n 1 st h.seq body, requests := y.requests + 1 }
    x.num = n → h.seq = x.lastSeq + 1 → x.early = [] → s.dev.pwr.resetAsked = false →
    (d.wdpReady via g 0x05 h x → ∃ u, exec (.echo t via g) s = .next u ∧ u.mem = s.mem ∧ u.dev.regs = s.dev.regs ∧
      served u x' stOk []) ∧
    (d.wdpReady via g 0x10 h x → ∃ u, exec (.read t via g) s = .next u ∧ u.mem = s.mem ∧
      served u x' (e.wdpRead x' p).1.st (e.wdpRead x' p).1.body ∧ u.dev.regs = (e.wdpRead x' p).2.regs) ∧
    (d.wdpReady via g 0x11 h x → (Dev.wdpWrite s.mem e x' p).2.session n = some y → y.early = [] →
      (Dev.wdpWrite s.mem e x' p).2.pwr.resetAsked = false →
      ∃ u, exec (.write t via g) s = .next u ∧ u.mem = s.mem ∧ u.dev.regs = (Dev.wdpWrite s.mem e x' p).2.regs ∧
        served u y (Dev.wdpWrite s.mem e x' p).1.st (Dev.wdpWrite s.mem e x' p).1.body) ∧
    (d.wdpReady via g 0x12 h x → parseWrites 119 p = some rs → e.stageRecs x.level rs 0 x.stage = (stOk, k, stage) →
      stage.length ≤ 4096 → stageBytes stage ≤ 64 * 2 ^ 20 →
      ∃ u, exec (.stage t via g) s = .next u ∧ u.mem = s.mem ∧ u.dev.regs = s.dev.regs ∧
        served u { x' with stage := stage } stOk (leBytes 2 stage.length ++ leBytes 2 0xFFFF)) ∧
    (d.wdpReady via g 0x13 h x → d.pwr.state = 0 → p.length = 12 →
      let r := (e.setStage n []).commit n (byteAt p 0) (fieldAt p 4 8) x.stage
      r.2.session n = some y → y.early = [] → r.2.pwr.resetAsked = false →
      ∃ u, exec (.commitAtTick t via g) s = .next u ∧ u.mem = s.mem ∧ u.dev.batches = r.2.batches ∧
        served u y r.1.st r.1.bytes) ∧
    (d.wdpReady via g 0x14 h x → ∃ u, exec (.discard t via g) s = .next u ∧ u.mem = s.mem ∧ u.dev.regs = s.dev.regs ∧
      served u { x' with stage := [] } stOk []) ∧
    (d.wdpReady via g 0x15 h x → d.pwr.state = 0 → p.length = 4 →
      let r := e.cancel x.by (fieldAt p 0 4)
      r.2.session n = some y → y.early = [] → r.2.pwr.resetAsked = false →
      ∃ u, exec (.cancel t via g) s = .next u ∧ u.mem = s.mem ∧ u.dev.batches = r.2.batches ∧ served u y r.1 []) ∧
    (d.wdpReady via g 0x18 h x → 12 ≤ p.length → p.length = 12 + 4 * fieldAt p 8 2 → byteAt p 2 ≠ 0 →
      b = { num := byteAt p 0, kind := byteAt p 1, period := byteAt p 2, wing := byteAt p 3, param := fieldAt p 4 4
            objs := (chunks 4 (p.drop 12)).map fun z => { idx := fieldAt z 0 2, sub := byteAt z 2 } } →
      e.subStatus b = stOk →
      ∃ u, exec (.subscribe t via g) s = .next u ∧ u.mem = s.mem ∧ u.dev.regs = s.dev.regs ∧
        served u { x' with subs := (x.subs.filter fun z => z.num != b.num) ++ [b] } stOk []) ∧
    (d.wdpReady via g 0x04 h x → p.length ≠ 2 → ∃ u, exec (.close t via g) s = .next u ∧ u.mem = s.mem ∧
      u.dev.regs = s.dev.regs ∧ u.dev.session n = none) ∧
    (d.wdpReady via g 0x10 h x → p.length = 8 → (byteAt p 3).testBit 0 = false →
      let i := fieldAt p 0 2
      let z := e.readObj i (byteAt p 2)
      objRow i (byteAt p 2) = some row → row.ty ≠ .dom → e.readStatus i (byteAt p 2) = stOk → z.length ≤ 1000 → i ≠ 0x2300 →
      ∃ u, exec (.read t via g) s = .next u ∧ u.mem = s.mem ∧ u.dev.regs = s.dev.regs ∧
        served u x' stOk (leBytes 2 i ++ leBytes 1 (byteAt p 2) ++ leBytes 1 stOk ++ leBytes 2 z.length ++ leBytes 2 0 ++
          pad4 z)) ∧
    (d.wdpReady via g 0x11 h x → parseWrites 119 p = some [⟨0x2043, 7, true, 0, [v]⟩] →
      d.commandStatus x.by 0x2043 7 [v] = stOk →
      ∃ (u : State) (body : List Byte), exec (.write t via g) s = .next u ∧ u.mem = s.mem ∧
        u.dev.rd 0x2043 7 = v.toNat ∧ served u x' stOk body ∧ slice body 0 4 = leBytes 2 1 ++ leBytes 2 0xFFFF) ∧
    (d.wdpReady via g 0x13 h x → d.pwr.state = 0 → p.length = 12 → x.stage ≠ [] → d.duplex = false →
      let w := byteAt p 0
      let i := fieldAt p 4 8
      let f := e.setStage n []
      let j := f.jobResults (f.setRecs x.stage) x.stage
      f.commitStatus w i x.stage = stOk → (j.admitAt (j.tickTime w i) x.stage).st = stOk →
      ∃ (u : State) (body : List Byte), exec (.commitAtTick t via g) s = .next u ∧ u.mem = s.mem ∧
        u.dev.batches = d.batches ++ [{ num := d.batchNum + 1, sess := n, wing := w, tick := i, recs := x.stage }] ∧
        u.dev.batchNum = d.batchNum + 1 ∧ served u { x' with stage := [] } stOk body ∧
        slice body 0 4 = leBytes 4 (d.batchNum + 1)) ∧
    (d.wdpReady via g 0x15 h x → d.pwr.state = 0 → p.length = 4 → d.duplex = false → d.batches = [bat] →
      bat.num = fieldAt p 0 4 → bat.done = [] → bat.sess = n ∨ 3 ≤ x.level → t + d.commitLead ≤ d.batchTime bat →
      ∃ u, exec (.cancel t via g) s = .next u ∧ u.mem = s.mem ∧ u.dev.regs = s.dev.regs ∧ u.dev.batches = [] ∧
        served u x' stOk [])

/-- NOTIFY is acknowledged or sent again, and the mailbox channels carry messages and free their ring (R82, R88,
03_object_dictionary.md). -/
def Obligations.NotifyAndMailboxCommandsComplete : Prop :=
  ∀ (s : State) (t n ch off : Nat) (via : Transport) (g : Datagram) (h : WdpHead) (x : Session) (v : Unacked)
      (rspRead : Bool),
    let d := s.found t
    let m₀ := if rspRead = true then d.setMbx ch { d.mbx ch with valid := false } else d
    let m := m₀.setMbx ch { m₀.mbx ch with req := g.bytes }
    let e := m.setSession h.sess (some { x with lastValid := t })
    (d.wdpReady via g 0x20 h x → h.flags.testBit 0 = true → s.dev.pwr.resetAsked = false →
      ∃ u, exec (.notifyAcknowledge t via g) s = .next u ∧ u.mem = s.mem ∧ u.dev.regs = s.dev.regs ∧
        u.dev.session h.sess = some { x with
          lastValid := t, unacked := x.unacked.filter fun w => w.nseq != fieldAt (wdpPayload g.bytes) 0 4 }) ∧
    (d.alive = true → d.session n = some x → x.isOpen = true → x.unacked.find? (fun w => w.nseq == v.nseq) = some v →
      v.sent < 5 → exec (.notifyResend t n v.nseq) s = .next { s with
        dev := (d.setSession n (some { x with
          unacked := x.unacked.map fun w => if w.nseq = v.nseq then { w with sent := w.sent + 1 } else w })).sendDev
            n 0x20 0 v.body }) ∧
    (d.alive = true → d.session n = some x → x.isOpen = true → x.unacked.find? (fun w => w.nseq == v.nseq) = some v →
      5 ≤ v.sent → ∃ u, exec (.notifyResend t n v.nseq) s = .next u ∧ u.mem = s.mem ∧ u.dev.regs = s.dev.regs ∧
        u.dev.session n = some { x with unacked := x.unacked.filter fun w => w.nseq != v.nseq, lost := x.lost + 1 }) ∧
    (m.wdpReady (.pcie ch) g h.ty h x → d.wdpServed (.pcie ch) = true → h.ty ≠ 1 → h.ty ≠ 0x20 → h.seq = x.lastSeq + 1 →
      let r := Dev.finishReset (Dev.drainEarly s.mem (.pcie ch) h.sess 8 (Dev.serve s.mem (.pcie ch) h.sess g.bytes e), s.mem)
      exec (.mailboxDoorbell t ch g rspRead) s = .next { s with dev := r.1, mem := r.2 }) ∧
    (d.alive = true → d.wdpServed (.pcie ch) = true → (d.mbx ch).waiting = [] →
      exec (.evtTail t ch off) s = .next { s with dev := d.setMbx ch { d.mbx ch with tail := off % eventRing } }) ∧
    (m.wdpReady (.pcie ch) g 0x05 h x → d.wdpServed (.pcie ch) = true → h.seq = x.lastSeq + 1 → x.early = [] →
      s.dev.pwr.resetAsked = false →
      let msg := wdpMessage x.key 0x05 h.sess 1 stOk h.seq []
      ∃ u, exec (.mailboxDoorbell t ch g rspRead) s = .next u ∧ u.mem = s.mem ∧ u.dev.regs = s.dev.regs ∧
        u.dev.mbx ch = { d.mbx ch with req := g.bytes, rsp := msg, valid := true } ∧
        u.dev.outbox = [.wdp (.pcie ch) msg, .msix (2 * ch)] ∧
        u.dev.session h.sess = some { x with
          lastValid := t, lastSeq := h.seq, cached := msg, requests := x.requests + 1 }) ∧
    (d.wdpServed (.pcie ch) = true → wdpHead g.bytes = none →
      ∃ u, exec (.mailboxDoorbell t ch g true) s = .next u ∧ u.mem = s.mem ∧ u.dev.regs = s.dev.regs ∧
        u.dev.mbx ch = { d.mbx ch with req := g.bytes, valid := false } ∧ u.dev.wdpDropped = d.wdpDropped + 1)

/-- CANopen: USDO reads and writes, the commit of its stage, RPDOs, NMT and the heartbeat (R83, R84, R85, R87,
03_object_dictionary.md). -/
def Obligations.CanopenCommandsComplete : Prop :=
  ∀ (s : State) (t i sub tick n : Nat) (data : List Byte) (last : Bool) (e : Dev) (v : Byte),
    let d := s.found t
    (d.alive = true → d.canSends = true → d.readStatus i sub = stOk →
      exec (.usdoRead t i sub) s = .next { s with dev := (d.send (.usdo 0 (d.readObj i sub))).readEffect i sub }) ∧
    (d.alive = true → d.canSends = true → d.readStatus i sub ≠ stOk →
      exec (.usdoRead t i sub) s = .next { s with
        dev := d.send (.usdo (d.abortCode false i (d.readStatus i sub)) []) }) ∧
    (d.alive = true → d.canSends = true → Dev.usdoWritten s.mem i sub data last d = (stOk, e) →
      exec (.usdoWrite t i sub data last) s = .next { s with dev := e.send (.usdo 0 []) }) ∧
    (d.alive = true → d.canSends = true → d.pwr.state = 0 → d.valueStatus d.canBy.level 0x2043 6 (leBytes 8 tick) = stOk →
      tick < 2 ^ 64 →
      let r := ({ d with canStage := [] } : Dev).commit d.canSess (d.rd 0x2043 7) tick d.canStage
      (r.1.st = stOk → exec (.canopenCommitTick t tick) s = .next { s with
        dev := (r.2.wr 0x2043 8 r.1.num).send (.usdo 0 []) }) ∧
      (r.1.st ≠ stOk → exec (.canopenCommitTick t tick) s = .next { s with
        dev := r.2.send (.usdo (d.abortCode true 0x2043 r.1.st) []) })) ∧
    (d.alive = true → d.canSends = true → n < 8 → d.pdoOn (0x1400 + n) = true →
      (d.mapping (0x1600 + n)).foldl (fun a m => a + m.2.2) 0 ≤ data.length →
      exec (.rpdoReceived t n data) s = .next { s with dev := Dev.rpdoWrite s.mem (d.mapping (0x1600 + n)) data d }) ∧
    (d.alive = true → d.bootRd 0x2043 1 ≠ 0 →
      exec (.nmtCommand t .start) s = .next { s with dev := { d with nmt := .operational } } ∧
      exec (.nmtCommand t .stop) s = .next { s with dev := { d with nmt := .stopped } } ∧
      exec (.nmtCommand t .preOperational) s = .next { s with dev := { d with nmt := .preOperational } } ∧
      ∀ c, c = .resetNode ∨ c = .resetCommunication → ∃ u, exec (.nmtCommand t c) s = .next u ∧ u.mem = s.mem ∧
        u.dev.nmt = .preOperational ∧ u.dev.outbox = [.can (0x700 + d.bootRd 0x2043 2) [0]] ∧
        u.dev.pwr = s.dev.pwr ∧ u.dev.sessions = s.dev.sessions) ∧
    (d.alive = true → d.bootRd 0x2043 1 ≠ 0 → d.rd 0x1017 0 ≠ 0 →
      exec (.producerHeartbeat t) s = .next { s with dev := d.send (.can (0x700 + d.bootRd 0x2043 2) [nmtByte d.nmt]) }) ∧
    (d.alive = true → d.canSends = true → d.readStatus i sub = stOk → i ≠ 0x2300 →
      ∃ u, exec (.usdoRead t i sub) s = .next u ∧ u.mem = s.mem ∧ u.dev.regs = s.dev.regs ∧
        u.dev.outbox = [.usdo 0 (d.readObj i sub)]) ∧
    (d.alive = true → d.canSends = true → d.valueStatus d.canBy.level 0x2043 7 [v] = stOk →
      (∃ u, exec (.usdoWrite t 0x2043 7 [v] true) s = .next u ∧ u.mem = s.mem ∧ u.dev.rd 0x2043 7 = v.toNat ∧
        u.dev.outbox = [.usdo 0 []]) ∧
      (n < 8 → d.pdoOn (0x1400 + n) = true → d.mapping (0x1600 + n) = [(0x2043, 7, 1)] →
        ∃ u, exec (.rpdoReceived t n [v]) s = .next u ∧ u.mem = s.mem ∧ u.dev.rd 0x2043 7 = v.toNat)) ∧
    (d.alive = true → d.canSends = true → d.pwr.state = 0 → d.valueStatus d.canBy.level 0x2043 6 (leBytes 8 tick) = stOk →
      tick < 2 ^ 64 → d.duplex = false → d.canStage ≠ [] →
      let f : Dev := { d with canStage := [] }
      let w := d.rd 0x2043 7
      let j := f.jobResults (f.setRecs d.canStage) d.canStage
      f.commitStatus w tick d.canStage = stOk → (j.admitAt (j.tickTime w tick) d.canStage).st = stOk →
      ∃ u, exec (.canopenCommitTick t tick) s = .next u ∧ u.mem = s.mem ∧ u.dev.canStage = [] ∧
        u.dev.batches = d.batches ++
          [{ num := d.batchNum + 1, sess := d.canSess, wing := w, tick := tick, recs := d.canStage }] ∧
        u.dev.rd 0x2043 8 = d.batchNum + 1 ∧ u.dev.outbox = [.usdo 0 []])

/-- Level keys, saving and its end, and the defaults (R69, R70, R71, R72, R76, 03_object_dictionary.md). -/
def Obligations.PersistentObjectsCompleteTheirCommands : Prop :=
  ∀ (s : State) (t level sig k : Nat) (by_ : Requester) (key : List Byte) (x : Saved),
    let d := s.found t
    (d.grants by_ 0x2041 (level % 4 + 1) key → ∃ u, exec (.levelKeyWrite t by_ level key) s = .next u ∧ u.mem = s.mem ∧
      u.dev.rdd 0x2041 (level % 4 + 1) = key) ∧
    (d.grants by_ 0x1010 1 (leBytes 4 sig) → sig ≠ 0x65766173 →
      exec (.saveAll t by_ sig) s = .next { s with dev := d.send (.answer by_ stRange none) }) ∧
    (d.grants by_ 0x1010 1 (leBytes 4 0x65766173) → d.anyRuns [4, 5, 9] = false → d.idleSlot = some k →
      ∃ u, exec (.saveAll t by_ 0x65766173) s = .next u ∧ u.mem = s.mem ∧ u.dev.saving = some d.captureSaved ∧
        u.dev.rd 0x2045 4 = k ∧ u.dev.slotState k = 1 ∧ u.dev.rd (0x2080 + k) 1 = 9 ∧ u.dev.flash = s.dev.flash) ∧
    (d.alive = true → d.slotOfKind 9 = some k → d.saving = some x → ∃ u, exec (.saveDone t 0) s = .next u ∧ u.mem = s.mem ∧
      u.dev.saving = none ∧ u.dev.slotState k = 2 ∧ u.dev.rd 0x2045 2 = time48 t ∧
      u.dev.flash = { d.flash with
        saves := Tab.setD d.flash.saves ((d.newestSave []).elim 0 fun c => 1 - c.1) (some x) none }) ∧
    (d.grants by_ 0x1011 1 (leBytes 4 sig) → sig ≠ 0x64616F6C →
      exec (.loadDefaults t by_ sig) s = .next { s with dev := d.send (.answer by_ stRange none) }) ∧
    (d.grants by_ 0x1011 1 (leBytes 4 0x64616F6C) → d.duplex = false →
      ∃ u, exec (.loadDefaults t by_ 0x64616F6C) s = .next u ∧ u.mem = s.mem ∧ u.dev.flash = s.dev.flash ∧
        ∀ i sub (r : Row), sub < 256 → objRow i sub = some r → r.com = .p →
          u.dev.rd i sub = regDefault (regKey i sub 0) ∧ u.dev.rdd i sub = domDefault (domKey i sub 0))

/-- A refused access changes no byte and no write queue, and is answered as refused (R324, R329, R330, R331,
15_access_control.md). -/
def Obligations.AnAccessIsRefusedWhole : Prop :=
  ∀ (s : State) (t : Nat) (a : Access) (o : MemObs),
    let d := s.found t
    d.memUp = true → accFits a = true →
    (d.checkAccess a = none ↔ ∀ k, k < (a.addr % 4096 + a.len + 4095) / 4096 →
      (d.checkPage a ((a.addr / 4096 + k) * 4096)).kind = 0) ∧
    ∀ ffb v, d.checkAccess a = some (ffb, v) →
      v.kind ≠ 0 ∧ v = d.checkPage a (ffb / 4096 * 4096) ∧ a.addr ≤ ffb ∧ ffb < a.addr + a.len ∧
      (∀ b, a.addr ≤ b → b < ffb → b / 4096 ≠ ffb / 4096 → (d.checkPage a (b / 4096 * 4096)).kind = 0) ∧
      ∃ u : State, exec (.fabricAccess t a o) s = .next u ∧ u.mem = s.mem ∧ u.dev.pcs = s.dev.pcs ∧
        u.dev.words = s.dev.words ∧
        u.dev.outbox.getLast? = some (if a.op = 1 then .fabric (accReq a) "write refused" [] []
          else .fabric (accReq a) "read refused" [] (List.range ((a.addr % 32 + a.len + 31) / 32)))

/-- Allowed accesses, their retirement, the swap of an active set, and the clearing of violations (R306, R307,
R324, R335, R336, R337, R338, 15_access_control.md, 14_memory.md). -/
def Obligations.AllowedAccessesComplete : Prop :=
  ∀ (s : State) (t p w off : Nat) (a : Access) (o : MemObs) (by_ : Requester) (mask : Nat) (data : List Byte),
    let d := s.found t
    let x := d.part p
    let row := slice (d.rdd 0x2044 2) (16 * w) 16
    (d.memUp = true → accFits a = true → d.checkAccess a = none →
      (a.op = 1 → hbmOf a.addr = none → exec (.fabricAccess t a o) s = .next { s with
        dev := ((d.inFlight a).outsideWrite a.addr (padTo a.len a.data)).send (.fabric (accReq a) "written" [] []) }) ∧
      (a.op = 1 → (hbmOf a.addr).isSome = true →
        let r := ((d.inFlight a).activates a o.acts).memWrite s.mem a.addr (padTo a.len a.data)
        exec (.fabricAccess t a o) s = .next { s with
          dev := r.1.send (.fabric (accReq a) "written" [] []), mem := r.2 }) ∧
      (a.op ≠ 1 → (hbmOf a.addr).isSome = true →
        let r := ((d.inFlight a).activates a o.acts).memRead s.mem a.addr a.len (accReq a) o.errs
        exec (.fabricAccess t a o) s = .next { s with
          dev := (if r.2.1.isEmpty then r.2.2 else r.2.2.denied a).send (.fabric (accReq a) "read" r.1 r.2.1) }) ∧
      (a.op ≠ 1 → hbmOf a.addr = none → ∃ u, exec (.fabricAccess t a o) s = .next u ∧ u.mem = s.mem ∧
        u.dev.outbox = [.fabric (accReq a) "read" ((List.range a.len).map fun k =>
          (((d.inFlight a).freeBytes a.len).2.outsideByte (a.addr + k)).getD
            (((d.inFlight a).freeBytes a.len).1.getD k 0)) []])) ∧
    (d.alive = true → x.old = 0 → exec (.accessRetire t p) s = .next { s with
      dev := d.setPart p { x with flying := x.flying - 1 } }) ∧
    (d.alive = true → 0 < x.old → exec (.accessRetire t p) s = .next { s with
      dev := (d.setPart p { x with old := x.old - 1 }).drained p }) ∧
    (d.alive = true → p < 16 → x.next ≠ 0 → ∃ u, exec (.curatorSwapPoint t p) s = .next u ∧ u.mem = s.mem ∧
      u.dev.regs = s.dev.regs ∧ (u.dev.part p).set = x.next - 1 ∧ (u.dev.part p).next = 0 ∧
      (u.dev.part p).old = x.old + x.flying ∧ (u.dev.part p).flying = 0 ∧ (u.dev.part p).swapAt = t ∧
      (u.dev.part p).swaps = (x.swaps + 1) % 2 ^ 32) ∧
    (d.alive = true → p < 16 → x.next ≠ 0 → x.asked + 1000000 ≤ t → exec (.swapLate t p) s = .next { s with
      dev := d.raise uFabric 0x0F03 p ((t - x.asked) / 1000000) sevDegraded }) ∧
    (d.grants by_ 0x2504 3 (leBytes 4 mask) → mask < 2 ^ 21 →
      ∃ u, exec (.violationClear t by_ mask) s = .next u ∧ u.mem = s.mem ∧ u.dev.outbox = [.answer by_ stOk none] ∧
        ∀ q, q < 21 →
          (mask.testBit q = true → u.dev.rdc 0x2504 1 q = [] ∧ u.dev.rdf 0x2504 2 (2 * q) = 0) ∧
          (mask.testBit q = false → u.dev.rdc 0x2504 1 q = d.rdc 0x2504 1 q ∧
            u.dev.rdf 0x2504 2 (2 * q) = d.rdf 0x2504 2 (2 * q)) ∧
          u.dev.rdf 0x2504 2 (2 * q + 1) = d.rdf 0x2504 2 (2 * q + 1)) ∧
    (d.memUp = true → d.bootRd 0x2044 1 ≠ 0 → (fieldAt row 14 2).testBit 0 = false ∨ fieldAt row 8 4 < off + data.length →
      exec (.pcieWindowWrite t w off data) s = .next { s with
        dev := d.wr 0x2044 3 (satInc 32 (d.rd 0x2044 3)) }) ∧
    (d.memUp = true → d.bootRd 0x2044 1 ≠ 0 → (fieldAt row 14 2).testBit 0 = true → off + data.length ≤ fieldAt row 8 4 →
      data ≠ [] → data.length ≤ 256 →
      let r := d.access s.mem { cls := clsPcie, inst := w, mode := 0, op := 1, addr := fieldAt row 0 8 + off,
                                len := data.length, data := data } { errs := [], acts := [] }
      exec (.pcieWindowWrite t w off data) s = .next { s with dev := r.1, mem := r.2 }) ∧
    (d.memUp = true →
      let b : Access := { cls := clsPcie, inst := w, mode := 0, op := 1, addr := fieldAt row 0 8 + off
                          len := data.length, data := data }
      let wrote := fun (u : State) (a : Access) => u.mem = s.mem ∧ ∀ j, j < 32 →
        (u.dev.wordBytes u.mem (a.addr / 32)).getD j 0 =
          if a.addr % 32 ≤ j ∧ j < a.addr % 32 + a.len then a.data.getD (j - a.addr % 32) 0
          else (d.wordBytes s.mem (a.addr / 32)).getD j 0
      let inWord := fun (a : Access) => d.checkAccess a = none ∧ (hbmOf a.addr).isSome = true ∧
        a.addr % 32 + a.len ≤ 32 ∧ (d.pc (placeOf (a.addr / 32 * 32)).pc).state = 0 ∧
        (d.pc (placeOf (a.addr / 32 * 32)).pc).queue.length < 47
      (accFits a = true → a.op = 1 → a.data.length = a.len → inWord a →
        ∃ u, exec (.fabricAccess t a o) s = .next u ∧ wrote u a) ∧
      (d.bootRd 0x2044 1 ≠ 0 → (fieldAt row 14 2).testBit 0 = true → off + data.length ≤ fieldAt row 8 4 → data ≠ [] →
        inWord b → ∃ u, exec (.pcieWindowWrite t w off data) s = .next u ∧ wrote u b))

/-- A read gives each byte the newest write that its controller has accepted, and draining changes no read (R306,
R307, 14_memory.md). -/
def Obligations.AReadSeesTheNewestAcceptedWrite : Prop :=
  (∀ (d : Dev) (mem : Mem) (w off : Nat) (data : List Byte),
    (d.pc (placeOf (w * 32)).pc).state = 0 → (d.pc (placeOf (w * 32)).pc).queue.length < 47 →
    off + data.length ≤ 32 →
    (d.acceptWrite mem w off data).2 = mem ∧
    ∀ j, j < 32 → ((d.acceptWrite mem w off data).1.wordBytes mem w).getD j 0 =
      if off ≤ j ∧ j < off + data.length then data.getD (j - off) 0 else (d.wordBytes mem w).getD j 0) ∧
  ∀ (d : Dev) (mem : Mem) (w : Nat),
    (∀ p q, p < 64 → q ∈ (d.pc p).queue → p = (placeOf (q.word * 32)).pc ∧ q.off + q.data.length ≤ 32) →
    d.words = [] → (∀ p, (d.pc p).poison = false) → ((d.drainAll mem).1.wordBytes (d.drainAll mem).2 w) = d.wordBytes mem w

/-- Memory: draining, refresh, parity errors, recovery, temperature, disturbance windows and maintenance (R305,
R306, R308, R309, R310, R317, R49, 14_memory.md). -/
def Obligations.HbmEventsComplete : Prop :=
  ∀ (s : State) (t p bank cmd m k e : Nat) (c : Int) (ok : Bool) (row : Cand),
    let d := s.found t
    let x := d.pc p
    let q := d.drainAll s.mem
    (d.memUp = true →
      let n := max (x.queue.length - 16) (x.queue.takeWhile fun w => decide (w.at_ + 2000 ≤ t)).length
      let o := issueOrder n x.rotate (x.queue.take n)
      let r := o.1.foldl applyWrite (d.setPcRt p { x with queue := x.queue.drop n, rotate := o.2 }, s.mem)
      exec (.writeQueueDrain t p) s = .next { s with dev := r.1, mem := r.2 }) ∧
    (d.alive = true → x.state = 0 → d.rd (hbmIdx (p / 32)) 1 = 1 → exec (.refresh t p bank) s = .next { s with
      dev := d.send (.pin "HBM_REFRESH" [p, bank, d.rd (hbmIdx (p / 32)) 3]) }) ∧
    (d.alive = true → x.state = 0 → x.cmd ≠ cmd + 1 → exec (.hbmParityError t p cmd) s = .next { s with
      dev := d.setPcRt p { x with cmd := cmd + 1, streak := 0, replays := satInc 32 x.replays } }) ∧
    (d.alive = true → x.state = 0 → x.cmd = cmd + 1 → x.streak = 2 → exec (.hbmParityError t p cmd) s = .next { s with
      dev := (d.setPcRt p { x with cmd := 0, streak := 0 }).pcFault p 3 } ∧
      (((d.setPcRt p { x with cmd := 0, streak := 0 }).pcFault p 3).pc p).state = 1) ∧
    (d.alive = true → x.state = 2 → x.trained = true → exec (.pcRecovered t p true) s = .next { s with
      dev := (d.setPcRt p { x with state := 0, trained := false }).raise (uHb (p / 32)) 0x0E04 p 0 sevInfo }) ∧
    (d.alive = true → x.state = 2 → exec (.pcRecovered t p false) s = .next { s with dev := d.pcFault p 3 }) ∧
    (d.alive = true → -128 ≤ c → c < 128 → ∃ u, exec (.hbmTemperature t m c) s = .next u ∧ u.mem = s.mem ∧
      u.dev.rdi 8 (hbmIdx m) 2 = c ∧ u.dev.rd (hbmIdx m) 3 = if 85 < c then 1 else 0) ∧
    (d.alive = true → ∃ u, exec (.rowDisturbanceWindow t p bank) s = .next u ∧ u.mem = s.mem ∧ u.dev.regs = s.dev.regs ∧
      (∀ e, e ∈ u.dev.acts ↔ e ∈ d.acts ∧ e.1 / 2 ^ 14 ≠ p * 64 + bank) ∧
      ∀ y ∈ u.dev.throttles, y.pc = p → y.bank = bank → y.full = true) ∧
    (d.memUp = true → p / 32 = m % 2 → (q.1.pc p).state = 2 → (q.1.pc p).trained = false →
      (∀ j, j / 32 = m % 2 → j < p → (q.1.pc j).state ≠ 2 ∨ (q.1.pc j).trained = true) →
      q.1.groupWindow (m % 2) (p % 32 / 4) 0 = some e →
      ∃ u, exec (.maintenanceWindow t m true) s = .next u ∧ u.mem = q.2 ∧ (u.dev.pc p).trained = true ∧
        (u.dev.pc p).poison = true ∧ (u.dev.pc p).state = 2) ∧
    (d.memUp = true → (∀ j, j / 32 = m % 2 → (q.1.pc j).state ≠ 2 ∨ (q.1.pc j).trained = true) →
      q.1.memSlot 8 (m % 2) = some k → q.1.maintenanceEnd (m % 2) 0 = some e → (q.1.longOp k).abortAsked = false →
      (q.1.hbm (m % 2)).rowAt ≠ e → q.1.nextRow (m % 2) = some row →
      q.1.groupWindow (m % 2) (row.pc % 32 / 4) 0 = some e →
      exec (.maintenanceWindow t m ok) s = .next { s with
        dev := ((q.1.takeGroup (m % 2) (row.pc % 32 / 4) e).setHbm (m % 2)
          { q.1.hbm (m % 2) with rowAt := e }).repairWindow (m % 2) k, mem := q.2 }) ∧
    (d.memUp = true → (∀ j, j / 32 = m % 2 → (q.1.pc j).state ≠ 2 ∨ (q.1.pc j).trained = true) →
      q.1.memSlot 8 (m % 2) = some k → q.1.maintenanceEnd (m % 2) 0 = some e → (q.1.longOp k).abortAsked = false →
      (q.1.hbm (m % 2)).rowAt ≠ e → q.1.standby = false → q.1.nextRow (m % 2) = none →
      ∃ u, exec (.maintenanceWindow t m ok) s = .next u ∧ u.mem = q.2 ∧ u.dev.slotState k = 3 ∧
        u.dev.rd (0x2080 + k) 0x0B = 4) ∧
    (d.memUp = true →
      ∃ u, exec (.writeQueueDrain t p) s = .next u ∧
        (u.dev.pc p).queue = x.queue.drop (max (x.queue.length - 16)
          (x.queue.takeWhile fun w => decide (w.at_ + 2000 ≤ t)).length) ∧ (u.dev.pc p).queue.length ≤ 16) ∧
    (d.alive = true → x.state = 2 → x.trained = true → ∃ u, exec (.pcRecovered t p true) s = .next u ∧ u.mem = s.mem ∧
      (u.dev.pc p).state = 0 ∧ (u.dev.pc p).trained = false ∧ (u.dev.pc p).queue = x.queue)

/-- Commands of the memory subsystem start their operations, and the operations end (R53, R310, R315, R316, R320,
R321, R323, 14_memory.md). -/
def Obligations.MemoryCommandsComplete : Prop :=
  ∀ (s : State) (t m k : Nat) (by_ : Requester) (c : Instr) (v kind : Nat),
    let d := s.found t
    let i := hbmIdx (m % 2)
    let starts := fun (c : Instr) (v kind : Nat) => d.grants by_ i 0x0C [BitVec.ofNat 8 v] → d.idleSlot = some k →
      ∃ u, exec c s = .next u ∧ u.mem = s.mem ∧ u.dev.slotState k = 1 ∧ u.dev.rd (0x2080 + k) 1 = kind ∧
        u.dev.rd i 0x0E = k ∧ u.dev.outbox.getLast? = some (.answer by_ stOk (some k))
    ((c, v, kind) ∈ [(Instr.memRecordCandidates t by_ m, 4, 4), (.memClearRepairRecord t by_ m, 7, 4)] → starts c v kind) ∧
    (d.memBusy (m % 2) = false → starts (.memScrub t by_ m) 1 3) ∧
    (d.memBusy (m % 2) = false →
      (d.memStart by_ (m % 2) 7 1 1 (d.freeMemory (m % 2)) (m % 2) (d.hbm (m % 2)).faults []).dev.memoryFits (m % 2) = true →
      starts (.memTest t by_ m) 2 7) ∧
    (d.memBusy (m % 2) = false → d.standby = true → starts (.memLiveRepair t by_ m) 3 8) ∧
    (d.memBusy (m % 2) = true → (c, v) ∈ [(Instr.memScrub t by_ m, 1), (.memTest t by_ m, 2)] →
      d.grants by_ i 0x0C [BitVec.ofNat 8 v] →
      exec c s = .next { s with dev := d.send (.answer by_ stBusy none) }) ∧
    (d.grants by_ i 0x0C [5] → d.memSlot 8 (m % 2) = none → exec (.memClearCandidates t by_ m) s = .next { s with
      dev := (d.setHbm (m % 2) { d.hbm (m % 2) with cands := [] }).grantedTo by_ }) ∧
    (d.grants by_ i 0x0C [5] → d.memSlot 8 (m % 2) = some k → exec (.memClearCandidates t by_ m) s = .next { s with
      dev := d.send (.answer by_ stWrongState none) }) ∧
    (d.grants by_ i 0x0C [6] →
      let p := 32 * (m % 2) + d.rd i 0x0D
      ((d.pc p).state = 1 → exec (.memRecoverPc t by_ m) s = .next { s with
        dev := (d.setPcRt p { d.pc p with state := 2, trained := false }).grantedTo by_ }) ∧
      ((d.pc p).state ≠ 1 → exec (.memRecoverPc t by_ m) s = .next { s with
        dev := d.send (.answer by_ stWrongState none) })) ∧
    (d.grants by_ 0x2600 4 [1] → ∃ u, exec (.memoryCounterReset t by_) s = .next u ∧ u.mem = s.mem ∧
      (∀ j, j < 2 → u.dev.rd (hbmIdx j) 5 = 0 ∧ u.dev.rd (hbmIdx j) 6 = 0 ∧ u.dev.rd (hbmIdx j) 8 = 0) ∧
      ∀ p, p < 64 → (u.dev.pc p).replays = 0 ∧ (u.dev.pc p).corrected = 0 ∧ (u.dev.pc p).uncorrectable = 0 ∧
        (u.dev.pc p).discarded = 0 ∧ (u.dev.pc p).queue = (d.pc p).queue ∧ (u.dev.pc p).state = (d.pc p).state) ∧
    (d.memUp = true →
      let q := d.drainAll s.mem
      q.1.memSlot 3 m = some k → q.1.badWords m = [] → (q.1.hbm m).faults ≤ (q.1.longOp k).arg2 →
      exec (.scrubDone t m) s = .next { s with dev := q.1.finishLong k 0, mem := q.2 } ∧
      ∃ u, exec (.scrubDone t m) s = .next u ∧ u.mem = q.2 ∧ u.dev.slotState k = 2 ∧ u.dev.rd (0x2080 + k) 3 = 10000 ∧
        u.dev.rd (0x2080 + k) 0x0B = 0) ∧
    (d.memUp = true → d.memSlot 7 m = some k → d.rd (0x2080 + k) 4 + 64 * 2 ^ 20 < d.rd (0x2080 + k) 5 →
      let q := d.drainAll s.mem
      let span := chunkSpan m (d.rd (0x2080 + k) 5) (d.rd (0x2080 + k) 4 / (64 * 2 ^ 20))
      ∃ u, exec (.memoryTestChunk t m []) s = .next u ∧
        u.dev.rd (0x2080 + k) 4 = d.rd (0x2080 + k) 4 + 64 * 2 ^ 20 ∧
        ∀ a, Mem.read u.mem a = if span.1 ≤ a ∧ a < span.2 ∧ q.1.allocated a = false then unlistedByte
          else Mem.read q.2 a) ∧
    (d.alive = true → d.runningKind k = 4 → v ≠ 0 →
      exec (.flashWriteDone t k v) s = .next { s with dev := d.finishLong k v }) ∧
    (d.alive = true → d.runningKind k = 4 → (d.longOp k).arg / 16 = flashClear →
      exec (.flashWriteDone t k 0) s = .next { s with
        dev := ((d.setHbm ((d.longOp k).arg % 16) { d.hbm ((d.longOp k).arg % 16) with
          repair := [],
          cands := (d.hbm ((d.longOp k).arg % 16)).cands.map fun c => { c with flags := setBit c.flags 3 false } }).wr
            (hbmIdx ((d.longOp k).arg % 16)) 0x0B 0).finishLong k 0 }) ∧
    (d.alive = true → d.runningKind k = 4 →
      (v ≠ 0 → ∃ u, exec (.flashWriteDone t k v) s = .next u ∧ u.mem = s.mem ∧ u.dev.slotState k = 3 ∧
        u.dev.rd (0x2080 + k) 0x0B = v ∧ u.dev.flash = s.dev.flash) ∧
      ((d.longOp k).arg / 16 = flashClear → ∃ u, exec (.flashWriteDone t k 0) s = .next u ∧ u.mem = s.mem ∧
        u.dev.slotState k = 2 ∧ (u.dev.hbm ((d.longOp k).arg % 16)).repair = []))

/-- PTP messages move the time unit through its states, and the host steps, slews or holds it (R257, R258, R259,
R260, R261, R262, R263, R264, 11_time.md). -/
def Obligations.TimeUnitCommandsComplete : Prop :=
  ∀ (s : State) (t p : Nat) (m : PtpSync) (a : Announce) (mac back path at_ : Int) (fec : Nat) (req : List Byte) (by_ : Requester)
    (c : Instr) (v : Nat),
    let d := s.found t
    let o := d.syncOffset p m
    let xs := (d.time.samples ++ [o]).drop ((d.time.samples ++ [o]).length - 8)
    let x := d.ptp p
    (d.alive = true → d.curDown 0 = false → p < 10 →
      (d.ptpState p = 9 → ∃ u, exec (.ptpSyncReceived t p m) s = .next u ∧ u.mem = s.mem ∧ u.dev.doms = s.dev.doms ∧
        (d.timeState = 1 → d.time.taken < 15 → u.dev.rd 0x2200 3 = ofSigned 64 (filteredOffset xs) ∧
          u.dev.timeState = 1 ∧ u.dev.time.samples = xs ∧ u.dev.time.taken = d.time.taken + 1 ∧
          (u.dev.ptp p).syncAt = t ∧ (u.dev.ptp p).path = some (d.syncPath p m) ∧ u.dev.rdf (ptpIdx p) 9 0 = (d.rdf (ptpIdx p) 9 0 + 1) % 2 ^ 32) ∧
        (d.timeState ∈ [0, 2, 3] → 1000000 < (filteredOffset xs).natAbs →
          u.dev.timeState = 5 ∧ u.dev.rd 0x2200 4 = d.rd 0x2200 4 ∧ u.dev.time.slewing = false) ∧
        (d.timeState = 2 → (filteredOffset xs).natAbs ≤ 1000 → 15 ≤ d.time.good → u.dev.timeState = 3 ∧
          u.dev.rd 0x2200 0x0C = time48 t)) ∧
      (d.rdb (ptpIdx p) 1 = true → a.domain = d.rd 0x2201 1 → a.sender ≠ d.rdd 0x2201 0x0A → d.rdb 0x2201 4 = true →
        (∀ q, q < 10 → (d.ptp q).ann = none) → d.rd 0x2200 7 = 0xFF →
        ∃ u, exec (.ptpAnnounceReceived t p a) s = .next u ∧ u.mem = s.mem ∧ u.dev.ptpState p = 9 ∧
          u.dev.rd 0x2200 7 = p ∧ u.dev.rdd 0x2200 6 = a.sender ∧ (u.dev.ptp p).ann = some a ∧
          u.dev.rdf (ptpIdx p) 9 1 = (d.rdf (ptpIdx p) 9 1 + 1) % 2 ^ 32) ∧
      (d.rdb (ptpIdx p) 1 = false → exec (.ptpAnnounceReceived t p a) s = .next { s with dev := d }) ∧
      (x.ann.isSome = true → max x.annAt x.syncAt + d.ptpTimeout ≤ t →
        exec (.ptpAnnounceTimeout t p) s = .next { s with dev := (d.setPtp p { x with ann := none }).bmca } ∧
        ∃ u, exec (.ptpAnnounceTimeout t p) s = .next u ∧ u.mem = s.mem ∧ (u.dev.ptp p).ann = none ∧
          (u.dev.ptp p).syncAt = x.syncAt) ∧
      (d.ptpState p = 9 → x.path = some path → x.reqAt = some at_ → exec (.ptpDelayRespReceived t p back) s = .next { s with
        dev := ((d.addf (ptpIdx p) 9 3 1 4).wr (ptpIdx p) 8 (meanPath path (back - at_ + d.rdi 32 (ptpIdx p) 5))).wr 0x2200 5
          (meanPath path (back - at_ + d.rdi 32 (ptpIdx p) 5)) }) ∧
      (d.ptpState p = 6 → p < 8 → exec (.ptpDelayReqReceived t p mac fec req) s = .next { s with
        dev := d.send (.net p "ptp-delay-resp" (req ++ leBytes 10 (time48 (d.rxStamp p mac fec / 1000).toNat))) }) ∧
      (d.ptpState p = 6 → p < 8 → exec (.ptpMessageInterval t p .sync mac) s = .next { s with
        dev := ((d.addf (ptpIdx p) 9 4 1 4).send (.net p "ptp-sync" [])).send
          (.net p "ptp-follow-up" (leBytes 10 (time48 (d.txStamp p mac / 1000).toNat))) }) ∧
      (d.ptpState p = 9 → d.rd (ptpIdx p) 6 = 0 → 8 ≤ p → exec (.ptpMessageInterval t p .delayReq mac) s = .next { s with
        dev := ((d.addf (ptpIdx p) 9 2 1 4).setPtp p { x with reqAt := some (d.txStamp p mac) }).send
          (.mgt (p - 8) "ptp-delay-req" []) })) ∧
    (d.grants by_ 0x2200 0x0B [1] → d.timeState ∈ [2, 3, 5] → ∃ u, exec (.timeRestep t by_) s = .next u ∧ u.mem = s.mem ∧
      u.dev.now = ((t : Int) - d.offset).toNat ∧ u.dev.timeState = 2 ∧ u.dev.rd 0x2200 3 = 0 ∧
      u.dev.rd 0x2200 9 = ofSigned 64 (-d.offset) ∧ u.dev.rd 0x2200 8 = (d.rd 0x2200 8 + 1) % 2 ^ 32 ∧
      u.dev.rd 0x2200 0x0A = (d.rd 0x2200 0x0A + 1) % 2 ^ 32 ∧
      u.dev.outbox.getLast? = some (.answer by_ stOk none)) ∧
    (d.grants by_ 0x2200 0x0B [2] → d.timeState = 5 → exec (.timeSlew t by_) s = .next { s with
      dev := ({ d with time := { d.time with slewing := true } } : Dev).grantedTo by_ }) ∧
    (d.grants by_ 0x2200 0x0B [3] → d.timeState = 5 → exec (.timeHold t by_) s = .next { s with
      dev := ({ d with time := { d.time with slewing := false } } : Dev).grantedTo by_ }) ∧
    ((c, v) ∈ [(Instr.timeRestep t by_, 1), (.timeSlew t by_, 2), (.timeHold t by_, 3)] →
      d.grants by_ 0x2200 0x0B [BitVec.ofNat 8 v] → d.timeState ∉ (if v = 1 then [2, 3, 5] else [5]) →
      exec c s = .next { s with dev := d.send (.answer by_ stWrongState none) })

/-- Launch entries are armed, disarmed and launched, and PPS_OUT carries pulses (R268, R269, R271, R272, R274,
11_time.md). -/
def Obligations.TimedLaunchesComplete : Prop :=
  ∀ (s : State) (t e : Nat) (by_ : Requester),
    let d := s.found t
    let i := launchIdx e
    let due := ofTime48 (d.rd i 3)
    (d.grants by_ i 8 [1] → d.rd i 1 = 1 → d.rd i 2 = 0 → d.rd i 6 ≠ 0 → d.rd 0x2239 1 = 2 →
      (t + 1000000 ≤ due → due ≤ t + 600000000000 → d.launchState e ∉ [1, 2] →
        exec (.launchArm t by_ e) s = .next { s with
          dev := (({ d with due := Tab.setD d.due e due 0 } : Dev).wr i 9 1).grantedTo by_ }) ∧
      (due < t + 1000000 → exec (.launchArm t by_ e) s = .next { s with
        dev := d.send (.answer by_ stTooLate none) }) ∧
      (t + 600000000000 < due → exec (.launchArm t by_ e) s = .next { s with
        dev := d.send (.answer by_ stTooFar none) })) ∧
    (d.grants by_ i 8 [0] → exec (.launchDisarm t by_ e) s = .next { s with dev := (d.wr i 9 0).grantedTo by_ }) ∧
    (d.alive = true → d.launchWaits e = true → d.launchDue e ≤ t →
      (d.rd i 1 = 1 → d.rd 0x2239 1 = 2 → d.pps.high = false → ∃ u, exec (.launchTime t e) s = .next u ∧ u.mem = s.mem ∧
        u.dev.pps = { high := true, until_ := d.launchDue e + d.rd i 6 * 1000 } ∧ u.dev.outbox = [.pin "PPS_OUT" [1]] ∧
        u.dev.launchState e = (if d.rd i 2 = 0 then 3 else 1) ∧ u.dev.rd i 0x0B = 0 ∧ u.dev.rd i 0x0A = time48 t ∧
        u.dev.rdf i 0x0C 0 = (d.rdf i 0x0C 0 + 1) % 2 ^ 64) ∧
      (d.rd i 1 = 2 → d.standby = false → d.dup.gated = false → d.rd i 5 < 8 → d.linkUp (d.rd i 5) = true → d.rd i 7 = 0xFFFF →
        (d.launchedIn (d.rd i 5)).foldl (fun a x => a + x.2) ((d.rdd 0x2280 (d.rd i 6 + 1)).length + 4) ≤ 12500 →
        ∃ u, exec (.launchTime t e) s = .next u ∧ u.mem = s.mem ∧
          u.dev.outbox = [.net (d.rd i 5) "launch" (d.rdd 0x2280 (d.rd i 6 + 1))] ∧
          u.dev.launchState e = (if d.rd i 2 = 0 then 3 else 1) ∧ u.dev.rd i 0x0B = 0 ∧ u.dev.rd i 0x0A = time48 t ∧
          u.dev.rdf i 0x0C 0 = (d.rdf i 0x0C 0 + 1) % 2 ^ 64) ∧
      (d.rd i 1 = 2 → d.standby = false → d.dup.gated = false → d.rd i 5 < 8 → d.linkUp (d.rd i 5) = false →
        exec (.launchTime t e) s = .next { s with
          dev := ((d.wr i 9 4).wr i 0x0B stWrongState).raise uTime 0x0B05 e stWrongState sevInfo })) ∧
    (∀ b : List Byte, ∀ o, o + 10 ≤ b.length → slice (overwrite b o (leBytes 10 (time48 due))) o 10 = leBytes 10 (time48 due) ∧
      (overwrite b o (leBytes 10 (time48 due))).length = b.length) ∧
    (d.alive = true → d.ppsSends = true → ((t : Int) - d.rdi 32 0x2239 3) % 1000000000 = 0 → d.pps.high = false →
      exec (.ppsOutPulse t) s = .next { s with
        dev := ({ d with pps := { high := true, until_ := t + d.rd 0x2239 2 * 1000 } } : Dev).send (.pin "PPS_OUT" [1]) }) ∧
    (d.alive = true → d.pps.high = true → exec (.pulseEnd t) s = .next { s with
      dev := if d.pps.until_ ≤ t then ({ d with pps := {} } : Dev).send (.pin "PPS_OUT" [0]) else d })

/-- Event inputs: an accepted edge is recorded, a short one counted, edges beyond the rate merge, a stuck input is
recorded once (R266, R267, R406, R407, 11_time.md, 18_faults_and_checks.md). -/
def Obligations.EventInputsCapture : Prop :=
  ∀ (s : State) (t i at_ : Nat) (level : Bool),
    let d := s.found t
    let j := evtIdx i
    let n := d.rd j 9
    let x := d.evt i
    d.alive = true → i < 25 →
    (d.rdb j 1 = true → t < at_ + d.rd j 3 → exec (.evtEdge t i level at_) s = .next { s with dev := d.incf j 0x0B 0 }) ∧
    (d.rdb j 1 = true → at_ + d.rd j 3 ≤ t → d.evtBit i 1 = false → (d.rd j 2).testBit (if level then 0 else 1) = true →
      (d.evtMerges i (at_ - at_ % 2) = false → ∃ u, exec (.evtEdge t i level at_) s = .next u ∧ u.mem = s.mem ∧
        u.dev.rdc j 8 (n % 256) =
          leBytes 10 (time48 (at_ - at_ % 2)) ++ [if level then 0 else 1, 0] ++ [0, 0] ++ [0, 0] ∧
        u.dev.rd j 9 = (n + 1) % 2 ^ 64 ∧ u.dev.rd j 0x0A = time48 (at_ - at_ % 2) ∧ u.dev.evtBit i 0 = level ∧
        u.dev.evtBit i 2 = false ∧ (u.dev.evt i).inTick = x.inTick + 1 ∧ (u.dev.evt i).since = at_) ∧
      (d.evtMerges i (at_ - at_ % 2) = true → ∃ u, exec (.evtEdge t i level at_) s = .next u ∧ u.mem = s.mem ∧
        u.dev.rd j 9 = n ∧ u.dev.evtBit i 2 = true ∧ (u.dev.evt i).merged = x.merged + 1 ∧
        (byteAt (u.dev.rdc j 8 ((n - 1) % 256)) 11).testBit 0 = true ∧
        fieldAt (u.dev.rdc j 8 ((n - 1) % 256)) 12 2 =
          min (fieldAt (padTo 16 (d.rdc j 8 ((n - 1) % 256))) 12 2 + 1) 0xFFFF)) ∧
    (x.merged ≠ 0 → ∃ u, exec (.evtMerging t i) s = .next u ∧ u.mem = s.mem ∧ (u.dev.evt i).merged = 0 ∧
      u.dev.rdc j 8 = d.rdc j 8 ∧
      (d.queue.length < 64 → u.dev.queue = d.queue ++
        [{ unit := uTime, code := 0x1204, p1 := i, p2 := x.merged % 2 ^ 32, sev := sevInfo, time := t }])) ∧
    (d.rdb j 1 = true → d.evtBit i 1 = false → d.evtActive i = true → x.since + d.rd j 6 * 1000000 ≤ t →
      ∃ u, exec (.evtStuck t i) s = .next u ∧ u.mem = s.mem ∧ u.dev.evtBit i 1 = true ∧ u.dev.rd j 9 = (n + 1) % 2 ^ 64 ∧
        u.dev.rdc j 8 (n % 256) = leBytes 10 (time48 (x.since + d.rd j 6 * 1000000)) ++
          [if d.evtBit i 0 then 0 else 1, 2] ++ [0, 0] ++ [0, 0] ∧
        (d.queue.length < 64 → u.dev.queue = d.queue ++
          [{ unit := uTime, code := 0x1205, p1 := i, p2 := d.rd j 6, sev := sevDegraded, time := t }])) ∧
    (d.evtBit i 1 = true → d.rd j 5 < 2 → ∃ u, exec (.evtReleased t i) s = .next u ∧ u.mem = s.mem ∧ u.dev.evtBit i 1 = false ∧
      u.dev.evtActive i = false ∧ u.dev.rd j 9 = n ∧
      (d.queue.length < 64 → ∃ ms, u.dev.queue = d.queue ++
        [{ unit := uTime, code := 0x1206, p1 := i, p2 := ms, sev := sevInfo, time := t }] ∧
        (t - d.rd j 3 - x.since < 10 ^ 15 → ms * 1000000 ≤ t - d.rd j 3 - x.since + 500000 ∧
          t - d.rd j 3 - x.since ≤ ms * 1000000 + 500000)))

/-- Audio ports carry frames, fault on a foreign clock and re-arm, and their groups start together (R276, R277,
R279, R280, R281, R282, R283, R284, 12_audio.md). -/
def Obligations.AudioPortsAndGroupsComplete : Prop :=
  ∀ (s : State) (t a l r bclks edges g : Nat) (by_ : Requester),
    let d := s.found t
    let i := audIdx a
    let x := d.audPort a
    let n := audFramePos (d.audPortHz a) t
    let gate := 64 * d.audPortHz a
    let drift := ofSigned 32 (freeRound (((edges : Int) - gate) * 100000000) gate)
    let pin := fun v w => [Out.pin ("AUD" ++ decStr a ++ "_SD") (n :: (audSlots (d.rd i 4) v w).1)]
    let holds := fun ch pos v => if d.poisonedAt (fun _ => Config.audioWord ch (pos % 65536)) then none else some v
    (d.alive = true → d.audState a = 2 → x.from_ ≤ n →
      (d.rd i 2 = 0 → (d.rd i 5 ≠ 1 ∨ bclks = 64) →
        ∃ u, exec (.audioFrame t a l r bclks) s = .next u ∧ u.mem = s.mem ∧ u.dev.doms = s.dev.doms ∧
          (Tab.getD d.aud.mute (2 * a) 0 = 0 → l / 256 % 65536 ≠ 0xF872 → u.dev.regs = s.dev.regs ∧
            u.dev.audRead (2 * a) n = holds (2 * a) n (l % 2 ^ 24) ∧
            u.dev.audRead (2 * a + 1) n = holds (2 * a + 1) n (r % 2 ^ 24)) ∧
          (l / 256 % 65536 = 0xF872 → r / 256 % 65536 = 0x4E1F → u.dev.audRead (2 * a) n = holds (2 * a) n 0 ∧
            u.dev.audRead (2 * a + 1) n = holds (2 * a + 1) n 0 ∧ Tab.getD u.dev.aud.mute (2 * a) 0 = 4096) ∧
          (Tab.getD d.aud.mute (2 * a) 0 ≠ 0 → l / 256 % 65536 ≠ 0xF872 →
            u.dev.audRead (2 * a) n = holds (2 * a) n 0 ∧ u.dev.audRead (2 * a + 1) n = holds (2 * a + 1) n 0 ∧
            Tab.getD u.dev.aud.mute (2 * a) 0 = Tab.getD d.aud.mute (2 * a) 0 - 1) ∧
          ∀ ch pos, ringKey ch pos ≠ ringKey (2 * a) n → ringKey ch pos ≠ ringKey (2 * a + 1) n →
            u.dev.audRead ch pos = d.audRead ch pos) ∧
      (d.rd i 2 ≠ 0 → d.rd i 7 ≠ 0xFF → d.rd i 8 = 0xFF →
        ∃ u, exec (.audioFrame t a l r bclks) s = .next u ∧ u.mem = s.mem ∧ u.dev.regs = s.dev.regs ∧
          (∀ v, d.audRead (d.rd i 7) (n - d.rd i 9) = some v →
            u.dev.outbox = pin v 0 ∧ (u.dev.audPort a).zeros = x.zeros) ∧
          (d.audRead (d.rd i 7) (n - d.rd i 9) = none →
            u.dev.outbox = pin 0 0 ∧ (u.dev.audPort a).zeros = x.zeros + 1))) ∧
    (d.alive = true → x.zeros ≠ 0 → x.told = none → exec (.audUnderrun t a) s = .next { s with
      dev := (d.setAudPort a { x with zeros := 0, told := some t }).raise (uAud a) 0x0C02 a x.zeros sevInfo }) ∧
    (d.alive = true → d.rd i 5 = 1 → d.audState a = 2 →
      (∃ u, exec (.audioDriftGate t a edges) s = .next u ∧ u.mem = s.mem ∧ u.dev.rd i 0x0B = drift ∧
        u.dev.audState a = if gate * 50 < ((edges : Int) - gate).natAbs * 1000000 then 3 else 2) ∧
      exec (.bclkStopped t a) s = .next { s with
        dev := (d.setAudState a 3).raise (uAud a) 0x0C03 a 0x7FFFFFFF sevDegraded } ∧ (d.setAudState a 3).audState a = 3) ∧
    (d.grants by_ i 0x0C [1] → d.audState a = 3 → x.gateOk = true →
      ∃ u, exec (.audioPortRearm t by_ a) s = .next u ∧ u.mem = s.mem ∧ u.dev.audState a = 2 ∧
        (u.dev.audPort a).from_ = audPosFrom (d.audPortHz a) t ∧ u.dev.outbox.getLast? = some (.answer by_ stOk none)) ∧
    (d.grants by_ i 0x0C [1] → d.audState a ≠ 3 ∨ x.gateOk = false →
      exec (.audioPortRearm t by_ a) s = .next { s with dev := d.send (.answer by_ stWrongState none) }) ∧
    (0 < g → g ≤ 8 →
      (d.grants by_ (0x3610 + g) 5 [1] → d.audGroup g = 0 →
        (∀ b, b < 16 → b ∈ d.audMembers g → d.rd (audIdx b) 3 = d.audGroupRate g) →
        (t + 10000000 ≤ d.audTrigger g → d.audTrigger g ≤ t + 600000000000 →
          exec (.audioGroupArm t by_ g) s = .next { s with
            dev := ((d.wr (0x3610 + g) 6 (audPosFrom (audHz (d.audGroupRate g)) (d.audTrigger g))).wr (0x3610 + g) 7
              1).grantedTo by_ }) ∧
        (d.audTrigger g < t + 10000000 → exec (.audioGroupArm t by_ g) s = .next { s with
          dev := d.send (.answer by_ stTooLate none) })) ∧
      (d.alive = true → d.audGroup g = 1 → d.rd (0x3610 + g) 6 ≤ audFramePos (audHz (d.audGroupRate g)) t →
        ∃ u, exec (.audioGroupStart t g) s = .next u ∧ u.mem = s.mem ∧ u.dev.audGroup g = 2 ∧
          ∀ b, b < 16 → if b ∈ d.audMembers g ∧ d.audState b = 1 then u.dev.audState b = 2 ∧
              (u.dev.audPort b).from_ = d.rd (0x3610 + g) 6
            else u.dev.audState b = d.audState b ∧ u.dev.audPort b = d.audPort b) ∧
      (d.grants by_ (0x3610 + g) 5 [2] → ∃ u, exec (.audioGroupStop t by_ g) s = .next u ∧ u.mem = s.mem ∧
        u.dev.audGroup g = 0 ∧ u.dev.outbox.getLast? = some (.answer by_ stOk none) ∧
        ∀ b, b < 16 → u.dev.audState b = if b ∈ d.audMembers g ∧ d.audState b = 2 then 1 else d.audState b))

/-- Audio streams: packets and PES write their frames, packets are sent on time, silence and counters show (R276,
R283, R285, R286, R287, R115, 12_audio.md). -/
def Obligations.AudioStreamsComplete : Prop :=
  ∀ (s : State) (t st : Nat) (p : AudioPacket) (q : AudioPes) (b0 b1 b2 b3 b4 b5 : Byte) (by_ : Requester),
    let d := s.found t
    let i := recvIdx st
    let o := sendIdx st
    let f := d.rd i 0x0C
    let cur := audPos (audHz (d.rd i 9)) t
    let pos := extendNear 32 cur p.ts - d.rd i 0x0D
    let m := audPerPacket (audHz (d.rd o 9)) (d.rd o 0x0B)
    let end_ := audFramePos (audHz (d.rd o 9)) (t - d.rd o 0x0D * 1000) / m * m
    let y := d.audOut st
    let holds := fun ch v => if d.poisonedAt (fun _ => Config.audioWord ch (pos.toNat % 65536)) then none else some v
    (d.alive = true → st < 16 → d.rdb i 1 = true → d.rd i 2 = 0 → d.rd i 0x0E = 0xFF → p.leg = 0 →
      d.audIn st = {} → p.payload = [b0, b1, b2, b3, b4, b5] → d.rd i 8 ≠ 1 → d.rd i 0x0A = 2 →
      d.linkUp (d.rd i 3) = true → 0 ≤ pos → (pos - cur).natAbs ≤ 32768 → Tab.getD d.aud.mute f 0 = 0 → [b0, b1] ≠ [0xF8, 0x72] →
      ∃ u, exec (.audioPacketReceived t st p) s = .next u ∧ u.mem = s.mem ∧
        u.dev.audRead f pos.toNat = holds f (leNat [b2, b1, b0]) ∧ u.dev.audRead (f + 1) pos.toNat = holds (f + 1) (leNat [b5, b4, b3]) ∧
        u.dev.rdf i 0x13 0 = (d.rdf i 0x13 0 + 1) % 2 ^ 64 ∧ u.dev.rd i 0x12 = 2 ∧ (u.dev.audIn st).last = t ∧
        (u.dev.audIn st).hiA = some (p.seq + 65536)) ∧
    (d.alive = true → d.rdb i 1 = false → exec (.audioPacketReceived t st p) s = .next { s with dev := d } ∧
      exec (.audioPesReceived t st q) s = .next { s with dev := d }) ∧
    (d.alive = true → d.rdb i 1 = true → d.rd i 2 = 1 → d.pesOf st q = true → q.is302m = false →
      exec (.audioPesReceived t st q) s = .next { s with dev := d.incf i 0x13 3 }) ∧
    (d.alive = true → st < 16 → d.rdb i 1 = true → d.rd i 2 = 1 → d.pesOf st q = true → q.is302m = true → q.channels ∈ [2, 4, 6, 8] →
      (d.audIn st).anchor = none → ∃ u, exec (.audioPesReceived t st q) s = .next u ∧ u.mem = s.mem ∧
        (u.dev.audIn st).anchor = some (((audPos 48000 q.arrival : Nat) : Int), (q.pts : Int),
          (q.pts : Int) + freeRound (((chunks q.channels q.samples).length : Int) * 15) 8) ∧
        u.dev.rdf i 0x13 0 = (d.rdf i 0x13 0 + 1) % 2 ^ 64 ∧ u.dev.rd i 0x12 = 2 ∧ (u.dev.audIn st).last = t) ∧
    (d.alive = true → d.rd o 0x12 = 2 → d.rd o 0x0D * 1000 ≤ t → m ≤ end_ → y.done < end_ → d.rd o 0x0E = 0xFF →
      d.linkUp (d.rd o 3) = true → ∃ u body, exec (.audioPacketSend t st) s = .next u ∧ u.mem = s.mem ∧
        u.dev.audOut st = { seq := y.seq + 1, done := end_ } ∧
        u.dev.outbox = [.media (d.rd o 3) ((d.seenBy (d.rd o 3 / 2)).mediaHead (d.rd o 3) (d.rdd o 4) (d.rd o 6)
          (Config.audioSrcPort st % 2 ^ 16) (Config.audioMarking st % 256)) "rtp-audio" (rtpHeader (d.rd o 7) false (y.seq % 65536) ((end_ - m) % 2 ^ 32)
          (Config.audioSsrc st % 2 ^ 32) ++ body)] ∧
        body.length = m * d.rd o 0x0A * (if d.rd o 8 = 1 then 2 else 3)) ∧
    (d.alive = true → st < 16 → d.rdb i 1 = true → d.bankHeld 4 = false → (d.audIn st).last + 100000000 ≤ t → d.rd i 0x12 ≠ 3 →
      exec (.audStreamSilent t st) s = .next { s with dev := (d.wr i 0x12 3).raise uAudio 0x0C05 st 3 sevInfo }) ∧
    (d.grants by_ 0x3600 5 [1] → ∃ u, exec (.audioCounterReset t by_) s = .next u ∧ u.mem = s.mem ∧
      u.dev.aud.zeros = [] ∧ u.dev.aud.rings = s.dev.aud.rings ∧ (∀ a, a < 16 → (u.dev.audPort a).framing = 0) ∧
      (∀ k f, k < 16 → f < 4 → u.dev.rdf (recvIdx k) 0x13 f = 0) ∧ u.dev.outbox = [.answer by_ stOk none])

/-- Touch: scans start, hop and report, nodes follow their thresholds, and a surface re-baselines (R291, R293,
R294, R295, R297, R299, 13_touch.md). -/
def Obligations.TouchCommandsComplete : Prop :=
  ∀ (s : State) (t k : Nat) (raw : List (Nat × Nat)) (noise : Nat) (by_ : Requester) (x : TNode)
    (v thr rel neg divisor : Nat),
    let d := s.found t
    (d.alive = true → d.touchRuns = true → d.scanDue = true → ∃ u, exec (.touchScan t) s = .next u ∧ u.mem = s.mem ∧
      u.dev.touch.scanning = true ∧ u.dev.touch.hopTo = 0 ∧
      (d.touch.hopTo = 0 → u.dev.touch.freq = d.touch.freq ∧ u.dev.rd 0x3700 0x0A = d.rd 0x3700 0x0A) ∧
      (d.touch.hopTo ≠ 0 → u.dev.touch.freq = d.touch.hopTo - 1 ∧
        u.dev.rd 0x3700 0x0A = (d.rd 0x3700 0x0A + 1) % 2 ^ 32) ∧
      (d.wantsQuiet = false → u.dev.rd 0x3700 4 = 1 ∧ u.dev.rd 0x3700 5 = u.dev.touch.freq) ∧
      ∀ j, j < 8 → (u.dev.surf j).rebaseNow = (d.surf j).rebase ∧ (u.dev.surf j).rebase = false) ∧
    (d.alive = true → d.touch.scanning = true → d.touch.endAt ≤ t → ∃ u, exec (.touchReport t raw noise) s = .next u ∧ u.mem = s.mem ∧
      u.dev.touch.scanning = false ∧ u.dev.rd 0x3700 9 = (d.rd 0x3700 9 + 1) % 2 ^ 64 ∧
      (d.rd 0x3700 4 ≠ 0 → u.dev.rdf 0x3700 6 (d.touch.listen % 8) = noise % 65536 ∧
        u.dev.touch.listen = (d.touch.listen % 8 + 1) % 8) ∧
      (d.rd 0x3700 4 = 0 → u.dev.touch.listen = d.touch.listen) ∧
      ∀ j, j < 8 → d.rdb (surfIdx j) 1 = true → d.surfState j = 2 →
        u.dev.surfState j = 2 ∧ u.dev.rd (reportIdx j) 1 = (d.rd 0x3700 9 + 1) % 2 ^ 64 % 2 ^ 32) ∧
    (let dl : Int := (x.base / 256 : Nat) - v
     let y := x.scan v t thr rel neg divisor false
     (x.st = 0 → (thr : Int) ≤ dl → (rel : Int) ≤ dl → y.1.st = 1 ∧ y.1.since = t ∧ y.1.base = x.base ∧ y.2 = false) ∧
     (x.st ≠ 0 → (rel : Int) ≤ dl → y.1.st = x.st ∧ y.1.base = x.base ∧ y.2 = false) ∧
     (x.st ≠ 0 → dl < rel → -(neg : Int) < dl → dl < thr → y.1.st = 0 ∧ y.2 = false) ∧
     (x.st = 0 → dl ≤ -(neg : Int) → dl < thr → y.1.base = v * 256 ∧ y.1.st = 0 ∧ y.1.delta = 0 ∧ y.2 = true) ∧
     y.1.raw = v ∧ (x.scan v t thr rel neg divisor true).1.base = v * 256 ∧
     (x.scan v t thr rel neg divisor true).1.st = 0) ∧
    (d.grants by_ (surfIdx k) 0x0E [1] → d.surfState k ≠ 1 → exec (.touchRebaseline t by_ k) s = .next { s with
      dev := (d.setSurf k { d.surf k with rebase := true }).grantedTo by_ }) ∧
    (d.grants by_ (surfIdx k) 0x0E [1] → d.surfState k = 1 → exec (.touchRebaseline t by_ k) s = .next { s with
      dev := d.send (.answer by_ stWrongState none) })

/-- The running value of a check-value unit is read at any time, written in IDLE or DONE, and goes on as if never
interrupted (R403). -/
def Obligations.ARunningValueCanBeSavedAndWrittenBack : Prop :=
  (∀ (d : Dev) (u : Nat), u < 32 → d.readObj (cvuIdx u) 4 = leBytes 8 (d.rd (cvuIdx u) 4)) ∧
  (∀ (s : State) (t u v : Nat) (by_ : Requester),
    let d := s.found t
    d.grants by_ (cvuIdx u) 4 (leBytes 8 v) →
    (d.rd (cvuIdx u) 0x0A ∈ [1, 3] → exec (.cvuRunningValueWrite t by_ u v) s = .next { s with
      dev := (d.wr (cvuIdx u) 4 (v % 2 ^ (d.cvuCrc u).width)).grantedTo by_ }) ∧
    (d.rd (cvuIdx u) 0x0A ∉ [1, 3] → exec (.cvuRunningValueWrite t by_ u v) s = .next { s with
      dev := d.send (.answer by_ stWrongState none) })) ∧
  ∀ (d e : Dev) (u code : Nat) (bs cs : List Byte),
    d.rd (cvuIdx u) 2 = code → e.rd (cvuIdx u) 2 = code → d.rd (cvuIdx u) 4 < 2 ^ (crcParams code).width →
    let a := (d.cvuFeed u bs).rd (cvuIdx u) 4
    let whole := d.cvuFeed u (bs ++ cs)
    let resumed := (e.cvuSetRun u a).cvuFeed u cs
    resumed.rd (cvuIdx u) 4 = whole.rd (cvuIdx u) 4 ∧ resumed.cvuResult u = whole.cvuResult u ∧
    a < 2 ^ (crcParams code).width

/-- Check-value units take data, start, abort and end a DMA, and initialise (R401, R402, R403, R404,
18_faults_and_checks.md). -/
def Obligations.CvuCommandsComplete : Prop :=
  ∀ (s : State) (t u : Nat) (by_ : Requester) (data b : List Byte) (o : MemObs) (why : Nat) (e : Dev) (c : Instr)
    (sub : Nat) (val : List Byte),
    let d := s.found t
    let i := cvuIdx u
    (d.cvuState u ∉ [0, 2] →
      (d.grants by_ i 6 data → exec (.cvuData t by_ u data) s = .next { s with
        dev := (d.wr i 4 (crcFeed (d.cvuCrc u) (d.rd i 4) data % 2 ^ (d.cvuCrc u).width)).grantedTo by_ }) ∧
      (d.grants by_ i 9 [3] → exec (.cvuInitialise t by_ u) s = .next { s with
        dev := ((d.wr i 4 ((d.cvuCrc u).init % 2 ^ (d.cvuCrc u).width)).wr i 0x0A 1).grantedTo by_ }) ∧
      (d.grants by_ i 9 [1] → d.rd i 8 ≠ 0 → (∀ x ∈ mapBounds, x ≤ d.rd i 7 ∨ d.rd i 7 + d.rd i 8 ≤ x) →
        exec (.cvuStartDma t by_ u) s = .next { s with dev := ((d.wr i 0x0A 2).wr i 0x0B 0).grantedTo by_ }) ∧
      (d.grants by_ i 9 [1] → (∃ x ∈ mapBounds, d.rd i 7 < x ∧ x < d.rd i 7 + d.rd i 8) →
        exec (.cvuStartDma t by_ u) s = .next { s with dev := d.send (.answer by_ stRange none) })) ∧
    (d.cvuState u ∈ [0, 2] → (c, sub, val) ∈ [(Instr.cvuData t by_ u data, 6, data), (.cvuInitialise t by_ u, 9, [3]),
        (.cvuStartDma t by_ u, 9, [1])] → d.grants by_ i sub val →
      exec c s = .next { s with dev := d.send (.answer by_ stWrongState none) }) ∧
    (d.memUp = true → d.alive = true → d.cvuState u = 2 → d.cvuRead s.mem u (d.rd i 8) o = (b, why, e) →
      (why = 0 → exec (.cvuDmaEnd t u o) s = .next { s with
        dev := (((e.cvuFeed u b).wr i 0x0B b.length).wr i 0x0C 0).wr i 0x0A 3 }) ∧
      (why ≠ 0 → exec (.cvuDmaEnd t u o) s = .next { s with
        dev := ((((e.cvuFeed u b).wr i 0x0B b.length).wr i 0x0C why).wr i 0x0A 4).raise (uCvu u) 0x1203 why
          (b.length % 2 ^ 32) sevInfo }) ∧
      ∃ w, exec (.cvuDmaEnd t u o) s = .next w ∧ w.mem = s.mem ∧ w.dev.cvuState u = (if why = 0 then 3 else 4) ∧
        w.dev.rd i 0x0B = b.length ∧ w.dev.rd i 0x0C = why) ∧
    (d.grants by_ i 9 [2] → d.cvuState u = 2 → ∃ w, exec (.cvuAbort t by_ u) s = .next w ∧ w.mem = s.mem ∧
      w.dev.cvuState u = 4 ∧ w.dev.rd i 0x0C ∈ [1, 2, 3] ∧ w.dev.rd i 0x0B ≤ d.rd i 8 ∧
      w.dev.outbox.getLast? = some (.answer by_ stOk none)) ∧
    (d.grants by_ i 9 [2] → d.cvuState u ≠ 2 → exec (.cvuAbort t by_ u) s = .next { s with
      dev := d.send (.answer by_ stWrongState none) })

/-- The guardian pair records the oldest report as a repeat, as a new entry, or as lost (R390, R391, R392, R393,
R394, R395, R399, 18_faults_and_checks.md). -/
def Obligations.TheJournalRecordsInOrder : Prop :=
  ∀ (s : State) (t e : Nat) (r : Report) (rest : List Report),
    let d := s.found t
    let n := d.jCount
    let first := (List.range n).all fun k => jClass (d.jEntry k) != r.code / 256
    let flags := r.sev + (if first then 4 else 0) + (if r.sev = 0 then 8 else 0)
    d.guardAlive = true → d.guardianStopped = false → d.queue = r :: rest → n ≤ 1024 → r.sev < 4 → r.code < 2 ^ 16 →
    ∃ u, exec (.journalRecord t) s = .next u ∧ u.mem = s.mem ∧ u.dev.queue = rest ∧
      ((List.range n).find? (fun k => d.jTakes r (d.jEntry k)) = some e →
        u.dev.jCount = n ∧ jRepeat (u.dev.jEntry e) = min (jRepeat (d.jEntry e) + 1) 0xFFFF ∧
        u.dev.rd 0x2400 9 = (d.rd 0x2400 9 + 1) % 2 ^ 64 ∧ u.dev.rd 0x2400 3 = d.rd 0x2400 3 ∧
        (∀ k, k < 1024 → k ≠ e → u.dev.jEntry k = d.jEntry k) ∧
        (∀ b, b < 32 → b ∉ [15, 18, 19] → byteAt (u.dev.jEntry e) b = byteAt (d.jEntry e) b) ∧
        u.dev.outbox = []) ∧
      ((List.range n).find? (fun k => d.jTakes r (d.jEntry k)) = none → n < 1023 →
        u.dev.jCount = n + 1 ∧
        u.dev.jEntry n = leBytes 10 (time48 r.time) ++ leBytes 2 r.unit ++ leBytes 1 (r.code / 256) ++
          leBytes 2 r.code ++ leBytes 1 flags ++ leBytes 2 d.jOpen.length ++ [0, 0] ++ leBytes 4 r.p1 ++ leBytes 4 r.p2 ++
          leBytes 2 n ++ [0, 0] ∧
        (∀ k, k < 1024 → k ≠ n → u.dev.jEntry k = d.jEntry k) ∧ u.dev.rd 0x2400 2 = u.dev.jOpen.length ∧
        u.dev.jOpen.length = d.jOpen.length + (if r.sev = 0 then 0 else 1) ∧ u.dev.rd 0x1001 0 = u.dev.errorBits ∧
        u.dev.rd 0x2400 3 = d.rd 0x2400 3) ∧
      ((List.range n).find? (fun k => d.jTakes r (d.jEntry k)) = none → 1023 ≤ n →
        u.dev.jCount = 1024 ∧ u.dev.rd 0x2400 3 = min (d.rd 0x2400 3 + 1) (2 ^ 32 - 1) ∧
        (∀ k, k < 1023 → u.dev.jEntry k = d.jEntry k) ∧
        (n = 1023 → jCode (u.dev.jEntry 1023) = 0x1201 ∧ jP1 (u.dev.jEntry 1023) = r.code ∧ jSev (u.dev.jEntry 1023) = 2) ∧
        (n = 1024 → u.dev.jEntry 1023 = d.jEntry 1023))

/-- Clearing an entry, clearing all, emptying the journal and erasing the AON records (R392, R396, R399, R400,
18_faults_and_checks.md). -/
def Obligations.ClearingAndEmptyingTheJournal : Prop :=
  ∀ (s : State) (t e : Nat) (by_ : Requester),
    let d := s.found t
    let n := d.jCount
    let ok := some (Out.answer by_ stOk none)
    n ≤ 1024 →
    (d.grants by_ 0x2400 5 (leBytes 2 e) → e < n → ∃ u, exec (.journalClearEntry t by_ e) s = .next u ∧ u.mem = s.mem ∧
      u.dev.jCount = n ∧ u.dev.queue = d.queue ∧ (jFlags (u.dev.jEntry e)).testBit 3 = true ∧
      (∀ k, k < 1024 → k ≠ e → u.dev.jEntry k = d.jEntry k) ∧
      (∀ b, b < 32 → b ≠ 15 → byteAt (u.dev.jEntry e) b = byteAt (d.jEntry e) b) ∧
      u.dev.rd 0x2400 2 = u.dev.jOpen.length ∧ u.dev.rd 0x1001 0 = u.dev.errorBits ∧ u.dev.outbox.getLast? = ok) ∧
    (d.grants by_ 0x2400 5 (leBytes 2 e) → n ≤ e → exec (.journalClearEntry t by_ e) s = .next { s with
      dev := d.send (.answer by_ stRange none) }) ∧
    (d.grants by_ 0x2400 6 [1] → ∃ u, exec (.journalClearAll t by_) s = .next u ∧ u.mem = s.mem ∧ u.dev.jCount = n ∧
      u.dev.queue = d.queue ∧ u.dev.jOpen = [] ∧ u.dev.rd 0x2400 2 = 0 ∧
      u.dev.rd 0x1001 0 = (if d.lostAtLeast 1 then 1 else 0) ∧ u.dev.outbox.getLast? = ok) ∧
    (d.grants by_ 0x2400 7 [1] → ∃ u, exec (.journalEmpty t by_) s = .next u ∧ u.mem = s.mem ∧ u.dev.jCount = 0 ∧
      u.dev.queue = d.queue ∧ u.dev.jEntries = [] ∧ u.dev.rd 0x2400 2 = 0 ∧ u.dev.rd 0x2400 3 = 0 ∧ u.dev.rd 0x2400 4 = 0xFF ∧
      u.dev.rd 0x1001 0 = 0 ∧ u.dev.outbox.getLast? = ok) ∧
    (d.grants by_ 0x2402 3 [1] → ∃ u, exec (.aonRecordClear t by_) s = .next u ∧ u.mem = s.mem ∧
      (∀ k, k < 8 → u.dev.rdc 0x2402 1 k = []) ∧ u.dev.rd 0x2402 2 = 0 ∧ (∀ k, k < 1024 → u.dev.jEntry k = d.jEntry k) ∧
      u.dev.outbox = [.answer by_ stOk none])

/-- In the core of the package a ball of even row plus column is VSS, and every other carries the supply of its
region (R463). -/
def Obligations.CoreBallsAreGroundOrTheirSupply : Prop :=
  ∀ r c : Nat, 9 ≤ r → r ≤ 54 → 9 ≤ c → c ≤ 54 →
    ((r + c) % 2 = 0 → ballNet r c = "VSS") ∧
    ((r + c) % 2 = 1 →
      (r ≤ 26 → ballNet r c = if c ≤ 31 then "VDD_W0" else "VDD_W1") ∧
      (27 ≤ r → r ≤ 36 → 21 ≤ c → c ≤ 42 → ballNet r c = "VDD_SOC") ∧
      (27 ≤ r → r ≤ 30 → (c ≤ 20 ∨ 43 ≤ c) → ballNet r c = "HBM_VDDC") ∧
      (31 ≤ r → r ≤ 34 → (c ≤ 20 ∨ 43 ≤ c) → ballNet r c = "HBM_VDDQ") ∧
      (35 ≤ r → r ≤ 36 → (c ≤ 20 ∨ 43 ≤ c) → ballNet r c = "HBM_VPP") ∧
      (37 ≤ r → ballNet r c = if c ≤ 31 then "VDD_W2" else "VDD_W3"))

/-- Duplex interlock: heartbeat, detector, claim by expiry or by command, release on the partner's claim, end of
the pulse (R343, R347, R348, R349, R350, R351, R352, 16_duplex.md). -/
def Obligations.TheInterlockDecidesTheRole : Prop :=
  ∀ (s : State) (t aon e : Nat) (by_ : Requester),
    let d := s.found t
    let x := d.dup
    let claimed := fun (u : State) (cause : Nat) => u.mem = s.mem ∧ u.dev.rd 0x2100 1 = 1 ∧ u.dev.rd 0x2100 0x0A = cause ∧
      u.dev.rd 0x2100 9 = time48 t ∧ u.dev.rd 0x2100 0x0B = (d.rd 0x2100 0x0B + 1) % 2 ^ 32 ∧ u.dev.pairState = 1 ∧
      u.dev.dup.takeOut = true ∧ u.dev.dup.armed = false ∧ u.dev.dup.claimAt = t + 1 ∧ u.dev.dup.beatFrom = t + 100000 ∧
      .pin "ILK_TAKE_OUT" [1] ∈ u.dev.outbox
    (d.guardAlive = true → d.duplex = true → d.rd 0x2100 1 = 1 → d.guardianStopped = false → x.gated = false → x.beatFrom ≤ t →
      t ≤ (t + 1000) / 500000 * 500000 + 1000 → exec (.heartbeat t) s = .next { s with
        dev := ({ d with dup := { x with holdOut := !x.holdOut, beatFrom := ((t + 1000) / 500000 + 1) * 500000 - 1000 } } : Dev).send
          (.pin "ILK_HOLD_OUT" [if x.holdOut then 0 else 1]) }) ∧
    (d.guardAlive = true → d.standby = true → x.edge = some e →
      (e + 450000 ≤ aon → aon ≤ e + 550000 → exec (.ilkHoldEdge t aon) s = .next { s with
        dev := { d with dup := { x with edge := some aon, run := min (x.run + 1) 20, edgeAt := t + 1,
                                         armed := x.armed || decide (19 ≤ x.run) } } }) ∧
      (aon < e + 450000 ∨ e + 550000 < aon → exec (.ilkHoldEdge t aon) s = .next { s with
        dev := { d with dup := { x with edge := some aon, run := 1,
                                         edgeAt := if x.armed then x.edgeAt else t + 1 } } })) ∧
    (d.guardAlive = true → d.standby = true → x.armed = true → x.edgeAt ≠ 0 → x.edgeAt - 1 + 2970000 ≤ t →
      (d.rd 0x2100 4 = 2 → x.takeIn = false → ∃ u, exec (.detectorExpiry t) s = .next u ∧ claimed u 3) ∧
      (d.rd 0x2100 4 = 0 → exec (.detectorExpiry t) s = .next { s with
        dev := ({ d with dup := { x with armed := false, run := 0, edge := none, edgeAt := 0 } } : Dev).raise uRing 0x1002
          0 d.pairState sevService })) ∧
    (d.grants by_ 0x2100 5 [1] → d.standby = true → x.armed = false → x.takeIn = false →
      ∃ u, exec (.claim t by_) s = .next u ∧ claimed u 1 ∧ u.dev.outbox.getLast? = some (.answer by_ stOk none)) ∧
    (d.grants by_ 0x2100 5 [1] → d.standby = false ∨ x.armed = true → exec (.claim t by_) s = .next { s with
      dev := d.send (.answer by_ stWrongState none) }) ∧
    (d.alive = true → d.pwr.state = 0 → d.duplex = true → d.rd 0x2100 1 = 1 →
      (d.justNow x.claimAt = false → ∃ u, exec (.ilkTakeIn t) s = .next u ∧ u.mem = s.mem ∧ u.dev.dup.takeIn = true ∧
        u.dev.rd 0x2100 1 = 0 ∧ u.dev.rd 0x2100 0x0A = (if d.swapNow then 2 else 4) ∧
        u.dev.pairState = (if d.swapNow then 4 else 2) ∧ u.dev.dup.holdOut = (x.holdOut && d.guardianStopped) ∧
        u.dev.dup.swap = none ∧ u.dev.dup.gated = false) ∧
      (d.justNow x.claimAt = true → d.posS = false → exec (.ilkTakeIn t) s = .next { s with
        dev := { d with dup := { x with takeIn := true, takeInAt := t + 1, ignored := true } } })) ∧
    exec (.ilkTakeInFall t) s = .next { s with
      dev := ({ d with dup := { x with takeIn := false, ignored := false } } : Dev).refreshOuts } ∧
    (∃ u, exec (.ilkTakeInFall t) s = .next u ∧ u.mem = s.mem ∧ u.dev.dup = { x with takeIn := false, ignored := false }) ∧
    (d.guardAlive = true → x.takeOut = true → x.claimAt - 1 + 1000000 ≤ t → exec (.claimPulseEnd t) s = .next { s with
      dev := ({ d with dup := { x with takeOut := false } } : Dev).send (.pin "ILK_TAKE_OUT" [0]) })

/-- A commanded swap is accepted, prepared, confirmed, cancelled or dropped (R353, R354, 16_duplex.md). -/
def Obligations.SwapsAreConfirmedOrDropped : Prop :=
  ∀ (s : State) (t : Nat) (by_ : Requester) (w : SwapRt) (m : SwapState),
    let d := s.found t
    let x := d.dup
    let n := d.rd 0x2100 6
    let at_ := d.tickTime 0 n
    (d.grants by_ 0x2100 5 [2] → d.duplex = true → d.rd 0x2100 1 = 1 → x.partner = 4 → x.linkUp = true → d.timedFlows = true →
      (t + 6000000 ≤ at_ → at_ ≤ t + 600000000000 → x.swap = none → exec (.swap t by_) s = .next { s with
        dev := ({ d with dup := { x with swap := some { tick := n, at_ := at_, sent := false, confirmed := false } } }
          : Dev).grantedTo by_ }) ∧
      (at_ < t + 6000000 → exec (.swap t by_) s = .next { s with dev := d.send (.answer by_ stTooLate none) }) ∧
      (t + 600000000000 < at_ → exec (.swap t by_) s = .next { s with dev := d.send (.answer by_ stTooFar none) })) ∧
    (d.grants by_ 0x2100 5 [2] → d.standby = true → exec (.swap t by_) s = .next { s with
      dev := d.send (.answer by_ stWrongState none) }) ∧
    (d.grants by_ 0x2100 5 [3] → x.swap = some w →
      (t + 2000000 < w.at_ → exec (.cancelSwap t by_) s = .next { s with
        dev := ({ d with dup := { x with swap := none } } : Dev).grantedTo by_ }) ∧
      (w.at_ ≤ t + 2000000 → exec (.cancelSwap t by_) s = .next { s with
        dev := d.send (.answer by_ stWrongState none) })) ∧
    (d.alive = true → d.duplex = true → x.linkUp = true →
      (d.rd 0x2100 1 = 1 → x.swap = some w →
        (w.sent = false → w.at_ ≤ t + 2000000 → exec (.swapPrepare t m) s = .next { s with
          dev := ({ d with dup := { x with swap := some { w with sent := true } } } : Dev).send
            (.partner "swap-prepare" (leBytes 8 w.tick ++ leBytes 4 x.applied ++ (d.batches.map (·.num)).flatMap (leBytes 4))) }) ∧
        (t + 1000000 ≤ w.at_ → exec (.swapConfirmation t .confirm) s = .next { s with
          dev := { d with dup := { x with swap := some { w with confirmed := true } } } }) ∧
        (w.confirmed = false → w.at_ ≤ t + 1000000 → exec (.swapConfirmDeadline t) s = .next { s with
          dev := (({ d with dup := { x with swap := none, gated := false } } : Dev).send
            (.partner "swap-cancel" (leBytes 8 w.tick ++ [1]))).raise uRing 0x1003 1 (w.tick % 2 ^ 32) sevDegraded })) ∧
      (d.rd 0x2100 1 = 0 → d.pairState = 4 → x.applied = m.applied → (∀ k, k ∈ d.batches.map (·.num) ↔ k ∈ m.pending) →
        exec (.swapPrepare t m) s = .next { s with
          dev := ({ d with dup := { x with asked := some m.tick } } : Dev).send (.partner "swap-confirm" (leBytes 8 m.tick)) }))

/-- Resynchronisation, mirrored batches and writes, adopted link parameters and compare records complete (R44,
R90, R346, R360, R362, R364, R366, R367, 16_duplex.md). -/
def Obligations.TheStandbyResynchronisesAndMirrors : Prop :=
  ∀ (s : State) (t k p n : Nat) (by_ : Requester) (m : MirrorBatch) (key : ObjKey) (data : List Byte) (wing tick : Nat)
    (without : List Nat) (r : CompareRec) (e : CompareRec × Nat) (q crc : Nat) (fin : Bool),
    let d := s.found t
    let x := d.dup
    let source := CompareRec.source n q fin crc
    (d.grants by_ 0x2100 5 [4] → d.standby = true → d.pairState = 2 → x.partner = 1 → x.linkUp = true → d.idleSlot = some k →
      ∃ u, exec (.resynchronise t by_) s = .next u ∧ u.mem = s.mem ∧ u.dev.slotState k = 1 ∧ u.dev.rd (0x2080 + k) 1 = 1 ∧
        u.dev.rd (0x2080 + k) 7 = 1 ∧ u.dev.rd (0x2080 + k) 8 = 4 ∧ u.dev.rd 0x2100 0x0C = k ∧ u.dev.pairState = 3 ∧
        u.dev.outbox.getLast? = some (.answer by_ stOk (some k))) ∧
    (d.grants by_ 0x2100 5 [4] → d.standby = false → exec (.resynchronise t by_) s = .next { s with
      dev := d.send (.answer by_ stWrongState none) }) ∧
    (d.memUp = true → d.resyncSlot = some k → (d.longOp k).abortAsked = false →
      (d.resyncPhase = 2 → (∀ j ∈ x.counted, j ∈ x.filled ∨ j ∈ without) →
        ∃ u, exec (.resyncPhaseDone t (.sources without)) s = .next u ∧ u.mem = s.mem ∧ u.dev.rd (0x2080 + k) 7 = 3 ∧
          ∀ c, c < 16 → d.rdb (encIdx c) 1 = true → (u.dev.enc c).followWanted = true) ∧
      (d.resyncPhase = 4 → (∀ o, o < 128 → d.outOn o = true → o ∈ x.matched) →
        (∀ c, c < 16 → d.rdb (encIdx c) 1 = true → 256 + c ∈ x.matched) →
        ∃ u, exec (.resyncPhaseDone t .outputs) s = .next u ∧ u.mem = s.mem ∧ u.dev.slotState k = 2 ∧
          u.dev.rd (0x2080 + k) 3 = 10000 ∧ u.dev.pairState = 4)) ∧
    (d.grants by_ 0x2100 5 [5] → d.standby = true → ∃ u, exec (.refollow t by_) s = .next u ∧ u.mem = s.mem ∧
      u.dev.regs = s.dev.regs ∧ u.dev.outbox = [.answer by_ stOk none] ∧ ∀ c, c < 16 → u.dev.enc c =
        if d.encState c = 4 ∧ (Tab.getD x.following c 0 ≠ 0 ∨ d.rd (rcIdx c) 8 = 3) then
          { d.enc c with followWanted := true } else d.enc c) ∧
    (d.alive = true → d.standby = true →
      (x.inStep = true → exec (.mirroredWriteReceived t key data wing tick) s = .next { s with
        dev := { d with mirror := d.mirror ++ [{ wing := wing % 4, tick := tick, by_ := ⟨partnerSess 0, 3⟩,
                                                  rec_ := { idx := key.idx, sub := key.sub, data := data } }] } }) ∧
      (m.recs = [] → exec (.mirroredBatchReceived t m) s = .next { s with
        dev := { d with batches := d.batches.filter fun b => b.num != m.num } }) ∧
      (m.recs ≠ [] → d.resyncPhase ≠ 1 → x.inStep = true → (d.admitAt (d.batchTime (ofMirror m)) (ofMirror m).recs).st = stOk →
        ∃ u, exec (.mirroredBatchReceived t m) s = .next u ∧ u.mem = s.mem ∧ u.dev.batches = d.batches ++ [ofMirror m]) ∧
      (p < 16 → ∃ u, exec (.linkParametersReceived t p data) s = .next u ∧ u.mem = s.mem ∧
        (u.dev.dp p).adopted = some data)) ∧
    (d.alive = true → d.duplex = true →
      ((∀ o ∈ x.own, recKey o.1 ≠ recKey r) → exec (.compareRecord t r) s = .next { s with dev := d.keepTheirs r } ∧
        ((r, t) ∈ (d.keepTheirs r).dup.theirs)) ∧
      (x.own = [(source, tick)] → n ∉ x.filled → exec (.compareRecord t source) s = .next { s with
        dev := { d with dup := { x with own := [], filled := x.filled ++ [n] } } })) ∧
    (d.alive = true → x.own = [e] → d.twoTicksAgo e.1 e.2 = true →
      exec (.compareTimeout t (recKey e.1).1 (recKey e.1).2.1 (recKey e.1).2.2) s = .next { s with
        dev := ({ d with dup := { x with own := [] } } : Dev).notCompared e.1 } ∧
      ((recKey e.1).1 = 0 → ∃ u, exec (.compareTimeout t (recKey e.1).1 (recKey e.1).2.1 (recKey e.1).2.2) s = .next u ∧
        u.mem = s.mem ∧ u.dev.dup.own = [] ∧ u.dev.rdf 0x2100 0x0E 3 = (d.rdf 0x2100 0x0E 3 + 1) % 2 ^ 64))

/-- Ring sides align on their lanes, lose lanes and lock, and send and take frames (R371, R373, R374, R375, R376,
R377, R379, R380, R381, R383, R385, 17_rospin_ring.md). -/
def Obligations.TheRingAlignsAndCarriesFrames : Prop :=
  ∀ (s : State) (t x lane nb : Nat) (lanes : List LaneObs) (f : RingFrame),
    let d := s.found t
    let i := sideIdx x
    let side := d.side x
    d.alive = true → x < 2 →
    (d.curDown 0 = false → d.ringOn = true → d.sideState x = 1 → lanes.length = 4 → nb < 16 →
      ((∀ l ∈ lanes, laneGood l = true) → side.last = nb + 1 → side.lastPath = d.rd i 2 →
        ∃ u, exec (.ringAlign t x lanes nb) s = .next u ∧ u.mem = s.mem ∧ u.dev.sideState x = 2 ∧ u.dev.rd i 3 = 15 ∧
          u.dev.rd i 4 = nb ∧ (u.dev.side x).tries = 0 ∧ u.dev.rdf i 7 6 = (d.rdf i 7 6 + 1) % 2 ^ 64) ∧
      ((lanes.filter laneGood).length < 3 → side.tries = 0 → ∃ u, exec (.ringAlign t x lanes nb) s = .next u ∧
        u.mem = s.mem ∧ u.dev.sideState x = 1 ∧ u.dev.rd i 2 = 1 - d.rd i 2 ∧ (u.dev.side x).tries = 1 ∧
        (u.dev.side x).failedAt = t)) ∧
    (d.curDown 0 = false → d.ringOn = true → d.sideState x = 0 → side.failedAt + 10000000 ≤ t → ∃ u, exec (.ringAlignRetry t x) s = .next u ∧
      u.mem = s.mem ∧ u.dev.sideState x = 1 ∧ u.dev.rd i 3 = 0) ∧
    (2 ≤ d.sideState x →
      (∃ u, exec (.ringLockLost t x) s = .next u ∧ u.mem = s.mem ∧ u.dev.sideState x = 1 ∧ u.dev.rd i 3 = 0 ∧
        u.dev.rd i 2 = if side.named then 1 else d.rd i 2) ∧
      (d.rd i 3 = 15 → lane < 4 → ∃ u, exec (.ringLane t x lane) s = .next u ∧ u.mem = s.mem ∧ u.dev.sideState x = 3 ∧
        u.dev.rd i 3 = 15 - 2 ^ lane ∧ .ring "lane-failed" [BitVec.ofNat 8 x, BitVec.ofNat 8 lane] ∈ u.dev.outbox) ∧
      (t % 4096 = 0 → side.slotAt ≠ t / 4096 + 1 → maintenanceSlot (t % 1048576 / 4096) = true →
        ∃ u b, b.length ≤ 42432 ∧ exec (.ringSlot t x) s = .next u ∧ u.mem = s.mem ∧ (u.dev.side x).slotAt = t / 4096 + 1 ∧
          u.dev.outbox = [.ring "frame" (frameBytesOf 6 d.node' 0 (tableVersion (d.slotTable x)) (t / 1048576)
            (t % 1048576 / 4096) 0 0 0 0xFF b)]) ∧
      (t % 4096 = 0 → side.slotAt ≠ t / 4096 + 1 → maintenanceSlot (t % 1048576 / 4096) = false → d.rd 0x2200 0x0A ≠ 0 →
        Tab.getD d.ring.fwd (x * 256 + t % 1048576 / 4096) none = none →
        (tableEntry (d.slotTable x) (t % 1048576 / 4096)).1 ≠ d.node' → exec (.ringSlot t x) s = .next { s with
          dev := d.setSide x { side with slotAt := t / 4096 + 1 } }) ∧
      (d.rd 0x2200 0x0A ≠ 0 →
        (f.cut = true → exec (.ringFrame t x f) s = .next { s with dev := d.incf i 7 4 }) ∧
        (f.cut = false → f.checksOk = false → exec (.ringFrame t x f) s = .next { s with dev := d.incf i 7 1 }) ∧
        (f.cut = false → f.checksOk = true → f.cls ≠ 6 → f.version ≠ tableVersion (d.slotTable (1 - x)) →
          ∃ u, exec (.ringFrame t x f) s = .next u ∧ u.mem = s.mem ∧ u.dev.rdf i 7 2 = (d.rdf i 7 2 + 1) % 2 ^ 64 ∧
            u.dev.ring.fwd = d.ring.fwd) ∧
        (f.cut = false → f.checksOk = true → f.cls ≠ 6 → f.version = tableVersion (d.slotTable (1 - x)) →
          -128 ≤ f.off → f.off ≤ 128 → f.msg = .other → (tableEntry (d.slotTable (1 - x)) f.slot).1 ≠ f.sender →
          (f.cls ≠ 5 → exec (.ringFrame t x f) s = .next { s with dev := d.incf i 7 0 }) ∧
          ∀ n, f.cls = 5 → f.receiver = d.node' → f.flags = 0 →
            ((List.range 256).find? fun n => Tab.getD d.ring.taking n 0 == (1 - x) * 256 + f.flow + 1) = some n →
            (d.share n).started = true → f.seq = (d.share n).nextSeq → ∃ u, exec (.ringFrame t x f) s = .next u ∧
              u.mem = s.mem ∧ u.dev.share n = { d.share n with
                nextSeq := (f.seq + 1) % 2 ^ 32, bytes := (d.share n).bytes ++ f.payload }))) ∧
    (d.ringOn = true → t % 1048576 = 0 → ∃ u, exec (.ringTick t) s = .next u ∧ u.mem = s.mem ∧
      u.dev.rd 0x2110 6 = t / 1048576 % 2 ^ 64 ∧
      (∀ r tab at_, r < 2 → Tab.getD d.ring.tables r (0, []) = (at_ + 1, tab) → at_ ≤ t / 1048576 →
        Tab.getD u.dev.ring.tables r (0, []) = (0, []) ∧
        u.dev.slotTable r = leBytes 4 ((tableVersion (d.slotTable r) + 1) % 2 ^ 32) ++ leBytes 8 at_ ++ leBytes 4 0 ++
          slice tab 16 1024) ∧
      ∀ at_ b, d.ring.shared = some (at_, b) → at_ ≤ t / 1048576 → u.dev.ring.shared = none ∧ u.dev.ring.entries = b) ∧
    (let ls := t % 1048576 / 4096
     let key := x * 256 + ls
     let v := tableVersion (d.slotTable x)
     2 ≤ d.sideState x → t % 4096 = 0 → side.slotAt ≠ t / 4096 + 1 → maintenanceSlot ls = false → d.rd 0x2200 0x0A ≠ 0 →
      (Tab.getD d.ring.fwd key none = some f → ∃ u, exec (.ringSlot t x) s = .next u ∧ u.mem = s.mem ∧
        Tab.getD u.dev.ring.fwd key none = none ∧ u.dev.outbox = [.ring "frame" (frameBytesOf f.cls f.sender (f.hops + 1)
          f.version f.tick f.slot f.flow f.seq f.flags f.receiver f.payload)]) ∧
      ∀ cls w flow, Tab.getD d.ring.fwd key none = none → tableEntry (d.slotTable x) ls = (d.node', cls, w, flow) →
        let seq := Tab.getD d.ring.seqs (x * 256 + flow) 0
        let sent := fun (u : State) fl b => exec (.ringSlot t x) s = .next u ∧ u.mem = s.mem ∧
          Tab.getD u.dev.ring.seqs (x * 256 + flow) 0 = (seq + 1) % 2 ^ 32 ∧
          u.dev.outbox = [.ring "frame" (frameBytesOf cls d.node' 0 v (t / 1048576) ls flow seq fl
            (d.flowReceiver x cls flow) b)]
        (cls ≠ 5 → ∃ u b, b.length ≤ 42432 ∧ sent u 0 b) ∧
        (cls = 5 → d.flowSource x flow = none → ∃ u, sent u 0 []) ∧
        ∀ n, cls = 5 → d.flowSource x flow = some n →
          let r := d.sharePiece n (Tab.getD d.ring.tx (x * 256 + flow) {})
          ∃ u, sent u r.2.1 r.1 ∧ Tab.getD u.dev.ring.tx (x * 256 + flow) {} = r.2.2)

/-- Ring reset, realignment, urgent broadcasts, table changes, shared sources and snapshots complete (R383, R384,
R386, R387, R388, 17_rospin_ring.md). -/
def Obligations.RingCommandsComplete : Prop :=
  ∀ (s : State) (t x ring k : Nat) (by_ : Requester) (body m : List Byte) (copies : List (List Byte)),
    let d := s.found t
    let block := fun kind b => leBytes 1 kind ++ leBytes 1 d.node' ++ List.replicate 14 0 ++ padTo 16 b
    let both := fun kind b => [Out.ring "urgent-east" (block kind b), Out.ring "urgent-west" (block kind b)]
    (d.ringOn = true →
      (d.grants by_ 0x2110 7 [1] → ∃ u, exec (.ringReset t by_) s = .next u ∧ u.mem = s.mem ∧
        u.dev.outbox.take 2 = both 1 [] ∧ u.dev.sideState 0 = 1 ∧ u.dev.sideState 1 = 1 ∧
        u.dev.outbox.getLast? = some (.answer by_ stOk none)) ∧
      (d.grants by_ 0x2110 7 [2] → ∃ u, exec (.ringRealign t by_) s = .next u ∧ u.mem = s.mem ∧ u.dev.sideState 0 = 1 ∧
        u.dev.sideState 1 = 1 ∧ u.dev.rd (sideIdx 0) 3 = 0 ∧ u.dev.rd (sideIdx 1) 3 = 0 ∧
        u.dev.outbox.getLast? = some (.answer by_ stOk none)) ∧
      (d.grants by_ 0x2110 8 body → ∃ u, exec (.urgentNotify t by_ body) s = .next u ∧ u.mem = s.mem ∧
        u.dev.regs = s.dev.regs ∧ u.dev.outbox.take 2 = both 2 body ∧
        u.dev.outbox.getLast? = some (.answer by_ stOk none))) ∧
    (d.alive = true → x < 2 → 2 ≤ d.sideState x → agreed copies = some m →
      (byteAt m 1 = d.node' → exec (.urgentBlock t x copies) s = .next { s with dev := d.incf (sideIdx x) 7 5 }) ∧
      (byteAt m 1 ≠ d.node' → ∃ u, exec (.urgentBlock t x copies) s = .next u ∧ u.mem = s.mem ∧
        u.dev.outbox.head? = some (.ring (if x = 1 then "urgent-east" else "urgent-west") m) ∧
        u.dev.ring.urgent = (m, t + 1) ∧ (byteAt m 0 = 2 → u.dev.rdf (sideIdx x) 7 5 = (d.rdf (sideIdx x) 7 5 + 1) % 2 ^ 64))) ∧
    (let r := ring % 2
     let tab := d.rdd (0x2120 + r) 2
     d.grants by_ (0x2120 + r) 3 (leBytes 8 k) →
      (tab.length ≠ 1040 → ∃ u, exec (.slotTableChange t by_ ring k) s = .next u ∧ u.mem = s.mem ∧ u.dev.ring = d.ring ∧
        byteAt (u.dev.rdd (0x2120 + r) 4) 0 = stRange ∧ u.dev.outbox = [.answer by_ stRange none]) ∧
      (tab.length = 1040 → d.timedIn (d.nextTable 0) = true → d.timedIn (d.nextTable 1) = true →
        t + 2000000 ≤ k * 1048576 → k * 1048576 ≤ t + 600000000000 → d.tableFault r tab = none →
        ∃ u, exec (.slotTableChange t by_ ring k) s = .next u ∧ u.mem = s.mem ∧
          Tab.getD u.dev.ring.tables r (0, []) = (k + 1, tab) ∧ byteAt (u.dev.rdd (0x2120 + r) 4) 0 = stOk ∧
          u.dev.outbox = [.ring "slot-table" (leBytes 1 r ++ leBytes 8 k ++ tab), .answer by_ stOk none])) ∧
    (d.timedFlows = true →
      (d.grants by_ 0x2122 2 (leBytes 8 k) → d.rdd 0x2122 1 = [] → t + 2000000 ≤ k * 1048576 →
        k * 1048576 ≤ t + 600000000000 → exec (.sharedSourceChange t by_ k) s = .next { s with
          dev := (({ d with fresh := d.fresh + 1, ring := { d.ring with shared := some (k, []) } } : Dev).send
            (.ring "shared-sources" (leBytes 8 k))).grantedTo by_ }) ∧
      (d.grants by_ 0x2130 2 [1] → d.snapshotFits = true → t + 2000000 ≤ ofTime48 (d.rd 0x2130 1) →
        ∃ u, exec (.snapshot t by_) s = .next u ∧ u.mem = s.mem ∧ u.dev.ring.snapAt = some (ofTime48 (d.rd 0x2130 1)) ∧
          u.dev.rd 0x2130 3 = 1 ∧ u.dev.rdd 0x2130 6 = [] ∧
          .ring "snapshot" (leBytes 10 (time48 (ofTime48 (d.rd 0x2130 1)))) ∈ u.dev.outbox ∧
          u.dev.outbox.getLast? = some (.answer by_ stOk none))) ∧
    (d.alive = true → d.slotOfKind 6 = some k → ∃ u, exec (.snapshotExportDone t) s = .next u ∧ u.mem = s.mem ∧
      u.dev.slotState k = 2 ∧ u.dev.rd 0x2130 3 = 4 ∧
      u.dev.rdd 0x2130 6 = (List.range 5).flatMap fun w => Tab.getD d.ring.snapParts w [])

/-- A calibration campaign starts, takes or skips its instances, and its record is stored (R416, R419, R420, R422,
19_calibration.md). -/
def Obligations.CalibrationCommandsComplete : Prop :=
  ∀ (s : State) (t k item inst : Nat) (by_ : Requester) (run : List Int) (idle : Bool),
    let d := s.found t
    let mask := d.rd 0x2340 1
    let x := d.cal
    k < 64 →
    (d.grants by_ 0x2340 3 [1] →
      (d.calSlot = none → mask ≠ 0 → mask % 2 = 0 → mask < 512 → d.idleSlot = some k →
        ∃ u, exec (.calStartCampaign t by_) s = .next u ∧ u.mem = s.mem ∧ u.dev.slotState k = 1 ∧
          u.dev.rd (0x2080 + k) 1 = 2 ∧ u.dev.rd 0x2340 4 = k ∧ u.dev.cal.items = mask ∧ u.dev.cal.done = [] ∧
          u.dev.cal.itemAt = t ∧ u.dev.outbox.getLast? = some (.answer by_ stOk (some k)) ∧
          ∀ c, 0 < c → c < 9 → mask.testBit c = true → (∀ j, 0 < j → j < c → mask.testBit j = false) → u.dev.cal.item = c) ∧
      (d.calSlot = none → mask = 0 → exec (.calStartCampaign t by_) s = .next { s with
        dev := d.send (.answer by_ stRange none) }) ∧
      (d.calSlot = some k → exec (.calStartCampaign t by_) s = .next { s with
        dev := d.send (.answer by_ stBusy none) })) ∧
    (d.alive = true → d.calSlot = some k → (d.longOp k).abortAsked = false → d.calWaits item inst = true →
      x.done.length + 1 < calCount item →
      (d.bankHeld 7 = false → d.calWindow item inst idle = true → 0 < item → item < 8 →
        ∃ u, exec (.calInstance t item inst run run idle) s = .next u ∧ u.mem = s.mem ∧ (u.dev.calInst item inst).outcome = 1 ∧
          (u.dev.calInst item inst).source = 3 ∧ (u.dev.calInst item inst).time = t ∧ u.dev.cal.done = x.done ++ [inst] ∧
          u.dev.cal.item = item ∧ u.dev.rd (0x2080 + k) 4 = d.rd (0x2080 + k) 4 + 1) ∧
      (x.itemAt + d.rd 0x2340 6 * 1000000000 ≤ t →
        ∃ u, exec (.calSkipped t item inst) s = .next u ∧ u.mem = s.mem ∧ (u.dev.calInst item inst).outcome = 3 ∧
          u.dev.cal.skipped = true ∧ u.dev.cal.done = x.done ++ [inst] ∧ u.dev.cal.item = item ∧
          u.dev.rd (0x2080 + k) 4 = d.rd (0x2080 + k) 4 + 1)) ∧
    (d.grants by_ 0x2340 3 [2] →
      (d.slotOfKind 4 = none → d.slotOfKind 5 = none → d.slotOfKind 9 = none → d.idleSlot = some k →
        ∃ u, exec (.calStoreRecord t by_) s = .next u ∧ u.mem = s.mem ∧ u.dev.flash = d.flash ∧ u.dev.slotState k = 1 ∧
          u.dev.rd (0x2080 + k) 1 = 4 ∧ u.dev.rd 0x2340 5 = k ∧ u.dev.outbox.getLast? = some (.answer by_ stOk (some k))) ∧
      (d.slotOfKind 4 ≠ none ∨ d.slotOfKind 5 ≠ none ∨ d.slotOfKind 9 ≠ none → exec (.calStoreRecord t by_) s = .next { s with
        dev := d.send (.answer by_ stBusy none) }))

/-- The device enters Sleep, Deep sleep or Off step by step, and wake sources wake it (R424, R426, R428, R429,
R430, R432, R435, R438, 20_power_states.md). -/
def Obligations.PowerCommandsComplete : Prop :=
  ∀ (s : State) (t v bank : Nat) (by_ : Requester) (c : Instr) (e : EntryRt) (temps : List Int),
    let d := s.found t
    let p := d.pwr
    let n := nextStep (entrySteps e.target) e.step
    let bit := if (d.rd 0x2300 0x0C).testBit 2 then 4 else 0
    let wakes := fun (c : Instr) (cause : Nat) => ∃ u, exec c s = .next u ∧ u.mem = s.mem ∧ u.dev.pwr.state = p.state ∧
      u.dev.pwr.wake = some { from_ := p.state, step := if p.state = 1 then 2 else 1, cause := cause, began := t, stepAt := t }
    ((c, v) ∈ [(Instr.deviceSleep t by_, 1), (.deviceDeepSleep t by_, 2), (.deviceOff t by_, 3)] →
      d.grants by_ 0x2300 5 [BitVec.ofNat 8 v] →
      (d.duplex = false → p.wakeLow = false → d.batches = [] → p.entry = none → (∀ k, k < 64 → d.slotState k ≠ 1) →
        exec c s = .next { s with dev := (({ d with pwr := { p with entry := some { target := v, step := 1 }, latched := 0 },
                                                    sessions := [] } : Dev).addf 0x2300 0x0D 0 1 4).grantedTo by_ }) ∧
      (d.duplex = true → exec c s = .next { s with
        dev := ((d.addf 0x2300 0x0D 3 1 4).raise uAon 0x1405 v stWrongState sevInfo).send (.answer by_ stWrongState none) })) ∧
    (p.entry = some e → e.target ∈ [1, 2, 3] →
      (n ≠ 6 → p.latched = 0 → ∃ u, exec (.powerEntryStep t) s = .next u ∧ u.mem = s.mem ∧
        u.dev.pwr = { p with entry := some { e with step := n } }) ∧
      (n = 6 → p.latched = 0 → ∃ u, exec (.powerEntryStep t) s = .next u ∧ u.mem = (if e.target = 3 then [] else s.mem) ∧
        u.dev.pwr.state = e.target ∧ u.dev.pwr.entry = none ∧ u.dev.pwr.enteredAt = t ∧
        u.dev.pwr.enables = (if e.target = 1 then 0x33 else if e.target = 2 then 0x20 else 0) ∧
        u.dev.dup.holdOut = false ∧ ∀ k, k < 8 → u.dev.rd (netIdx k) 0x0A = 0) ∧
      (n = 2 → p.latched ≠ 0 → ∃ u, exec (.powerEntryStep t) s = .next u ∧ u.mem = s.mem ∧ u.dev.pwr.entry = none ∧
        u.dev.pwr.latched = 0 ∧ u.dev.pwr.state = p.state ∧
        u.dev.rdf 0x2300 0x0D 2 = (d.rdf 0x2300 0x0D 2 + 1) % 2 ^ 32)) ∧
    (p.wake = none → p.wakeArmed = true → p.state ∈ [1, 2, 3] → wakes (.wakeNFall t) 1) ∧
    (p.state = 0 → p.entry = none → exec (.wakeNFall t) s = .next { s with
      dev := ({ d with pwr := { p with wakeLow := true, wakeArmed := false } } : Dev).wr 0x2300 0x0C 5 }) ∧
    exec (.wakeNArm t) s = .next { s with
      dev := ({ d with pwr := { p with wakeLow := false, wakeArmed := true } } : Dev).wr 0x2300 0x0C (2 + bit) } ∧
    (p.wake = none → (d.rd 0x2300 7).testBit 1 = true → p.state ∈ [1, 2] → wakes (.canRxWake t) 2) ∧
    (p.state = 3 → exec (.canRxWake t) s = .next { s with dev := d } ∧ exec (.wakeTimer t) s = .next { s with dev := d }) ∧
    (p.wake = none → (d.rd 0x2300 7).testBit 2 = true → d.rd 0x2300 6 ≠ 0 → p.state ∈ [1, 2] →
      p.enteredAt + d.rd 0x2300 6 * 990000 ≤ t → wakes (.wakeTimer t) 3) ∧
    (d.grants by_ 0x2300 0x0B [BitVec.ofNat 8 bank] → d.bankHeld bank = true →
      let w := if bank < 4 then bank else 0
      exec (.retentionRelease t by_ bank) s = .next { s with
        dev := ({ d with pwr := { p with releases := p.releases ++ [(bank, w, d.tickFrom w (t + 2000000))] } }
          : Dev).grantedTo by_ }) ∧
    (d.alive = true → ∃ u, exec (.thermalSample t temps) s = .next u ∧ u.mem = s.mem ∧
      u.dev.rdd 0x2300 0x0E = (List.range 5).flatMap (fun i => leBytes 2 (ofSigned 16 (temps.getD i 0))) ∧
      ((∀ i, i < 5 → temps.getD i 0 ≤ 1050) → u.dev.queue = d.queue ∧ (u.dev.pwr.hot = true → p.hot = true)) ∧
      (1050 < temps.getD 0 0 → u.dev.pwr.hot = true ∧ (p.hot = false → d.queue.length < 64 → u.dev.queue = d.queue ++
        [{ unit := uAon, code := 0x1406, p1 := 0, p2 := ofSigned 32 (temps.getD 0 0), sev := sevService, time := t }])))

/-- A reset leaves flash, the AON records and the pins only; wake and boot run step by step to Run (R431, R433,
R439, R440, R443, R448, R449, R451, 21_bring_up.md, 20_power_states.md). -/
def Obligations.ResetWakeAndBootComplete : Prop :=
  ∀ (s : State) (t pos bootsel : Nat) (by_ : Requester) (o : BootObs) (wo : WakeObs) (w : WakeRt),
    let d := s.found t
    let p := d.pwr
    let next := nextStep (wakeSteps w.from_) w.step
    let cleared := fun (u : State) => u.mem = [] ∧ u.dev.flash = d.flash ∧ u.dev.sessions = [] ∧ u.dev.batches = [] ∧
      u.dev.queue = [] ∧ u.dev.longOps = [] ∧ u.pending = s.pending ∧
      ∀ i sub f, u.dev.rdf i sub f = if keptObj (regKey i sub f) then d.rdf i sub f else regDefault (regKey i sub f)
    (∃ u, exec (.vddAonLost t) s = .next u ∧ cleared u ∧ u.dev.pwr.state = 5) ∧
    (p.state = 5 → ∃ u, exec (.vddAonPowerOn t) s = .next u ∧ cleared u ∧ u.dev.pwr.state = 4 ∧ u.dev.pwr.cause = 1 ∧
      u.dev.pwr.enables = 0 ∧ u.dev.pwr.resetLow = true) ∧
    (p.state ≠ 5 → ∃ u, exec (.resetNLow t) s = .next u ∧ cleared u ∧ u.dev.pwr.state = 4 ∧ u.dev.pwr.cause = 2 ∧
      u.dev.pwr.enables = p.enables ∧ u.dev.pwr.resetLow = true) ∧
    (d.grants by_ 0x2360 7 [1] → ∃ u, exec (.firmwareReset t by_) s = .next u ∧ cleared u ∧ u.dev.pwr.state = 4 ∧
      u.dev.pwr.cause = 3 ∧ u.dev.outbox.head? = some (.answer by_ stOk none)) ∧
    (p.state = 4 → p.resetLow = true → ∃ u, exec (.resetRelease t pos bootsel) s = .next u ∧ u.mem = s.mem ∧
      u.dev.pwr.resetLow = false ∧ u.dev.pwr.straps = pos % 2 + 2 * (bootsel % 4) ∧ u.dev.rd 0x2100 2 = pos % 2 ∧
      u.dev.pwr.wake = some { from_ := 4, step := if p.enables = 0x3F then 6 else 1, cause := 4, began := t, stepAt := t }) ∧
    (p.state = 4 → p.resetLow = false → p.wake = none →
      (p.bootStep = 0 → ∃ u, exec (.bootStep t o) s = .next u ∧ u.mem = s.mem ∧ u.dev.pwr.bootStep = 1 ∧
        u.dev.rd 0x2360 1 = 1 ∧ u.dev.rd 0x2360 0x0A = (d.rd 0x2360 0x0A + 1) % 2 ^ 32 ∧ u.dev.rd 0x2360 3 = p.cause ∧
        u.dev.rd 0x2360 4 = p.straps ∧ u.dev.rd 0x2100 2 = p.straps % 2 ∧ u.dev.rd 0x2360 6 = d.flash.counter) ∧
      (p.bootStep = 1 → p.straps / 2 = 3 → ∃ u, exec (.bootStep t o) s = .next u ∧ u.mem = s.mem ∧
        u.dev.pwr.bootStep = 10 ∧ u.dev.rd 0x2360 1 = 7) ∧
      (p.bootStep = 2 → exec (.bootStep t o) s = .next { s with
        dev := ({ d with pwr := { p with bootStep := 3 } } : Dev).wr 0x2360 1 2 }) ∧
      (p.bootStep = 4 → ∃ u, exec (.bootStep t o) s = .next u ∧ u.mem = Mem.writeBytes s.mem firmwareBase d.mainSegment ∧
        u.dev.pwr.bootStep = 5 ∧ u.dev.rd 0x2360 1 = 4) ∧
      (p.bootStep = 8 → ∃ u, exec (.bootStep t o) s = .next u ∧ u.mem = s.mem ∧ u.dev.pwr.state = 0 ∧
        u.dev.rd 0x2360 1 = 6 ∧ (d.duplex = false → u.dev.rd 0x2100 1 = 1))) ∧
    (p.wake = some w →
      (w.step ∉ [9, 10, 11] → next ≠ 8 → exec (.wakeStep t wo) s = .next { s with
        dev := { d with pwr := { p with wake := some { w with step := next, stepAt := t },
                                        enables := p.enables ||| wakeEnables next } } }) ∧
      (w.step = 11 → ∃ u, exec (.wakeStep t wo) s = .next u ∧ u.mem = s.mem ∧ u.dev.pwr.state = 0 ∧ u.dev.pwr.wake = none ∧
        u.dev.rdf 0x2300 0x0D 1 = (d.rdf 0x2300 0x0D 1 + 1) % 2 ^ 32) ∧
      (w.from_ = 3 → w.step = 7 → ∃ u, exec (.wakeStep t wo) s = .next u ∧ cleared u ∧ u.dev.pwr.state = 4 ∧
        u.dev.pwr.cause = 4 ∧ u.dev.pwr.resetLow = false ∧ u.dev.pwr.wake = none ∧ u.dev.pwr.releasedAt = t) ∧
      (0 < w.step → w.step < 8 → w.stepAt + wakeTimeout w.step * 990 ≤ t → ∃ u input, exec (.wakeStepTimeout t) s = .next u ∧
        u.mem = [] ∧ u.dev.pwr.state = 3 ∧ u.dev.pwr.wake = none ∧ u.dev.pwr.enables = 0 ∧ u.dev.pwr.enteredAt = t ∧
        u.dev.pwr.failed = some (w.step, input) ∧ u.dev.aonFault = true)) ∧
    (p.state = 4 → p.bootStep < 7 → exec (.pciePerstHigh t) s = .next { s with
      dev := ({ d with pwr := { p with perst := true } } : Dev).send (.pin "pcie-retry" []) }) ∧
    (p.state = 0 → d.bootRd 0x2044 1 = 1 → exec (.pciePerstHigh t) s = .next { s with
      dev := ({ d with pwr := { p with perst := true } } : Dev).send (.pin "pcie-train" []) })

/-- Staging, trials, the security counter, debug tokens and JTAG instructions complete (R446, R447, R454, R455,
R456, R457, 21_bring_up.md). -/
def Obligations.FirmwareAndDebugCommandsComplete : Prop :=
  ∀ (s : State) (t k : Nat) (by_ : Requester) (c : Instr) (v : Nat) (held : List Nat) (data token : List Byte)
    (x : StageRt) (off : Nat) (last : Bool),
    let d := s.found t
    let trial := d.rd 0x2360 8
    let running := d.rd 0x2360 2
    let started := fun (u : State) (kind : Nat) => u.mem = s.mem ∧ u.dev.slotState k = 1 ∧ u.dev.rd (0x2080 + k) 1 = kind ∧
      u.dev.outbox.getLast? = some (.answer by_ stOk (some k))
    k < 64 →
    (d.anyRuns [4, 5, 9] = false → d.idleSlot = some k →
      (c, v, held) ∈ [(Instr.armTrial t by_, 2, [d.selector.active, d.targetSlot, 1, 1]),
        (.confirmTrial t by_, 3, [running, 0xFF, 0, 0]), (.cancelTrial t by_, 5, [d.selector.active, 0xFF, 0, 0])] →
      d.grants by_ 0x2360 7 [BitVec.ofNat 8 v] →
      (trial = (if v = 2 then 0 else if v = 3 then 2 else 1) → (v = 2 → d.slotValid d.targetSlot = true) →
        ∃ u, exec c s = .next u ∧ started u 4 ∧ (u.dev.longOp k).held = held ∧ u.dev.flash = d.flash) ∧
      (trial ≠ (if v = 2 then 0 else if v = 3 then 2 else 1) → exec c s = .next { s with
        dev := d.send (.answer by_ stWrongState none) })) ∧
    (d.alive = true → d.runningKind k = 4 → (d.longOp k).arg / 16 = flashTrial →
      ∃ u, exec (.flashWriteDone t k 0) s = .next u ∧ u.mem = s.mem ∧ u.dev.slotState k = 2 ∧
        u.dev.selector.active = (d.longOp k).held.getD 0 0 ∧ u.dev.selector.trial = (d.longOp k).held.getD 1 0 ∧
        u.dev.selector.attempts = (d.longOp k).held.getD 2 0 ∧ u.dev.rd 0x2360 8 = (d.longOp k).held.getD 3 0) ∧
    (d.grants by_ 0x2360 7 [4] →
      (trial ≠ 2 → running < 2 → ∃ u, exec (.raiseSecurityCounter t by_) s = .next u ∧ u.mem = s.mem ∧
        u.dev.flash = { d.flash with counter := max d.flash.counter (imgSecurity (d.slotImage running)) } ∧
        u.dev.rd 0x2360 6 = u.dev.flash.counter ∧ u.dev.outbox = [.answer by_ stOk none]) ∧
      (trial = 2 → exec (.raiseSecurityCounter t by_) s = .next { s with
        dev := d.send (.answer by_ stWrongState none) })) ∧
    (d.alive = true → d.accessStatus by_.level 0x2360 0x0B = stOk → data.length ≤ d.stageBuffer →
      (d.pwr.stage = none → d.anyRuns [4, 5, 9] = false → d.headerOk data = true → d.idleSlot = some k →
        data.length ≤ imgField data 32 4 → ∃ u, exec (.stageImage t by_ 0 data false) s = .next u ∧ started u 5 ∧
          u.dev.rd 0x2360 0x0C = k ∧ u.dev.slotImage d.targetSlot = [] ∧ u.dev.rd (0x2080 + k) 4 = data.length ∧
          u.dev.pwr.stage = some { slot := d.targetSlot, sess := by_.sess, data := data, total := imgField data 32 4 }) ∧
      (d.pwr.stage = some x → d.slotOfKind 5 = some k → x.sess = by_.sess → off ≠ x.data.length →
        exec (.stageImage t by_ off data last) s = .next { s with dev := d.send (.answer by_ stSegment none) })) ∧
    (d.alive = true → d.pwr.stage = some x → d.slotOfKind 5 = some k → x.total ≤ x.data.length → imgSigned x.data = true →
      imgHash x.data 36 52 = true → imgHash x.data 44 100 = true → ∃ u, exec (.stagingDone t 0) s = .next u ∧
        u.mem = s.mem ∧ u.dev.slotState k = 2 ∧ u.dev.slotImage x.slot = x.data ∧ u.dev.pwr.stage = none) ∧
    (d.grants by_ 0x2360 0x0E token →
      let good := token.length = 120 ∧ fieldAt token 0 4 = d.rd 0x1018 4 ∧ slice token 4 16 = d.rdd 0x2360 0x0D ∧
        Config.ecdsaVerify keyDebug (token.take 24) (slice token 24 96) = true
      ∃ u, exec (.debugToken t by_ token) s = .next u ∧ u.mem = s.mem ∧
        u.dev.rdd 0x2360 0x0D = padTo 16 (Config.freeBytes 16 d.fresh) ∧
        (good → u.dev.rd 0x2360 0x0F = fieldAt token 20 4 % 4 ∧
          u.dev.outbox.getLast? = some (.answer by_ stOk none)) ∧
        (¬ good → u.dev.regs = s.dev.regs ∧ u.dev.outbox = [.answer by_ stRange none])) ∧
    (d.pwr.state ≠ 5 → exec (.jtagInstruction t .idcode data) s = .next { s with
      dev := ({ d with pwr := { d.pwr with ir := .idcode } } : Dev).send (.pin "tdo" [0x19600C7B]) }) ∧
    (d.pwr.state ≠ 5 → d.pwr.resetLow = false → exec (.jtagInstruction t .extest data) s = .next { s with
      dev := { d with pwr := { d.pwr with ir := .bypass } } })

end
end

