-- ==== Sys2Proof/Laws/LineCode.lean ====
section
/-! SUPPORT. The line code of a ring lane: the receiver undoes what the transmitter does (R371, R372). -/
namespace Sys2Proof.Machine

theorem unstuff_stuff (bs tail : List Bool) : ∀ (last : Bool) (run : Nat),
    ∃ rest, unstuffBits last run false (stuffBits last run bs ++ tail) = bs ++ rest := by
  induction bs with
  | nil => intro last run; exact ⟨_, rfl⟩
  | cons b r ih =>
    intro last run
    by_cases h : runAfter last run b = 20
    · obtain ⟨rest, hr⟩ := ih (!b) 1
      refine ⟨rest, ?_⟩
      simp [stuffBits, unstuffBits, h, hr]
    · obtain ⟨rest, hr⟩ := ih b (runAfter last run b)
      have hf : (runAfter last run b == 20) = false := by simp [h]
      exact ⟨rest, by simp [stuffBits, unstuffBits, h, hf, hr]⟩

theorem descramble_scramble (bs : List Bool) : ∀ hist, descramble hist (scramble hist bs) = bs := by
  induction bs with
  | nil => intro hist; rfl
  | cons b r ih =>
    intro hist
    simp only [scramble, descramble, ih]
    cases b <;> cases hist.getD 38 false <;> cases hist.getD 57 false <;> rfl

theorem scramble_length (bs : List Bool) : ∀ hist, (scramble hist bs).length = bs.length := by
  induction bs with
  | nil => intro hist; rfl
  | cons b r ih => intro hist; simp [scramble, ih]

theorem fillBits_length (n : Nat) : ∀ last, (fillBits last n).length = n := by
  induction n with
  | zero => intro last; rfl
  | succ n ih => intro last; simp [fillBits, ih]

/-- What the receiver removes it removes by its own count: a payload of 1,888 bits comes back from its block, whatever the
lane has carried before, where transmitter and receiver agree on that. -/
theorem read_block (x : LaneCoder) (urgent : Bool) (payload : List Bool) (h : payload.length = 1888) :
    (x.read (x.block urgent payload).1).2.1 = payload := by
  have hl : (alignBits urgent).length = 64 := by simp [alignBits]
  have ht : ((x.block urgent payload).1).take 64 = alignBits urgent := by
    simp [LaneCoder.block, hl]
  have hd : ∃ tail, ((x.block urgent payload).1).drop 64 =
      stuffBits (x.pass (alignBits urgent)).last (x.pass (alignBits urgent)).run
        (scramble (x.pass (alignBits urgent)).hist payload) ++ tail :=
    ⟨_, by simp [LaneCoder.block, hl]; rfl⟩
  obtain ⟨tail, hd⟩ := hd
  obtain ⟨rest, hr⟩ := unstuff_stuff (scramble (x.pass (alignBits urgent)).hist payload) tail
    (x.pass (alignBits urgent)).last (x.pass (alignBits urgent)).run
  have hc := scramble_length payload (x.pass (alignBits urgent)).hist
  simp only [LaneCoder.read, ht, hd, hr]
  rw [List.take_append_of_le_length (by omega), List.take_of_length_le (by omega), descramble_scramble]

end Sys2Proof.Machine
end

