-- ==== Sys2Proof/Laws/Tab.lean ====
section
/-! SUPPORT. Sparse tables: a read after a write, and the canonical form, which every table operation keeps. -/
namespace Sys2Proof.Machine

variable {α : Type}

/-! ### Reading after writing -/

@[simp] theorem Tab.getD_insert_same (t : Tab α) (i : Nat) (x d : α) : Tab.getD (Tab.insert t i x) i d = x := by
  induction t with
  | nil => simp [Tab.insert, Tab.getD]
  | cons e r ih =>
    obtain ⟨k, v⟩ := e
    unfold Tab.insert
    split
    · simp [Tab.getD]
    · split
      · simp [Tab.getD]
      · simp [Tab.getD, *]

theorem Tab.getD_insert_other (t : Tab α) {i j : Nat} (x d : α) (h : j ≠ i) :
    Tab.getD (Tab.insert t i x) j d = Tab.getD t j d := by
  induction t with
  | nil => simp [Tab.insert, Tab.getD, Ne.symm h]
  | cons e r ih =>
    obtain ⟨k, v⟩ := e
    unfold Tab.insert
    split
    · subst_vars; simp [Tab.getD, Ne.symm h]
    · split
      · simp [Tab.getD, Ne.symm h]
      · simp [Tab.getD, ih]

theorem Tab.getD_erase_other (t : Tab α) {i j : Nat} (d : α) (h : j ≠ i) :
    Tab.getD (Tab.erase t i) j d = Tab.getD t j d := by
  induction t with
  | nil => simp [Tab.erase]
  | cons e r ih =>
    obtain ⟨k, v⟩ := e
    unfold Tab.erase
    split
    · subst_vars; simp [Tab.getD, Ne.symm h, ih]
    · simp [Tab.getD, ih]

@[simp] theorem Tab.getD_erase_same (t : Tab α) (i : Nat) (d : α) : Tab.getD (Tab.erase t i) i d = d := by
  induction t with
  | nil => simp [Tab.erase, Tab.getD]
  | cons e r ih =>
    obtain ⟨k, v⟩ := e
    unfold Tab.erase
    split
    · exact ih
    · simp [Tab.getD, *]

variable [DecidableEq α]

/-- A read of the key just written gives the value written. -/
@[simp] theorem Tab.getD_setD_same (t : Tab α) (i : Nat) (x d : α) : Tab.getD (Tab.setD t i x d) i d = x := by
  unfold Tab.setD
  split
  · subst_vars; exact Tab.getD_erase_same t _ _
  · exact Tab.getD_insert_same t i x d

/-- A write leaves every other key alone. -/
theorem Tab.getD_setD_other (t : Tab α) {i j : Nat} (x e d : α) (h : j ≠ i) :
    Tab.getD (Tab.setD t i x e) j d = Tab.getD t j d := by
  unfold Tab.setD
  split
  · exact Tab.getD_erase_other t d h
  · exact Tab.getD_insert_other t x d h

/-! ### The canonical form -/

omit [DecidableEq α] in
theorem Tab.sortedFrom_mono (t : Tab α) {a b : Nat} (h : a ≤ b) (hs : Tab.sortedFrom b t = true) :
    Tab.sortedFrom a t = true := by
  cases t with
  | nil => rfl
  | cons e r =>
    simp only [Tab.sortedFrom, Bool.and_eq_true, decide_eq_true_eq] at hs ⊢
    exact ⟨by omega, hs.2⟩

omit [DecidableEq α] in
theorem Tab.sortedFrom_erase (t : Tab α) {b i : Nat} (hs : Tab.sortedFrom b t = true) :
    Tab.sortedFrom b (Tab.erase t i) = true := by
  induction t generalizing b with
  | nil => rfl
  | cons e r ih =>
    obtain ⟨k, v⟩ := e
    simp only [Tab.sortedFrom, Bool.and_eq_true, decide_eq_true_eq] at hs
    unfold Tab.erase
    split
    · exact Tab.sortedFrom_mono _ (by omega) (ih hs.2)
    · simp only [Tab.sortedFrom, Bool.and_eq_true, decide_eq_true_eq]; exact ⟨hs.1, ih hs.2⟩

omit [DecidableEq α] in
theorem Tab.sortedFrom_insert (t : Tab α) {b i : Nat} (x : α) (hb : b ≤ i) (hs : Tab.sortedFrom b t = true) :
    Tab.sortedFrom b (Tab.insert t i x) = true := by
  induction t generalizing b with
  | nil => simp [Tab.insert, Tab.sortedFrom, hb]
  | cons e r ih =>
    obtain ⟨k, v⟩ := e
    simp only [Tab.sortedFrom, Bool.and_eq_true, decide_eq_true_eq] at hs
    unfold Tab.insert
    split
    · subst_vars; simp only [Tab.sortedFrom, Bool.and_eq_true, decide_eq_true_eq]; exact ⟨hb, hs.2⟩
    · split
      · simp only [Tab.sortedFrom, Bool.and_eq_true, decide_eq_true_eq]
        exact ⟨hb, by omega, hs.2⟩
      · simp only [Tab.sortedFrom, Bool.and_eq_true, decide_eq_true_eq]
        exact ⟨hs.1, ih (by omega) hs.2⟩

omit [DecidableEq α] in
theorem Tab.sortedFrom_filter (p : Nat × α → Bool) (t : Tab α) {b : Nat} (hs : Tab.sortedFrom b t = true) :
    Tab.sortedFrom b (t.filter p) = true := by
  induction t generalizing b with
  | nil => rfl
  | cons e r ih =>
    simp only [Tab.sortedFrom, Bool.and_eq_true, decide_eq_true_eq] at hs
    simp only [List.filter_cons]
    split
    · simp only [Tab.sortedFrom, Bool.and_eq_true, decide_eq_true_eq]; exact ⟨hs.1, ih hs.2⟩
    · exact ih (Tab.sortedFrom_mono r (by omega) hs.2)

omit [DecidableEq α] in
theorem Tab.mem_erase {t : Tab α} {i : Nat} {e : Nat × α} (h : e ∈ Tab.erase t i) : e ∈ t := by
  induction t with
  | nil => simp [Tab.erase] at h
  | cons f r ih =>
    obtain ⟨k, v⟩ := f
    unfold Tab.erase at h
    split at h
    · exact List.mem_cons_of_mem _ (ih h)
    · rcases List.mem_cons.1 h with h | h
      · exact h ▸ List.mem_cons_self
      · exact List.mem_cons_of_mem _ (ih h)

omit [DecidableEq α] in
theorem Tab.mem_insert {t : Tab α} {i : Nat} {x : α} {e : Nat × α} (h : e ∈ Tab.insert t i x) :
    e = (i, x) ∨ e ∈ t := by
  induction t with
  | nil => simpa [Tab.insert] using h
  | cons f r ih =>
    obtain ⟨k, v⟩ := f
    unfold Tab.insert at h
    split at h
    · rcases List.mem_cons.1 h with h | h
      · exact .inl h
      · exact .inr (List.mem_cons_of_mem _ h)
    · split at h
      · exact List.mem_cons.1 h
      · rcases List.mem_cons.1 h with h | h
        · exact .inr (h ▸ List.mem_cons_self)
        · exact (ih h).imp id (List.mem_cons_of_mem _)

/-- A write keeps the canonical form. -/
theorem Tab.wf_setD (dflt : Nat → α) (t : Tab α) (i : Nat) (x : α) (h : Tab.wf dflt t = true) :
    Tab.wf dflt (Tab.setD t i x (dflt i)) = true := by
  simp only [Tab.wf, Bool.and_eq_true, List.all_eq_true, decide_eq_true_eq] at h ⊢
  unfold Tab.setD
  split
  · exact ⟨Tab.sortedFrom_erase t h.1, fun e he => h.2 e (Tab.mem_erase he)⟩
  · rename_i hx
    refine ⟨Tab.sortedFrom_insert t x (Nat.zero_le i) h.1, fun e he => ?_⟩
    rcases Tab.mem_insert he with rfl | he
    · exact hx
    · exact h.2 e he

/-- Dropping entries keeps the canonical form. -/
theorem Tab.wf_filter (dflt : Nat → α) (p : Nat × α → Bool) (t : Tab α) (h : Tab.wf dflt t = true) :
    Tab.wf dflt (t.filter p) = true := by
  simp only [Tab.wf, Bool.and_eq_true, List.all_eq_true, decide_eq_true_eq] at h ⊢
  exact ⟨Tab.sortedFrom_filter p t h.1, fun e he => h.2 e ((List.mem_filter.1 he).1)⟩

@[simp] theorem Tab.wf_nil (dflt : Nat → α) : Tab.wf dflt [] = true := rfl

end Sys2Proof.Machine
end

