-- ==== Sys2Proof/Laws/Mem.lean ====
section
/-! SUPPORT. The HBM's bytes: a read after a write, and the canonical form, which every memory operation
keeps. -/
namespace Sys2Proof.Machine

/-- A write keeps the canonical form. -/
theorem Mem.wf_write (m : Mem) (a : Nat) (b : Byte) (h : m.wf = true) : (m.write a b).wf = true :=
  Tab.wf_setD _ m a b h

/-- Writing a list of bytes keeps it. -/
theorem Mem.wf_writeBytes (bs : List Byte) (m : Mem) (a : Nat) (h : m.wf = true) : (m.writeBytes a bs).wf = true := by
  induction bs generalizing m a with
  | nil => exact h
  | cons b bs ih => exact ih _ _ (Mem.wf_write m a b h)

/-- Clearing keeps it. -/
theorem Mem.wf_clear (m : Mem) (a n : Nat) (h : m.wf = true) : (m.clear a n).wf = true :=
  Tab.wf_filter _ _ m h

/-- Reading the byte just written gives it. -/
theorem Mem.read_write_same (m : Mem) (a : Nat) (b : Byte) : (m.write a b).read a = b :=
  Tab.getD_setD_same m a b unlistedByte

/-- A write leaves every other byte alone. -/
theorem Mem.read_write_other (m : Mem) {a c : Nat} (b : Byte) (h : c ≠ a) : (m.write a b).read c = m.read c :=
  Tab.getD_setD_other m b _ unlistedByte h

/-- Writing a list of bytes leaves every byte outside it alone. -/
theorem Mem.read_writeBytes_outside (bs : List Byte) (m : Mem) {a c : Nat} (h : c < a ∨ a + bs.length ≤ c) :
    (m.writeBytes a bs).read c = m.read c := by
  induction bs generalizing m a with
  | nil => rfl
  | cons b bs ih =>
    simp only [List.length_cons] at h
    rw [Mem.writeBytes, ih _ (by omega), Mem.read_write_other m b (by omega)]

end Sys2Proof.Machine
end

