-- ==== Sys2Proof/Laws/State.lean ====
section
/-! SUPPORT. What the updates of the device record leave alone: one lemma for each field and update. -/
namespace Sys2Proof.Machine

/-! `Dev.wrf` changes `regs` only. -/

@[simp] theorem Dev.wrf_now (d : Dev) (i s f v : Nat) : (d.wrf i s f v).now = d.now := rfl
@[simp] theorem Dev.wrf_outbox (d : Dev) (i s f v : Nat) : (d.wrf i s f v).outbox = d.outbox := rfl
@[simp] theorem Dev.wrf_fresh (d : Dev) (i s f v : Nat) : (d.wrf i s f v).fresh = d.fresh := rfl
@[simp] theorem Dev.wrf_doms (d : Dev) (i s f v : Nat) : (d.wrf i s f v).doms = d.doms := rfl
@[simp] theorem Dev.wrf_wings (d : Dev) (i s f v : Nat) : (d.wrf i s f v).wings = d.wings := rfl
@[simp] theorem Dev.wrf_sessions (d : Dev) (i s f v : Nat) : (d.wrf i s f v).sessions = d.sessions := rfl
@[simp] theorem Dev.wrf_authFails (d : Dev) (i s f v : Nat) : (d.wrf i s f v).authFails = d.authFails := rfl
@[simp] theorem Dev.wrf_blocked (d : Dev) (i s f v : Nat) : (d.wrf i s f v).blocked = d.blocked := rfl
@[simp] theorem Dev.wrf_canStage (d : Dev) (i s f v : Nat) : (d.wrf i s f v).canStage = d.canStage := rfl
@[simp] theorem Dev.wrf_tpdos (d : Dev) (i s f v : Nat) : (d.wrf i s f v).tpdos = d.tpdos := rfl
@[simp] theorem Dev.wrf_syncs (d : Dev) (i s f v : Nat) : (d.wrf i s f v).syncs = d.syncs := rfl
@[simp] theorem Dev.wrf_segs (d : Dev) (i s f v : Nat) : (d.wrf i s f v).segs = d.segs := rfl
@[simp] theorem Dev.wrf_wdpDropped (d : Dev) (i s f v : Nat) : (d.wrf i s f v).wdpDropped = d.wdpDropped := rfl
@[simp] theorem Dev.wrf_mbxs (d : Dev) (i s f v : Nat) : (d.wrf i s f v).mbxs = d.mbxs := rfl
@[simp] theorem Dev.wrf_batches (d : Dev) (i s f v : Nat) : (d.wrf i s f v).batches = d.batches := rfl
@[simp] theorem Dev.wrf_batchOf (d : Dev) (i s f v : Nat) : (d.wrf i s f v).batchOf = d.batchOf := rfl
@[simp] theorem Dev.wrf_batchNum (d : Dev) (i s f v : Nat) : (d.wrf i s f v).batchNum = d.batchNum := rfl
@[simp] theorem Dev.wrf_mirror (d : Dev) (i s f v : Nat) : (d.wrf i s f v).mirror = d.mirror := rfl
@[simp] theorem Dev.wrf_longOps (d : Dev) (i s f v : Nat) : (d.wrf i s f v).longOps = d.longOps := rfl
@[simp] theorem Dev.wrf_queue (d : Dev) (i s f v : Nat) : (d.wrf i s f v).queue = d.queue := rfl
@[simp] theorem Dev.wrf_aonFault (d : Dev) (i s f v : Nat) : (d.wrf i s f v).aonFault = d.aonFault := rfl
@[simp] theorem Dev.wrf_nmt (d : Dev) (i s f v : Nat) : (d.wrf i s f v).nmt = d.nmt := rfl
@[simp] theorem Dev.wrf_emcyAt (d : Dev) (i s f v : Nat) : (d.wrf i s f v).emcyAt = d.emcyAt := rfl
@[simp] theorem Dev.wrf_bootRegs (d : Dev) (i s f v : Nat) : (d.wrf i s f v).bootRegs = d.bootRegs := rfl
@[simp] theorem Dev.wrf_bootDoms (d : Dev) (i s f v : Nat) : (d.wrf i s f v).bootDoms = d.bootDoms := rfl
@[simp] theorem Dev.wrf_sources (d : Dev) (i s f v : Nat) : (d.wrf i s f v).sources = d.sources := rfl
@[simp] theorem Dev.wrf_joinRepeats (d : Dev) (i s f v : Nat) : (d.wrf i s f v).joinRepeats = d.joinRepeats := rfl
@[simp] theorem Dev.wrf_nmos (d : Dev) (i s f v : Nat) : (d.wrf i s f v).nmos = d.nmos := rfl
@[simp] theorem Dev.wrf_decs (d : Dev) (i s f v : Nat) : (d.wrf i s f v).decs = d.decs := rfl
@[simp] theorem Dev.wrf_layers (d : Dev) (i s f v : Nat) : (d.wrf i s f v).layers = d.layers := rfl
@[simp] theorem Dev.wrf_layerComps (d : Dev) (i s f v : Nat) : (d.wrf i s f v).layerComps = d.layerComps := rfl
@[simp] theorem Dev.wrf_outputs (d : Dev) (i s f v : Nat) : (d.wrf i s f v).outputs = d.outputs := rfl
@[simp] theorem Dev.wrf_hist (d : Dev) (i s f v : Nat) : (d.wrf i s f v).hist = d.hist := rfl
@[simp] theorem Dev.wrf_summary (d : Dev) (i s f v : Nat) : (d.wrf i s f v).summary = d.summary := rfl
@[simp] theorem Dev.wrf_shelfIdle (d : Dev) (i s f v : Nat) : (d.wrf i s f v).shelfIdle = d.shelfIdle := rfl
@[simp] theorem Dev.wrf_compId (d : Dev) (i s f v : Nat) : (d.wrf i s f v).compId = d.compId := rfl
@[simp] theorem Dev.wrf_dps (d : Dev) (i s f v : Nat) : (d.wrf i s f v).dps = d.dps := rfl
@[simp] theorem Dev.wrf_encs (d : Dev) (i s f v : Nat) : (d.wrf i s f v).encs = d.encs := rfl
@[simp] theorem Dev.wrf_evts (d : Dev) (i s f v : Nat) : (d.wrf i s f v).evts = d.evts := rfl
@[simp] theorem Dev.wrf_due (d : Dev) (i s f v : Nat) : (d.wrf i s f v).due = d.due := rfl
@[simp] theorem Dev.wrf_launched (d : Dev) (i s f v : Nat) : (d.wrf i s f v).launched = d.launched := rfl
@[simp] theorem Dev.wrf_pps (d : Dev) (i s f v : Nat) : (d.wrf i s f v).pps = d.pps := rfl
@[simp] theorem Dev.wrf_time (d : Dev) (i s f v : Nat) : (d.wrf i s f v).time = d.time := rfl
@[simp] theorem Dev.wrf_aud (d : Dev) (i s f v : Nat) : (d.wrf i s f v).aud = d.aud := rfl
@[simp] theorem Dev.wrf_touch (d : Dev) (i s f v : Nat) : (d.wrf i s f v).touch = d.touch := rfl
@[simp] theorem Dev.wrf_peak (d : Dev) (i s f v : Nat) : (d.wrf i s f v).peak = d.peak := rfl
@[simp] theorem Dev.wrf_ringOcc (d : Dev) (i s f v : Nat) : (d.wrf i s f v).ringOcc = d.ringOcc := rfl
@[simp] theorem Dev.wrf_pairFlows (d : Dev) (i s f v : Nat) : (d.wrf i s f v).pairFlows = d.pairFlows := rfl
@[simp] theorem Dev.wrf_parts (d : Dev) (i s f v : Nat) : (d.wrf i s f v).parts = d.parts := rfl
@[simp] theorem Dev.wrf_pcs (d : Dev) (i s f v : Nat) : (d.wrf i s f v).pcs = d.pcs := rfl
@[simp] theorem Dev.wrf_hbms (d : Dev) (i s f v : Nat) : (d.wrf i s f v).hbms = d.hbms := rfl
@[simp] theorem Dev.wrf_words (d : Dev) (i s f v : Nat) : (d.wrf i s f v).words = d.words := rfl
@[simp] theorem Dev.wrf_acts (d : Dev) (i s f v : Nat) : (d.wrf i s f v).acts = d.acts := rfl
@[simp] theorem Dev.wrf_throttles (d : Dev) (i s f v : Nat) : (d.wrf i s f v).throttles = d.throttles := rfl
@[simp] theorem Dev.wrf_uncTold (d : Dev) (i s f v : Nat) : (d.wrf i s f v).uncTold = d.uncTold := rfl
@[simp] theorem Dev.wrf_guardianStopped (d : Dev) (i s f v : Nat) : (d.wrf i s f v).guardianStopped = d.guardianStopped := rfl
@[simp] theorem Dev.wrf_curStopped (d : Dev) (i s f v : Nat) : (d.wrf i s f v).curStopped = d.curStopped := rfl
@[simp] theorem Dev.wrf_dup (d : Dev) (i s f v : Nat) : (d.wrf i s f v).dup = d.dup := rfl
@[simp] theorem Dev.wrf_ring (d : Dev) (i s f v : Nat) : (d.wrf i s f v).ring = d.ring := rfl
@[simp] theorem Dev.wrf_cal (d : Dev) (i s f v : Nat) : (d.wrf i s f v).cal = d.cal := rfl
@[simp] theorem Dev.wrf_flash (d : Dev) (i s f v : Nat) : (d.wrf i s f v).flash = d.flash := rfl
@[simp] theorem Dev.wrf_retain (d : Dev) (i s f v : Nat) : (d.wrf i s f v).retain = d.retain := rfl
@[simp] theorem Dev.wrf_saving (d : Dev) (i s f v : Nat) : (d.wrf i s f v).saving = d.saving := rfl
@[simp] theorem Dev.wrf_pwr (d : Dev) (i s f v : Nat) : (d.wrf i s f v).pwr = d.pwr := rfl

/-! `Dev.wr` changes `regs` only. -/

@[simp] theorem Dev.wr_now (d : Dev) (i s v : Nat) : (d.wr i s v).now = d.now := rfl
@[simp] theorem Dev.wr_outbox (d : Dev) (i s v : Nat) : (d.wr i s v).outbox = d.outbox := rfl
@[simp] theorem Dev.wr_fresh (d : Dev) (i s v : Nat) : (d.wr i s v).fresh = d.fresh := rfl
@[simp] theorem Dev.wr_doms (d : Dev) (i s v : Nat) : (d.wr i s v).doms = d.doms := rfl
@[simp] theorem Dev.wr_wings (d : Dev) (i s v : Nat) : (d.wr i s v).wings = d.wings := rfl
@[simp] theorem Dev.wr_sessions (d : Dev) (i s v : Nat) : (d.wr i s v).sessions = d.sessions := rfl
@[simp] theorem Dev.wr_authFails (d : Dev) (i s v : Nat) : (d.wr i s v).authFails = d.authFails := rfl
@[simp] theorem Dev.wr_blocked (d : Dev) (i s v : Nat) : (d.wr i s v).blocked = d.blocked := rfl
@[simp] theorem Dev.wr_canStage (d : Dev) (i s v : Nat) : (d.wr i s v).canStage = d.canStage := rfl
@[simp] theorem Dev.wr_tpdos (d : Dev) (i s v : Nat) : (d.wr i s v).tpdos = d.tpdos := rfl
@[simp] theorem Dev.wr_syncs (d : Dev) (i s v : Nat) : (d.wr i s v).syncs = d.syncs := rfl
@[simp] theorem Dev.wr_segs (d : Dev) (i s v : Nat) : (d.wr i s v).segs = d.segs := rfl
@[simp] theorem Dev.wr_wdpDropped (d : Dev) (i s v : Nat) : (d.wr i s v).wdpDropped = d.wdpDropped := rfl
@[simp] theorem Dev.wr_mbxs (d : Dev) (i s v : Nat) : (d.wr i s v).mbxs = d.mbxs := rfl
@[simp] theorem Dev.wr_batches (d : Dev) (i s v : Nat) : (d.wr i s v).batches = d.batches := rfl
@[simp] theorem Dev.wr_batchOf (d : Dev) (i s v : Nat) : (d.wr i s v).batchOf = d.batchOf := rfl
@[simp] theorem Dev.wr_batchNum (d : Dev) (i s v : Nat) : (d.wr i s v).batchNum = d.batchNum := rfl
@[simp] theorem Dev.wr_mirror (d : Dev) (i s v : Nat) : (d.wr i s v).mirror = d.mirror := rfl
@[simp] theorem Dev.wr_longOps (d : Dev) (i s v : Nat) : (d.wr i s v).longOps = d.longOps := rfl
@[simp] theorem Dev.wr_queue (d : Dev) (i s v : Nat) : (d.wr i s v).queue = d.queue := rfl
@[simp] theorem Dev.wr_aonFault (d : Dev) (i s v : Nat) : (d.wr i s v).aonFault = d.aonFault := rfl
@[simp] theorem Dev.wr_nmt (d : Dev) (i s v : Nat) : (d.wr i s v).nmt = d.nmt := rfl
@[simp] theorem Dev.wr_emcyAt (d : Dev) (i s v : Nat) : (d.wr i s v).emcyAt = d.emcyAt := rfl
@[simp] theorem Dev.wr_bootRegs (d : Dev) (i s v : Nat) : (d.wr i s v).bootRegs = d.bootRegs := rfl
@[simp] theorem Dev.wr_bootDoms (d : Dev) (i s v : Nat) : (d.wr i s v).bootDoms = d.bootDoms := rfl
@[simp] theorem Dev.wr_sources (d : Dev) (i s v : Nat) : (d.wr i s v).sources = d.sources := rfl
@[simp] theorem Dev.wr_joinRepeats (d : Dev) (i s v : Nat) : (d.wr i s v).joinRepeats = d.joinRepeats := rfl
@[simp] theorem Dev.wr_nmos (d : Dev) (i s v : Nat) : (d.wr i s v).nmos = d.nmos := rfl
@[simp] theorem Dev.wr_decs (d : Dev) (i s v : Nat) : (d.wr i s v).decs = d.decs := rfl
@[simp] theorem Dev.wr_layers (d : Dev) (i s v : Nat) : (d.wr i s v).layers = d.layers := rfl
@[simp] theorem Dev.wr_layerComps (d : Dev) (i s v : Nat) : (d.wr i s v).layerComps = d.layerComps := rfl
@[simp] theorem Dev.wr_outputs (d : Dev) (i s v : Nat) : (d.wr i s v).outputs = d.outputs := rfl
@[simp] theorem Dev.wr_hist (d : Dev) (i s v : Nat) : (d.wr i s v).hist = d.hist := rfl
@[simp] theorem Dev.wr_summary (d : Dev) (i s v : Nat) : (d.wr i s v).summary = d.summary := rfl
@[simp] theorem Dev.wr_shelfIdle (d : Dev) (i s v : Nat) : (d.wr i s v).shelfIdle = d.shelfIdle := rfl
@[simp] theorem Dev.wr_compId (d : Dev) (i s v : Nat) : (d.wr i s v).compId = d.compId := rfl
@[simp] theorem Dev.wr_dps (d : Dev) (i s v : Nat) : (d.wr i s v).dps = d.dps := rfl
@[simp] theorem Dev.wr_encs (d : Dev) (i s v : Nat) : (d.wr i s v).encs = d.encs := rfl
@[simp] theorem Dev.wr_evts (d : Dev) (i s v : Nat) : (d.wr i s v).evts = d.evts := rfl
@[simp] theorem Dev.wr_due (d : Dev) (i s v : Nat) : (d.wr i s v).due = d.due := rfl
@[simp] theorem Dev.wr_launched (d : Dev) (i s v : Nat) : (d.wr i s v).launched = d.launched := rfl
@[simp] theorem Dev.wr_pps (d : Dev) (i s v : Nat) : (d.wr i s v).pps = d.pps := rfl
@[simp] theorem Dev.wr_time (d : Dev) (i s v : Nat) : (d.wr i s v).time = d.time := rfl
@[simp] theorem Dev.wr_aud (d : Dev) (i s v : Nat) : (d.wr i s v).aud = d.aud := rfl
@[simp] theorem Dev.wr_touch (d : Dev) (i s v : Nat) : (d.wr i s v).touch = d.touch := rfl
@[simp] theorem Dev.wr_peak (d : Dev) (i s v : Nat) : (d.wr i s v).peak = d.peak := rfl
@[simp] theorem Dev.wr_ringOcc (d : Dev) (i s v : Nat) : (d.wr i s v).ringOcc = d.ringOcc := rfl
@[simp] theorem Dev.wr_pairFlows (d : Dev) (i s v : Nat) : (d.wr i s v).pairFlows = d.pairFlows := rfl
@[simp] theorem Dev.wr_parts (d : Dev) (i s v : Nat) : (d.wr i s v).parts = d.parts := rfl
@[simp] theorem Dev.wr_pcs (d : Dev) (i s v : Nat) : (d.wr i s v).pcs = d.pcs := rfl
@[simp] theorem Dev.wr_hbms (d : Dev) (i s v : Nat) : (d.wr i s v).hbms = d.hbms := rfl
@[simp] theorem Dev.wr_words (d : Dev) (i s v : Nat) : (d.wr i s v).words = d.words := rfl
@[simp] theorem Dev.wr_acts (d : Dev) (i s v : Nat) : (d.wr i s v).acts = d.acts := rfl
@[simp] theorem Dev.wr_throttles (d : Dev) (i s v : Nat) : (d.wr i s v).throttles = d.throttles := rfl
@[simp] theorem Dev.wr_uncTold (d : Dev) (i s v : Nat) : (d.wr i s v).uncTold = d.uncTold := rfl
@[simp] theorem Dev.wr_guardianStopped (d : Dev) (i s v : Nat) : (d.wr i s v).guardianStopped = d.guardianStopped := rfl
@[simp] theorem Dev.wr_curStopped (d : Dev) (i s v : Nat) : (d.wr i s v).curStopped = d.curStopped := rfl
@[simp] theorem Dev.wr_dup (d : Dev) (i s v : Nat) : (d.wr i s v).dup = d.dup := rfl
@[simp] theorem Dev.wr_ring (d : Dev) (i s v : Nat) : (d.wr i s v).ring = d.ring := rfl
@[simp] theorem Dev.wr_cal (d : Dev) (i s v : Nat) : (d.wr i s v).cal = d.cal := rfl
@[simp] theorem Dev.wr_flash (d : Dev) (i s v : Nat) : (d.wr i s v).flash = d.flash := rfl
@[simp] theorem Dev.wr_retain (d : Dev) (i s v : Nat) : (d.wr i s v).retain = d.retain := rfl
@[simp] theorem Dev.wr_saving (d : Dev) (i s v : Nat) : (d.wr i s v).saving = d.saving := rfl
@[simp] theorem Dev.wr_pwr (d : Dev) (i s v : Nat) : (d.wr i s v).pwr = d.pwr := rfl

/-! `Dev.wrc` changes `doms` only. -/

@[simp] theorem Dev.wrc_now (d : Dev) (i s c : Nat) (v : List Byte) : (d.wrc i s c v).now = d.now := rfl
@[simp] theorem Dev.wrc_outbox (d : Dev) (i s c : Nat) (v : List Byte) : (d.wrc i s c v).outbox = d.outbox := rfl
@[simp] theorem Dev.wrc_fresh (d : Dev) (i s c : Nat) (v : List Byte) : (d.wrc i s c v).fresh = d.fresh := rfl
@[simp] theorem Dev.wrc_regs (d : Dev) (i s c : Nat) (v : List Byte) : (d.wrc i s c v).regs = d.regs := rfl
@[simp] theorem Dev.wrc_wings (d : Dev) (i s c : Nat) (v : List Byte) : (d.wrc i s c v).wings = d.wings := rfl
@[simp] theorem Dev.wrc_sessions (d : Dev) (i s c : Nat) (v : List Byte) : (d.wrc i s c v).sessions = d.sessions := rfl
@[simp] theorem Dev.wrc_authFails (d : Dev) (i s c : Nat) (v : List Byte) : (d.wrc i s c v).authFails = d.authFails := rfl
@[simp] theorem Dev.wrc_blocked (d : Dev) (i s c : Nat) (v : List Byte) : (d.wrc i s c v).blocked = d.blocked := rfl
@[simp] theorem Dev.wrc_canStage (d : Dev) (i s c : Nat) (v : List Byte) : (d.wrc i s c v).canStage = d.canStage := rfl
@[simp] theorem Dev.wrc_tpdos (d : Dev) (i s c : Nat) (v : List Byte) : (d.wrc i s c v).tpdos = d.tpdos := rfl
@[simp] theorem Dev.wrc_syncs (d : Dev) (i s c : Nat) (v : List Byte) : (d.wrc i s c v).syncs = d.syncs := rfl
@[simp] theorem Dev.wrc_segs (d : Dev) (i s c : Nat) (v : List Byte) : (d.wrc i s c v).segs = d.segs := rfl
@[simp] theorem Dev.wrc_wdpDropped (d : Dev) (i s c : Nat) (v : List Byte) : (d.wrc i s c v).wdpDropped = d.wdpDropped := rfl
@[simp] theorem Dev.wrc_mbxs (d : Dev) (i s c : Nat) (v : List Byte) : (d.wrc i s c v).mbxs = d.mbxs := rfl
@[simp] theorem Dev.wrc_batches (d : Dev) (i s c : Nat) (v : List Byte) : (d.wrc i s c v).batches = d.batches := rfl
@[simp] theorem Dev.wrc_batchOf (d : Dev) (i s c : Nat) (v : List Byte) : (d.wrc i s c v).batchOf = d.batchOf := rfl
@[simp] theorem Dev.wrc_batchNum (d : Dev) (i s c : Nat) (v : List Byte) : (d.wrc i s c v).batchNum = d.batchNum := rfl
@[simp] theorem Dev.wrc_mirror (d : Dev) (i s c : Nat) (v : List Byte) : (d.wrc i s c v).mirror = d.mirror := rfl
@[simp] theorem Dev.wrc_longOps (d : Dev) (i s c : Nat) (v : List Byte) : (d.wrc i s c v).longOps = d.longOps := rfl
@[simp] theorem Dev.wrc_queue (d : Dev) (i s c : Nat) (v : List Byte) : (d.wrc i s c v).queue = d.queue := rfl
@[simp] theorem Dev.wrc_aonFault (d : Dev) (i s c : Nat) (v : List Byte) : (d.wrc i s c v).aonFault = d.aonFault := rfl
@[simp] theorem Dev.wrc_nmt (d : Dev) (i s c : Nat) (v : List Byte) : (d.wrc i s c v).nmt = d.nmt := rfl
@[simp] theorem Dev.wrc_emcyAt (d : Dev) (i s c : Nat) (v : List Byte) : (d.wrc i s c v).emcyAt = d.emcyAt := rfl
@[simp] theorem Dev.wrc_bootRegs (d : Dev) (i s c : Nat) (v : List Byte) : (d.wrc i s c v).bootRegs = d.bootRegs := rfl
@[simp] theorem Dev.wrc_bootDoms (d : Dev) (i s c : Nat) (v : List Byte) : (d.wrc i s c v).bootDoms = d.bootDoms := rfl
@[simp] theorem Dev.wrc_sources (d : Dev) (i s c : Nat) (v : List Byte) : (d.wrc i s c v).sources = d.sources := rfl
@[simp] theorem Dev.wrc_joinRepeats (d : Dev) (i s c : Nat) (v : List Byte) : (d.wrc i s c v).joinRepeats = d.joinRepeats := rfl
@[simp] theorem Dev.wrc_nmos (d : Dev) (i s c : Nat) (v : List Byte) : (d.wrc i s c v).nmos = d.nmos := rfl
@[simp] theorem Dev.wrc_decs (d : Dev) (i s c : Nat) (v : List Byte) : (d.wrc i s c v).decs = d.decs := rfl
@[simp] theorem Dev.wrc_layers (d : Dev) (i s c : Nat) (v : List Byte) : (d.wrc i s c v).layers = d.layers := rfl
@[simp] theorem Dev.wrc_layerComps (d : Dev) (i s c : Nat) (v : List Byte) : (d.wrc i s c v).layerComps = d.layerComps := rfl
@[simp] theorem Dev.wrc_outputs (d : Dev) (i s c : Nat) (v : List Byte) : (d.wrc i s c v).outputs = d.outputs := rfl
@[simp] theorem Dev.wrc_hist (d : Dev) (i s c : Nat) (v : List Byte) : (d.wrc i s c v).hist = d.hist := rfl
@[simp] theorem Dev.wrc_summary (d : Dev) (i s c : Nat) (v : List Byte) : (d.wrc i s c v).summary = d.summary := rfl
@[simp] theorem Dev.wrc_shelfIdle (d : Dev) (i s c : Nat) (v : List Byte) : (d.wrc i s c v).shelfIdle = d.shelfIdle := rfl
@[simp] theorem Dev.wrc_compId (d : Dev) (i s c : Nat) (v : List Byte) : (d.wrc i s c v).compId = d.compId := rfl
@[simp] theorem Dev.wrc_dps (d : Dev) (i s c : Nat) (v : List Byte) : (d.wrc i s c v).dps = d.dps := rfl
@[simp] theorem Dev.wrc_encs (d : Dev) (i s c : Nat) (v : List Byte) : (d.wrc i s c v).encs = d.encs := rfl
@[simp] theorem Dev.wrc_evts (d : Dev) (i s c : Nat) (v : List Byte) : (d.wrc i s c v).evts = d.evts := rfl
@[simp] theorem Dev.wrc_due (d : Dev) (i s c : Nat) (v : List Byte) : (d.wrc i s c v).due = d.due := rfl
@[simp] theorem Dev.wrc_launched (d : Dev) (i s c : Nat) (v : List Byte) : (d.wrc i s c v).launched = d.launched := rfl
@[simp] theorem Dev.wrc_pps (d : Dev) (i s c : Nat) (v : List Byte) : (d.wrc i s c v).pps = d.pps := rfl
@[simp] theorem Dev.wrc_time (d : Dev) (i s c : Nat) (v : List Byte) : (d.wrc i s c v).time = d.time := rfl
@[simp] theorem Dev.wrc_aud (d : Dev) (i s c : Nat) (v : List Byte) : (d.wrc i s c v).aud = d.aud := rfl
@[simp] theorem Dev.wrc_touch (d : Dev) (i s c : Nat) (v : List Byte) : (d.wrc i s c v).touch = d.touch := rfl
@[simp] theorem Dev.wrc_peak (d : Dev) (i s c : Nat) (v : List Byte) : (d.wrc i s c v).peak = d.peak := rfl
@[simp] theorem Dev.wrc_ringOcc (d : Dev) (i s c : Nat) (v : List Byte) : (d.wrc i s c v).ringOcc = d.ringOcc := rfl
@[simp] theorem Dev.wrc_pairFlows (d : Dev) (i s c : Nat) (v : List Byte) : (d.wrc i s c v).pairFlows = d.pairFlows := rfl
@[simp] theorem Dev.wrc_parts (d : Dev) (i s c : Nat) (v : List Byte) : (d.wrc i s c v).parts = d.parts := rfl
@[simp] theorem Dev.wrc_pcs (d : Dev) (i s c : Nat) (v : List Byte) : (d.wrc i s c v).pcs = d.pcs := rfl
@[simp] theorem Dev.wrc_hbms (d : Dev) (i s c : Nat) (v : List Byte) : (d.wrc i s c v).hbms = d.hbms := rfl
@[simp] theorem Dev.wrc_words (d : Dev) (i s c : Nat) (v : List Byte) : (d.wrc i s c v).words = d.words := rfl
@[simp] theorem Dev.wrc_acts (d : Dev) (i s c : Nat) (v : List Byte) : (d.wrc i s c v).acts = d.acts := rfl
@[simp] theorem Dev.wrc_throttles (d : Dev) (i s c : Nat) (v : List Byte) : (d.wrc i s c v).throttles = d.throttles := rfl
@[simp] theorem Dev.wrc_uncTold (d : Dev) (i s c : Nat) (v : List Byte) : (d.wrc i s c v).uncTold = d.uncTold := rfl
@[simp] theorem Dev.wrc_guardianStopped (d : Dev) (i s c : Nat) (v : List Byte) : (d.wrc i s c v).guardianStopped = d.guardianStopped := rfl
@[simp] theorem Dev.wrc_curStopped (d : Dev) (i s c : Nat) (v : List Byte) : (d.wrc i s c v).curStopped = d.curStopped := rfl
@[simp] theorem Dev.wrc_dup (d : Dev) (i s c : Nat) (v : List Byte) : (d.wrc i s c v).dup = d.dup := rfl
@[simp] theorem Dev.wrc_ring (d : Dev) (i s c : Nat) (v : List Byte) : (d.wrc i s c v).ring = d.ring := rfl
@[simp] theorem Dev.wrc_cal (d : Dev) (i s c : Nat) (v : List Byte) : (d.wrc i s c v).cal = d.cal := rfl
@[simp] theorem Dev.wrc_flash (d : Dev) (i s c : Nat) (v : List Byte) : (d.wrc i s c v).flash = d.flash := rfl
@[simp] theorem Dev.wrc_retain (d : Dev) (i s c : Nat) (v : List Byte) : (d.wrc i s c v).retain = d.retain := rfl
@[simp] theorem Dev.wrc_saving (d : Dev) (i s c : Nat) (v : List Byte) : (d.wrc i s c v).saving = d.saving := rfl
@[simp] theorem Dev.wrc_pwr (d : Dev) (i s c : Nat) (v : List Byte) : (d.wrc i s c v).pwr = d.pwr := rfl

/-! `Dev.wrd` changes `doms` only. -/

@[simp] theorem Dev.wrd_now (d : Dev) (i s : Nat) (v : List Byte) : (d.wrd i s v).now = d.now := rfl
@[simp] theorem Dev.wrd_outbox (d : Dev) (i s : Nat) (v : List Byte) : (d.wrd i s v).outbox = d.outbox := rfl
@[simp] theorem Dev.wrd_fresh (d : Dev) (i s : Nat) (v : List Byte) : (d.wrd i s v).fresh = d.fresh := rfl
@[simp] theorem Dev.wrd_regs (d : Dev) (i s : Nat) (v : List Byte) : (d.wrd i s v).regs = d.regs := rfl
@[simp] theorem Dev.wrd_wings (d : Dev) (i s : Nat) (v : List Byte) : (d.wrd i s v).wings = d.wings := rfl
@[simp] theorem Dev.wrd_sessions (d : Dev) (i s : Nat) (v : List Byte) : (d.wrd i s v).sessions = d.sessions := rfl
@[simp] theorem Dev.wrd_authFails (d : Dev) (i s : Nat) (v : List Byte) : (d.wrd i s v).authFails = d.authFails := rfl
@[simp] theorem Dev.wrd_blocked (d : Dev) (i s : Nat) (v : List Byte) : (d.wrd i s v).blocked = d.blocked := rfl
@[simp] theorem Dev.wrd_canStage (d : Dev) (i s : Nat) (v : List Byte) : (d.wrd i s v).canStage = d.canStage := rfl
@[simp] theorem Dev.wrd_tpdos (d : Dev) (i s : Nat) (v : List Byte) : (d.wrd i s v).tpdos = d.tpdos := rfl
@[simp] theorem Dev.wrd_syncs (d : Dev) (i s : Nat) (v : List Byte) : (d.wrd i s v).syncs = d.syncs := rfl
@[simp] theorem Dev.wrd_segs (d : Dev) (i s : Nat) (v : List Byte) : (d.wrd i s v).segs = d.segs := rfl
@[simp] theorem Dev.wrd_wdpDropped (d : Dev) (i s : Nat) (v : List Byte) : (d.wrd i s v).wdpDropped = d.wdpDropped := rfl
@[simp] theorem Dev.wrd_mbxs (d : Dev) (i s : Nat) (v : List Byte) : (d.wrd i s v).mbxs = d.mbxs := rfl
@[simp] theorem Dev.wrd_batches (d : Dev) (i s : Nat) (v : List Byte) : (d.wrd i s v).batches = d.batches := rfl
@[simp] theorem Dev.wrd_batchOf (d : Dev) (i s : Nat) (v : List Byte) : (d.wrd i s v).batchOf = d.batchOf := rfl
@[simp] theorem Dev.wrd_batchNum (d : Dev) (i s : Nat) (v : List Byte) : (d.wrd i s v).batchNum = d.batchNum := rfl
@[simp] theorem Dev.wrd_mirror (d : Dev) (i s : Nat) (v : List Byte) : (d.wrd i s v).mirror = d.mirror := rfl
@[simp] theorem Dev.wrd_longOps (d : Dev) (i s : Nat) (v : List Byte) : (d.wrd i s v).longOps = d.longOps := rfl
@[simp] theorem Dev.wrd_queue (d : Dev) (i s : Nat) (v : List Byte) : (d.wrd i s v).queue = d.queue := rfl
@[simp] theorem Dev.wrd_aonFault (d : Dev) (i s : Nat) (v : List Byte) : (d.wrd i s v).aonFault = d.aonFault := rfl
@[simp] theorem Dev.wrd_nmt (d : Dev) (i s : Nat) (v : List Byte) : (d.wrd i s v).nmt = d.nmt := rfl
@[simp] theorem Dev.wrd_emcyAt (d : Dev) (i s : Nat) (v : List Byte) : (d.wrd i s v).emcyAt = d.emcyAt := rfl
@[simp] theorem Dev.wrd_bootRegs (d : Dev) (i s : Nat) (v : List Byte) : (d.wrd i s v).bootRegs = d.bootRegs := rfl
@[simp] theorem Dev.wrd_bootDoms (d : Dev) (i s : Nat) (v : List Byte) : (d.wrd i s v).bootDoms = d.bootDoms := rfl
@[simp] theorem Dev.wrd_sources (d : Dev) (i s : Nat) (v : List Byte) : (d.wrd i s v).sources = d.sources := rfl
@[simp] theorem Dev.wrd_joinRepeats (d : Dev) (i s : Nat) (v : List Byte) : (d.wrd i s v).joinRepeats = d.joinRepeats := rfl
@[simp] theorem Dev.wrd_nmos (d : Dev) (i s : Nat) (v : List Byte) : (d.wrd i s v).nmos = d.nmos := rfl
@[simp] theorem Dev.wrd_decs (d : Dev) (i s : Nat) (v : List Byte) : (d.wrd i s v).decs = d.decs := rfl
@[simp] theorem Dev.wrd_layers (d : Dev) (i s : Nat) (v : List Byte) : (d.wrd i s v).layers = d.layers := rfl
@[simp] theorem Dev.wrd_layerComps (d : Dev) (i s : Nat) (v : List Byte) : (d.wrd i s v).layerComps = d.layerComps := rfl
@[simp] theorem Dev.wrd_outputs (d : Dev) (i s : Nat) (v : List Byte) : (d.wrd i s v).outputs = d.outputs := rfl
@[simp] theorem Dev.wrd_hist (d : Dev) (i s : Nat) (v : List Byte) : (d.wrd i s v).hist = d.hist := rfl
@[simp] theorem Dev.wrd_summary (d : Dev) (i s : Nat) (v : List Byte) : (d.wrd i s v).summary = d.summary := rfl
@[simp] theorem Dev.wrd_shelfIdle (d : Dev) (i s : Nat) (v : List Byte) : (d.wrd i s v).shelfIdle = d.shelfIdle := rfl
@[simp] theorem Dev.wrd_compId (d : Dev) (i s : Nat) (v : List Byte) : (d.wrd i s v).compId = d.compId := rfl
@[simp] theorem Dev.wrd_dps (d : Dev) (i s : Nat) (v : List Byte) : (d.wrd i s v).dps = d.dps := rfl
@[simp] theorem Dev.wrd_encs (d : Dev) (i s : Nat) (v : List Byte) : (d.wrd i s v).encs = d.encs := rfl
@[simp] theorem Dev.wrd_evts (d : Dev) (i s : Nat) (v : List Byte) : (d.wrd i s v).evts = d.evts := rfl
@[simp] theorem Dev.wrd_due (d : Dev) (i s : Nat) (v : List Byte) : (d.wrd i s v).due = d.due := rfl
@[simp] theorem Dev.wrd_launched (d : Dev) (i s : Nat) (v : List Byte) : (d.wrd i s v).launched = d.launched := rfl
@[simp] theorem Dev.wrd_pps (d : Dev) (i s : Nat) (v : List Byte) : (d.wrd i s v).pps = d.pps := rfl
@[simp] theorem Dev.wrd_time (d : Dev) (i s : Nat) (v : List Byte) : (d.wrd i s v).time = d.time := rfl
@[simp] theorem Dev.wrd_aud (d : Dev) (i s : Nat) (v : List Byte) : (d.wrd i s v).aud = d.aud := rfl
@[simp] theorem Dev.wrd_touch (d : Dev) (i s : Nat) (v : List Byte) : (d.wrd i s v).touch = d.touch := rfl
@[simp] theorem Dev.wrd_peak (d : Dev) (i s : Nat) (v : List Byte) : (d.wrd i s v).peak = d.peak := rfl
@[simp] theorem Dev.wrd_ringOcc (d : Dev) (i s : Nat) (v : List Byte) : (d.wrd i s v).ringOcc = d.ringOcc := rfl
@[simp] theorem Dev.wrd_pairFlows (d : Dev) (i s : Nat) (v : List Byte) : (d.wrd i s v).pairFlows = d.pairFlows := rfl
@[simp] theorem Dev.wrd_parts (d : Dev) (i s : Nat) (v : List Byte) : (d.wrd i s v).parts = d.parts := rfl
@[simp] theorem Dev.wrd_pcs (d : Dev) (i s : Nat) (v : List Byte) : (d.wrd i s v).pcs = d.pcs := rfl
@[simp] theorem Dev.wrd_hbms (d : Dev) (i s : Nat) (v : List Byte) : (d.wrd i s v).hbms = d.hbms := rfl
@[simp] theorem Dev.wrd_words (d : Dev) (i s : Nat) (v : List Byte) : (d.wrd i s v).words = d.words := rfl
@[simp] theorem Dev.wrd_acts (d : Dev) (i s : Nat) (v : List Byte) : (d.wrd i s v).acts = d.acts := rfl
@[simp] theorem Dev.wrd_throttles (d : Dev) (i s : Nat) (v : List Byte) : (d.wrd i s v).throttles = d.throttles := rfl
@[simp] theorem Dev.wrd_uncTold (d : Dev) (i s : Nat) (v : List Byte) : (d.wrd i s v).uncTold = d.uncTold := rfl
@[simp] theorem Dev.wrd_guardianStopped (d : Dev) (i s : Nat) (v : List Byte) : (d.wrd i s v).guardianStopped = d.guardianStopped := rfl
@[simp] theorem Dev.wrd_curStopped (d : Dev) (i s : Nat) (v : List Byte) : (d.wrd i s v).curStopped = d.curStopped := rfl
@[simp] theorem Dev.wrd_dup (d : Dev) (i s : Nat) (v : List Byte) : (d.wrd i s v).dup = d.dup := rfl
@[simp] theorem Dev.wrd_ring (d : Dev) (i s : Nat) (v : List Byte) : (d.wrd i s v).ring = d.ring := rfl
@[simp] theorem Dev.wrd_cal (d : Dev) (i s : Nat) (v : List Byte) : (d.wrd i s v).cal = d.cal := rfl
@[simp] theorem Dev.wrd_flash (d : Dev) (i s : Nat) (v : List Byte) : (d.wrd i s v).flash = d.flash := rfl
@[simp] theorem Dev.wrd_retain (d : Dev) (i s : Nat) (v : List Byte) : (d.wrd i s v).retain = d.retain := rfl
@[simp] theorem Dev.wrd_saving (d : Dev) (i s : Nat) (v : List Byte) : (d.wrd i s v).saving = d.saving := rfl
@[simp] theorem Dev.wrd_pwr (d : Dev) (i s : Nat) (v : List Byte) : (d.wrd i s v).pwr = d.pwr := rfl

/-! `Dev.send` changes `outbox` only. -/

@[simp] theorem Dev.send_now (d : Dev) (o : Out) : (d.send o).now = d.now := rfl
@[simp] theorem Dev.send_fresh (d : Dev) (o : Out) : (d.send o).fresh = d.fresh := rfl
@[simp] theorem Dev.send_regs (d : Dev) (o : Out) : (d.send o).regs = d.regs := rfl
@[simp] theorem Dev.send_doms (d : Dev) (o : Out) : (d.send o).doms = d.doms := rfl
@[simp] theorem Dev.send_wings (d : Dev) (o : Out) : (d.send o).wings = d.wings := rfl
@[simp] theorem Dev.send_sessions (d : Dev) (o : Out) : (d.send o).sessions = d.sessions := rfl
@[simp] theorem Dev.send_authFails (d : Dev) (o : Out) : (d.send o).authFails = d.authFails := rfl
@[simp] theorem Dev.send_blocked (d : Dev) (o : Out) : (d.send o).blocked = d.blocked := rfl
@[simp] theorem Dev.send_canStage (d : Dev) (o : Out) : (d.send o).canStage = d.canStage := rfl
@[simp] theorem Dev.send_tpdos (d : Dev) (o : Out) : (d.send o).tpdos = d.tpdos := rfl
@[simp] theorem Dev.send_syncs (d : Dev) (o : Out) : (d.send o).syncs = d.syncs := rfl
@[simp] theorem Dev.send_segs (d : Dev) (o : Out) : (d.send o).segs = d.segs := rfl
@[simp] theorem Dev.send_wdpDropped (d : Dev) (o : Out) : (d.send o).wdpDropped = d.wdpDropped := rfl
@[simp] theorem Dev.send_mbxs (d : Dev) (o : Out) : (d.send o).mbxs = d.mbxs := rfl
@[simp] theorem Dev.send_batches (d : Dev) (o : Out) : (d.send o).batches = d.batches := rfl
@[simp] theorem Dev.send_batchOf (d : Dev) (o : Out) : (d.send o).batchOf = d.batchOf := rfl
@[simp] theorem Dev.send_batchNum (d : Dev) (o : Out) : (d.send o).batchNum = d.batchNum := rfl
@[simp] theorem Dev.send_mirror (d : Dev) (o : Out) : (d.send o).mirror = d.mirror := rfl
@[simp] theorem Dev.send_longOps (d : Dev) (o : Out) : (d.send o).longOps = d.longOps := rfl
@[simp] theorem Dev.send_queue (d : Dev) (o : Out) : (d.send o).queue = d.queue := rfl
@[simp] theorem Dev.send_aonFault (d : Dev) (o : Out) : (d.send o).aonFault = d.aonFault := rfl
@[simp] theorem Dev.send_nmt (d : Dev) (o : Out) : (d.send o).nmt = d.nmt := rfl
@[simp] theorem Dev.send_emcyAt (d : Dev) (o : Out) : (d.send o).emcyAt = d.emcyAt := rfl
@[simp] theorem Dev.send_bootRegs (d : Dev) (o : Out) : (d.send o).bootRegs = d.bootRegs := rfl
@[simp] theorem Dev.send_bootDoms (d : Dev) (o : Out) : (d.send o).bootDoms = d.bootDoms := rfl
@[simp] theorem Dev.send_sources (d : Dev) (o : Out) : (d.send o).sources = d.sources := rfl
@[simp] theorem Dev.send_joinRepeats (d : Dev) (o : Out) : (d.send o).joinRepeats = d.joinRepeats := rfl
@[simp] theorem Dev.send_nmos (d : Dev) (o : Out) : (d.send o).nmos = d.nmos := rfl
@[simp] theorem Dev.send_decs (d : Dev) (o : Out) : (d.send o).decs = d.decs := rfl
@[simp] theorem Dev.send_layers (d : Dev) (o : Out) : (d.send o).layers = d.layers := rfl
@[simp] theorem Dev.send_layerComps (d : Dev) (o : Out) : (d.send o).layerComps = d.layerComps := rfl
@[simp] theorem Dev.send_outputs (d : Dev) (o : Out) : (d.send o).outputs = d.outputs := rfl
@[simp] theorem Dev.send_hist (d : Dev) (o : Out) : (d.send o).hist = d.hist := rfl
@[simp] theorem Dev.send_summary (d : Dev) (o : Out) : (d.send o).summary = d.summary := rfl
@[simp] theorem Dev.send_shelfIdle (d : Dev) (o : Out) : (d.send o).shelfIdle = d.shelfIdle := rfl
@[simp] theorem Dev.send_compId (d : Dev) (o : Out) : (d.send o).compId = d.compId := rfl
@[simp] theorem Dev.send_dps (d : Dev) (o : Out) : (d.send o).dps = d.dps := rfl
@[simp] theorem Dev.send_encs (d : Dev) (o : Out) : (d.send o).encs = d.encs := rfl
@[simp] theorem Dev.send_evts (d : Dev) (o : Out) : (d.send o).evts = d.evts := rfl
@[simp] theorem Dev.send_due (d : Dev) (o : Out) : (d.send o).due = d.due := rfl
@[simp] theorem Dev.send_launched (d : Dev) (o : Out) : (d.send o).launched = d.launched := rfl
@[simp] theorem Dev.send_pps (d : Dev) (o : Out) : (d.send o).pps = d.pps := rfl
@[simp] theorem Dev.send_time (d : Dev) (o : Out) : (d.send o).time = d.time := rfl
@[simp] theorem Dev.send_aud (d : Dev) (o : Out) : (d.send o).aud = d.aud := rfl
@[simp] theorem Dev.send_touch (d : Dev) (o : Out) : (d.send o).touch = d.touch := rfl
@[simp] theorem Dev.send_peak (d : Dev) (o : Out) : (d.send o).peak = d.peak := rfl
@[simp] theorem Dev.send_ringOcc (d : Dev) (o : Out) : (d.send o).ringOcc = d.ringOcc := rfl
@[simp] theorem Dev.send_pairFlows (d : Dev) (o : Out) : (d.send o).pairFlows = d.pairFlows := rfl
@[simp] theorem Dev.send_parts (d : Dev) (o : Out) : (d.send o).parts = d.parts := rfl
@[simp] theorem Dev.send_pcs (d : Dev) (o : Out) : (d.send o).pcs = d.pcs := rfl
@[simp] theorem Dev.send_hbms (d : Dev) (o : Out) : (d.send o).hbms = d.hbms := rfl
@[simp] theorem Dev.send_words (d : Dev) (o : Out) : (d.send o).words = d.words := rfl
@[simp] theorem Dev.send_acts (d : Dev) (o : Out) : (d.send o).acts = d.acts := rfl
@[simp] theorem Dev.send_throttles (d : Dev) (o : Out) : (d.send o).throttles = d.throttles := rfl
@[simp] theorem Dev.send_uncTold (d : Dev) (o : Out) : (d.send o).uncTold = d.uncTold := rfl
@[simp] theorem Dev.send_guardianStopped (d : Dev) (o : Out) : (d.send o).guardianStopped = d.guardianStopped := rfl
@[simp] theorem Dev.send_curStopped (d : Dev) (o : Out) : (d.send o).curStopped = d.curStopped := rfl
@[simp] theorem Dev.send_dup (d : Dev) (o : Out) : (d.send o).dup = d.dup := rfl
@[simp] theorem Dev.send_ring (d : Dev) (o : Out) : (d.send o).ring = d.ring := rfl
@[simp] theorem Dev.send_cal (d : Dev) (o : Out) : (d.send o).cal = d.cal := rfl
@[simp] theorem Dev.send_flash (d : Dev) (o : Out) : (d.send o).flash = d.flash := rfl
@[simp] theorem Dev.send_retain (d : Dev) (o : Out) : (d.send o).retain = d.retain := rfl
@[simp] theorem Dev.send_saving (d : Dev) (o : Out) : (d.send o).saving = d.saving := rfl
@[simp] theorem Dev.send_pwr (d : Dev) (o : Out) : (d.send o).pwr = d.pwr := rfl

/-! `Dev.setSession` changes `sessions` only. -/

@[simp] theorem Dev.setSession_now (d : Dev) (n : Nat) (x : Option Session) : (d.setSession n x).now = d.now := rfl
@[simp] theorem Dev.setSession_outbox (d : Dev) (n : Nat) (x : Option Session) : (d.setSession n x).outbox = d.outbox := rfl
@[simp] theorem Dev.setSession_fresh (d : Dev) (n : Nat) (x : Option Session) : (d.setSession n x).fresh = d.fresh := rfl
@[simp] theorem Dev.setSession_regs (d : Dev) (n : Nat) (x : Option Session) : (d.setSession n x).regs = d.regs := rfl
@[simp] theorem Dev.setSession_doms (d : Dev) (n : Nat) (x : Option Session) : (d.setSession n x).doms = d.doms := rfl
@[simp] theorem Dev.setSession_wings (d : Dev) (n : Nat) (x : Option Session) : (d.setSession n x).wings = d.wings := rfl
@[simp] theorem Dev.setSession_authFails (d : Dev) (n : Nat) (x : Option Session) : (d.setSession n x).authFails = d.authFails := rfl
@[simp] theorem Dev.setSession_blocked (d : Dev) (n : Nat) (x : Option Session) : (d.setSession n x).blocked = d.blocked := rfl
@[simp] theorem Dev.setSession_canStage (d : Dev) (n : Nat) (x : Option Session) : (d.setSession n x).canStage = d.canStage := rfl
@[simp] theorem Dev.setSession_tpdos (d : Dev) (n : Nat) (x : Option Session) : (d.setSession n x).tpdos = d.tpdos := rfl
@[simp] theorem Dev.setSession_syncs (d : Dev) (n : Nat) (x : Option Session) : (d.setSession n x).syncs = d.syncs := rfl
@[simp] theorem Dev.setSession_segs (d : Dev) (n : Nat) (x : Option Session) : (d.setSession n x).segs = d.segs := rfl
@[simp] theorem Dev.setSession_wdpDropped (d : Dev) (n : Nat) (x : Option Session) : (d.setSession n x).wdpDropped = d.wdpDropped := rfl
@[simp] theorem Dev.setSession_mbxs (d : Dev) (n : Nat) (x : Option Session) : (d.setSession n x).mbxs = d.mbxs := rfl
@[simp] theorem Dev.setSession_batches (d : Dev) (n : Nat) (x : Option Session) : (d.setSession n x).batches = d.batches := rfl
@[simp] theorem Dev.setSession_batchOf (d : Dev) (n : Nat) (x : Option Session) : (d.setSession n x).batchOf = d.batchOf := rfl
@[simp] theorem Dev.setSession_batchNum (d : Dev) (n : Nat) (x : Option Session) : (d.setSession n x).batchNum = d.batchNum := rfl
@[simp] theorem Dev.setSession_mirror (d : Dev) (n : Nat) (x : Option Session) : (d.setSession n x).mirror = d.mirror := rfl
@[simp] theorem Dev.setSession_longOps (d : Dev) (n : Nat) (x : Option Session) : (d.setSession n x).longOps = d.longOps := rfl
@[simp] theorem Dev.setSession_queue (d : Dev) (n : Nat) (x : Option Session) : (d.setSession n x).queue = d.queue := rfl
@[simp] theorem Dev.setSession_aonFault (d : Dev) (n : Nat) (x : Option Session) : (d.setSession n x).aonFault = d.aonFault := rfl
@[simp] theorem Dev.setSession_nmt (d : Dev) (n : Nat) (x : Option Session) : (d.setSession n x).nmt = d.nmt := rfl
@[simp] theorem Dev.setSession_emcyAt (d : Dev) (n : Nat) (x : Option Session) : (d.setSession n x).emcyAt = d.emcyAt := rfl
@[simp] theorem Dev.setSession_bootRegs (d : Dev) (n : Nat) (x : Option Session) : (d.setSession n x).bootRegs = d.bootRegs := rfl
@[simp] theorem Dev.setSession_bootDoms (d : Dev) (n : Nat) (x : Option Session) : (d.setSession n x).bootDoms = d.bootDoms := rfl
@[simp] theorem Dev.setSession_sources (d : Dev) (n : Nat) (x : Option Session) : (d.setSession n x).sources = d.sources := rfl
@[simp] theorem Dev.setSession_joinRepeats (d : Dev) (n : Nat) (x : Option Session) : (d.setSession n x).joinRepeats = d.joinRepeats := rfl
@[simp] theorem Dev.setSession_nmos (d : Dev) (n : Nat) (x : Option Session) : (d.setSession n x).nmos = d.nmos := rfl
@[simp] theorem Dev.setSession_decs (d : Dev) (n : Nat) (x : Option Session) : (d.setSession n x).decs = d.decs := rfl
@[simp] theorem Dev.setSession_layers (d : Dev) (n : Nat) (x : Option Session) : (d.setSession n x).layers = d.layers := rfl
@[simp] theorem Dev.setSession_layerComps (d : Dev) (n : Nat) (x : Option Session) : (d.setSession n x).layerComps = d.layerComps := rfl
@[simp] theorem Dev.setSession_outputs (d : Dev) (n : Nat) (x : Option Session) : (d.setSession n x).outputs = d.outputs := rfl
@[simp] theorem Dev.setSession_hist (d : Dev) (n : Nat) (x : Option Session) : (d.setSession n x).hist = d.hist := rfl
@[simp] theorem Dev.setSession_summary (d : Dev) (n : Nat) (x : Option Session) : (d.setSession n x).summary = d.summary := rfl
@[simp] theorem Dev.setSession_shelfIdle (d : Dev) (n : Nat) (x : Option Session) : (d.setSession n x).shelfIdle = d.shelfIdle := rfl
@[simp] theorem Dev.setSession_compId (d : Dev) (n : Nat) (x : Option Session) : (d.setSession n x).compId = d.compId := rfl
@[simp] theorem Dev.setSession_dps (d : Dev) (n : Nat) (x : Option Session) : (d.setSession n x).dps = d.dps := rfl
@[simp] theorem Dev.setSession_encs (d : Dev) (n : Nat) (x : Option Session) : (d.setSession n x).encs = d.encs := rfl
@[simp] theorem Dev.setSession_evts (d : Dev) (n : Nat) (x : Option Session) : (d.setSession n x).evts = d.evts := rfl
@[simp] theorem Dev.setSession_due (d : Dev) (n : Nat) (x : Option Session) : (d.setSession n x).due = d.due := rfl
@[simp] theorem Dev.setSession_launched (d : Dev) (n : Nat) (x : Option Session) : (d.setSession n x).launched = d.launched := rfl
@[simp] theorem Dev.setSession_pps (d : Dev) (n : Nat) (x : Option Session) : (d.setSession n x).pps = d.pps := rfl
@[simp] theorem Dev.setSession_time (d : Dev) (n : Nat) (x : Option Session) : (d.setSession n x).time = d.time := rfl
@[simp] theorem Dev.setSession_aud (d : Dev) (n : Nat) (x : Option Session) : (d.setSession n x).aud = d.aud := rfl
@[simp] theorem Dev.setSession_touch (d : Dev) (n : Nat) (x : Option Session) : (d.setSession n x).touch = d.touch := rfl
@[simp] theorem Dev.setSession_peak (d : Dev) (n : Nat) (x : Option Session) : (d.setSession n x).peak = d.peak := rfl
@[simp] theorem Dev.setSession_ringOcc (d : Dev) (n : Nat) (x : Option Session) : (d.setSession n x).ringOcc = d.ringOcc := rfl
@[simp] theorem Dev.setSession_pairFlows (d : Dev) (n : Nat) (x : Option Session) : (d.setSession n x).pairFlows = d.pairFlows := rfl
@[simp] theorem Dev.setSession_parts (d : Dev) (n : Nat) (x : Option Session) : (d.setSession n x).parts = d.parts := rfl
@[simp] theorem Dev.setSession_pcs (d : Dev) (n : Nat) (x : Option Session) : (d.setSession n x).pcs = d.pcs := rfl
@[simp] theorem Dev.setSession_hbms (d : Dev) (n : Nat) (x : Option Session) : (d.setSession n x).hbms = d.hbms := rfl
@[simp] theorem Dev.setSession_words (d : Dev) (n : Nat) (x : Option Session) : (d.setSession n x).words = d.words := rfl
@[simp] theorem Dev.setSession_acts (d : Dev) (n : Nat) (x : Option Session) : (d.setSession n x).acts = d.acts := rfl
@[simp] theorem Dev.setSession_throttles (d : Dev) (n : Nat) (x : Option Session) : (d.setSession n x).throttles = d.throttles := rfl
@[simp] theorem Dev.setSession_uncTold (d : Dev) (n : Nat) (x : Option Session) : (d.setSession n x).uncTold = d.uncTold := rfl
@[simp] theorem Dev.setSession_guardianStopped (d : Dev) (n : Nat) (x : Option Session) : (d.setSession n x).guardianStopped = d.guardianStopped := rfl
@[simp] theorem Dev.setSession_curStopped (d : Dev) (n : Nat) (x : Option Session) : (d.setSession n x).curStopped = d.curStopped := rfl
@[simp] theorem Dev.setSession_dup (d : Dev) (n : Nat) (x : Option Session) : (d.setSession n x).dup = d.dup := rfl
@[simp] theorem Dev.setSession_ring (d : Dev) (n : Nat) (x : Option Session) : (d.setSession n x).ring = d.ring := rfl
@[simp] theorem Dev.setSession_cal (d : Dev) (n : Nat) (x : Option Session) : (d.setSession n x).cal = d.cal := rfl
@[simp] theorem Dev.setSession_flash (d : Dev) (n : Nat) (x : Option Session) : (d.setSession n x).flash = d.flash := rfl
@[simp] theorem Dev.setSession_retain (d : Dev) (n : Nat) (x : Option Session) : (d.setSession n x).retain = d.retain := rfl
@[simp] theorem Dev.setSession_saving (d : Dev) (n : Nat) (x : Option Session) : (d.setSession n x).saving = d.saving := rfl
@[simp] theorem Dev.setSession_pwr (d : Dev) (n : Nat) (x : Option Session) : (d.setSession n x).pwr = d.pwr := rfl

/-! `Dev.setMbx` changes `mbxs` only. -/

@[simp] theorem Dev.setMbx_now (d : Dev) (ch : Nat) (x : Mbx) : (d.setMbx ch x).now = d.now := rfl
@[simp] theorem Dev.setMbx_outbox (d : Dev) (ch : Nat) (x : Mbx) : (d.setMbx ch x).outbox = d.outbox := rfl
@[simp] theorem Dev.setMbx_fresh (d : Dev) (ch : Nat) (x : Mbx) : (d.setMbx ch x).fresh = d.fresh := rfl
@[simp] theorem Dev.setMbx_regs (d : Dev) (ch : Nat) (x : Mbx) : (d.setMbx ch x).regs = d.regs := rfl
@[simp] theorem Dev.setMbx_doms (d : Dev) (ch : Nat) (x : Mbx) : (d.setMbx ch x).doms = d.doms := rfl
@[simp] theorem Dev.setMbx_wings (d : Dev) (ch : Nat) (x : Mbx) : (d.setMbx ch x).wings = d.wings := rfl
@[simp] theorem Dev.setMbx_sessions (d : Dev) (ch : Nat) (x : Mbx) : (d.setMbx ch x).sessions = d.sessions := rfl
@[simp] theorem Dev.setMbx_authFails (d : Dev) (ch : Nat) (x : Mbx) : (d.setMbx ch x).authFails = d.authFails := rfl
@[simp] theorem Dev.setMbx_blocked (d : Dev) (ch : Nat) (x : Mbx) : (d.setMbx ch x).blocked = d.blocked := rfl
@[simp] theorem Dev.setMbx_canStage (d : Dev) (ch : Nat) (x : Mbx) : (d.setMbx ch x).canStage = d.canStage := rfl
@[simp] theorem Dev.setMbx_tpdos (d : Dev) (ch : Nat) (x : Mbx) : (d.setMbx ch x).tpdos = d.tpdos := rfl
@[simp] theorem Dev.setMbx_syncs (d : Dev) (ch : Nat) (x : Mbx) : (d.setMbx ch x).syncs = d.syncs := rfl
@[simp] theorem Dev.setMbx_segs (d : Dev) (ch : Nat) (x : Mbx) : (d.setMbx ch x).segs = d.segs := rfl
@[simp] theorem Dev.setMbx_wdpDropped (d : Dev) (ch : Nat) (x : Mbx) : (d.setMbx ch x).wdpDropped = d.wdpDropped := rfl
@[simp] theorem Dev.setMbx_batches (d : Dev) (ch : Nat) (x : Mbx) : (d.setMbx ch x).batches = d.batches := rfl
@[simp] theorem Dev.setMbx_batchOf (d : Dev) (ch : Nat) (x : Mbx) : (d.setMbx ch x).batchOf = d.batchOf := rfl
@[simp] theorem Dev.setMbx_batchNum (d : Dev) (ch : Nat) (x : Mbx) : (d.setMbx ch x).batchNum = d.batchNum := rfl
@[simp] theorem Dev.setMbx_mirror (d : Dev) (ch : Nat) (x : Mbx) : (d.setMbx ch x).mirror = d.mirror := rfl
@[simp] theorem Dev.setMbx_longOps (d : Dev) (ch : Nat) (x : Mbx) : (d.setMbx ch x).longOps = d.longOps := rfl
@[simp] theorem Dev.setMbx_queue (d : Dev) (ch : Nat) (x : Mbx) : (d.setMbx ch x).queue = d.queue := rfl
@[simp] theorem Dev.setMbx_aonFault (d : Dev) (ch : Nat) (x : Mbx) : (d.setMbx ch x).aonFault = d.aonFault := rfl
@[simp] theorem Dev.setMbx_nmt (d : Dev) (ch : Nat) (x : Mbx) : (d.setMbx ch x).nmt = d.nmt := rfl
@[simp] theorem Dev.setMbx_emcyAt (d : Dev) (ch : Nat) (x : Mbx) : (d.setMbx ch x).emcyAt = d.emcyAt := rfl
@[simp] theorem Dev.setMbx_bootRegs (d : Dev) (ch : Nat) (x : Mbx) : (d.setMbx ch x).bootRegs = d.bootRegs := rfl
@[simp] theorem Dev.setMbx_bootDoms (d : Dev) (ch : Nat) (x : Mbx) : (d.setMbx ch x).bootDoms = d.bootDoms := rfl
@[simp] theorem Dev.setMbx_sources (d : Dev) (ch : Nat) (x : Mbx) : (d.setMbx ch x).sources = d.sources := rfl
@[simp] theorem Dev.setMbx_joinRepeats (d : Dev) (ch : Nat) (x : Mbx) : (d.setMbx ch x).joinRepeats = d.joinRepeats := rfl
@[simp] theorem Dev.setMbx_nmos (d : Dev) (ch : Nat) (x : Mbx) : (d.setMbx ch x).nmos = d.nmos := rfl
@[simp] theorem Dev.setMbx_decs (d : Dev) (ch : Nat) (x : Mbx) : (d.setMbx ch x).decs = d.decs := rfl
@[simp] theorem Dev.setMbx_layers (d : Dev) (ch : Nat) (x : Mbx) : (d.setMbx ch x).layers = d.layers := rfl
@[simp] theorem Dev.setMbx_layerComps (d : Dev) (ch : Nat) (x : Mbx) : (d.setMbx ch x).layerComps = d.layerComps := rfl
@[simp] theorem Dev.setMbx_outputs (d : Dev) (ch : Nat) (x : Mbx) : (d.setMbx ch x).outputs = d.outputs := rfl
@[simp] theorem Dev.setMbx_hist (d : Dev) (ch : Nat) (x : Mbx) : (d.setMbx ch x).hist = d.hist := rfl
@[simp] theorem Dev.setMbx_summary (d : Dev) (ch : Nat) (x : Mbx) : (d.setMbx ch x).summary = d.summary := rfl
@[simp] theorem Dev.setMbx_shelfIdle (d : Dev) (ch : Nat) (x : Mbx) : (d.setMbx ch x).shelfIdle = d.shelfIdle := rfl
@[simp] theorem Dev.setMbx_compId (d : Dev) (ch : Nat) (x : Mbx) : (d.setMbx ch x).compId = d.compId := rfl
@[simp] theorem Dev.setMbx_dps (d : Dev) (ch : Nat) (x : Mbx) : (d.setMbx ch x).dps = d.dps := rfl
@[simp] theorem Dev.setMbx_encs (d : Dev) (ch : Nat) (x : Mbx) : (d.setMbx ch x).encs = d.encs := rfl
@[simp] theorem Dev.setMbx_evts (d : Dev) (ch : Nat) (x : Mbx) : (d.setMbx ch x).evts = d.evts := rfl
@[simp] theorem Dev.setMbx_due (d : Dev) (ch : Nat) (x : Mbx) : (d.setMbx ch x).due = d.due := rfl
@[simp] theorem Dev.setMbx_launched (d : Dev) (ch : Nat) (x : Mbx) : (d.setMbx ch x).launched = d.launched := rfl
@[simp] theorem Dev.setMbx_pps (d : Dev) (ch : Nat) (x : Mbx) : (d.setMbx ch x).pps = d.pps := rfl
@[simp] theorem Dev.setMbx_time (d : Dev) (ch : Nat) (x : Mbx) : (d.setMbx ch x).time = d.time := rfl
@[simp] theorem Dev.setMbx_aud (d : Dev) (ch : Nat) (x : Mbx) : (d.setMbx ch x).aud = d.aud := rfl
@[simp] theorem Dev.setMbx_touch (d : Dev) (ch : Nat) (x : Mbx) : (d.setMbx ch x).touch = d.touch := rfl
@[simp] theorem Dev.setMbx_peak (d : Dev) (ch : Nat) (x : Mbx) : (d.setMbx ch x).peak = d.peak := rfl
@[simp] theorem Dev.setMbx_ringOcc (d : Dev) (ch : Nat) (x : Mbx) : (d.setMbx ch x).ringOcc = d.ringOcc := rfl
@[simp] theorem Dev.setMbx_pairFlows (d : Dev) (ch : Nat) (x : Mbx) : (d.setMbx ch x).pairFlows = d.pairFlows := rfl
@[simp] theorem Dev.setMbx_parts (d : Dev) (ch : Nat) (x : Mbx) : (d.setMbx ch x).parts = d.parts := rfl
@[simp] theorem Dev.setMbx_pcs (d : Dev) (ch : Nat) (x : Mbx) : (d.setMbx ch x).pcs = d.pcs := rfl
@[simp] theorem Dev.setMbx_hbms (d : Dev) (ch : Nat) (x : Mbx) : (d.setMbx ch x).hbms = d.hbms := rfl
@[simp] theorem Dev.setMbx_words (d : Dev) (ch : Nat) (x : Mbx) : (d.setMbx ch x).words = d.words := rfl
@[simp] theorem Dev.setMbx_acts (d : Dev) (ch : Nat) (x : Mbx) : (d.setMbx ch x).acts = d.acts := rfl
@[simp] theorem Dev.setMbx_throttles (d : Dev) (ch : Nat) (x : Mbx) : (d.setMbx ch x).throttles = d.throttles := rfl
@[simp] theorem Dev.setMbx_uncTold (d : Dev) (ch : Nat) (x : Mbx) : (d.setMbx ch x).uncTold = d.uncTold := rfl
@[simp] theorem Dev.setMbx_guardianStopped (d : Dev) (ch : Nat) (x : Mbx) : (d.setMbx ch x).guardianStopped = d.guardianStopped := rfl
@[simp] theorem Dev.setMbx_curStopped (d : Dev) (ch : Nat) (x : Mbx) : (d.setMbx ch x).curStopped = d.curStopped := rfl
@[simp] theorem Dev.setMbx_dup (d : Dev) (ch : Nat) (x : Mbx) : (d.setMbx ch x).dup = d.dup := rfl
@[simp] theorem Dev.setMbx_ring (d : Dev) (ch : Nat) (x : Mbx) : (d.setMbx ch x).ring = d.ring := rfl
@[simp] theorem Dev.setMbx_cal (d : Dev) (ch : Nat) (x : Mbx) : (d.setMbx ch x).cal = d.cal := rfl
@[simp] theorem Dev.setMbx_flash (d : Dev) (ch : Nat) (x : Mbx) : (d.setMbx ch x).flash = d.flash := rfl
@[simp] theorem Dev.setMbx_retain (d : Dev) (ch : Nat) (x : Mbx) : (d.setMbx ch x).retain = d.retain := rfl
@[simp] theorem Dev.setMbx_saving (d : Dev) (ch : Nat) (x : Mbx) : (d.setMbx ch x).saving = d.saving := rfl
@[simp] theorem Dev.setMbx_pwr (d : Dev) (ch : Nat) (x : Mbx) : (d.setMbx ch x).pwr = d.pwr := rfl

/-! `Dev.setWing` changes `wings` only. -/

@[simp] theorem Dev.setWing_now (d : Dev) (w : Nat) (x : Wing) : (d.setWing w x).now = d.now := rfl
@[simp] theorem Dev.setWing_outbox (d : Dev) (w : Nat) (x : Wing) : (d.setWing w x).outbox = d.outbox := rfl
@[simp] theorem Dev.setWing_fresh (d : Dev) (w : Nat) (x : Wing) : (d.setWing w x).fresh = d.fresh := rfl
@[simp] theorem Dev.setWing_regs (d : Dev) (w : Nat) (x : Wing) : (d.setWing w x).regs = d.regs := rfl
@[simp] theorem Dev.setWing_doms (d : Dev) (w : Nat) (x : Wing) : (d.setWing w x).doms = d.doms := rfl
@[simp] theorem Dev.setWing_sessions (d : Dev) (w : Nat) (x : Wing) : (d.setWing w x).sessions = d.sessions := rfl
@[simp] theorem Dev.setWing_authFails (d : Dev) (w : Nat) (x : Wing) : (d.setWing w x).authFails = d.authFails := rfl
@[simp] theorem Dev.setWing_blocked (d : Dev) (w : Nat) (x : Wing) : (d.setWing w x).blocked = d.blocked := rfl
@[simp] theorem Dev.setWing_canStage (d : Dev) (w : Nat) (x : Wing) : (d.setWing w x).canStage = d.canStage := rfl
@[simp] theorem Dev.setWing_tpdos (d : Dev) (w : Nat) (x : Wing) : (d.setWing w x).tpdos = d.tpdos := rfl
@[simp] theorem Dev.setWing_syncs (d : Dev) (w : Nat) (x : Wing) : (d.setWing w x).syncs = d.syncs := rfl
@[simp] theorem Dev.setWing_segs (d : Dev) (w : Nat) (x : Wing) : (d.setWing w x).segs = d.segs := rfl
@[simp] theorem Dev.setWing_wdpDropped (d : Dev) (w : Nat) (x : Wing) : (d.setWing w x).wdpDropped = d.wdpDropped := rfl
@[simp] theorem Dev.setWing_mbxs (d : Dev) (w : Nat) (x : Wing) : (d.setWing w x).mbxs = d.mbxs := rfl
@[simp] theorem Dev.setWing_batches (d : Dev) (w : Nat) (x : Wing) : (d.setWing w x).batches = d.batches := rfl
@[simp] theorem Dev.setWing_batchOf (d : Dev) (w : Nat) (x : Wing) : (d.setWing w x).batchOf = d.batchOf := rfl
@[simp] theorem Dev.setWing_batchNum (d : Dev) (w : Nat) (x : Wing) : (d.setWing w x).batchNum = d.batchNum := rfl
@[simp] theorem Dev.setWing_mirror (d : Dev) (w : Nat) (x : Wing) : (d.setWing w x).mirror = d.mirror := rfl
@[simp] theorem Dev.setWing_longOps (d : Dev) (w : Nat) (x : Wing) : (d.setWing w x).longOps = d.longOps := rfl
@[simp] theorem Dev.setWing_queue (d : Dev) (w : Nat) (x : Wing) : (d.setWing w x).queue = d.queue := rfl
@[simp] theorem Dev.setWing_aonFault (d : Dev) (w : Nat) (x : Wing) : (d.setWing w x).aonFault = d.aonFault := rfl
@[simp] theorem Dev.setWing_nmt (d : Dev) (w : Nat) (x : Wing) : (d.setWing w x).nmt = d.nmt := rfl
@[simp] theorem Dev.setWing_emcyAt (d : Dev) (w : Nat) (x : Wing) : (d.setWing w x).emcyAt = d.emcyAt := rfl
@[simp] theorem Dev.setWing_bootRegs (d : Dev) (w : Nat) (x : Wing) : (d.setWing w x).bootRegs = d.bootRegs := rfl
@[simp] theorem Dev.setWing_bootDoms (d : Dev) (w : Nat) (x : Wing) : (d.setWing w x).bootDoms = d.bootDoms := rfl
@[simp] theorem Dev.setWing_sources (d : Dev) (w : Nat) (x : Wing) : (d.setWing w x).sources = d.sources := rfl
@[simp] theorem Dev.setWing_joinRepeats (d : Dev) (w : Nat) (x : Wing) : (d.setWing w x).joinRepeats = d.joinRepeats := rfl
@[simp] theorem Dev.setWing_nmos (d : Dev) (w : Nat) (x : Wing) : (d.setWing w x).nmos = d.nmos := rfl
@[simp] theorem Dev.setWing_decs (d : Dev) (w : Nat) (x : Wing) : (d.setWing w x).decs = d.decs := rfl
@[simp] theorem Dev.setWing_layers (d : Dev) (w : Nat) (x : Wing) : (d.setWing w x).layers = d.layers := rfl
@[simp] theorem Dev.setWing_layerComps (d : Dev) (w : Nat) (x : Wing) : (d.setWing w x).layerComps = d.layerComps := rfl
@[simp] theorem Dev.setWing_outputs (d : Dev) (w : Nat) (x : Wing) : (d.setWing w x).outputs = d.outputs := rfl
@[simp] theorem Dev.setWing_hist (d : Dev) (w : Nat) (x : Wing) : (d.setWing w x).hist = d.hist := rfl
@[simp] theorem Dev.setWing_summary (d : Dev) (w : Nat) (x : Wing) : (d.setWing w x).summary = d.summary := rfl
@[simp] theorem Dev.setWing_shelfIdle (d : Dev) (w : Nat) (x : Wing) : (d.setWing w x).shelfIdle = d.shelfIdle := rfl
@[simp] theorem Dev.setWing_compId (d : Dev) (w : Nat) (x : Wing) : (d.setWing w x).compId = d.compId := rfl
@[simp] theorem Dev.setWing_dps (d : Dev) (w : Nat) (x : Wing) : (d.setWing w x).dps = d.dps := rfl
@[simp] theorem Dev.setWing_encs (d : Dev) (w : Nat) (x : Wing) : (d.setWing w x).encs = d.encs := rfl
@[simp] theorem Dev.setWing_evts (d : Dev) (w : Nat) (x : Wing) : (d.setWing w x).evts = d.evts := rfl
@[simp] theorem Dev.setWing_due (d : Dev) (w : Nat) (x : Wing) : (d.setWing w x).due = d.due := rfl
@[simp] theorem Dev.setWing_launched (d : Dev) (w : Nat) (x : Wing) : (d.setWing w x).launched = d.launched := rfl
@[simp] theorem Dev.setWing_pps (d : Dev) (w : Nat) (x : Wing) : (d.setWing w x).pps = d.pps := rfl
@[simp] theorem Dev.setWing_time (d : Dev) (w : Nat) (x : Wing) : (d.setWing w x).time = d.time := rfl
@[simp] theorem Dev.setWing_aud (d : Dev) (w : Nat) (x : Wing) : (d.setWing w x).aud = d.aud := rfl
@[simp] theorem Dev.setWing_touch (d : Dev) (w : Nat) (x : Wing) : (d.setWing w x).touch = d.touch := rfl
@[simp] theorem Dev.setWing_peak (d : Dev) (w : Nat) (x : Wing) : (d.setWing w x).peak = d.peak := rfl
@[simp] theorem Dev.setWing_ringOcc (d : Dev) (w : Nat) (x : Wing) : (d.setWing w x).ringOcc = d.ringOcc := rfl
@[simp] theorem Dev.setWing_pairFlows (d : Dev) (w : Nat) (x : Wing) : (d.setWing w x).pairFlows = d.pairFlows := rfl
@[simp] theorem Dev.setWing_parts (d : Dev) (w : Nat) (x : Wing) : (d.setWing w x).parts = d.parts := rfl
@[simp] theorem Dev.setWing_pcs (d : Dev) (w : Nat) (x : Wing) : (d.setWing w x).pcs = d.pcs := rfl
@[simp] theorem Dev.setWing_hbms (d : Dev) (w : Nat) (x : Wing) : (d.setWing w x).hbms = d.hbms := rfl
@[simp] theorem Dev.setWing_words (d : Dev) (w : Nat) (x : Wing) : (d.setWing w x).words = d.words := rfl
@[simp] theorem Dev.setWing_acts (d : Dev) (w : Nat) (x : Wing) : (d.setWing w x).acts = d.acts := rfl
@[simp] theorem Dev.setWing_throttles (d : Dev) (w : Nat) (x : Wing) : (d.setWing w x).throttles = d.throttles := rfl
@[simp] theorem Dev.setWing_uncTold (d : Dev) (w : Nat) (x : Wing) : (d.setWing w x).uncTold = d.uncTold := rfl
@[simp] theorem Dev.setWing_guardianStopped (d : Dev) (w : Nat) (x : Wing) : (d.setWing w x).guardianStopped = d.guardianStopped := rfl
@[simp] theorem Dev.setWing_curStopped (d : Dev) (w : Nat) (x : Wing) : (d.setWing w x).curStopped = d.curStopped := rfl
@[simp] theorem Dev.setWing_dup (d : Dev) (w : Nat) (x : Wing) : (d.setWing w x).dup = d.dup := rfl
@[simp] theorem Dev.setWing_ring (d : Dev) (w : Nat) (x : Wing) : (d.setWing w x).ring = d.ring := rfl
@[simp] theorem Dev.setWing_cal (d : Dev) (w : Nat) (x : Wing) : (d.setWing w x).cal = d.cal := rfl
@[simp] theorem Dev.setWing_flash (d : Dev) (w : Nat) (x : Wing) : (d.setWing w x).flash = d.flash := rfl
@[simp] theorem Dev.setWing_retain (d : Dev) (w : Nat) (x : Wing) : (d.setWing w x).retain = d.retain := rfl
@[simp] theorem Dev.setWing_saving (d : Dev) (w : Nat) (x : Wing) : (d.setWing w x).saving = d.saving := rfl
@[simp] theorem Dev.setWing_pwr (d : Dev) (w : Nat) (x : Wing) : (d.setWing w x).pwr = d.pwr := rfl

/-! `Dev.setLongOp` changes `longOps` only. -/

@[simp] theorem Dev.setLongOp_now (d : Dev) (k : Nat) (x : LongOp) : (d.setLongOp k x).now = d.now := rfl
@[simp] theorem Dev.setLongOp_outbox (d : Dev) (k : Nat) (x : LongOp) : (d.setLongOp k x).outbox = d.outbox := rfl
@[simp] theorem Dev.setLongOp_fresh (d : Dev) (k : Nat) (x : LongOp) : (d.setLongOp k x).fresh = d.fresh := rfl
@[simp] theorem Dev.setLongOp_regs (d : Dev) (k : Nat) (x : LongOp) : (d.setLongOp k x).regs = d.regs := rfl
@[simp] theorem Dev.setLongOp_doms (d : Dev) (k : Nat) (x : LongOp) : (d.setLongOp k x).doms = d.doms := rfl
@[simp] theorem Dev.setLongOp_wings (d : Dev) (k : Nat) (x : LongOp) : (d.setLongOp k x).wings = d.wings := rfl
@[simp] theorem Dev.setLongOp_sessions (d : Dev) (k : Nat) (x : LongOp) : (d.setLongOp k x).sessions = d.sessions := rfl
@[simp] theorem Dev.setLongOp_authFails (d : Dev) (k : Nat) (x : LongOp) : (d.setLongOp k x).authFails = d.authFails := rfl
@[simp] theorem Dev.setLongOp_blocked (d : Dev) (k : Nat) (x : LongOp) : (d.setLongOp k x).blocked = d.blocked := rfl
@[simp] theorem Dev.setLongOp_canStage (d : Dev) (k : Nat) (x : LongOp) : (d.setLongOp k x).canStage = d.canStage := rfl
@[simp] theorem Dev.setLongOp_tpdos (d : Dev) (k : Nat) (x : LongOp) : (d.setLongOp k x).tpdos = d.tpdos := rfl
@[simp] theorem Dev.setLongOp_syncs (d : Dev) (k : Nat) (x : LongOp) : (d.setLongOp k x).syncs = d.syncs := rfl
@[simp] theorem Dev.setLongOp_segs (d : Dev) (k : Nat) (x : LongOp) : (d.setLongOp k x).segs = d.segs := rfl
@[simp] theorem Dev.setLongOp_wdpDropped (d : Dev) (k : Nat) (x : LongOp) : (d.setLongOp k x).wdpDropped = d.wdpDropped := rfl
@[simp] theorem Dev.setLongOp_mbxs (d : Dev) (k : Nat) (x : LongOp) : (d.setLongOp k x).mbxs = d.mbxs := rfl
@[simp] theorem Dev.setLongOp_batches (d : Dev) (k : Nat) (x : LongOp) : (d.setLongOp k x).batches = d.batches := rfl
@[simp] theorem Dev.setLongOp_batchOf (d : Dev) (k : Nat) (x : LongOp) : (d.setLongOp k x).batchOf = d.batchOf := rfl
@[simp] theorem Dev.setLongOp_batchNum (d : Dev) (k : Nat) (x : LongOp) : (d.setLongOp k x).batchNum = d.batchNum := rfl
@[simp] theorem Dev.setLongOp_mirror (d : Dev) (k : Nat) (x : LongOp) : (d.setLongOp k x).mirror = d.mirror := rfl
@[simp] theorem Dev.setLongOp_queue (d : Dev) (k : Nat) (x : LongOp) : (d.setLongOp k x).queue = d.queue := rfl
@[simp] theorem Dev.setLongOp_aonFault (d : Dev) (k : Nat) (x : LongOp) : (d.setLongOp k x).aonFault = d.aonFault := rfl
@[simp] theorem Dev.setLongOp_nmt (d : Dev) (k : Nat) (x : LongOp) : (d.setLongOp k x).nmt = d.nmt := rfl
@[simp] theorem Dev.setLongOp_emcyAt (d : Dev) (k : Nat) (x : LongOp) : (d.setLongOp k x).emcyAt = d.emcyAt := rfl
@[simp] theorem Dev.setLongOp_bootRegs (d : Dev) (k : Nat) (x : LongOp) : (d.setLongOp k x).bootRegs = d.bootRegs := rfl
@[simp] theorem Dev.setLongOp_bootDoms (d : Dev) (k : Nat) (x : LongOp) : (d.setLongOp k x).bootDoms = d.bootDoms := rfl
@[simp] theorem Dev.setLongOp_sources (d : Dev) (k : Nat) (x : LongOp) : (d.setLongOp k x).sources = d.sources := rfl
@[simp] theorem Dev.setLongOp_joinRepeats (d : Dev) (k : Nat) (x : LongOp) : (d.setLongOp k x).joinRepeats = d.joinRepeats := rfl
@[simp] theorem Dev.setLongOp_nmos (d : Dev) (k : Nat) (x : LongOp) : (d.setLongOp k x).nmos = d.nmos := rfl
@[simp] theorem Dev.setLongOp_decs (d : Dev) (k : Nat) (x : LongOp) : (d.setLongOp k x).decs = d.decs := rfl
@[simp] theorem Dev.setLongOp_layers (d : Dev) (k : Nat) (x : LongOp) : (d.setLongOp k x).layers = d.layers := rfl
@[simp] theorem Dev.setLongOp_layerComps (d : Dev) (k : Nat) (x : LongOp) : (d.setLongOp k x).layerComps = d.layerComps := rfl
@[simp] theorem Dev.setLongOp_outputs (d : Dev) (k : Nat) (x : LongOp) : (d.setLongOp k x).outputs = d.outputs := rfl
@[simp] theorem Dev.setLongOp_hist (d : Dev) (k : Nat) (x : LongOp) : (d.setLongOp k x).hist = d.hist := rfl
@[simp] theorem Dev.setLongOp_summary (d : Dev) (k : Nat) (x : LongOp) : (d.setLongOp k x).summary = d.summary := rfl
@[simp] theorem Dev.setLongOp_shelfIdle (d : Dev) (k : Nat) (x : LongOp) : (d.setLongOp k x).shelfIdle = d.shelfIdle := rfl
@[simp] theorem Dev.setLongOp_compId (d : Dev) (k : Nat) (x : LongOp) : (d.setLongOp k x).compId = d.compId := rfl
@[simp] theorem Dev.setLongOp_dps (d : Dev) (k : Nat) (x : LongOp) : (d.setLongOp k x).dps = d.dps := rfl
@[simp] theorem Dev.setLongOp_encs (d : Dev) (k : Nat) (x : LongOp) : (d.setLongOp k x).encs = d.encs := rfl
@[simp] theorem Dev.setLongOp_evts (d : Dev) (k : Nat) (x : LongOp) : (d.setLongOp k x).evts = d.evts := rfl
@[simp] theorem Dev.setLongOp_due (d : Dev) (k : Nat) (x : LongOp) : (d.setLongOp k x).due = d.due := rfl
@[simp] theorem Dev.setLongOp_launched (d : Dev) (k : Nat) (x : LongOp) : (d.setLongOp k x).launched = d.launched := rfl
@[simp] theorem Dev.setLongOp_pps (d : Dev) (k : Nat) (x : LongOp) : (d.setLongOp k x).pps = d.pps := rfl
@[simp] theorem Dev.setLongOp_time (d : Dev) (k : Nat) (x : LongOp) : (d.setLongOp k x).time = d.time := rfl
@[simp] theorem Dev.setLongOp_aud (d : Dev) (k : Nat) (x : LongOp) : (d.setLongOp k x).aud = d.aud := rfl
@[simp] theorem Dev.setLongOp_touch (d : Dev) (k : Nat) (x : LongOp) : (d.setLongOp k x).touch = d.touch := rfl
@[simp] theorem Dev.setLongOp_peak (d : Dev) (k : Nat) (x : LongOp) : (d.setLongOp k x).peak = d.peak := rfl
@[simp] theorem Dev.setLongOp_ringOcc (d : Dev) (k : Nat) (x : LongOp) : (d.setLongOp k x).ringOcc = d.ringOcc := rfl
@[simp] theorem Dev.setLongOp_pairFlows (d : Dev) (k : Nat) (x : LongOp) : (d.setLongOp k x).pairFlows = d.pairFlows := rfl
@[simp] theorem Dev.setLongOp_parts (d : Dev) (k : Nat) (x : LongOp) : (d.setLongOp k x).parts = d.parts := rfl
@[simp] theorem Dev.setLongOp_pcs (d : Dev) (k : Nat) (x : LongOp) : (d.setLongOp k x).pcs = d.pcs := rfl
@[simp] theorem Dev.setLongOp_hbms (d : Dev) (k : Nat) (x : LongOp) : (d.setLongOp k x).hbms = d.hbms := rfl
@[simp] theorem Dev.setLongOp_words (d : Dev) (k : Nat) (x : LongOp) : (d.setLongOp k x).words = d.words := rfl
@[simp] theorem Dev.setLongOp_acts (d : Dev) (k : Nat) (x : LongOp) : (d.setLongOp k x).acts = d.acts := rfl
@[simp] theorem Dev.setLongOp_throttles (d : Dev) (k : Nat) (x : LongOp) : (d.setLongOp k x).throttles = d.throttles := rfl
@[simp] theorem Dev.setLongOp_uncTold (d : Dev) (k : Nat) (x : LongOp) : (d.setLongOp k x).uncTold = d.uncTold := rfl
@[simp] theorem Dev.setLongOp_guardianStopped (d : Dev) (k : Nat) (x : LongOp) : (d.setLongOp k x).guardianStopped = d.guardianStopped := rfl
@[simp] theorem Dev.setLongOp_curStopped (d : Dev) (k : Nat) (x : LongOp) : (d.setLongOp k x).curStopped = d.curStopped := rfl
@[simp] theorem Dev.setLongOp_dup (d : Dev) (k : Nat) (x : LongOp) : (d.setLongOp k x).dup = d.dup := rfl
@[simp] theorem Dev.setLongOp_ring (d : Dev) (k : Nat) (x : LongOp) : (d.setLongOp k x).ring = d.ring := rfl
@[simp] theorem Dev.setLongOp_cal (d : Dev) (k : Nat) (x : LongOp) : (d.setLongOp k x).cal = d.cal := rfl
@[simp] theorem Dev.setLongOp_flash (d : Dev) (k : Nat) (x : LongOp) : (d.setLongOp k x).flash = d.flash := rfl
@[simp] theorem Dev.setLongOp_retain (d : Dev) (k : Nat) (x : LongOp) : (d.setLongOp k x).retain = d.retain := rfl
@[simp] theorem Dev.setLongOp_saving (d : Dev) (k : Nat) (x : LongOp) : (d.setLongOp k x).saving = d.saving := rfl
@[simp] theorem Dev.setLongOp_pwr (d : Dev) (k : Nat) (x : LongOp) : (d.setLongOp k x).pwr = d.pwr := rfl

/-! `Dev.setSrc` changes `sources` only. -/

@[simp] theorem Dev.setSrc_now (d : Dev) (n : Nat) (x : SourceRt) : (d.setSrc n x).now = d.now := rfl
@[simp] theorem Dev.setSrc_outbox (d : Dev) (n : Nat) (x : SourceRt) : (d.setSrc n x).outbox = d.outbox := rfl
@[simp] theorem Dev.setSrc_fresh (d : Dev) (n : Nat) (x : SourceRt) : (d.setSrc n x).fresh = d.fresh := rfl
@[simp] theorem Dev.setSrc_regs (d : Dev) (n : Nat) (x : SourceRt) : (d.setSrc n x).regs = d.regs := rfl
@[simp] theorem Dev.setSrc_doms (d : Dev) (n : Nat) (x : SourceRt) : (d.setSrc n x).doms = d.doms := rfl
@[simp] theorem Dev.setSrc_wings (d : Dev) (n : Nat) (x : SourceRt) : (d.setSrc n x).wings = d.wings := rfl
@[simp] theorem Dev.setSrc_sessions (d : Dev) (n : Nat) (x : SourceRt) : (d.setSrc n x).sessions = d.sessions := rfl
@[simp] theorem Dev.setSrc_authFails (d : Dev) (n : Nat) (x : SourceRt) : (d.setSrc n x).authFails = d.authFails := rfl
@[simp] theorem Dev.setSrc_blocked (d : Dev) (n : Nat) (x : SourceRt) : (d.setSrc n x).blocked = d.blocked := rfl
@[simp] theorem Dev.setSrc_canStage (d : Dev) (n : Nat) (x : SourceRt) : (d.setSrc n x).canStage = d.canStage := rfl
@[simp] theorem Dev.setSrc_tpdos (d : Dev) (n : Nat) (x : SourceRt) : (d.setSrc n x).tpdos = d.tpdos := rfl
@[simp] theorem Dev.setSrc_syncs (d : Dev) (n : Nat) (x : SourceRt) : (d.setSrc n x).syncs = d.syncs := rfl
@[simp] theorem Dev.setSrc_segs (d : Dev) (n : Nat) (x : SourceRt) : (d.setSrc n x).segs = d.segs := rfl
@[simp] theorem Dev.setSrc_wdpDropped (d : Dev) (n : Nat) (x : SourceRt) : (d.setSrc n x).wdpDropped = d.wdpDropped := rfl
@[simp] theorem Dev.setSrc_mbxs (d : Dev) (n : Nat) (x : SourceRt) : (d.setSrc n x).mbxs = d.mbxs := rfl
@[simp] theorem Dev.setSrc_batches (d : Dev) (n : Nat) (x : SourceRt) : (d.setSrc n x).batches = d.batches := rfl
@[simp] theorem Dev.setSrc_batchOf (d : Dev) (n : Nat) (x : SourceRt) : (d.setSrc n x).batchOf = d.batchOf := rfl
@[simp] theorem Dev.setSrc_batchNum (d : Dev) (n : Nat) (x : SourceRt) : (d.setSrc n x).batchNum = d.batchNum := rfl
@[simp] theorem Dev.setSrc_mirror (d : Dev) (n : Nat) (x : SourceRt) : (d.setSrc n x).mirror = d.mirror := rfl
@[simp] theorem Dev.setSrc_longOps (d : Dev) (n : Nat) (x : SourceRt) : (d.setSrc n x).longOps = d.longOps := rfl
@[simp] theorem Dev.setSrc_queue (d : Dev) (n : Nat) (x : SourceRt) : (d.setSrc n x).queue = d.queue := rfl
@[simp] theorem Dev.setSrc_aonFault (d : Dev) (n : Nat) (x : SourceRt) : (d.setSrc n x).aonFault = d.aonFault := rfl
@[simp] theorem Dev.setSrc_nmt (d : Dev) (n : Nat) (x : SourceRt) : (d.setSrc n x).nmt = d.nmt := rfl
@[simp] theorem Dev.setSrc_emcyAt (d : Dev) (n : Nat) (x : SourceRt) : (d.setSrc n x).emcyAt = d.emcyAt := rfl
@[simp] theorem Dev.setSrc_bootRegs (d : Dev) (n : Nat) (x : SourceRt) : (d.setSrc n x).bootRegs = d.bootRegs := rfl
@[simp] theorem Dev.setSrc_bootDoms (d : Dev) (n : Nat) (x : SourceRt) : (d.setSrc n x).bootDoms = d.bootDoms := rfl
@[simp] theorem Dev.setSrc_joinRepeats (d : Dev) (n : Nat) (x : SourceRt) : (d.setSrc n x).joinRepeats = d.joinRepeats := rfl
@[simp] theorem Dev.setSrc_nmos (d : Dev) (n : Nat) (x : SourceRt) : (d.setSrc n x).nmos = d.nmos := rfl
@[simp] theorem Dev.setSrc_decs (d : Dev) (n : Nat) (x : SourceRt) : (d.setSrc n x).decs = d.decs := rfl
@[simp] theorem Dev.setSrc_layers (d : Dev) (n : Nat) (x : SourceRt) : (d.setSrc n x).layers = d.layers := rfl
@[simp] theorem Dev.setSrc_layerComps (d : Dev) (n : Nat) (x : SourceRt) : (d.setSrc n x).layerComps = d.layerComps := rfl
@[simp] theorem Dev.setSrc_outputs (d : Dev) (n : Nat) (x : SourceRt) : (d.setSrc n x).outputs = d.outputs := rfl
@[simp] theorem Dev.setSrc_hist (d : Dev) (n : Nat) (x : SourceRt) : (d.setSrc n x).hist = d.hist := rfl
@[simp] theorem Dev.setSrc_summary (d : Dev) (n : Nat) (x : SourceRt) : (d.setSrc n x).summary = d.summary := rfl
@[simp] theorem Dev.setSrc_shelfIdle (d : Dev) (n : Nat) (x : SourceRt) : (d.setSrc n x).shelfIdle = d.shelfIdle := rfl
@[simp] theorem Dev.setSrc_compId (d : Dev) (n : Nat) (x : SourceRt) : (d.setSrc n x).compId = d.compId := rfl
@[simp] theorem Dev.setSrc_dps (d : Dev) (n : Nat) (x : SourceRt) : (d.setSrc n x).dps = d.dps := rfl
@[simp] theorem Dev.setSrc_encs (d : Dev) (n : Nat) (x : SourceRt) : (d.setSrc n x).encs = d.encs := rfl
@[simp] theorem Dev.setSrc_evts (d : Dev) (n : Nat) (x : SourceRt) : (d.setSrc n x).evts = d.evts := rfl
@[simp] theorem Dev.setSrc_due (d : Dev) (n : Nat) (x : SourceRt) : (d.setSrc n x).due = d.due := rfl
@[simp] theorem Dev.setSrc_launched (d : Dev) (n : Nat) (x : SourceRt) : (d.setSrc n x).launched = d.launched := rfl
@[simp] theorem Dev.setSrc_pps (d : Dev) (n : Nat) (x : SourceRt) : (d.setSrc n x).pps = d.pps := rfl
@[simp] theorem Dev.setSrc_time (d : Dev) (n : Nat) (x : SourceRt) : (d.setSrc n x).time = d.time := rfl
@[simp] theorem Dev.setSrc_aud (d : Dev) (n : Nat) (x : SourceRt) : (d.setSrc n x).aud = d.aud := rfl
@[simp] theorem Dev.setSrc_touch (d : Dev) (n : Nat) (x : SourceRt) : (d.setSrc n x).touch = d.touch := rfl
@[simp] theorem Dev.setSrc_peak (d : Dev) (n : Nat) (x : SourceRt) : (d.setSrc n x).peak = d.peak := rfl
@[simp] theorem Dev.setSrc_ringOcc (d : Dev) (n : Nat) (x : SourceRt) : (d.setSrc n x).ringOcc = d.ringOcc := rfl
@[simp] theorem Dev.setSrc_pairFlows (d : Dev) (n : Nat) (x : SourceRt) : (d.setSrc n x).pairFlows = d.pairFlows := rfl
@[simp] theorem Dev.setSrc_parts (d : Dev) (n : Nat) (x : SourceRt) : (d.setSrc n x).parts = d.parts := rfl
@[simp] theorem Dev.setSrc_pcs (d : Dev) (n : Nat) (x : SourceRt) : (d.setSrc n x).pcs = d.pcs := rfl
@[simp] theorem Dev.setSrc_hbms (d : Dev) (n : Nat) (x : SourceRt) : (d.setSrc n x).hbms = d.hbms := rfl
@[simp] theorem Dev.setSrc_words (d : Dev) (n : Nat) (x : SourceRt) : (d.setSrc n x).words = d.words := rfl
@[simp] theorem Dev.setSrc_acts (d : Dev) (n : Nat) (x : SourceRt) : (d.setSrc n x).acts = d.acts := rfl
@[simp] theorem Dev.setSrc_throttles (d : Dev) (n : Nat) (x : SourceRt) : (d.setSrc n x).throttles = d.throttles := rfl
@[simp] theorem Dev.setSrc_uncTold (d : Dev) (n : Nat) (x : SourceRt) : (d.setSrc n x).uncTold = d.uncTold := rfl
@[simp] theorem Dev.setSrc_guardianStopped (d : Dev) (n : Nat) (x : SourceRt) : (d.setSrc n x).guardianStopped = d.guardianStopped := rfl
@[simp] theorem Dev.setSrc_curStopped (d : Dev) (n : Nat) (x : SourceRt) : (d.setSrc n x).curStopped = d.curStopped := rfl
@[simp] theorem Dev.setSrc_dup (d : Dev) (n : Nat) (x : SourceRt) : (d.setSrc n x).dup = d.dup := rfl
@[simp] theorem Dev.setSrc_ring (d : Dev) (n : Nat) (x : SourceRt) : (d.setSrc n x).ring = d.ring := rfl
@[simp] theorem Dev.setSrc_cal (d : Dev) (n : Nat) (x : SourceRt) : (d.setSrc n x).cal = d.cal := rfl
@[simp] theorem Dev.setSrc_flash (d : Dev) (n : Nat) (x : SourceRt) : (d.setSrc n x).flash = d.flash := rfl
@[simp] theorem Dev.setSrc_retain (d : Dev) (n : Nat) (x : SourceRt) : (d.setSrc n x).retain = d.retain := rfl
@[simp] theorem Dev.setSrc_saving (d : Dev) (n : Nat) (x : SourceRt) : (d.setSrc n x).saving = d.saving := rfl
@[simp] theorem Dev.setSrc_pwr (d : Dev) (n : Nat) (x : SourceRt) : (d.setSrc n x).pwr = d.pwr := rfl

/-! `Dev.setDec` changes `decs` only. -/

@[simp] theorem Dev.setDec_now (d : Dev) (k : Nat) (x : DecRt) : (d.setDec k x).now = d.now := rfl
@[simp] theorem Dev.setDec_outbox (d : Dev) (k : Nat) (x : DecRt) : (d.setDec k x).outbox = d.outbox := rfl
@[simp] theorem Dev.setDec_fresh (d : Dev) (k : Nat) (x : DecRt) : (d.setDec k x).fresh = d.fresh := rfl
@[simp] theorem Dev.setDec_regs (d : Dev) (k : Nat) (x : DecRt) : (d.setDec k x).regs = d.regs := rfl
@[simp] theorem Dev.setDec_doms (d : Dev) (k : Nat) (x : DecRt) : (d.setDec k x).doms = d.doms := rfl
@[simp] theorem Dev.setDec_wings (d : Dev) (k : Nat) (x : DecRt) : (d.setDec k x).wings = d.wings := rfl
@[simp] theorem Dev.setDec_sessions (d : Dev) (k : Nat) (x : DecRt) : (d.setDec k x).sessions = d.sessions := rfl
@[simp] theorem Dev.setDec_authFails (d : Dev) (k : Nat) (x : DecRt) : (d.setDec k x).authFails = d.authFails := rfl
@[simp] theorem Dev.setDec_blocked (d : Dev) (k : Nat) (x : DecRt) : (d.setDec k x).blocked = d.blocked := rfl
@[simp] theorem Dev.setDec_canStage (d : Dev) (k : Nat) (x : DecRt) : (d.setDec k x).canStage = d.canStage := rfl
@[simp] theorem Dev.setDec_tpdos (d : Dev) (k : Nat) (x : DecRt) : (d.setDec k x).tpdos = d.tpdos := rfl
@[simp] theorem Dev.setDec_syncs (d : Dev) (k : Nat) (x : DecRt) : (d.setDec k x).syncs = d.syncs := rfl
@[simp] theorem Dev.setDec_segs (d : Dev) (k : Nat) (x : DecRt) : (d.setDec k x).segs = d.segs := rfl
@[simp] theorem Dev.setDec_wdpDropped (d : Dev) (k : Nat) (x : DecRt) : (d.setDec k x).wdpDropped = d.wdpDropped := rfl
@[simp] theorem Dev.setDec_mbxs (d : Dev) (k : Nat) (x : DecRt) : (d.setDec k x).mbxs = d.mbxs := rfl
@[simp] theorem Dev.setDec_batches (d : Dev) (k : Nat) (x : DecRt) : (d.setDec k x).batches = d.batches := rfl
@[simp] theorem Dev.setDec_batchOf (d : Dev) (k : Nat) (x : DecRt) : (d.setDec k x).batchOf = d.batchOf := rfl
@[simp] theorem Dev.setDec_batchNum (d : Dev) (k : Nat) (x : DecRt) : (d.setDec k x).batchNum = d.batchNum := rfl
@[simp] theorem Dev.setDec_mirror (d : Dev) (k : Nat) (x : DecRt) : (d.setDec k x).mirror = d.mirror := rfl
@[simp] theorem Dev.setDec_longOps (d : Dev) (k : Nat) (x : DecRt) : (d.setDec k x).longOps = d.longOps := rfl
@[simp] theorem Dev.setDec_queue (d : Dev) (k : Nat) (x : DecRt) : (d.setDec k x).queue = d.queue := rfl
@[simp] theorem Dev.setDec_aonFault (d : Dev) (k : Nat) (x : DecRt) : (d.setDec k x).aonFault = d.aonFault := rfl
@[simp] theorem Dev.setDec_nmt (d : Dev) (k : Nat) (x : DecRt) : (d.setDec k x).nmt = d.nmt := rfl
@[simp] theorem Dev.setDec_emcyAt (d : Dev) (k : Nat) (x : DecRt) : (d.setDec k x).emcyAt = d.emcyAt := rfl
@[simp] theorem Dev.setDec_bootRegs (d : Dev) (k : Nat) (x : DecRt) : (d.setDec k x).bootRegs = d.bootRegs := rfl
@[simp] theorem Dev.setDec_bootDoms (d : Dev) (k : Nat) (x : DecRt) : (d.setDec k x).bootDoms = d.bootDoms := rfl
@[simp] theorem Dev.setDec_sources (d : Dev) (k : Nat) (x : DecRt) : (d.setDec k x).sources = d.sources := rfl
@[simp] theorem Dev.setDec_joinRepeats (d : Dev) (k : Nat) (x : DecRt) : (d.setDec k x).joinRepeats = d.joinRepeats := rfl
@[simp] theorem Dev.setDec_nmos (d : Dev) (k : Nat) (x : DecRt) : (d.setDec k x).nmos = d.nmos := rfl
@[simp] theorem Dev.setDec_layers (d : Dev) (k : Nat) (x : DecRt) : (d.setDec k x).layers = d.layers := rfl
@[simp] theorem Dev.setDec_layerComps (d : Dev) (k : Nat) (x : DecRt) : (d.setDec k x).layerComps = d.layerComps := rfl
@[simp] theorem Dev.setDec_outputs (d : Dev) (k : Nat) (x : DecRt) : (d.setDec k x).outputs = d.outputs := rfl
@[simp] theorem Dev.setDec_hist (d : Dev) (k : Nat) (x : DecRt) : (d.setDec k x).hist = d.hist := rfl
@[simp] theorem Dev.setDec_summary (d : Dev) (k : Nat) (x : DecRt) : (d.setDec k x).summary = d.summary := rfl
@[simp] theorem Dev.setDec_shelfIdle (d : Dev) (k : Nat) (x : DecRt) : (d.setDec k x).shelfIdle = d.shelfIdle := rfl
@[simp] theorem Dev.setDec_compId (d : Dev) (k : Nat) (x : DecRt) : (d.setDec k x).compId = d.compId := rfl
@[simp] theorem Dev.setDec_dps (d : Dev) (k : Nat) (x : DecRt) : (d.setDec k x).dps = d.dps := rfl
@[simp] theorem Dev.setDec_encs (d : Dev) (k : Nat) (x : DecRt) : (d.setDec k x).encs = d.encs := rfl
@[simp] theorem Dev.setDec_evts (d : Dev) (k : Nat) (x : DecRt) : (d.setDec k x).evts = d.evts := rfl
@[simp] theorem Dev.setDec_due (d : Dev) (k : Nat) (x : DecRt) : (d.setDec k x).due = d.due := rfl
@[simp] theorem Dev.setDec_launched (d : Dev) (k : Nat) (x : DecRt) : (d.setDec k x).launched = d.launched := rfl
@[simp] theorem Dev.setDec_pps (d : Dev) (k : Nat) (x : DecRt) : (d.setDec k x).pps = d.pps := rfl
@[simp] theorem Dev.setDec_time (d : Dev) (k : Nat) (x : DecRt) : (d.setDec k x).time = d.time := rfl
@[simp] theorem Dev.setDec_aud (d : Dev) (k : Nat) (x : DecRt) : (d.setDec k x).aud = d.aud := rfl
@[simp] theorem Dev.setDec_touch (d : Dev) (k : Nat) (x : DecRt) : (d.setDec k x).touch = d.touch := rfl
@[simp] theorem Dev.setDec_peak (d : Dev) (k : Nat) (x : DecRt) : (d.setDec k x).peak = d.peak := rfl
@[simp] theorem Dev.setDec_ringOcc (d : Dev) (k : Nat) (x : DecRt) : (d.setDec k x).ringOcc = d.ringOcc := rfl
@[simp] theorem Dev.setDec_pairFlows (d : Dev) (k : Nat) (x : DecRt) : (d.setDec k x).pairFlows = d.pairFlows := rfl
@[simp] theorem Dev.setDec_parts (d : Dev) (k : Nat) (x : DecRt) : (d.setDec k x).parts = d.parts := rfl
@[simp] theorem Dev.setDec_pcs (d : Dev) (k : Nat) (x : DecRt) : (d.setDec k x).pcs = d.pcs := rfl
@[simp] theorem Dev.setDec_hbms (d : Dev) (k : Nat) (x : DecRt) : (d.setDec k x).hbms = d.hbms := rfl
@[simp] theorem Dev.setDec_words (d : Dev) (k : Nat) (x : DecRt) : (d.setDec k x).words = d.words := rfl
@[simp] theorem Dev.setDec_acts (d : Dev) (k : Nat) (x : DecRt) : (d.setDec k x).acts = d.acts := rfl
@[simp] theorem Dev.setDec_throttles (d : Dev) (k : Nat) (x : DecRt) : (d.setDec k x).throttles = d.throttles := rfl
@[simp] theorem Dev.setDec_uncTold (d : Dev) (k : Nat) (x : DecRt) : (d.setDec k x).uncTold = d.uncTold := rfl
@[simp] theorem Dev.setDec_guardianStopped (d : Dev) (k : Nat) (x : DecRt) : (d.setDec k x).guardianStopped = d.guardianStopped := rfl
@[simp] theorem Dev.setDec_curStopped (d : Dev) (k : Nat) (x : DecRt) : (d.setDec k x).curStopped = d.curStopped := rfl
@[simp] theorem Dev.setDec_dup (d : Dev) (k : Nat) (x : DecRt) : (d.setDec k x).dup = d.dup := rfl
@[simp] theorem Dev.setDec_ring (d : Dev) (k : Nat) (x : DecRt) : (d.setDec k x).ring = d.ring := rfl
@[simp] theorem Dev.setDec_cal (d : Dev) (k : Nat) (x : DecRt) : (d.setDec k x).cal = d.cal := rfl
@[simp] theorem Dev.setDec_flash (d : Dev) (k : Nat) (x : DecRt) : (d.setDec k x).flash = d.flash := rfl
@[simp] theorem Dev.setDec_retain (d : Dev) (k : Nat) (x : DecRt) : (d.setDec k x).retain = d.retain := rfl
@[simp] theorem Dev.setDec_saving (d : Dev) (k : Nat) (x : DecRt) : (d.setDec k x).saving = d.saving := rfl
@[simp] theorem Dev.setDec_pwr (d : Dev) (k : Nat) (x : DecRt) : (d.setDec k x).pwr = d.pwr := rfl

/-! `Dev.setOut` changes `outputs` only. -/

@[simp] theorem Dev.setOut_now (d : Dev) (o : Nat) (x : OutputRt) : (d.setOut o x).now = d.now := rfl
@[simp] theorem Dev.setOut_outbox (d : Dev) (o : Nat) (x : OutputRt) : (d.setOut o x).outbox = d.outbox := rfl
@[simp] theorem Dev.setOut_fresh (d : Dev) (o : Nat) (x : OutputRt) : (d.setOut o x).fresh = d.fresh := rfl
@[simp] theorem Dev.setOut_regs (d : Dev) (o : Nat) (x : OutputRt) : (d.setOut o x).regs = d.regs := rfl
@[simp] theorem Dev.setOut_doms (d : Dev) (o : Nat) (x : OutputRt) : (d.setOut o x).doms = d.doms := rfl
@[simp] theorem Dev.setOut_wings (d : Dev) (o : Nat) (x : OutputRt) : (d.setOut o x).wings = d.wings := rfl
@[simp] theorem Dev.setOut_sessions (d : Dev) (o : Nat) (x : OutputRt) : (d.setOut o x).sessions = d.sessions := rfl
@[simp] theorem Dev.setOut_authFails (d : Dev) (o : Nat) (x : OutputRt) : (d.setOut o x).authFails = d.authFails := rfl
@[simp] theorem Dev.setOut_blocked (d : Dev) (o : Nat) (x : OutputRt) : (d.setOut o x).blocked = d.blocked := rfl
@[simp] theorem Dev.setOut_canStage (d : Dev) (o : Nat) (x : OutputRt) : (d.setOut o x).canStage = d.canStage := rfl
@[simp] theorem Dev.setOut_tpdos (d : Dev) (o : Nat) (x : OutputRt) : (d.setOut o x).tpdos = d.tpdos := rfl
@[simp] theorem Dev.setOut_syncs (d : Dev) (o : Nat) (x : OutputRt) : (d.setOut o x).syncs = d.syncs := rfl
@[simp] theorem Dev.setOut_segs (d : Dev) (o : Nat) (x : OutputRt) : (d.setOut o x).segs = d.segs := rfl
@[simp] theorem Dev.setOut_wdpDropped (d : Dev) (o : Nat) (x : OutputRt) : (d.setOut o x).wdpDropped = d.wdpDropped := rfl
@[simp] theorem Dev.setOut_mbxs (d : Dev) (o : Nat) (x : OutputRt) : (d.setOut o x).mbxs = d.mbxs := rfl
@[simp] theorem Dev.setOut_batches (d : Dev) (o : Nat) (x : OutputRt) : (d.setOut o x).batches = d.batches := rfl
@[simp] theorem Dev.setOut_batchOf (d : Dev) (o : Nat) (x : OutputRt) : (d.setOut o x).batchOf = d.batchOf := rfl
@[simp] theorem Dev.setOut_batchNum (d : Dev) (o : Nat) (x : OutputRt) : (d.setOut o x).batchNum = d.batchNum := rfl
@[simp] theorem Dev.setOut_mirror (d : Dev) (o : Nat) (x : OutputRt) : (d.setOut o x).mirror = d.mirror := rfl
@[simp] theorem Dev.setOut_longOps (d : Dev) (o : Nat) (x : OutputRt) : (d.setOut o x).longOps = d.longOps := rfl
@[simp] theorem Dev.setOut_queue (d : Dev) (o : Nat) (x : OutputRt) : (d.setOut o x).queue = d.queue := rfl
@[simp] theorem Dev.setOut_aonFault (d : Dev) (o : Nat) (x : OutputRt) : (d.setOut o x).aonFault = d.aonFault := rfl
@[simp] theorem Dev.setOut_nmt (d : Dev) (o : Nat) (x : OutputRt) : (d.setOut o x).nmt = d.nmt := rfl
@[simp] theorem Dev.setOut_emcyAt (d : Dev) (o : Nat) (x : OutputRt) : (d.setOut o x).emcyAt = d.emcyAt := rfl
@[simp] theorem Dev.setOut_bootRegs (d : Dev) (o : Nat) (x : OutputRt) : (d.setOut o x).bootRegs = d.bootRegs := rfl
@[simp] theorem Dev.setOut_bootDoms (d : Dev) (o : Nat) (x : OutputRt) : (d.setOut o x).bootDoms = d.bootDoms := rfl
@[simp] theorem Dev.setOut_sources (d : Dev) (o : Nat) (x : OutputRt) : (d.setOut o x).sources = d.sources := rfl
@[simp] theorem Dev.setOut_joinRepeats (d : Dev) (o : Nat) (x : OutputRt) : (d.setOut o x).joinRepeats = d.joinRepeats := rfl
@[simp] theorem Dev.setOut_nmos (d : Dev) (o : Nat) (x : OutputRt) : (d.setOut o x).nmos = d.nmos := rfl
@[simp] theorem Dev.setOut_decs (d : Dev) (o : Nat) (x : OutputRt) : (d.setOut o x).decs = d.decs := rfl
@[simp] theorem Dev.setOut_layers (d : Dev) (o : Nat) (x : OutputRt) : (d.setOut o x).layers = d.layers := rfl
@[simp] theorem Dev.setOut_layerComps (d : Dev) (o : Nat) (x : OutputRt) : (d.setOut o x).layerComps = d.layerComps := rfl
@[simp] theorem Dev.setOut_hist (d : Dev) (o : Nat) (x : OutputRt) : (d.setOut o x).hist = d.hist := rfl
@[simp] theorem Dev.setOut_summary (d : Dev) (o : Nat) (x : OutputRt) : (d.setOut o x).summary = d.summary := rfl
@[simp] theorem Dev.setOut_shelfIdle (d : Dev) (o : Nat) (x : OutputRt) : (d.setOut o x).shelfIdle = d.shelfIdle := rfl
@[simp] theorem Dev.setOut_compId (d : Dev) (o : Nat) (x : OutputRt) : (d.setOut o x).compId = d.compId := rfl
@[simp] theorem Dev.setOut_dps (d : Dev) (o : Nat) (x : OutputRt) : (d.setOut o x).dps = d.dps := rfl
@[simp] theorem Dev.setOut_encs (d : Dev) (o : Nat) (x : OutputRt) : (d.setOut o x).encs = d.encs := rfl
@[simp] theorem Dev.setOut_evts (d : Dev) (o : Nat) (x : OutputRt) : (d.setOut o x).evts = d.evts := rfl
@[simp] theorem Dev.setOut_due (d : Dev) (o : Nat) (x : OutputRt) : (d.setOut o x).due = d.due := rfl
@[simp] theorem Dev.setOut_launched (d : Dev) (o : Nat) (x : OutputRt) : (d.setOut o x).launched = d.launched := rfl
@[simp] theorem Dev.setOut_pps (d : Dev) (o : Nat) (x : OutputRt) : (d.setOut o x).pps = d.pps := rfl
@[simp] theorem Dev.setOut_time (d : Dev) (o : Nat) (x : OutputRt) : (d.setOut o x).time = d.time := rfl
@[simp] theorem Dev.setOut_aud (d : Dev) (o : Nat) (x : OutputRt) : (d.setOut o x).aud = d.aud := rfl
@[simp] theorem Dev.setOut_touch (d : Dev) (o : Nat) (x : OutputRt) : (d.setOut o x).touch = d.touch := rfl
@[simp] theorem Dev.setOut_peak (d : Dev) (o : Nat) (x : OutputRt) : (d.setOut o x).peak = d.peak := rfl
@[simp] theorem Dev.setOut_ringOcc (d : Dev) (o : Nat) (x : OutputRt) : (d.setOut o x).ringOcc = d.ringOcc := rfl
@[simp] theorem Dev.setOut_pairFlows (d : Dev) (o : Nat) (x : OutputRt) : (d.setOut o x).pairFlows = d.pairFlows := rfl
@[simp] theorem Dev.setOut_parts (d : Dev) (o : Nat) (x : OutputRt) : (d.setOut o x).parts = d.parts := rfl
@[simp] theorem Dev.setOut_pcs (d : Dev) (o : Nat) (x : OutputRt) : (d.setOut o x).pcs = d.pcs := rfl
@[simp] theorem Dev.setOut_hbms (d : Dev) (o : Nat) (x : OutputRt) : (d.setOut o x).hbms = d.hbms := rfl
@[simp] theorem Dev.setOut_words (d : Dev) (o : Nat) (x : OutputRt) : (d.setOut o x).words = d.words := rfl
@[simp] theorem Dev.setOut_acts (d : Dev) (o : Nat) (x : OutputRt) : (d.setOut o x).acts = d.acts := rfl
@[simp] theorem Dev.setOut_throttles (d : Dev) (o : Nat) (x : OutputRt) : (d.setOut o x).throttles = d.throttles := rfl
@[simp] theorem Dev.setOut_uncTold (d : Dev) (o : Nat) (x : OutputRt) : (d.setOut o x).uncTold = d.uncTold := rfl
@[simp] theorem Dev.setOut_guardianStopped (d : Dev) (o : Nat) (x : OutputRt) : (d.setOut o x).guardianStopped = d.guardianStopped := rfl
@[simp] theorem Dev.setOut_curStopped (d : Dev) (o : Nat) (x : OutputRt) : (d.setOut o x).curStopped = d.curStopped := rfl
@[simp] theorem Dev.setOut_dup (d : Dev) (o : Nat) (x : OutputRt) : (d.setOut o x).dup = d.dup := rfl
@[simp] theorem Dev.setOut_ring (d : Dev) (o : Nat) (x : OutputRt) : (d.setOut o x).ring = d.ring := rfl
@[simp] theorem Dev.setOut_cal (d : Dev) (o : Nat) (x : OutputRt) : (d.setOut o x).cal = d.cal := rfl
@[simp] theorem Dev.setOut_flash (d : Dev) (o : Nat) (x : OutputRt) : (d.setOut o x).flash = d.flash := rfl
@[simp] theorem Dev.setOut_retain (d : Dev) (o : Nat) (x : OutputRt) : (d.setOut o x).retain = d.retain := rfl
@[simp] theorem Dev.setOut_saving (d : Dev) (o : Nat) (x : OutputRt) : (d.setOut o x).saving = d.saving := rfl
@[simp] theorem Dev.setOut_pwr (d : Dev) (o : Nat) (x : OutputRt) : (d.setOut o x).pwr = d.pwr := rfl

/-! `Dev.setLayer` changes `layers` only. -/

@[simp] theorem Dev.setLayer_now (d : Dev) (l : Nat) (x : LayerRt) : (d.setLayer l x).now = d.now := rfl
@[simp] theorem Dev.setLayer_outbox (d : Dev) (l : Nat) (x : LayerRt) : (d.setLayer l x).outbox = d.outbox := rfl
@[simp] theorem Dev.setLayer_fresh (d : Dev) (l : Nat) (x : LayerRt) : (d.setLayer l x).fresh = d.fresh := rfl
@[simp] theorem Dev.setLayer_regs (d : Dev) (l : Nat) (x : LayerRt) : (d.setLayer l x).regs = d.regs := rfl
@[simp] theorem Dev.setLayer_doms (d : Dev) (l : Nat) (x : LayerRt) : (d.setLayer l x).doms = d.doms := rfl
@[simp] theorem Dev.setLayer_wings (d : Dev) (l : Nat) (x : LayerRt) : (d.setLayer l x).wings = d.wings := rfl
@[simp] theorem Dev.setLayer_sessions (d : Dev) (l : Nat) (x : LayerRt) : (d.setLayer l x).sessions = d.sessions := rfl
@[simp] theorem Dev.setLayer_authFails (d : Dev) (l : Nat) (x : LayerRt) : (d.setLayer l x).authFails = d.authFails := rfl
@[simp] theorem Dev.setLayer_blocked (d : Dev) (l : Nat) (x : LayerRt) : (d.setLayer l x).blocked = d.blocked := rfl
@[simp] theorem Dev.setLayer_canStage (d : Dev) (l : Nat) (x : LayerRt) : (d.setLayer l x).canStage = d.canStage := rfl
@[simp] theorem Dev.setLayer_tpdos (d : Dev) (l : Nat) (x : LayerRt) : (d.setLayer l x).tpdos = d.tpdos := rfl
@[simp] theorem Dev.setLayer_syncs (d : Dev) (l : Nat) (x : LayerRt) : (d.setLayer l x).syncs = d.syncs := rfl
@[simp] theorem Dev.setLayer_segs (d : Dev) (l : Nat) (x : LayerRt) : (d.setLayer l x).segs = d.segs := rfl
@[simp] theorem Dev.setLayer_wdpDropped (d : Dev) (l : Nat) (x : LayerRt) : (d.setLayer l x).wdpDropped = d.wdpDropped := rfl
@[simp] theorem Dev.setLayer_mbxs (d : Dev) (l : Nat) (x : LayerRt) : (d.setLayer l x).mbxs = d.mbxs := rfl
@[simp] theorem Dev.setLayer_batches (d : Dev) (l : Nat) (x : LayerRt) : (d.setLayer l x).batches = d.batches := rfl
@[simp] theorem Dev.setLayer_batchOf (d : Dev) (l : Nat) (x : LayerRt) : (d.setLayer l x).batchOf = d.batchOf := rfl
@[simp] theorem Dev.setLayer_batchNum (d : Dev) (l : Nat) (x : LayerRt) : (d.setLayer l x).batchNum = d.batchNum := rfl
@[simp] theorem Dev.setLayer_mirror (d : Dev) (l : Nat) (x : LayerRt) : (d.setLayer l x).mirror = d.mirror := rfl
@[simp] theorem Dev.setLayer_longOps (d : Dev) (l : Nat) (x : LayerRt) : (d.setLayer l x).longOps = d.longOps := rfl
@[simp] theorem Dev.setLayer_queue (d : Dev) (l : Nat) (x : LayerRt) : (d.setLayer l x).queue = d.queue := rfl
@[simp] theorem Dev.setLayer_aonFault (d : Dev) (l : Nat) (x : LayerRt) : (d.setLayer l x).aonFault = d.aonFault := rfl
@[simp] theorem Dev.setLayer_nmt (d : Dev) (l : Nat) (x : LayerRt) : (d.setLayer l x).nmt = d.nmt := rfl
@[simp] theorem Dev.setLayer_emcyAt (d : Dev) (l : Nat) (x : LayerRt) : (d.setLayer l x).emcyAt = d.emcyAt := rfl
@[simp] theorem Dev.setLayer_bootRegs (d : Dev) (l : Nat) (x : LayerRt) : (d.setLayer l x).bootRegs = d.bootRegs := rfl
@[simp] theorem Dev.setLayer_bootDoms (d : Dev) (l : Nat) (x : LayerRt) : (d.setLayer l x).bootDoms = d.bootDoms := rfl
@[simp] theorem Dev.setLayer_sources (d : Dev) (l : Nat) (x : LayerRt) : (d.setLayer l x).sources = d.sources := rfl
@[simp] theorem Dev.setLayer_joinRepeats (d : Dev) (l : Nat) (x : LayerRt) : (d.setLayer l x).joinRepeats = d.joinRepeats := rfl
@[simp] theorem Dev.setLayer_nmos (d : Dev) (l : Nat) (x : LayerRt) : (d.setLayer l x).nmos = d.nmos := rfl
@[simp] theorem Dev.setLayer_decs (d : Dev) (l : Nat) (x : LayerRt) : (d.setLayer l x).decs = d.decs := rfl
@[simp] theorem Dev.setLayer_layerComps (d : Dev) (l : Nat) (x : LayerRt) : (d.setLayer l x).layerComps = d.layerComps := rfl
@[simp] theorem Dev.setLayer_outputs (d : Dev) (l : Nat) (x : LayerRt) : (d.setLayer l x).outputs = d.outputs := rfl
@[simp] theorem Dev.setLayer_hist (d : Dev) (l : Nat) (x : LayerRt) : (d.setLayer l x).hist = d.hist := rfl
@[simp] theorem Dev.setLayer_summary (d : Dev) (l : Nat) (x : LayerRt) : (d.setLayer l x).summary = d.summary := rfl
@[simp] theorem Dev.setLayer_shelfIdle (d : Dev) (l : Nat) (x : LayerRt) : (d.setLayer l x).shelfIdle = d.shelfIdle := rfl
@[simp] theorem Dev.setLayer_compId (d : Dev) (l : Nat) (x : LayerRt) : (d.setLayer l x).compId = d.compId := rfl
@[simp] theorem Dev.setLayer_dps (d : Dev) (l : Nat) (x : LayerRt) : (d.setLayer l x).dps = d.dps := rfl
@[simp] theorem Dev.setLayer_encs (d : Dev) (l : Nat) (x : LayerRt) : (d.setLayer l x).encs = d.encs := rfl
@[simp] theorem Dev.setLayer_evts (d : Dev) (l : Nat) (x : LayerRt) : (d.setLayer l x).evts = d.evts := rfl
@[simp] theorem Dev.setLayer_due (d : Dev) (l : Nat) (x : LayerRt) : (d.setLayer l x).due = d.due := rfl
@[simp] theorem Dev.setLayer_launched (d : Dev) (l : Nat) (x : LayerRt) : (d.setLayer l x).launched = d.launched := rfl
@[simp] theorem Dev.setLayer_pps (d : Dev) (l : Nat) (x : LayerRt) : (d.setLayer l x).pps = d.pps := rfl
@[simp] theorem Dev.setLayer_time (d : Dev) (l : Nat) (x : LayerRt) : (d.setLayer l x).time = d.time := rfl
@[simp] theorem Dev.setLayer_aud (d : Dev) (l : Nat) (x : LayerRt) : (d.setLayer l x).aud = d.aud := rfl
@[simp] theorem Dev.setLayer_touch (d : Dev) (l : Nat) (x : LayerRt) : (d.setLayer l x).touch = d.touch := rfl
@[simp] theorem Dev.setLayer_peak (d : Dev) (l : Nat) (x : LayerRt) : (d.setLayer l x).peak = d.peak := rfl
@[simp] theorem Dev.setLayer_ringOcc (d : Dev) (l : Nat) (x : LayerRt) : (d.setLayer l x).ringOcc = d.ringOcc := rfl
@[simp] theorem Dev.setLayer_pairFlows (d : Dev) (l : Nat) (x : LayerRt) : (d.setLayer l x).pairFlows = d.pairFlows := rfl
@[simp] theorem Dev.setLayer_parts (d : Dev) (l : Nat) (x : LayerRt) : (d.setLayer l x).parts = d.parts := rfl
@[simp] theorem Dev.setLayer_pcs (d : Dev) (l : Nat) (x : LayerRt) : (d.setLayer l x).pcs = d.pcs := rfl
@[simp] theorem Dev.setLayer_hbms (d : Dev) (l : Nat) (x : LayerRt) : (d.setLayer l x).hbms = d.hbms := rfl
@[simp] theorem Dev.setLayer_words (d : Dev) (l : Nat) (x : LayerRt) : (d.setLayer l x).words = d.words := rfl
@[simp] theorem Dev.setLayer_acts (d : Dev) (l : Nat) (x : LayerRt) : (d.setLayer l x).acts = d.acts := rfl
@[simp] theorem Dev.setLayer_throttles (d : Dev) (l : Nat) (x : LayerRt) : (d.setLayer l x).throttles = d.throttles := rfl
@[simp] theorem Dev.setLayer_uncTold (d : Dev) (l : Nat) (x : LayerRt) : (d.setLayer l x).uncTold = d.uncTold := rfl
@[simp] theorem Dev.setLayer_guardianStopped (d : Dev) (l : Nat) (x : LayerRt) : (d.setLayer l x).guardianStopped = d.guardianStopped := rfl
@[simp] theorem Dev.setLayer_curStopped (d : Dev) (l : Nat) (x : LayerRt) : (d.setLayer l x).curStopped = d.curStopped := rfl
@[simp] theorem Dev.setLayer_dup (d : Dev) (l : Nat) (x : LayerRt) : (d.setLayer l x).dup = d.dup := rfl
@[simp] theorem Dev.setLayer_ring (d : Dev) (l : Nat) (x : LayerRt) : (d.setLayer l x).ring = d.ring := rfl
@[simp] theorem Dev.setLayer_cal (d : Dev) (l : Nat) (x : LayerRt) : (d.setLayer l x).cal = d.cal := rfl
@[simp] theorem Dev.setLayer_flash (d : Dev) (l : Nat) (x : LayerRt) : (d.setLayer l x).flash = d.flash := rfl
@[simp] theorem Dev.setLayer_retain (d : Dev) (l : Nat) (x : LayerRt) : (d.setLayer l x).retain = d.retain := rfl
@[simp] theorem Dev.setLayer_saving (d : Dev) (l : Nat) (x : LayerRt) : (d.setLayer l x).saving = d.saving := rfl
@[simp] theorem Dev.setLayer_pwr (d : Dev) (l : Nat) (x : LayerRt) : (d.setLayer l x).pwr = d.pwr := rfl

/-! `Dev.setDp` changes `dps` only. -/

@[simp] theorem Dev.setDp_now (d : Dev) (p : Nat) (x : DpRt) : (d.setDp p x).now = d.now := rfl
@[simp] theorem Dev.setDp_outbox (d : Dev) (p : Nat) (x : DpRt) : (d.setDp p x).outbox = d.outbox := rfl
@[simp] theorem Dev.setDp_fresh (d : Dev) (p : Nat) (x : DpRt) : (d.setDp p x).fresh = d.fresh := rfl
@[simp] theorem Dev.setDp_regs (d : Dev) (p : Nat) (x : DpRt) : (d.setDp p x).regs = d.regs := rfl
@[simp] theorem Dev.setDp_doms (d : Dev) (p : Nat) (x : DpRt) : (d.setDp p x).doms = d.doms := rfl
@[simp] theorem Dev.setDp_wings (d : Dev) (p : Nat) (x : DpRt) : (d.setDp p x).wings = d.wings := rfl
@[simp] theorem Dev.setDp_sessions (d : Dev) (p : Nat) (x : DpRt) : (d.setDp p x).sessions = d.sessions := rfl
@[simp] theorem Dev.setDp_authFails (d : Dev) (p : Nat) (x : DpRt) : (d.setDp p x).authFails = d.authFails := rfl
@[simp] theorem Dev.setDp_blocked (d : Dev) (p : Nat) (x : DpRt) : (d.setDp p x).blocked = d.blocked := rfl
@[simp] theorem Dev.setDp_canStage (d : Dev) (p : Nat) (x : DpRt) : (d.setDp p x).canStage = d.canStage := rfl
@[simp] theorem Dev.setDp_tpdos (d : Dev) (p : Nat) (x : DpRt) : (d.setDp p x).tpdos = d.tpdos := rfl
@[simp] theorem Dev.setDp_syncs (d : Dev) (p : Nat) (x : DpRt) : (d.setDp p x).syncs = d.syncs := rfl
@[simp] theorem Dev.setDp_segs (d : Dev) (p : Nat) (x : DpRt) : (d.setDp p x).segs = d.segs := rfl
@[simp] theorem Dev.setDp_wdpDropped (d : Dev) (p : Nat) (x : DpRt) : (d.setDp p x).wdpDropped = d.wdpDropped := rfl
@[simp] theorem Dev.setDp_mbxs (d : Dev) (p : Nat) (x : DpRt) : (d.setDp p x).mbxs = d.mbxs := rfl
@[simp] theorem Dev.setDp_batches (d : Dev) (p : Nat) (x : DpRt) : (d.setDp p x).batches = d.batches := rfl
@[simp] theorem Dev.setDp_batchOf (d : Dev) (p : Nat) (x : DpRt) : (d.setDp p x).batchOf = d.batchOf := rfl
@[simp] theorem Dev.setDp_batchNum (d : Dev) (p : Nat) (x : DpRt) : (d.setDp p x).batchNum = d.batchNum := rfl
@[simp] theorem Dev.setDp_mirror (d : Dev) (p : Nat) (x : DpRt) : (d.setDp p x).mirror = d.mirror := rfl
@[simp] theorem Dev.setDp_longOps (d : Dev) (p : Nat) (x : DpRt) : (d.setDp p x).longOps = d.longOps := rfl
@[simp] theorem Dev.setDp_queue (d : Dev) (p : Nat) (x : DpRt) : (d.setDp p x).queue = d.queue := rfl
@[simp] theorem Dev.setDp_aonFault (d : Dev) (p : Nat) (x : DpRt) : (d.setDp p x).aonFault = d.aonFault := rfl
@[simp] theorem Dev.setDp_nmt (d : Dev) (p : Nat) (x : DpRt) : (d.setDp p x).nmt = d.nmt := rfl
@[simp] theorem Dev.setDp_emcyAt (d : Dev) (p : Nat) (x : DpRt) : (d.setDp p x).emcyAt = d.emcyAt := rfl
@[simp] theorem Dev.setDp_bootRegs (d : Dev) (p : Nat) (x : DpRt) : (d.setDp p x).bootRegs = d.bootRegs := rfl
@[simp] theorem Dev.setDp_bootDoms (d : Dev) (p : Nat) (x : DpRt) : (d.setDp p x).bootDoms = d.bootDoms := rfl
@[simp] theorem Dev.setDp_sources (d : Dev) (p : Nat) (x : DpRt) : (d.setDp p x).sources = d.sources := rfl
@[simp] theorem Dev.setDp_joinRepeats (d : Dev) (p : Nat) (x : DpRt) : (d.setDp p x).joinRepeats = d.joinRepeats := rfl
@[simp] theorem Dev.setDp_nmos (d : Dev) (p : Nat) (x : DpRt) : (d.setDp p x).nmos = d.nmos := rfl
@[simp] theorem Dev.setDp_decs (d : Dev) (p : Nat) (x : DpRt) : (d.setDp p x).decs = d.decs := rfl
@[simp] theorem Dev.setDp_layers (d : Dev) (p : Nat) (x : DpRt) : (d.setDp p x).layers = d.layers := rfl
@[simp] theorem Dev.setDp_layerComps (d : Dev) (p : Nat) (x : DpRt) : (d.setDp p x).layerComps = d.layerComps := rfl
@[simp] theorem Dev.setDp_outputs (d : Dev) (p : Nat) (x : DpRt) : (d.setDp p x).outputs = d.outputs := rfl
@[simp] theorem Dev.setDp_hist (d : Dev) (p : Nat) (x : DpRt) : (d.setDp p x).hist = d.hist := rfl
@[simp] theorem Dev.setDp_summary (d : Dev) (p : Nat) (x : DpRt) : (d.setDp p x).summary = d.summary := rfl
@[simp] theorem Dev.setDp_shelfIdle (d : Dev) (p : Nat) (x : DpRt) : (d.setDp p x).shelfIdle = d.shelfIdle := rfl
@[simp] theorem Dev.setDp_compId (d : Dev) (p : Nat) (x : DpRt) : (d.setDp p x).compId = d.compId := rfl
@[simp] theorem Dev.setDp_encs (d : Dev) (p : Nat) (x : DpRt) : (d.setDp p x).encs = d.encs := rfl
@[simp] theorem Dev.setDp_evts (d : Dev) (p : Nat) (x : DpRt) : (d.setDp p x).evts = d.evts := rfl
@[simp] theorem Dev.setDp_due (d : Dev) (p : Nat) (x : DpRt) : (d.setDp p x).due = d.due := rfl
@[simp] theorem Dev.setDp_launched (d : Dev) (p : Nat) (x : DpRt) : (d.setDp p x).launched = d.launched := rfl
@[simp] theorem Dev.setDp_pps (d : Dev) (p : Nat) (x : DpRt) : (d.setDp p x).pps = d.pps := rfl
@[simp] theorem Dev.setDp_time (d : Dev) (p : Nat) (x : DpRt) : (d.setDp p x).time = d.time := rfl
@[simp] theorem Dev.setDp_aud (d : Dev) (p : Nat) (x : DpRt) : (d.setDp p x).aud = d.aud := rfl
@[simp] theorem Dev.setDp_touch (d : Dev) (p : Nat) (x : DpRt) : (d.setDp p x).touch = d.touch := rfl
@[simp] theorem Dev.setDp_peak (d : Dev) (p : Nat) (x : DpRt) : (d.setDp p x).peak = d.peak := rfl
@[simp] theorem Dev.setDp_ringOcc (d : Dev) (p : Nat) (x : DpRt) : (d.setDp p x).ringOcc = d.ringOcc := rfl
@[simp] theorem Dev.setDp_pairFlows (d : Dev) (p : Nat) (x : DpRt) : (d.setDp p x).pairFlows = d.pairFlows := rfl
@[simp] theorem Dev.setDp_parts (d : Dev) (p : Nat) (x : DpRt) : (d.setDp p x).parts = d.parts := rfl
@[simp] theorem Dev.setDp_pcs (d : Dev) (p : Nat) (x : DpRt) : (d.setDp p x).pcs = d.pcs := rfl
@[simp] theorem Dev.setDp_hbms (d : Dev) (p : Nat) (x : DpRt) : (d.setDp p x).hbms = d.hbms := rfl
@[simp] theorem Dev.setDp_words (d : Dev) (p : Nat) (x : DpRt) : (d.setDp p x).words = d.words := rfl
@[simp] theorem Dev.setDp_acts (d : Dev) (p : Nat) (x : DpRt) : (d.setDp p x).acts = d.acts := rfl
@[simp] theorem Dev.setDp_throttles (d : Dev) (p : Nat) (x : DpRt) : (d.setDp p x).throttles = d.throttles := rfl
@[simp] theorem Dev.setDp_uncTold (d : Dev) (p : Nat) (x : DpRt) : (d.setDp p x).uncTold = d.uncTold := rfl
@[simp] theorem Dev.setDp_guardianStopped (d : Dev) (p : Nat) (x : DpRt) : (d.setDp p x).guardianStopped = d.guardianStopped := rfl
@[simp] theorem Dev.setDp_curStopped (d : Dev) (p : Nat) (x : DpRt) : (d.setDp p x).curStopped = d.curStopped := rfl
@[simp] theorem Dev.setDp_dup (d : Dev) (p : Nat) (x : DpRt) : (d.setDp p x).dup = d.dup := rfl
@[simp] theorem Dev.setDp_ring (d : Dev) (p : Nat) (x : DpRt) : (d.setDp p x).ring = d.ring := rfl
@[simp] theorem Dev.setDp_cal (d : Dev) (p : Nat) (x : DpRt) : (d.setDp p x).cal = d.cal := rfl
@[simp] theorem Dev.setDp_flash (d : Dev) (p : Nat) (x : DpRt) : (d.setDp p x).flash = d.flash := rfl
@[simp] theorem Dev.setDp_retain (d : Dev) (p : Nat) (x : DpRt) : (d.setDp p x).retain = d.retain := rfl
@[simp] theorem Dev.setDp_saving (d : Dev) (p : Nat) (x : DpRt) : (d.setDp p x).saving = d.saving := rfl
@[simp] theorem Dev.setDp_pwr (d : Dev) (p : Nat) (x : DpRt) : (d.setDp p x).pwr = d.pwr := rfl

/-! `Dev.setEnc` changes `encs` only. -/

@[simp] theorem Dev.setEnc_now (d : Dev) (c : Nat) (x : EncRt) : (d.setEnc c x).now = d.now := rfl
@[simp] theorem Dev.setEnc_outbox (d : Dev) (c : Nat) (x : EncRt) : (d.setEnc c x).outbox = d.outbox := rfl
@[simp] theorem Dev.setEnc_fresh (d : Dev) (c : Nat) (x : EncRt) : (d.setEnc c x).fresh = d.fresh := rfl
@[simp] theorem Dev.setEnc_regs (d : Dev) (c : Nat) (x : EncRt) : (d.setEnc c x).regs = d.regs := rfl
@[simp] theorem Dev.setEnc_doms (d : Dev) (c : Nat) (x : EncRt) : (d.setEnc c x).doms = d.doms := rfl
@[simp] theorem Dev.setEnc_wings (d : Dev) (c : Nat) (x : EncRt) : (d.setEnc c x).wings = d.wings := rfl
@[simp] theorem Dev.setEnc_sessions (d : Dev) (c : Nat) (x : EncRt) : (d.setEnc c x).sessions = d.sessions := rfl
@[simp] theorem Dev.setEnc_authFails (d : Dev) (c : Nat) (x : EncRt) : (d.setEnc c x).authFails = d.authFails := rfl
@[simp] theorem Dev.setEnc_blocked (d : Dev) (c : Nat) (x : EncRt) : (d.setEnc c x).blocked = d.blocked := rfl
@[simp] theorem Dev.setEnc_canStage (d : Dev) (c : Nat) (x : EncRt) : (d.setEnc c x).canStage = d.canStage := rfl
@[simp] theorem Dev.setEnc_tpdos (d : Dev) (c : Nat) (x : EncRt) : (d.setEnc c x).tpdos = d.tpdos := rfl
@[simp] theorem Dev.setEnc_syncs (d : Dev) (c : Nat) (x : EncRt) : (d.setEnc c x).syncs = d.syncs := rfl
@[simp] theorem Dev.setEnc_segs (d : Dev) (c : Nat) (x : EncRt) : (d.setEnc c x).segs = d.segs := rfl
@[simp] theorem Dev.setEnc_wdpDropped (d : Dev) (c : Nat) (x : EncRt) : (d.setEnc c x).wdpDropped = d.wdpDropped := rfl
@[simp] theorem Dev.setEnc_mbxs (d : Dev) (c : Nat) (x : EncRt) : (d.setEnc c x).mbxs = d.mbxs := rfl
@[simp] theorem Dev.setEnc_batches (d : Dev) (c : Nat) (x : EncRt) : (d.setEnc c x).batches = d.batches := rfl
@[simp] theorem Dev.setEnc_batchOf (d : Dev) (c : Nat) (x : EncRt) : (d.setEnc c x).batchOf = d.batchOf := rfl
@[simp] theorem Dev.setEnc_batchNum (d : Dev) (c : Nat) (x : EncRt) : (d.setEnc c x).batchNum = d.batchNum := rfl
@[simp] theorem Dev.setEnc_mirror (d : Dev) (c : Nat) (x : EncRt) : (d.setEnc c x).mirror = d.mirror := rfl
@[simp] theorem Dev.setEnc_longOps (d : Dev) (c : Nat) (x : EncRt) : (d.setEnc c x).longOps = d.longOps := rfl
@[simp] theorem Dev.setEnc_queue (d : Dev) (c : Nat) (x : EncRt) : (d.setEnc c x).queue = d.queue := rfl
@[simp] theorem Dev.setEnc_aonFault (d : Dev) (c : Nat) (x : EncRt) : (d.setEnc c x).aonFault = d.aonFault := rfl
@[simp] theorem Dev.setEnc_nmt (d : Dev) (c : Nat) (x : EncRt) : (d.setEnc c x).nmt = d.nmt := rfl
@[simp] theorem Dev.setEnc_emcyAt (d : Dev) (c : Nat) (x : EncRt) : (d.setEnc c x).emcyAt = d.emcyAt := rfl
@[simp] theorem Dev.setEnc_bootRegs (d : Dev) (c : Nat) (x : EncRt) : (d.setEnc c x).bootRegs = d.bootRegs := rfl
@[simp] theorem Dev.setEnc_bootDoms (d : Dev) (c : Nat) (x : EncRt) : (d.setEnc c x).bootDoms = d.bootDoms := rfl
@[simp] theorem Dev.setEnc_sources (d : Dev) (c : Nat) (x : EncRt) : (d.setEnc c x).sources = d.sources := rfl
@[simp] theorem Dev.setEnc_joinRepeats (d : Dev) (c : Nat) (x : EncRt) : (d.setEnc c x).joinRepeats = d.joinRepeats := rfl
@[simp] theorem Dev.setEnc_nmos (d : Dev) (c : Nat) (x : EncRt) : (d.setEnc c x).nmos = d.nmos := rfl
@[simp] theorem Dev.setEnc_decs (d : Dev) (c : Nat) (x : EncRt) : (d.setEnc c x).decs = d.decs := rfl
@[simp] theorem Dev.setEnc_layers (d : Dev) (c : Nat) (x : EncRt) : (d.setEnc c x).layers = d.layers := rfl
@[simp] theorem Dev.setEnc_layerComps (d : Dev) (c : Nat) (x : EncRt) : (d.setEnc c x).layerComps = d.layerComps := rfl
@[simp] theorem Dev.setEnc_outputs (d : Dev) (c : Nat) (x : EncRt) : (d.setEnc c x).outputs = d.outputs := rfl
@[simp] theorem Dev.setEnc_hist (d : Dev) (c : Nat) (x : EncRt) : (d.setEnc c x).hist = d.hist := rfl
@[simp] theorem Dev.setEnc_summary (d : Dev) (c : Nat) (x : EncRt) : (d.setEnc c x).summary = d.summary := rfl
@[simp] theorem Dev.setEnc_shelfIdle (d : Dev) (c : Nat) (x : EncRt) : (d.setEnc c x).shelfIdle = d.shelfIdle := rfl
@[simp] theorem Dev.setEnc_compId (d : Dev) (c : Nat) (x : EncRt) : (d.setEnc c x).compId = d.compId := rfl
@[simp] theorem Dev.setEnc_dps (d : Dev) (c : Nat) (x : EncRt) : (d.setEnc c x).dps = d.dps := rfl
@[simp] theorem Dev.setEnc_evts (d : Dev) (c : Nat) (x : EncRt) : (d.setEnc c x).evts = d.evts := rfl
@[simp] theorem Dev.setEnc_due (d : Dev) (c : Nat) (x : EncRt) : (d.setEnc c x).due = d.due := rfl
@[simp] theorem Dev.setEnc_launched (d : Dev) (c : Nat) (x : EncRt) : (d.setEnc c x).launched = d.launched := rfl
@[simp] theorem Dev.setEnc_pps (d : Dev) (c : Nat) (x : EncRt) : (d.setEnc c x).pps = d.pps := rfl
@[simp] theorem Dev.setEnc_time (d : Dev) (c : Nat) (x : EncRt) : (d.setEnc c x).time = d.time := rfl
@[simp] theorem Dev.setEnc_aud (d : Dev) (c : Nat) (x : EncRt) : (d.setEnc c x).aud = d.aud := rfl
@[simp] theorem Dev.setEnc_touch (d : Dev) (c : Nat) (x : EncRt) : (d.setEnc c x).touch = d.touch := rfl
@[simp] theorem Dev.setEnc_peak (d : Dev) (c : Nat) (x : EncRt) : (d.setEnc c x).peak = d.peak := rfl
@[simp] theorem Dev.setEnc_ringOcc (d : Dev) (c : Nat) (x : EncRt) : (d.setEnc c x).ringOcc = d.ringOcc := rfl
@[simp] theorem Dev.setEnc_pairFlows (d : Dev) (c : Nat) (x : EncRt) : (d.setEnc c x).pairFlows = d.pairFlows := rfl
@[simp] theorem Dev.setEnc_parts (d : Dev) (c : Nat) (x : EncRt) : (d.setEnc c x).parts = d.parts := rfl
@[simp] theorem Dev.setEnc_pcs (d : Dev) (c : Nat) (x : EncRt) : (d.setEnc c x).pcs = d.pcs := rfl
@[simp] theorem Dev.setEnc_hbms (d : Dev) (c : Nat) (x : EncRt) : (d.setEnc c x).hbms = d.hbms := rfl
@[simp] theorem Dev.setEnc_words (d : Dev) (c : Nat) (x : EncRt) : (d.setEnc c x).words = d.words := rfl
@[simp] theorem Dev.setEnc_acts (d : Dev) (c : Nat) (x : EncRt) : (d.setEnc c x).acts = d.acts := rfl
@[simp] theorem Dev.setEnc_throttles (d : Dev) (c : Nat) (x : EncRt) : (d.setEnc c x).throttles = d.throttles := rfl
@[simp] theorem Dev.setEnc_uncTold (d : Dev) (c : Nat) (x : EncRt) : (d.setEnc c x).uncTold = d.uncTold := rfl
@[simp] theorem Dev.setEnc_guardianStopped (d : Dev) (c : Nat) (x : EncRt) : (d.setEnc c x).guardianStopped = d.guardianStopped := rfl
@[simp] theorem Dev.setEnc_curStopped (d : Dev) (c : Nat) (x : EncRt) : (d.setEnc c x).curStopped = d.curStopped := rfl
@[simp] theorem Dev.setEnc_dup (d : Dev) (c : Nat) (x : EncRt) : (d.setEnc c x).dup = d.dup := rfl
@[simp] theorem Dev.setEnc_ring (d : Dev) (c : Nat) (x : EncRt) : (d.setEnc c x).ring = d.ring := rfl
@[simp] theorem Dev.setEnc_cal (d : Dev) (c : Nat) (x : EncRt) : (d.setEnc c x).cal = d.cal := rfl
@[simp] theorem Dev.setEnc_flash (d : Dev) (c : Nat) (x : EncRt) : (d.setEnc c x).flash = d.flash := rfl
@[simp] theorem Dev.setEnc_retain (d : Dev) (c : Nat) (x : EncRt) : (d.setEnc c x).retain = d.retain := rfl
@[simp] theorem Dev.setEnc_saving (d : Dev) (c : Nat) (x : EncRt) : (d.setEnc c x).saving = d.saving := rfl
@[simp] theorem Dev.setEnc_pwr (d : Dev) (c : Nat) (x : EncRt) : (d.setEnc c x).pwr = d.pwr := rfl

/-! `Dev.setEvt` changes `evts` only. -/

@[simp] theorem Dev.setEvt_now (d : Dev) (i : Nat) (x : EvtRt) : (d.setEvt i x).now = d.now := rfl
@[simp] theorem Dev.setEvt_outbox (d : Dev) (i : Nat) (x : EvtRt) : (d.setEvt i x).outbox = d.outbox := rfl
@[simp] theorem Dev.setEvt_fresh (d : Dev) (i : Nat) (x : EvtRt) : (d.setEvt i x).fresh = d.fresh := rfl
@[simp] theorem Dev.setEvt_regs (d : Dev) (i : Nat) (x : EvtRt) : (d.setEvt i x).regs = d.regs := rfl
@[simp] theorem Dev.setEvt_doms (d : Dev) (i : Nat) (x : EvtRt) : (d.setEvt i x).doms = d.doms := rfl
@[simp] theorem Dev.setEvt_wings (d : Dev) (i : Nat) (x : EvtRt) : (d.setEvt i x).wings = d.wings := rfl
@[simp] theorem Dev.setEvt_sessions (d : Dev) (i : Nat) (x : EvtRt) : (d.setEvt i x).sessions = d.sessions := rfl
@[simp] theorem Dev.setEvt_authFails (d : Dev) (i : Nat) (x : EvtRt) : (d.setEvt i x).authFails = d.authFails := rfl
@[simp] theorem Dev.setEvt_blocked (d : Dev) (i : Nat) (x : EvtRt) : (d.setEvt i x).blocked = d.blocked := rfl
@[simp] theorem Dev.setEvt_canStage (d : Dev) (i : Nat) (x : EvtRt) : (d.setEvt i x).canStage = d.canStage := rfl
@[simp] theorem Dev.setEvt_tpdos (d : Dev) (i : Nat) (x : EvtRt) : (d.setEvt i x).tpdos = d.tpdos := rfl
@[simp] theorem Dev.setEvt_syncs (d : Dev) (i : Nat) (x : EvtRt) : (d.setEvt i x).syncs = d.syncs := rfl
@[simp] theorem Dev.setEvt_segs (d : Dev) (i : Nat) (x : EvtRt) : (d.setEvt i x).segs = d.segs := rfl
@[simp] theorem Dev.setEvt_wdpDropped (d : Dev) (i : Nat) (x : EvtRt) : (d.setEvt i x).wdpDropped = d.wdpDropped := rfl
@[simp] theorem Dev.setEvt_mbxs (d : Dev) (i : Nat) (x : EvtRt) : (d.setEvt i x).mbxs = d.mbxs := rfl
@[simp] theorem Dev.setEvt_batches (d : Dev) (i : Nat) (x : EvtRt) : (d.setEvt i x).batches = d.batches := rfl
@[simp] theorem Dev.setEvt_batchOf (d : Dev) (i : Nat) (x : EvtRt) : (d.setEvt i x).batchOf = d.batchOf := rfl
@[simp] theorem Dev.setEvt_batchNum (d : Dev) (i : Nat) (x : EvtRt) : (d.setEvt i x).batchNum = d.batchNum := rfl
@[simp] theorem Dev.setEvt_mirror (d : Dev) (i : Nat) (x : EvtRt) : (d.setEvt i x).mirror = d.mirror := rfl
@[simp] theorem Dev.setEvt_longOps (d : Dev) (i : Nat) (x : EvtRt) : (d.setEvt i x).longOps = d.longOps := rfl
@[simp] theorem Dev.setEvt_queue (d : Dev) (i : Nat) (x : EvtRt) : (d.setEvt i x).queue = d.queue := rfl
@[simp] theorem Dev.setEvt_aonFault (d : Dev) (i : Nat) (x : EvtRt) : (d.setEvt i x).aonFault = d.aonFault := rfl
@[simp] theorem Dev.setEvt_nmt (d : Dev) (i : Nat) (x : EvtRt) : (d.setEvt i x).nmt = d.nmt := rfl
@[simp] theorem Dev.setEvt_emcyAt (d : Dev) (i : Nat) (x : EvtRt) : (d.setEvt i x).emcyAt = d.emcyAt := rfl
@[simp] theorem Dev.setEvt_bootRegs (d : Dev) (i : Nat) (x : EvtRt) : (d.setEvt i x).bootRegs = d.bootRegs := rfl
@[simp] theorem Dev.setEvt_bootDoms (d : Dev) (i : Nat) (x : EvtRt) : (d.setEvt i x).bootDoms = d.bootDoms := rfl
@[simp] theorem Dev.setEvt_sources (d : Dev) (i : Nat) (x : EvtRt) : (d.setEvt i x).sources = d.sources := rfl
@[simp] theorem Dev.setEvt_joinRepeats (d : Dev) (i : Nat) (x : EvtRt) : (d.setEvt i x).joinRepeats = d.joinRepeats := rfl
@[simp] theorem Dev.setEvt_nmos (d : Dev) (i : Nat) (x : EvtRt) : (d.setEvt i x).nmos = d.nmos := rfl
@[simp] theorem Dev.setEvt_decs (d : Dev) (i : Nat) (x : EvtRt) : (d.setEvt i x).decs = d.decs := rfl
@[simp] theorem Dev.setEvt_layers (d : Dev) (i : Nat) (x : EvtRt) : (d.setEvt i x).layers = d.layers := rfl
@[simp] theorem Dev.setEvt_layerComps (d : Dev) (i : Nat) (x : EvtRt) : (d.setEvt i x).layerComps = d.layerComps := rfl
@[simp] theorem Dev.setEvt_outputs (d : Dev) (i : Nat) (x : EvtRt) : (d.setEvt i x).outputs = d.outputs := rfl
@[simp] theorem Dev.setEvt_hist (d : Dev) (i : Nat) (x : EvtRt) : (d.setEvt i x).hist = d.hist := rfl
@[simp] theorem Dev.setEvt_summary (d : Dev) (i : Nat) (x : EvtRt) : (d.setEvt i x).summary = d.summary := rfl
@[simp] theorem Dev.setEvt_shelfIdle (d : Dev) (i : Nat) (x : EvtRt) : (d.setEvt i x).shelfIdle = d.shelfIdle := rfl
@[simp] theorem Dev.setEvt_compId (d : Dev) (i : Nat) (x : EvtRt) : (d.setEvt i x).compId = d.compId := rfl
@[simp] theorem Dev.setEvt_dps (d : Dev) (i : Nat) (x : EvtRt) : (d.setEvt i x).dps = d.dps := rfl
@[simp] theorem Dev.setEvt_encs (d : Dev) (i : Nat) (x : EvtRt) : (d.setEvt i x).encs = d.encs := rfl
@[simp] theorem Dev.setEvt_due (d : Dev) (i : Nat) (x : EvtRt) : (d.setEvt i x).due = d.due := rfl
@[simp] theorem Dev.setEvt_launched (d : Dev) (i : Nat) (x : EvtRt) : (d.setEvt i x).launched = d.launched := rfl
@[simp] theorem Dev.setEvt_pps (d : Dev) (i : Nat) (x : EvtRt) : (d.setEvt i x).pps = d.pps := rfl
@[simp] theorem Dev.setEvt_time (d : Dev) (i : Nat) (x : EvtRt) : (d.setEvt i x).time = d.time := rfl
@[simp] theorem Dev.setEvt_aud (d : Dev) (i : Nat) (x : EvtRt) : (d.setEvt i x).aud = d.aud := rfl
@[simp] theorem Dev.setEvt_touch (d : Dev) (i : Nat) (x : EvtRt) : (d.setEvt i x).touch = d.touch := rfl
@[simp] theorem Dev.setEvt_peak (d : Dev) (i : Nat) (x : EvtRt) : (d.setEvt i x).peak = d.peak := rfl
@[simp] theorem Dev.setEvt_ringOcc (d : Dev) (i : Nat) (x : EvtRt) : (d.setEvt i x).ringOcc = d.ringOcc := rfl
@[simp] theorem Dev.setEvt_pairFlows (d : Dev) (i : Nat) (x : EvtRt) : (d.setEvt i x).pairFlows = d.pairFlows := rfl
@[simp] theorem Dev.setEvt_parts (d : Dev) (i : Nat) (x : EvtRt) : (d.setEvt i x).parts = d.parts := rfl
@[simp] theorem Dev.setEvt_pcs (d : Dev) (i : Nat) (x : EvtRt) : (d.setEvt i x).pcs = d.pcs := rfl
@[simp] theorem Dev.setEvt_hbms (d : Dev) (i : Nat) (x : EvtRt) : (d.setEvt i x).hbms = d.hbms := rfl
@[simp] theorem Dev.setEvt_words (d : Dev) (i : Nat) (x : EvtRt) : (d.setEvt i x).words = d.words := rfl
@[simp] theorem Dev.setEvt_acts (d : Dev) (i : Nat) (x : EvtRt) : (d.setEvt i x).acts = d.acts := rfl
@[simp] theorem Dev.setEvt_throttles (d : Dev) (i : Nat) (x : EvtRt) : (d.setEvt i x).throttles = d.throttles := rfl
@[simp] theorem Dev.setEvt_uncTold (d : Dev) (i : Nat) (x : EvtRt) : (d.setEvt i x).uncTold = d.uncTold := rfl
@[simp] theorem Dev.setEvt_guardianStopped (d : Dev) (i : Nat) (x : EvtRt) : (d.setEvt i x).guardianStopped = d.guardianStopped := rfl
@[simp] theorem Dev.setEvt_curStopped (d : Dev) (i : Nat) (x : EvtRt) : (d.setEvt i x).curStopped = d.curStopped := rfl
@[simp] theorem Dev.setEvt_dup (d : Dev) (i : Nat) (x : EvtRt) : (d.setEvt i x).dup = d.dup := rfl
@[simp] theorem Dev.setEvt_ring (d : Dev) (i : Nat) (x : EvtRt) : (d.setEvt i x).ring = d.ring := rfl
@[simp] theorem Dev.setEvt_cal (d : Dev) (i : Nat) (x : EvtRt) : (d.setEvt i x).cal = d.cal := rfl
@[simp] theorem Dev.setEvt_flash (d : Dev) (i : Nat) (x : EvtRt) : (d.setEvt i x).flash = d.flash := rfl
@[simp] theorem Dev.setEvt_retain (d : Dev) (i : Nat) (x : EvtRt) : (d.setEvt i x).retain = d.retain := rfl
@[simp] theorem Dev.setEvt_saving (d : Dev) (i : Nat) (x : EvtRt) : (d.setEvt i x).saving = d.saving := rfl
@[simp] theorem Dev.setEvt_pwr (d : Dev) (i : Nat) (x : EvtRt) : (d.setEvt i x).pwr = d.pwr := rfl

/-! `Dev.setDue` changes `due` only. -/

@[simp] theorem Dev.setDue_now (d : Dev) (e t : Nat) : (d.setDue e t).now = d.now := rfl
@[simp] theorem Dev.setDue_outbox (d : Dev) (e t : Nat) : (d.setDue e t).outbox = d.outbox := rfl
@[simp] theorem Dev.setDue_fresh (d : Dev) (e t : Nat) : (d.setDue e t).fresh = d.fresh := rfl
@[simp] theorem Dev.setDue_regs (d : Dev) (e t : Nat) : (d.setDue e t).regs = d.regs := rfl
@[simp] theorem Dev.setDue_doms (d : Dev) (e t : Nat) : (d.setDue e t).doms = d.doms := rfl
@[simp] theorem Dev.setDue_wings (d : Dev) (e t : Nat) : (d.setDue e t).wings = d.wings := rfl
@[simp] theorem Dev.setDue_sessions (d : Dev) (e t : Nat) : (d.setDue e t).sessions = d.sessions := rfl
@[simp] theorem Dev.setDue_authFails (d : Dev) (e t : Nat) : (d.setDue e t).authFails = d.authFails := rfl
@[simp] theorem Dev.setDue_blocked (d : Dev) (e t : Nat) : (d.setDue e t).blocked = d.blocked := rfl
@[simp] theorem Dev.setDue_canStage (d : Dev) (e t : Nat) : (d.setDue e t).canStage = d.canStage := rfl
@[simp] theorem Dev.setDue_tpdos (d : Dev) (e t : Nat) : (d.setDue e t).tpdos = d.tpdos := rfl
@[simp] theorem Dev.setDue_syncs (d : Dev) (e t : Nat) : (d.setDue e t).syncs = d.syncs := rfl
@[simp] theorem Dev.setDue_segs (d : Dev) (e t : Nat) : (d.setDue e t).segs = d.segs := rfl
@[simp] theorem Dev.setDue_wdpDropped (d : Dev) (e t : Nat) : (d.setDue e t).wdpDropped = d.wdpDropped := rfl
@[simp] theorem Dev.setDue_mbxs (d : Dev) (e t : Nat) : (d.setDue e t).mbxs = d.mbxs := rfl
@[simp] theorem Dev.setDue_batches (d : Dev) (e t : Nat) : (d.setDue e t).batches = d.batches := rfl
@[simp] theorem Dev.setDue_batchOf (d : Dev) (e t : Nat) : (d.setDue e t).batchOf = d.batchOf := rfl
@[simp] theorem Dev.setDue_batchNum (d : Dev) (e t : Nat) : (d.setDue e t).batchNum = d.batchNum := rfl
@[simp] theorem Dev.setDue_mirror (d : Dev) (e t : Nat) : (d.setDue e t).mirror = d.mirror := rfl
@[simp] theorem Dev.setDue_longOps (d : Dev) (e t : Nat) : (d.setDue e t).longOps = d.longOps := rfl
@[simp] theorem Dev.setDue_queue (d : Dev) (e t : Nat) : (d.setDue e t).queue = d.queue := rfl
@[simp] theorem Dev.setDue_aonFault (d : Dev) (e t : Nat) : (d.setDue e t).aonFault = d.aonFault := rfl
@[simp] theorem Dev.setDue_nmt (d : Dev) (e t : Nat) : (d.setDue e t).nmt = d.nmt := rfl
@[simp] theorem Dev.setDue_emcyAt (d : Dev) (e t : Nat) : (d.setDue e t).emcyAt = d.emcyAt := rfl
@[simp] theorem Dev.setDue_bootRegs (d : Dev) (e t : Nat) : (d.setDue e t).bootRegs = d.bootRegs := rfl
@[simp] theorem Dev.setDue_bootDoms (d : Dev) (e t : Nat) : (d.setDue e t).bootDoms = d.bootDoms := rfl
@[simp] theorem Dev.setDue_sources (d : Dev) (e t : Nat) : (d.setDue e t).sources = d.sources := rfl
@[simp] theorem Dev.setDue_joinRepeats (d : Dev) (e t : Nat) : (d.setDue e t).joinRepeats = d.joinRepeats := rfl
@[simp] theorem Dev.setDue_nmos (d : Dev) (e t : Nat) : (d.setDue e t).nmos = d.nmos := rfl
@[simp] theorem Dev.setDue_decs (d : Dev) (e t : Nat) : (d.setDue e t).decs = d.decs := rfl
@[simp] theorem Dev.setDue_layers (d : Dev) (e t : Nat) : (d.setDue e t).layers = d.layers := rfl
@[simp] theorem Dev.setDue_layerComps (d : Dev) (e t : Nat) : (d.setDue e t).layerComps = d.layerComps := rfl
@[simp] theorem Dev.setDue_outputs (d : Dev) (e t : Nat) : (d.setDue e t).outputs = d.outputs := rfl
@[simp] theorem Dev.setDue_hist (d : Dev) (e t : Nat) : (d.setDue e t).hist = d.hist := rfl
@[simp] theorem Dev.setDue_summary (d : Dev) (e t : Nat) : (d.setDue e t).summary = d.summary := rfl
@[simp] theorem Dev.setDue_shelfIdle (d : Dev) (e t : Nat) : (d.setDue e t).shelfIdle = d.shelfIdle := rfl
@[simp] theorem Dev.setDue_compId (d : Dev) (e t : Nat) : (d.setDue e t).compId = d.compId := rfl
@[simp] theorem Dev.setDue_dps (d : Dev) (e t : Nat) : (d.setDue e t).dps = d.dps := rfl
@[simp] theorem Dev.setDue_encs (d : Dev) (e t : Nat) : (d.setDue e t).encs = d.encs := rfl
@[simp] theorem Dev.setDue_evts (d : Dev) (e t : Nat) : (d.setDue e t).evts = d.evts := rfl
@[simp] theorem Dev.setDue_launched (d : Dev) (e t : Nat) : (d.setDue e t).launched = d.launched := rfl
@[simp] theorem Dev.setDue_pps (d : Dev) (e t : Nat) : (d.setDue e t).pps = d.pps := rfl
@[simp] theorem Dev.setDue_time (d : Dev) (e t : Nat) : (d.setDue e t).time = d.time := rfl
@[simp] theorem Dev.setDue_aud (d : Dev) (e t : Nat) : (d.setDue e t).aud = d.aud := rfl
@[simp] theorem Dev.setDue_touch (d : Dev) (e t : Nat) : (d.setDue e t).touch = d.touch := rfl
@[simp] theorem Dev.setDue_peak (d : Dev) (e t : Nat) : (d.setDue e t).peak = d.peak := rfl
@[simp] theorem Dev.setDue_ringOcc (d : Dev) (e t : Nat) : (d.setDue e t).ringOcc = d.ringOcc := rfl
@[simp] theorem Dev.setDue_pairFlows (d : Dev) (e t : Nat) : (d.setDue e t).pairFlows = d.pairFlows := rfl
@[simp] theorem Dev.setDue_parts (d : Dev) (e t : Nat) : (d.setDue e t).parts = d.parts := rfl
@[simp] theorem Dev.setDue_pcs (d : Dev) (e t : Nat) : (d.setDue e t).pcs = d.pcs := rfl
@[simp] theorem Dev.setDue_hbms (d : Dev) (e t : Nat) : (d.setDue e t).hbms = d.hbms := rfl
@[simp] theorem Dev.setDue_words (d : Dev) (e t : Nat) : (d.setDue e t).words = d.words := rfl
@[simp] theorem Dev.setDue_acts (d : Dev) (e t : Nat) : (d.setDue e t).acts = d.acts := rfl
@[simp] theorem Dev.setDue_throttles (d : Dev) (e t : Nat) : (d.setDue e t).throttles = d.throttles := rfl
@[simp] theorem Dev.setDue_uncTold (d : Dev) (e t : Nat) : (d.setDue e t).uncTold = d.uncTold := rfl
@[simp] theorem Dev.setDue_guardianStopped (d : Dev) (e t : Nat) : (d.setDue e t).guardianStopped = d.guardianStopped := rfl
@[simp] theorem Dev.setDue_curStopped (d : Dev) (e t : Nat) : (d.setDue e t).curStopped = d.curStopped := rfl
@[simp] theorem Dev.setDue_dup (d : Dev) (e t : Nat) : (d.setDue e t).dup = d.dup := rfl
@[simp] theorem Dev.setDue_ring (d : Dev) (e t : Nat) : (d.setDue e t).ring = d.ring := rfl
@[simp] theorem Dev.setDue_cal (d : Dev) (e t : Nat) : (d.setDue e t).cal = d.cal := rfl
@[simp] theorem Dev.setDue_flash (d : Dev) (e t : Nat) : (d.setDue e t).flash = d.flash := rfl
@[simp] theorem Dev.setDue_retain (d : Dev) (e t : Nat) : (d.setDue e t).retain = d.retain := rfl
@[simp] theorem Dev.setDue_saving (d : Dev) (e t : Nat) : (d.setDue e t).saving = d.saving := rfl
@[simp] theorem Dev.setDue_pwr (d : Dev) (e t : Nat) : (d.setDue e t).pwr = d.pwr := rfl

/-! `Dev.setPart` changes `parts` only. -/

@[simp] theorem Dev.setPart_now (d : Dev) (p : Nat) (x : PartRt) : (d.setPart p x).now = d.now := rfl
@[simp] theorem Dev.setPart_outbox (d : Dev) (p : Nat) (x : PartRt) : (d.setPart p x).outbox = d.outbox := rfl
@[simp] theorem Dev.setPart_fresh (d : Dev) (p : Nat) (x : PartRt) : (d.setPart p x).fresh = d.fresh := rfl
@[simp] theorem Dev.setPart_regs (d : Dev) (p : Nat) (x : PartRt) : (d.setPart p x).regs = d.regs := rfl
@[simp] theorem Dev.setPart_doms (d : Dev) (p : Nat) (x : PartRt) : (d.setPart p x).doms = d.doms := rfl
@[simp] theorem Dev.setPart_wings (d : Dev) (p : Nat) (x : PartRt) : (d.setPart p x).wings = d.wings := rfl
@[simp] theorem Dev.setPart_sessions (d : Dev) (p : Nat) (x : PartRt) : (d.setPart p x).sessions = d.sessions := rfl
@[simp] theorem Dev.setPart_authFails (d : Dev) (p : Nat) (x : PartRt) : (d.setPart p x).authFails = d.authFails := rfl
@[simp] theorem Dev.setPart_blocked (d : Dev) (p : Nat) (x : PartRt) : (d.setPart p x).blocked = d.blocked := rfl
@[simp] theorem Dev.setPart_canStage (d : Dev) (p : Nat) (x : PartRt) : (d.setPart p x).canStage = d.canStage := rfl
@[simp] theorem Dev.setPart_tpdos (d : Dev) (p : Nat) (x : PartRt) : (d.setPart p x).tpdos = d.tpdos := rfl
@[simp] theorem Dev.setPart_syncs (d : Dev) (p : Nat) (x : PartRt) : (d.setPart p x).syncs = d.syncs := rfl
@[simp] theorem Dev.setPart_segs (d : Dev) (p : Nat) (x : PartRt) : (d.setPart p x).segs = d.segs := rfl
@[simp] theorem Dev.setPart_wdpDropped (d : Dev) (p : Nat) (x : PartRt) : (d.setPart p x).wdpDropped = d.wdpDropped := rfl
@[simp] theorem Dev.setPart_mbxs (d : Dev) (p : Nat) (x : PartRt) : (d.setPart p x).mbxs = d.mbxs := rfl
@[simp] theorem Dev.setPart_batches (d : Dev) (p : Nat) (x : PartRt) : (d.setPart p x).batches = d.batches := rfl
@[simp] theorem Dev.setPart_batchOf (d : Dev) (p : Nat) (x : PartRt) : (d.setPart p x).batchOf = d.batchOf := rfl
@[simp] theorem Dev.setPart_batchNum (d : Dev) (p : Nat) (x : PartRt) : (d.setPart p x).batchNum = d.batchNum := rfl
@[simp] theorem Dev.setPart_mirror (d : Dev) (p : Nat) (x : PartRt) : (d.setPart p x).mirror = d.mirror := rfl
@[simp] theorem Dev.setPart_longOps (d : Dev) (p : Nat) (x : PartRt) : (d.setPart p x).longOps = d.longOps := rfl
@[simp] theorem Dev.setPart_queue (d : Dev) (p : Nat) (x : PartRt) : (d.setPart p x).queue = d.queue := rfl
@[simp] theorem Dev.setPart_aonFault (d : Dev) (p : Nat) (x : PartRt) : (d.setPart p x).aonFault = d.aonFault := rfl
@[simp] theorem Dev.setPart_nmt (d : Dev) (p : Nat) (x : PartRt) : (d.setPart p x).nmt = d.nmt := rfl
@[simp] theorem Dev.setPart_emcyAt (d : Dev) (p : Nat) (x : PartRt) : (d.setPart p x).emcyAt = d.emcyAt := rfl
@[simp] theorem Dev.setPart_bootRegs (d : Dev) (p : Nat) (x : PartRt) : (d.setPart p x).bootRegs = d.bootRegs := rfl
@[simp] theorem Dev.setPart_bootDoms (d : Dev) (p : Nat) (x : PartRt) : (d.setPart p x).bootDoms = d.bootDoms := rfl
@[simp] theorem Dev.setPart_sources (d : Dev) (p : Nat) (x : PartRt) : (d.setPart p x).sources = d.sources := rfl
@[simp] theorem Dev.setPart_joinRepeats (d : Dev) (p : Nat) (x : PartRt) : (d.setPart p x).joinRepeats = d.joinRepeats := rfl
@[simp] theorem Dev.setPart_nmos (d : Dev) (p : Nat) (x : PartRt) : (d.setPart p x).nmos = d.nmos := rfl
@[simp] theorem Dev.setPart_decs (d : Dev) (p : Nat) (x : PartRt) : (d.setPart p x).decs = d.decs := rfl
@[simp] theorem Dev.setPart_layers (d : Dev) (p : Nat) (x : PartRt) : (d.setPart p x).layers = d.layers := rfl
@[simp] theorem Dev.setPart_layerComps (d : Dev) (p : Nat) (x : PartRt) : (d.setPart p x).layerComps = d.layerComps := rfl
@[simp] theorem Dev.setPart_outputs (d : Dev) (p : Nat) (x : PartRt) : (d.setPart p x).outputs = d.outputs := rfl
@[simp] theorem Dev.setPart_hist (d : Dev) (p : Nat) (x : PartRt) : (d.setPart p x).hist = d.hist := rfl
@[simp] theorem Dev.setPart_summary (d : Dev) (p : Nat) (x : PartRt) : (d.setPart p x).summary = d.summary := rfl
@[simp] theorem Dev.setPart_shelfIdle (d : Dev) (p : Nat) (x : PartRt) : (d.setPart p x).shelfIdle = d.shelfIdle := rfl
@[simp] theorem Dev.setPart_compId (d : Dev) (p : Nat) (x : PartRt) : (d.setPart p x).compId = d.compId := rfl
@[simp] theorem Dev.setPart_dps (d : Dev) (p : Nat) (x : PartRt) : (d.setPart p x).dps = d.dps := rfl
@[simp] theorem Dev.setPart_encs (d : Dev) (p : Nat) (x : PartRt) : (d.setPart p x).encs = d.encs := rfl
@[simp] theorem Dev.setPart_evts (d : Dev) (p : Nat) (x : PartRt) : (d.setPart p x).evts = d.evts := rfl
@[simp] theorem Dev.setPart_due (d : Dev) (p : Nat) (x : PartRt) : (d.setPart p x).due = d.due := rfl
@[simp] theorem Dev.setPart_launched (d : Dev) (p : Nat) (x : PartRt) : (d.setPart p x).launched = d.launched := rfl
@[simp] theorem Dev.setPart_pps (d : Dev) (p : Nat) (x : PartRt) : (d.setPart p x).pps = d.pps := rfl
@[simp] theorem Dev.setPart_time (d : Dev) (p : Nat) (x : PartRt) : (d.setPart p x).time = d.time := rfl
@[simp] theorem Dev.setPart_aud (d : Dev) (p : Nat) (x : PartRt) : (d.setPart p x).aud = d.aud := rfl
@[simp] theorem Dev.setPart_touch (d : Dev) (p : Nat) (x : PartRt) : (d.setPart p x).touch = d.touch := rfl
@[simp] theorem Dev.setPart_peak (d : Dev) (p : Nat) (x : PartRt) : (d.setPart p x).peak = d.peak := rfl
@[simp] theorem Dev.setPart_ringOcc (d : Dev) (p : Nat) (x : PartRt) : (d.setPart p x).ringOcc = d.ringOcc := rfl
@[simp] theorem Dev.setPart_pairFlows (d : Dev) (p : Nat) (x : PartRt) : (d.setPart p x).pairFlows = d.pairFlows := rfl
@[simp] theorem Dev.setPart_pcs (d : Dev) (p : Nat) (x : PartRt) : (d.setPart p x).pcs = d.pcs := rfl
@[simp] theorem Dev.setPart_hbms (d : Dev) (p : Nat) (x : PartRt) : (d.setPart p x).hbms = d.hbms := rfl
@[simp] theorem Dev.setPart_words (d : Dev) (p : Nat) (x : PartRt) : (d.setPart p x).words = d.words := rfl
@[simp] theorem Dev.setPart_acts (d : Dev) (p : Nat) (x : PartRt) : (d.setPart p x).acts = d.acts := rfl
@[simp] theorem Dev.setPart_throttles (d : Dev) (p : Nat) (x : PartRt) : (d.setPart p x).throttles = d.throttles := rfl
@[simp] theorem Dev.setPart_uncTold (d : Dev) (p : Nat) (x : PartRt) : (d.setPart p x).uncTold = d.uncTold := rfl
@[simp] theorem Dev.setPart_guardianStopped (d : Dev) (p : Nat) (x : PartRt) : (d.setPart p x).guardianStopped = d.guardianStopped := rfl
@[simp] theorem Dev.setPart_curStopped (d : Dev) (p : Nat) (x : PartRt) : (d.setPart p x).curStopped = d.curStopped := rfl
@[simp] theorem Dev.setPart_dup (d : Dev) (p : Nat) (x : PartRt) : (d.setPart p x).dup = d.dup := rfl
@[simp] theorem Dev.setPart_ring (d : Dev) (p : Nat) (x : PartRt) : (d.setPart p x).ring = d.ring := rfl
@[simp] theorem Dev.setPart_cal (d : Dev) (p : Nat) (x : PartRt) : (d.setPart p x).cal = d.cal := rfl
@[simp] theorem Dev.setPart_flash (d : Dev) (p : Nat) (x : PartRt) : (d.setPart p x).flash = d.flash := rfl
@[simp] theorem Dev.setPart_retain (d : Dev) (p : Nat) (x : PartRt) : (d.setPart p x).retain = d.retain := rfl
@[simp] theorem Dev.setPart_saving (d : Dev) (p : Nat) (x : PartRt) : (d.setPart p x).saving = d.saving := rfl
@[simp] theorem Dev.setPart_pwr (d : Dev) (p : Nat) (x : PartRt) : (d.setPart p x).pwr = d.pwr := rfl

/-! `Dev.setPcRt` changes `pcs` only. -/

@[simp] theorem Dev.setPcRt_now (d : Dev) (p : Nat) (x : PcRt) : (d.setPcRt p x).now = d.now := rfl
@[simp] theorem Dev.setPcRt_outbox (d : Dev) (p : Nat) (x : PcRt) : (d.setPcRt p x).outbox = d.outbox := rfl
@[simp] theorem Dev.setPcRt_fresh (d : Dev) (p : Nat) (x : PcRt) : (d.setPcRt p x).fresh = d.fresh := rfl
@[simp] theorem Dev.setPcRt_regs (d : Dev) (p : Nat) (x : PcRt) : (d.setPcRt p x).regs = d.regs := rfl
@[simp] theorem Dev.setPcRt_doms (d : Dev) (p : Nat) (x : PcRt) : (d.setPcRt p x).doms = d.doms := rfl
@[simp] theorem Dev.setPcRt_wings (d : Dev) (p : Nat) (x : PcRt) : (d.setPcRt p x).wings = d.wings := rfl
@[simp] theorem Dev.setPcRt_sessions (d : Dev) (p : Nat) (x : PcRt) : (d.setPcRt p x).sessions = d.sessions := rfl
@[simp] theorem Dev.setPcRt_authFails (d : Dev) (p : Nat) (x : PcRt) : (d.setPcRt p x).authFails = d.authFails := rfl
@[simp] theorem Dev.setPcRt_blocked (d : Dev) (p : Nat) (x : PcRt) : (d.setPcRt p x).blocked = d.blocked := rfl
@[simp] theorem Dev.setPcRt_canStage (d : Dev) (p : Nat) (x : PcRt) : (d.setPcRt p x).canStage = d.canStage := rfl
@[simp] theorem Dev.setPcRt_tpdos (d : Dev) (p : Nat) (x : PcRt) : (d.setPcRt p x).tpdos = d.tpdos := rfl
@[simp] theorem Dev.setPcRt_syncs (d : Dev) (p : Nat) (x : PcRt) : (d.setPcRt p x).syncs = d.syncs := rfl
@[simp] theorem Dev.setPcRt_segs (d : Dev) (p : Nat) (x : PcRt) : (d.setPcRt p x).segs = d.segs := rfl
@[simp] theorem Dev.setPcRt_wdpDropped (d : Dev) (p : Nat) (x : PcRt) : (d.setPcRt p x).wdpDropped = d.wdpDropped := rfl
@[simp] theorem Dev.setPcRt_mbxs (d : Dev) (p : Nat) (x : PcRt) : (d.setPcRt p x).mbxs = d.mbxs := rfl
@[simp] theorem Dev.setPcRt_batches (d : Dev) (p : Nat) (x : PcRt) : (d.setPcRt p x).batches = d.batches := rfl
@[simp] theorem Dev.setPcRt_batchOf (d : Dev) (p : Nat) (x : PcRt) : (d.setPcRt p x).batchOf = d.batchOf := rfl
@[simp] theorem Dev.setPcRt_batchNum (d : Dev) (p : Nat) (x : PcRt) : (d.setPcRt p x).batchNum = d.batchNum := rfl
@[simp] theorem Dev.setPcRt_mirror (d : Dev) (p : Nat) (x : PcRt) : (d.setPcRt p x).mirror = d.mirror := rfl
@[simp] theorem Dev.setPcRt_longOps (d : Dev) (p : Nat) (x : PcRt) : (d.setPcRt p x).longOps = d.longOps := rfl
@[simp] theorem Dev.setPcRt_queue (d : Dev) (p : Nat) (x : PcRt) : (d.setPcRt p x).queue = d.queue := rfl
@[simp] theorem Dev.setPcRt_aonFault (d : Dev) (p : Nat) (x : PcRt) : (d.setPcRt p x).aonFault = d.aonFault := rfl
@[simp] theorem Dev.setPcRt_nmt (d : Dev) (p : Nat) (x : PcRt) : (d.setPcRt p x).nmt = d.nmt := rfl
@[simp] theorem Dev.setPcRt_emcyAt (d : Dev) (p : Nat) (x : PcRt) : (d.setPcRt p x).emcyAt = d.emcyAt := rfl
@[simp] theorem Dev.setPcRt_bootRegs (d : Dev) (p : Nat) (x : PcRt) : (d.setPcRt p x).bootRegs = d.bootRegs := rfl
@[simp] theorem Dev.setPcRt_bootDoms (d : Dev) (p : Nat) (x : PcRt) : (d.setPcRt p x).bootDoms = d.bootDoms := rfl
@[simp] theorem Dev.setPcRt_sources (d : Dev) (p : Nat) (x : PcRt) : (d.setPcRt p x).sources = d.sources := rfl
@[simp] theorem Dev.setPcRt_joinRepeats (d : Dev) (p : Nat) (x : PcRt) : (d.setPcRt p x).joinRepeats = d.joinRepeats := rfl
@[simp] theorem Dev.setPcRt_nmos (d : Dev) (p : Nat) (x : PcRt) : (d.setPcRt p x).nmos = d.nmos := rfl
@[simp] theorem Dev.setPcRt_decs (d : Dev) (p : Nat) (x : PcRt) : (d.setPcRt p x).decs = d.decs := rfl
@[simp] theorem Dev.setPcRt_layers (d : Dev) (p : Nat) (x : PcRt) : (d.setPcRt p x).layers = d.layers := rfl
@[simp] theorem Dev.setPcRt_layerComps (d : Dev) (p : Nat) (x : PcRt) : (d.setPcRt p x).layerComps = d.layerComps := rfl
@[simp] theorem Dev.setPcRt_outputs (d : Dev) (p : Nat) (x : PcRt) : (d.setPcRt p x).outputs = d.outputs := rfl
@[simp] theorem Dev.setPcRt_hist (d : Dev) (p : Nat) (x : PcRt) : (d.setPcRt p x).hist = d.hist := rfl
@[simp] theorem Dev.setPcRt_summary (d : Dev) (p : Nat) (x : PcRt) : (d.setPcRt p x).summary = d.summary := rfl
@[simp] theorem Dev.setPcRt_shelfIdle (d : Dev) (p : Nat) (x : PcRt) : (d.setPcRt p x).shelfIdle = d.shelfIdle := rfl
@[simp] theorem Dev.setPcRt_compId (d : Dev) (p : Nat) (x : PcRt) : (d.setPcRt p x).compId = d.compId := rfl
@[simp] theorem Dev.setPcRt_dps (d : Dev) (p : Nat) (x : PcRt) : (d.setPcRt p x).dps = d.dps := rfl
@[simp] theorem Dev.setPcRt_encs (d : Dev) (p : Nat) (x : PcRt) : (d.setPcRt p x).encs = d.encs := rfl
@[simp] theorem Dev.setPcRt_evts (d : Dev) (p : Nat) (x : PcRt) : (d.setPcRt p x).evts = d.evts := rfl
@[simp] theorem Dev.setPcRt_due (d : Dev) (p : Nat) (x : PcRt) : (d.setPcRt p x).due = d.due := rfl
@[simp] theorem Dev.setPcRt_launched (d : Dev) (p : Nat) (x : PcRt) : (d.setPcRt p x).launched = d.launched := rfl
@[simp] theorem Dev.setPcRt_pps (d : Dev) (p : Nat) (x : PcRt) : (d.setPcRt p x).pps = d.pps := rfl
@[simp] theorem Dev.setPcRt_time (d : Dev) (p : Nat) (x : PcRt) : (d.setPcRt p x).time = d.time := rfl
@[simp] theorem Dev.setPcRt_aud (d : Dev) (p : Nat) (x : PcRt) : (d.setPcRt p x).aud = d.aud := rfl
@[simp] theorem Dev.setPcRt_touch (d : Dev) (p : Nat) (x : PcRt) : (d.setPcRt p x).touch = d.touch := rfl
@[simp] theorem Dev.setPcRt_peak (d : Dev) (p : Nat) (x : PcRt) : (d.setPcRt p x).peak = d.peak := rfl
@[simp] theorem Dev.setPcRt_ringOcc (d : Dev) (p : Nat) (x : PcRt) : (d.setPcRt p x).ringOcc = d.ringOcc := rfl
@[simp] theorem Dev.setPcRt_pairFlows (d : Dev) (p : Nat) (x : PcRt) : (d.setPcRt p x).pairFlows = d.pairFlows := rfl
@[simp] theorem Dev.setPcRt_parts (d : Dev) (p : Nat) (x : PcRt) : (d.setPcRt p x).parts = d.parts := rfl
@[simp] theorem Dev.setPcRt_hbms (d : Dev) (p : Nat) (x : PcRt) : (d.setPcRt p x).hbms = d.hbms := rfl
@[simp] theorem Dev.setPcRt_words (d : Dev) (p : Nat) (x : PcRt) : (d.setPcRt p x).words = d.words := rfl
@[simp] theorem Dev.setPcRt_acts (d : Dev) (p : Nat) (x : PcRt) : (d.setPcRt p x).acts = d.acts := rfl
@[simp] theorem Dev.setPcRt_throttles (d : Dev) (p : Nat) (x : PcRt) : (d.setPcRt p x).throttles = d.throttles := rfl
@[simp] theorem Dev.setPcRt_uncTold (d : Dev) (p : Nat) (x : PcRt) : (d.setPcRt p x).uncTold = d.uncTold := rfl
@[simp] theorem Dev.setPcRt_guardianStopped (d : Dev) (p : Nat) (x : PcRt) : (d.setPcRt p x).guardianStopped = d.guardianStopped := rfl
@[simp] theorem Dev.setPcRt_curStopped (d : Dev) (p : Nat) (x : PcRt) : (d.setPcRt p x).curStopped = d.curStopped := rfl
@[simp] theorem Dev.setPcRt_dup (d : Dev) (p : Nat) (x : PcRt) : (d.setPcRt p x).dup = d.dup := rfl
@[simp] theorem Dev.setPcRt_ring (d : Dev) (p : Nat) (x : PcRt) : (d.setPcRt p x).ring = d.ring := rfl
@[simp] theorem Dev.setPcRt_cal (d : Dev) (p : Nat) (x : PcRt) : (d.setPcRt p x).cal = d.cal := rfl
@[simp] theorem Dev.setPcRt_flash (d : Dev) (p : Nat) (x : PcRt) : (d.setPcRt p x).flash = d.flash := rfl
@[simp] theorem Dev.setPcRt_retain (d : Dev) (p : Nat) (x : PcRt) : (d.setPcRt p x).retain = d.retain := rfl
@[simp] theorem Dev.setPcRt_saving (d : Dev) (p : Nat) (x : PcRt) : (d.setPcRt p x).saving = d.saving := rfl
@[simp] theorem Dev.setPcRt_pwr (d : Dev) (p : Nat) (x : PcRt) : (d.setPcRt p x).pwr = d.pwr := rfl

/-! `Dev.setWord` changes `words` only. -/

@[simp] theorem Dev.setWord_now (d : Dev) (w v : Nat) : (d.setWord w v).now = d.now := rfl
@[simp] theorem Dev.setWord_outbox (d : Dev) (w v : Nat) : (d.setWord w v).outbox = d.outbox := rfl
@[simp] theorem Dev.setWord_fresh (d : Dev) (w v : Nat) : (d.setWord w v).fresh = d.fresh := rfl
@[simp] theorem Dev.setWord_regs (d : Dev) (w v : Nat) : (d.setWord w v).regs = d.regs := rfl
@[simp] theorem Dev.setWord_doms (d : Dev) (w v : Nat) : (d.setWord w v).doms = d.doms := rfl
@[simp] theorem Dev.setWord_wings (d : Dev) (w v : Nat) : (d.setWord w v).wings = d.wings := rfl
@[simp] theorem Dev.setWord_sessions (d : Dev) (w v : Nat) : (d.setWord w v).sessions = d.sessions := rfl
@[simp] theorem Dev.setWord_authFails (d : Dev) (w v : Nat) : (d.setWord w v).authFails = d.authFails := rfl
@[simp] theorem Dev.setWord_blocked (d : Dev) (w v : Nat) : (d.setWord w v).blocked = d.blocked := rfl
@[simp] theorem Dev.setWord_canStage (d : Dev) (w v : Nat) : (d.setWord w v).canStage = d.canStage := rfl
@[simp] theorem Dev.setWord_tpdos (d : Dev) (w v : Nat) : (d.setWord w v).tpdos = d.tpdos := rfl
@[simp] theorem Dev.setWord_syncs (d : Dev) (w v : Nat) : (d.setWord w v).syncs = d.syncs := rfl
@[simp] theorem Dev.setWord_segs (d : Dev) (w v : Nat) : (d.setWord w v).segs = d.segs := rfl
@[simp] theorem Dev.setWord_wdpDropped (d : Dev) (w v : Nat) : (d.setWord w v).wdpDropped = d.wdpDropped := rfl
@[simp] theorem Dev.setWord_mbxs (d : Dev) (w v : Nat) : (d.setWord w v).mbxs = d.mbxs := rfl
@[simp] theorem Dev.setWord_batches (d : Dev) (w v : Nat) : (d.setWord w v).batches = d.batches := rfl
@[simp] theorem Dev.setWord_batchOf (d : Dev) (w v : Nat) : (d.setWord w v).batchOf = d.batchOf := rfl
@[simp] theorem Dev.setWord_batchNum (d : Dev) (w v : Nat) : (d.setWord w v).batchNum = d.batchNum := rfl
@[simp] theorem Dev.setWord_mirror (d : Dev) (w v : Nat) : (d.setWord w v).mirror = d.mirror := rfl
@[simp] theorem Dev.setWord_longOps (d : Dev) (w v : Nat) : (d.setWord w v).longOps = d.longOps := rfl
@[simp] theorem Dev.setWord_queue (d : Dev) (w v : Nat) : (d.setWord w v).queue = d.queue := rfl
@[simp] theorem Dev.setWord_aonFault (d : Dev) (w v : Nat) : (d.setWord w v).aonFault = d.aonFault := rfl
@[simp] theorem Dev.setWord_nmt (d : Dev) (w v : Nat) : (d.setWord w v).nmt = d.nmt := rfl
@[simp] theorem Dev.setWord_emcyAt (d : Dev) (w v : Nat) : (d.setWord w v).emcyAt = d.emcyAt := rfl
@[simp] theorem Dev.setWord_bootRegs (d : Dev) (w v : Nat) : (d.setWord w v).bootRegs = d.bootRegs := rfl
@[simp] theorem Dev.setWord_bootDoms (d : Dev) (w v : Nat) : (d.setWord w v).bootDoms = d.bootDoms := rfl
@[simp] theorem Dev.setWord_sources (d : Dev) (w v : Nat) : (d.setWord w v).sources = d.sources := rfl
@[simp] theorem Dev.setWord_joinRepeats (d : Dev) (w v : Nat) : (d.setWord w v).joinRepeats = d.joinRepeats := rfl
@[simp] theorem Dev.setWord_nmos (d : Dev) (w v : Nat) : (d.setWord w v).nmos = d.nmos := rfl
@[simp] theorem Dev.setWord_decs (d : Dev) (w v : Nat) : (d.setWord w v).decs = d.decs := rfl
@[simp] theorem Dev.setWord_layers (d : Dev) (w v : Nat) : (d.setWord w v).layers = d.layers := rfl
@[simp] theorem Dev.setWord_layerComps (d : Dev) (w v : Nat) : (d.setWord w v).layerComps = d.layerComps := rfl
@[simp] theorem Dev.setWord_outputs (d : Dev) (w v : Nat) : (d.setWord w v).outputs = d.outputs := rfl
@[simp] theorem Dev.setWord_hist (d : Dev) (w v : Nat) : (d.setWord w v).hist = d.hist := rfl
@[simp] theorem Dev.setWord_summary (d : Dev) (w v : Nat) : (d.setWord w v).summary = d.summary := rfl
@[simp] theorem Dev.setWord_shelfIdle (d : Dev) (w v : Nat) : (d.setWord w v).shelfIdle = d.shelfIdle := rfl
@[simp] theorem Dev.setWord_compId (d : Dev) (w v : Nat) : (d.setWord w v).compId = d.compId := rfl
@[simp] theorem Dev.setWord_dps (d : Dev) (w v : Nat) : (d.setWord w v).dps = d.dps := rfl
@[simp] theorem Dev.setWord_encs (d : Dev) (w v : Nat) : (d.setWord w v).encs = d.encs := rfl
@[simp] theorem Dev.setWord_evts (d : Dev) (w v : Nat) : (d.setWord w v).evts = d.evts := rfl
@[simp] theorem Dev.setWord_due (d : Dev) (w v : Nat) : (d.setWord w v).due = d.due := rfl
@[simp] theorem Dev.setWord_launched (d : Dev) (w v : Nat) : (d.setWord w v).launched = d.launched := rfl
@[simp] theorem Dev.setWord_pps (d : Dev) (w v : Nat) : (d.setWord w v).pps = d.pps := rfl
@[simp] theorem Dev.setWord_time (d : Dev) (w v : Nat) : (d.setWord w v).time = d.time := rfl
@[simp] theorem Dev.setWord_aud (d : Dev) (w v : Nat) : (d.setWord w v).aud = d.aud := rfl
@[simp] theorem Dev.setWord_touch (d : Dev) (w v : Nat) : (d.setWord w v).touch = d.touch := rfl
@[simp] theorem Dev.setWord_peak (d : Dev) (w v : Nat) : (d.setWord w v).peak = d.peak := rfl
@[simp] theorem Dev.setWord_ringOcc (d : Dev) (w v : Nat) : (d.setWord w v).ringOcc = d.ringOcc := rfl
@[simp] theorem Dev.setWord_pairFlows (d : Dev) (w v : Nat) : (d.setWord w v).pairFlows = d.pairFlows := rfl
@[simp] theorem Dev.setWord_parts (d : Dev) (w v : Nat) : (d.setWord w v).parts = d.parts := rfl
@[simp] theorem Dev.setWord_pcs (d : Dev) (w v : Nat) : (d.setWord w v).pcs = d.pcs := rfl
@[simp] theorem Dev.setWord_hbms (d : Dev) (w v : Nat) : (d.setWord w v).hbms = d.hbms := rfl
@[simp] theorem Dev.setWord_acts (d : Dev) (w v : Nat) : (d.setWord w v).acts = d.acts := rfl
@[simp] theorem Dev.setWord_throttles (d : Dev) (w v : Nat) : (d.setWord w v).throttles = d.throttles := rfl
@[simp] theorem Dev.setWord_uncTold (d : Dev) (w v : Nat) : (d.setWord w v).uncTold = d.uncTold := rfl
@[simp] theorem Dev.setWord_guardianStopped (d : Dev) (w v : Nat) : (d.setWord w v).guardianStopped = d.guardianStopped := rfl
@[simp] theorem Dev.setWord_curStopped (d : Dev) (w v : Nat) : (d.setWord w v).curStopped = d.curStopped := rfl
@[simp] theorem Dev.setWord_dup (d : Dev) (w v : Nat) : (d.setWord w v).dup = d.dup := rfl
@[simp] theorem Dev.setWord_ring (d : Dev) (w v : Nat) : (d.setWord w v).ring = d.ring := rfl
@[simp] theorem Dev.setWord_cal (d : Dev) (w v : Nat) : (d.setWord w v).cal = d.cal := rfl
@[simp] theorem Dev.setWord_flash (d : Dev) (w v : Nat) : (d.setWord w v).flash = d.flash := rfl
@[simp] theorem Dev.setWord_retain (d : Dev) (w v : Nat) : (d.setWord w v).retain = d.retain := rfl
@[simp] theorem Dev.setWord_saving (d : Dev) (w v : Nat) : (d.setWord w v).saving = d.saving := rfl
@[simp] theorem Dev.setWord_pwr (d : Dev) (w v : Nat) : (d.setWord w v).pwr = d.pwr := rfl

/-! `Dev.setDup` changes `dup` only. -/

@[simp] theorem Dev.setDup_now (d : Dev) (x : DupRt) : (d.setDup x).now = d.now := rfl
@[simp] theorem Dev.setDup_outbox (d : Dev) (x : DupRt) : (d.setDup x).outbox = d.outbox := rfl
@[simp] theorem Dev.setDup_fresh (d : Dev) (x : DupRt) : (d.setDup x).fresh = d.fresh := rfl
@[simp] theorem Dev.setDup_regs (d : Dev) (x : DupRt) : (d.setDup x).regs = d.regs := rfl
@[simp] theorem Dev.setDup_doms (d : Dev) (x : DupRt) : (d.setDup x).doms = d.doms := rfl
@[simp] theorem Dev.setDup_wings (d : Dev) (x : DupRt) : (d.setDup x).wings = d.wings := rfl
@[simp] theorem Dev.setDup_sessions (d : Dev) (x : DupRt) : (d.setDup x).sessions = d.sessions := rfl
@[simp] theorem Dev.setDup_authFails (d : Dev) (x : DupRt) : (d.setDup x).authFails = d.authFails := rfl
@[simp] theorem Dev.setDup_blocked (d : Dev) (x : DupRt) : (d.setDup x).blocked = d.blocked := rfl
@[simp] theorem Dev.setDup_canStage (d : Dev) (x : DupRt) : (d.setDup x).canStage = d.canStage := rfl
@[simp] theorem Dev.setDup_tpdos (d : Dev) (x : DupRt) : (d.setDup x).tpdos = d.tpdos := rfl
@[simp] theorem Dev.setDup_syncs (d : Dev) (x : DupRt) : (d.setDup x).syncs = d.syncs := rfl
@[simp] theorem Dev.setDup_segs (d : Dev) (x : DupRt) : (d.setDup x).segs = d.segs := rfl
@[simp] theorem Dev.setDup_wdpDropped (d : Dev) (x : DupRt) : (d.setDup x).wdpDropped = d.wdpDropped := rfl
@[simp] theorem Dev.setDup_mbxs (d : Dev) (x : DupRt) : (d.setDup x).mbxs = d.mbxs := rfl
@[simp] theorem Dev.setDup_batches (d : Dev) (x : DupRt) : (d.setDup x).batches = d.batches := rfl
@[simp] theorem Dev.setDup_batchOf (d : Dev) (x : DupRt) : (d.setDup x).batchOf = d.batchOf := rfl
@[simp] theorem Dev.setDup_batchNum (d : Dev) (x : DupRt) : (d.setDup x).batchNum = d.batchNum := rfl
@[simp] theorem Dev.setDup_mirror (d : Dev) (x : DupRt) : (d.setDup x).mirror = d.mirror := rfl
@[simp] theorem Dev.setDup_longOps (d : Dev) (x : DupRt) : (d.setDup x).longOps = d.longOps := rfl
@[simp] theorem Dev.setDup_queue (d : Dev) (x : DupRt) : (d.setDup x).queue = d.queue := rfl
@[simp] theorem Dev.setDup_aonFault (d : Dev) (x : DupRt) : (d.setDup x).aonFault = d.aonFault := rfl
@[simp] theorem Dev.setDup_nmt (d : Dev) (x : DupRt) : (d.setDup x).nmt = d.nmt := rfl
@[simp] theorem Dev.setDup_emcyAt (d : Dev) (x : DupRt) : (d.setDup x).emcyAt = d.emcyAt := rfl
@[simp] theorem Dev.setDup_bootRegs (d : Dev) (x : DupRt) : (d.setDup x).bootRegs = d.bootRegs := rfl
@[simp] theorem Dev.setDup_bootDoms (d : Dev) (x : DupRt) : (d.setDup x).bootDoms = d.bootDoms := rfl
@[simp] theorem Dev.setDup_sources (d : Dev) (x : DupRt) : (d.setDup x).sources = d.sources := rfl
@[simp] theorem Dev.setDup_joinRepeats (d : Dev) (x : DupRt) : (d.setDup x).joinRepeats = d.joinRepeats := rfl
@[simp] theorem Dev.setDup_nmos (d : Dev) (x : DupRt) : (d.setDup x).nmos = d.nmos := rfl
@[simp] theorem Dev.setDup_decs (d : Dev) (x : DupRt) : (d.setDup x).decs = d.decs := rfl
@[simp] theorem Dev.setDup_layers (d : Dev) (x : DupRt) : (d.setDup x).layers = d.layers := rfl
@[simp] theorem Dev.setDup_layerComps (d : Dev) (x : DupRt) : (d.setDup x).layerComps = d.layerComps := rfl
@[simp] theorem Dev.setDup_outputs (d : Dev) (x : DupRt) : (d.setDup x).outputs = d.outputs := rfl
@[simp] theorem Dev.setDup_hist (d : Dev) (x : DupRt) : (d.setDup x).hist = d.hist := rfl
@[simp] theorem Dev.setDup_summary (d : Dev) (x : DupRt) : (d.setDup x).summary = d.summary := rfl
@[simp] theorem Dev.setDup_shelfIdle (d : Dev) (x : DupRt) : (d.setDup x).shelfIdle = d.shelfIdle := rfl
@[simp] theorem Dev.setDup_compId (d : Dev) (x : DupRt) : (d.setDup x).compId = d.compId := rfl
@[simp] theorem Dev.setDup_dps (d : Dev) (x : DupRt) : (d.setDup x).dps = d.dps := rfl
@[simp] theorem Dev.setDup_encs (d : Dev) (x : DupRt) : (d.setDup x).encs = d.encs := rfl
@[simp] theorem Dev.setDup_evts (d : Dev) (x : DupRt) : (d.setDup x).evts = d.evts := rfl
@[simp] theorem Dev.setDup_due (d : Dev) (x : DupRt) : (d.setDup x).due = d.due := rfl
@[simp] theorem Dev.setDup_launched (d : Dev) (x : DupRt) : (d.setDup x).launched = d.launched := rfl
@[simp] theorem Dev.setDup_pps (d : Dev) (x : DupRt) : (d.setDup x).pps = d.pps := rfl
@[simp] theorem Dev.setDup_time (d : Dev) (x : DupRt) : (d.setDup x).time = d.time := rfl
@[simp] theorem Dev.setDup_aud (d : Dev) (x : DupRt) : (d.setDup x).aud = d.aud := rfl
@[simp] theorem Dev.setDup_touch (d : Dev) (x : DupRt) : (d.setDup x).touch = d.touch := rfl
@[simp] theorem Dev.setDup_peak (d : Dev) (x : DupRt) : (d.setDup x).peak = d.peak := rfl
@[simp] theorem Dev.setDup_ringOcc (d : Dev) (x : DupRt) : (d.setDup x).ringOcc = d.ringOcc := rfl
@[simp] theorem Dev.setDup_pairFlows (d : Dev) (x : DupRt) : (d.setDup x).pairFlows = d.pairFlows := rfl
@[simp] theorem Dev.setDup_parts (d : Dev) (x : DupRt) : (d.setDup x).parts = d.parts := rfl
@[simp] theorem Dev.setDup_pcs (d : Dev) (x : DupRt) : (d.setDup x).pcs = d.pcs := rfl
@[simp] theorem Dev.setDup_hbms (d : Dev) (x : DupRt) : (d.setDup x).hbms = d.hbms := rfl
@[simp] theorem Dev.setDup_words (d : Dev) (x : DupRt) : (d.setDup x).words = d.words := rfl
@[simp] theorem Dev.setDup_acts (d : Dev) (x : DupRt) : (d.setDup x).acts = d.acts := rfl
@[simp] theorem Dev.setDup_throttles (d : Dev) (x : DupRt) : (d.setDup x).throttles = d.throttles := rfl
@[simp] theorem Dev.setDup_uncTold (d : Dev) (x : DupRt) : (d.setDup x).uncTold = d.uncTold := rfl
@[simp] theorem Dev.setDup_guardianStopped (d : Dev) (x : DupRt) : (d.setDup x).guardianStopped = d.guardianStopped := rfl
@[simp] theorem Dev.setDup_curStopped (d : Dev) (x : DupRt) : (d.setDup x).curStopped = d.curStopped := rfl
@[simp] theorem Dev.setDup_ring (d : Dev) (x : DupRt) : (d.setDup x).ring = d.ring := rfl
@[simp] theorem Dev.setDup_cal (d : Dev) (x : DupRt) : (d.setDup x).cal = d.cal := rfl
@[simp] theorem Dev.setDup_flash (d : Dev) (x : DupRt) : (d.setDup x).flash = d.flash := rfl
@[simp] theorem Dev.setDup_retain (d : Dev) (x : DupRt) : (d.setDup x).retain = d.retain := rfl
@[simp] theorem Dev.setDup_saving (d : Dev) (x : DupRt) : (d.setDup x).saving = d.saving := rfl
@[simp] theorem Dev.setDup_pwr (d : Dev) (x : DupRt) : (d.setDup x).pwr = d.pwr := rfl

/-! `Dev.setPwr` changes `pwr` only. -/

@[simp] theorem Dev.setPwr_now (d : Dev) (x : PwrRt) : (d.setPwr x).now = d.now := rfl
@[simp] theorem Dev.setPwr_outbox (d : Dev) (x : PwrRt) : (d.setPwr x).outbox = d.outbox := rfl
@[simp] theorem Dev.setPwr_fresh (d : Dev) (x : PwrRt) : (d.setPwr x).fresh = d.fresh := rfl
@[simp] theorem Dev.setPwr_regs (d : Dev) (x : PwrRt) : (d.setPwr x).regs = d.regs := rfl
@[simp] theorem Dev.setPwr_doms (d : Dev) (x : PwrRt) : (d.setPwr x).doms = d.doms := rfl
@[simp] theorem Dev.setPwr_wings (d : Dev) (x : PwrRt) : (d.setPwr x).wings = d.wings := rfl
@[simp] theorem Dev.setPwr_sessions (d : Dev) (x : PwrRt) : (d.setPwr x).sessions = d.sessions := rfl
@[simp] theorem Dev.setPwr_authFails (d : Dev) (x : PwrRt) : (d.setPwr x).authFails = d.authFails := rfl
@[simp] theorem Dev.setPwr_blocked (d : Dev) (x : PwrRt) : (d.setPwr x).blocked = d.blocked := rfl
@[simp] theorem Dev.setPwr_canStage (d : Dev) (x : PwrRt) : (d.setPwr x).canStage = d.canStage := rfl
@[simp] theorem Dev.setPwr_tpdos (d : Dev) (x : PwrRt) : (d.setPwr x).tpdos = d.tpdos := rfl
@[simp] theorem Dev.setPwr_syncs (d : Dev) (x : PwrRt) : (d.setPwr x).syncs = d.syncs := rfl
@[simp] theorem Dev.setPwr_segs (d : Dev) (x : PwrRt) : (d.setPwr x).segs = d.segs := rfl
@[simp] theorem Dev.setPwr_wdpDropped (d : Dev) (x : PwrRt) : (d.setPwr x).wdpDropped = d.wdpDropped := rfl
@[simp] theorem Dev.setPwr_mbxs (d : Dev) (x : PwrRt) : (d.setPwr x).mbxs = d.mbxs := rfl
@[simp] theorem Dev.setPwr_batches (d : Dev) (x : PwrRt) : (d.setPwr x).batches = d.batches := rfl
@[simp] theorem Dev.setPwr_batchOf (d : Dev) (x : PwrRt) : (d.setPwr x).batchOf = d.batchOf := rfl
@[simp] theorem Dev.setPwr_batchNum (d : Dev) (x : PwrRt) : (d.setPwr x).batchNum = d.batchNum := rfl
@[simp] theorem Dev.setPwr_mirror (d : Dev) (x : PwrRt) : (d.setPwr x).mirror = d.mirror := rfl
@[simp] theorem Dev.setPwr_longOps (d : Dev) (x : PwrRt) : (d.setPwr x).longOps = d.longOps := rfl
@[simp] theorem Dev.setPwr_queue (d : Dev) (x : PwrRt) : (d.setPwr x).queue = d.queue := rfl
@[simp] theorem Dev.setPwr_aonFault (d : Dev) (x : PwrRt) : (d.setPwr x).aonFault = d.aonFault := rfl
@[simp] theorem Dev.setPwr_nmt (d : Dev) (x : PwrRt) : (d.setPwr x).nmt = d.nmt := rfl
@[simp] theorem Dev.setPwr_emcyAt (d : Dev) (x : PwrRt) : (d.setPwr x).emcyAt = d.emcyAt := rfl
@[simp] theorem Dev.setPwr_bootRegs (d : Dev) (x : PwrRt) : (d.setPwr x).bootRegs = d.bootRegs := rfl
@[simp] theorem Dev.setPwr_bootDoms (d : Dev) (x : PwrRt) : (d.setPwr x).bootDoms = d.bootDoms := rfl
@[simp] theorem Dev.setPwr_sources (d : Dev) (x : PwrRt) : (d.setPwr x).sources = d.sources := rfl
@[simp] theorem Dev.setPwr_joinRepeats (d : Dev) (x : PwrRt) : (d.setPwr x).joinRepeats = d.joinRepeats := rfl
@[simp] theorem Dev.setPwr_nmos (d : Dev) (x : PwrRt) : (d.setPwr x).nmos = d.nmos := rfl
@[simp] theorem Dev.setPwr_decs (d : Dev) (x : PwrRt) : (d.setPwr x).decs = d.decs := rfl
@[simp] theorem Dev.setPwr_layers (d : Dev) (x : PwrRt) : (d.setPwr x).layers = d.layers := rfl
@[simp] theorem Dev.setPwr_layerComps (d : Dev) (x : PwrRt) : (d.setPwr x).layerComps = d.layerComps := rfl
@[simp] theorem Dev.setPwr_outputs (d : Dev) (x : PwrRt) : (d.setPwr x).outputs = d.outputs := rfl
@[simp] theorem Dev.setPwr_hist (d : Dev) (x : PwrRt) : (d.setPwr x).hist = d.hist := rfl
@[simp] theorem Dev.setPwr_summary (d : Dev) (x : PwrRt) : (d.setPwr x).summary = d.summary := rfl
@[simp] theorem Dev.setPwr_shelfIdle (d : Dev) (x : PwrRt) : (d.setPwr x).shelfIdle = d.shelfIdle := rfl
@[simp] theorem Dev.setPwr_compId (d : Dev) (x : PwrRt) : (d.setPwr x).compId = d.compId := rfl
@[simp] theorem Dev.setPwr_dps (d : Dev) (x : PwrRt) : (d.setPwr x).dps = d.dps := rfl
@[simp] theorem Dev.setPwr_encs (d : Dev) (x : PwrRt) : (d.setPwr x).encs = d.encs := rfl
@[simp] theorem Dev.setPwr_evts (d : Dev) (x : PwrRt) : (d.setPwr x).evts = d.evts := rfl
@[simp] theorem Dev.setPwr_due (d : Dev) (x : PwrRt) : (d.setPwr x).due = d.due := rfl
@[simp] theorem Dev.setPwr_launched (d : Dev) (x : PwrRt) : (d.setPwr x).launched = d.launched := rfl
@[simp] theorem Dev.setPwr_pps (d : Dev) (x : PwrRt) : (d.setPwr x).pps = d.pps := rfl
@[simp] theorem Dev.setPwr_time (d : Dev) (x : PwrRt) : (d.setPwr x).time = d.time := rfl
@[simp] theorem Dev.setPwr_aud (d : Dev) (x : PwrRt) : (d.setPwr x).aud = d.aud := rfl
@[simp] theorem Dev.setPwr_touch (d : Dev) (x : PwrRt) : (d.setPwr x).touch = d.touch := rfl
@[simp] theorem Dev.setPwr_peak (d : Dev) (x : PwrRt) : (d.setPwr x).peak = d.peak := rfl
@[simp] theorem Dev.setPwr_ringOcc (d : Dev) (x : PwrRt) : (d.setPwr x).ringOcc = d.ringOcc := rfl
@[simp] theorem Dev.setPwr_pairFlows (d : Dev) (x : PwrRt) : (d.setPwr x).pairFlows = d.pairFlows := rfl
@[simp] theorem Dev.setPwr_parts (d : Dev) (x : PwrRt) : (d.setPwr x).parts = d.parts := rfl
@[simp] theorem Dev.setPwr_pcs (d : Dev) (x : PwrRt) : (d.setPwr x).pcs = d.pcs := rfl
@[simp] theorem Dev.setPwr_hbms (d : Dev) (x : PwrRt) : (d.setPwr x).hbms = d.hbms := rfl
@[simp] theorem Dev.setPwr_words (d : Dev) (x : PwrRt) : (d.setPwr x).words = d.words := rfl
@[simp] theorem Dev.setPwr_acts (d : Dev) (x : PwrRt) : (d.setPwr x).acts = d.acts := rfl
@[simp] theorem Dev.setPwr_throttles (d : Dev) (x : PwrRt) : (d.setPwr x).throttles = d.throttles := rfl
@[simp] theorem Dev.setPwr_uncTold (d : Dev) (x : PwrRt) : (d.setPwr x).uncTold = d.uncTold := rfl
@[simp] theorem Dev.setPwr_guardianStopped (d : Dev) (x : PwrRt) : (d.setPwr x).guardianStopped = d.guardianStopped := rfl
@[simp] theorem Dev.setPwr_curStopped (d : Dev) (x : PwrRt) : (d.setPwr x).curStopped = d.curStopped := rfl
@[simp] theorem Dev.setPwr_dup (d : Dev) (x : PwrRt) : (d.setPwr x).dup = d.dup := rfl
@[simp] theorem Dev.setPwr_ring (d : Dev) (x : PwrRt) : (d.setPwr x).ring = d.ring := rfl
@[simp] theorem Dev.setPwr_cal (d : Dev) (x : PwrRt) : (d.setPwr x).cal = d.cal := rfl
@[simp] theorem Dev.setPwr_flash (d : Dev) (x : PwrRt) : (d.setPwr x).flash = d.flash := rfl
@[simp] theorem Dev.setPwr_retain (d : Dev) (x : PwrRt) : (d.setPwr x).retain = d.retain := rfl
@[simp] theorem Dev.setPwr_saving (d : Dev) (x : PwrRt) : (d.setPwr x).saving = d.saving := rfl

end Sys2Proof.Machine
end

