-- ==== Sys2Proof/Laws/Ops.lean ====
section
/-! SUPPORT. The shared operations: a read after a write of the dictionary, what each sending and reporting
operation leaves alone, and what each frame of a meaning answers. -/
namespace Sys2Proof.Machine

/-! ### Keys -/

theorem regKey_inj {i s f j r g : Nat} (hs : s < 256) (hr : r < 256) (hf : f < 65536) (hg : g < 65536)
    (h : regKey i s f = regKey j r g) : i = j ∧ s = r ∧ f = g := by
  simp only [regKey] at h; omega

/-! ### Numbers -/

@[simp] theorem Dev.rdf_wrf_same (d : Dev) (i s f v : Nat) : (d.wrf i s f v).rdf i s f = v :=
  Tab.getD_setD_same _ _ _ _

/-- A write of one field leaves every other field of the dictionary alone. -/
theorem Dev.rdf_wrf_other (d : Dev) {i s f v j r g : Nat} (h : regKey j r g ≠ regKey i s f) :
    (d.wrf i s f v).rdf j r g = d.rdf j r g :=
  Tab.getD_setD_other _ _ _ _ h

@[simp] theorem Dev.rd_wr_same (d : Dev) (i s v : Nat) : (d.wr i s v).rd i s = v := Dev.rdf_wrf_same d i s 0 v

/-- A write of one object leaves every other object alone. -/
theorem Dev.rd_wr_other (d : Dev) {i s v j r : Nat} (h : regKey j r 0 ≠ regKey i s 0) :
    (d.wr i s v).rd j r = d.rd j r :=
  Dev.rdf_wrf_other d h

theorem Dev.rdf_congr {d e : Dev} (h : d.regs = e.regs) (i s f : Nat) : d.rdf i s f = e.rdf i s f := by
  simp only [Dev.rdf, h]

theorem Dev.rd_congr {d e : Dev} (h : d.regs = e.regs) (i s : Nat) : d.rd i s = e.rd i s := Dev.rdf_congr h i s 0

/-! ### Byte strings -/

@[simp] theorem Dev.rdc_wrc_same (d : Dev) (i s c : Nat) (v : List Byte) : (d.wrc i s c v).rdc i s c = v :=
  Tab.getD_setD_same _ _ _ _

theorem Dev.rdc_wrc_other (d : Dev) {i s c j r g : Nat} {v : List Byte} (h : domKey j r g ≠ domKey i s c) :
    (d.wrc i s c v).rdc j r g = d.rdc j r g :=
  Tab.getD_setD_other _ _ _ _ h

@[simp] theorem Dev.rdd_wrd_same (d : Dev) (i s : Nat) (v : List Byte) : (d.wrd i s v).rdd i s = v :=
  Dev.rdc_wrc_same d i s 0 v

/-! ### Sending -/

@[simp] theorem Dev.send_outbox (d : Dev) (o : Out) : (d.send o).outbox = d.outbox ++ [o] := rfl
@[simp] theorem Dev.send_rdf (d : Dev) (o : Out) (i s f : Nat) : (d.send o).rdf i s f = d.rdf i s f := rfl
@[simp] theorem Dev.send_rd (d : Dev) (o : Out) (i s : Nat) : (d.send o).rd i s = d.rd i s := rfl

/-! ### The frames of a meaning -/

theorem onAon_eq (t : Nat) (f : Dev → Dev) (s : State) : onAon t f s = .next { s with dev := f (s.found t) } := rfl

/-- Either the device is in Run and the effect is the next device, or it rests and stays as found. -/
theorem onDev_eq (t : Nat) (f : Dev → Dev) (s : State) :
    onDev t f s = .next { s with dev := if (s.found t).alive then f (s.found t) else s.found t } := rfl

theorem onDev_alive {t : Nat} {f : Dev → Dev} {s : State} (h : (s.found t).alive = true) :
    onDev t f s = .next { s with dev := f (s.found t) } := by simp [onDev_eq, h]

theorem onDev_rests {t : Nat} {f : Dev → Dev} {s : State} (h : (s.found t).alive = false) :
    onDev t f s = .next { s with dev := s.found t } := by simp [onDev_eq, h]

theorem onGuard_eq (t : Nat) (f : Dev → Dev) (s : State) :
    onGuard t f s = .next { s with dev := if (s.found t).guardAlive then f (s.found t) else s.found t } := rfl

theorem onCurator_eq (t : Nat) (f : Dev → Dev) (s : State) (h : (s.found t).alive = true)
    (hc : (s.found t).curDown 0 = false) : onCurator t f s = .next { s with dev := f (s.found t) } := by
  simp [onCurator, onDev_alive h, hc]

/-- A command object in Run: its effect, then the status sent back. -/
theorem onCommand_alive {t : Nat} {by_ : Requester} {f : Dev → Res} {s : State} (h : (s.found t).alive = true) :
    onCommand t by_ f s =
      .next { s with dev := (f (s.found t)).dev.send (.answer by_ (f (s.found t)).st (f (s.found t)).slot) } := by
  simp [onCommand, onAon_eq, h]

/-- A granted write of a command object acts at once. -/
theorem Dev.command_granted {d : Dev} {by_ : Requester} {i s : Nat} {data : List Byte} {eff : Dev → Res}
    (h : d.grants by_ i s data) : d.command by_ i s data eff = eff d := by
  obtain ⟨-, h, hd | hl⟩ := h <;> simp [Dev.command, *]

/-- A granted write with a check of its own that it passes acts at once. -/
theorem Dev.commandPre_granted {d : Dev} {by_ : Requester} {i s pre : Nat} {data : List Byte} {eff : Dev → Res}
    (h : d.grants by_ i s data) (hp : pre = stOk) : d.commandPre by_ i s data pre eff = eff d := by
  simp [Dev.commandPre, h.2.1, hp, Dev.command_granted h]

/-- A granted write that fails its own check answers the check's status. -/
theorem Dev.commandPre_refused {d : Dev} {by_ : Requester} {i s pre : Nat} {data : List Byte} {eff : Dev → Res}
    (h : d.grants by_ i s data) (hp : pre ≠ stOk) : d.commandPre by_ i s data pre eff = d.res pre := by
  simp [Dev.commandPre, h.2.1, hp]

end Sys2Proof.Machine
end

