-- ==== Sys2Proof/Laws/Ring.lean ====
section
/-! SUPPORT. Sizes of what the ring sends (Table 17.2). -/
namespace Sys2Proof.Machine

/-- A number as `n` bytes takes `n` bytes. -/
@[simp] theorem leBytes_length (n v : Nat) : (leBytes n v).length = n := by
  induction n generalizing v with
  | zero => rfl
  | succ n ih => simp [leBytes, ih]

/-- A padded list has the length asked for. -/
@[simp] theorem padTo_length (n : Nat) (b : List Byte) : (padTo n b).length = n := by
  simp only [padTo, slice, List.drop_zero, List.length_append, List.length_take, List.length_replicate]
  omega

/-- A header has 32 bytes. -/
theorem frameHeader_length (cls sender hops version tick slot flow seq len flags receiver : Nat) :
    (frameHeader cls sender hops version tick slot flow seq len flags receiver).length = 32 := by
  simp [frameHeader, leBytes_length]

/-- A frame has 42,480 bytes, whatever its payload (R379). -/
theorem frameBytesOf_length (cls sender hops version tick slot flow seq flags receiver : Nat) (b : List Byte) :
    (frameBytesOf cls sender hops version tick slot flow seq flags receiver b).length = 42480 := by
  simp [frameBytesOf, frameHeader_length, padTo_length, leBytes_length, ringPart]

end Sys2Proof.Machine
end

