-- ==== Sys2Proof/WellFormed.lean ====
section
/-! DEFINITION. Which commands are well formed: the numbers they carry name units, objects and levels that the
part has (R5 to R10, R59, R75, R88, R303, Table 15.1). -/
namespace Sys2Proof

/-- Wing 0 to 3 (R7). -/
def wfWing (w : Nat) : Bool := decide (w < 4)
/-- Output 0 to 127: heads, then IP outputs (R9). -/
def wfOutput (o : Nat) : Bool := decide (o < 128)
/-- IP output 64 to 127 (R9). -/
def wfIpOutput (o : Nat) : Bool := decide (64 ≤ o) && decide (o < 128)
/-- Source 0 to 255 (R9). -/
def wfSource (n : Nat) : Bool := decide (n < 256)
/-- Decoder session 0 to 127 (R9). -/
def wfDecoder (k : Nat) : Bool := decide (k < 128)
/-- Encoder channel 0 to 15 (R9). -/
def wfChannel (c : Nat) : Bool := decide (c < 16)
/-- Layer 0 to 511 (R134). -/
def wfLayer (l : Nat) : Bool := decide (l < 512)
/-- Slot 0 to 3 of a graphics layer (R134). -/
def wfGraphicsSlot (k : Nat) : Bool := decide (k < 4)
/-- A composition target. -/
def wfTarget : Target → Bool
  | .output o => wfOutput o
  | .layer l => wfLayer l
/-- Leg A or B of a source or a stream. -/
def wfLeg (g : Nat) : Bool := decide (g < 2)
/-- NET port 0 to 7. -/
def wfNet (k : Nat) : Bool := decide (k < 8)
/-- Management port 0 or 1. -/
def wfMgt (g : Nat) : Bool := decide (g < 2)
/-- PTP port: NET0 to NET7, MGT0, MGT1. -/
def wfPtpPort (k : Nat) : Bool := decide (k < 10)
/-- DisplayPort port 0 to 15. -/
def wfDpPort (p : Nat) : Bool := decide (p < 16)
/-- An IPv4 address. -/
def wfIp4 (a : Nat) : Bool := decide (a < 2 ^ 32)
/-- An address of 16 bytes. -/
def wfIp6 (a : List Byte) : Bool := a.length == 16
/-- An access level, 0 Observer to 3 Supervisor (R61). -/
def wfLevel (v : Nat) : Bool := decide (v < 4)
/-- A requester: a session number of 2 bytes and a level. -/
def wfBy (r : Requester) : Bool := decide (r.sess < 2 ^ 16) && wfLevel r.level
/-- Mailbox channel 0 to 7 (R88). -/
def wfMailbox (c : Nat) : Bool := decide (c < 8)
/-- Where a datagram may arrive (R73, R88). -/
def wfVia : Transport → Bool
  | .mgt g ip => wfMgt g && wfIp4 ip
  | .inband p ip => wfNet p && wfIp4 ip
  | .pcie c => wfMailbox c
/-- A session number: 1 to 32, and 64 to 71 in mailbox channels (R75, R88). -/
def wfSession (n : Nat) : Bool := (decide (1 ≤ n) && decide (n ≤ 32)) || (decide (64 ≤ n) && decide (n < 72))
/-- An index of 2 bytes and a subindex of 1. -/
def wfObj (i s : Nat) : Bool := decide (i < 2 ^ 16) && decide (s < 256)
/-- PDO 0 to 7 (R85). -/
def wfPdo (n : Nat) : Bool := decide (n < 8)
/-- Window 0 to 63 of BAR2 (R89). -/
def wfWindow (w : Nat) : Bool := decide (w < 64)
/-- An MDIO frame of Clause 22: PHY and register of 5 bits, value of 16 (R93). -/
def wfPhy (phy reg v : Nat) : Bool := decide (phy < 32) && decide (reg < 32) && decide (v < 2 ^ 16)
/-- Long-operation slot 0 to 63 (R54). -/
def wfSlot (k : Nat) : Bool := decide (k < 64)
/-- A fabric request (R324, R325). -/
def wfAccess (a : Access) : Bool :=
  decide (1 ≤ a.cls) && decide (a.cls ≤ 15) && decide (a.op < 3) && decide (a.mode < 4) && decide (a.addr < 2 ^ 40) &&
    decide (1 ≤ a.len) && decide (a.len ≤ 256)
/-- Partition 0 to 20 (R326). -/
def wfPart (p : Nat) : Bool := decide (p < 21)
/-- Curator core 0 to 15 of the device. -/
def wfCore (k : Nat) : Bool := decide (k < 16)
/-- Core 0 to 3 of a cluster. -/
def wfClusterCore (k : Nat) : Bool := decide (k < 4)
/-- A mask of partitions. -/
def wfMask (v : Nat) : Bool := decide (v < 2 ^ 32)
/-- HBM device 0 or 1. -/
def wfHbm (m : Nat) : Bool := decide (m < 2)
/-- Device-wide pseudo-channel 0 to 63 (R303). -/
def wfPc (p : Nat) : Bool := decide (p < 64)
/-- Bank 0 to 47 of a pseudo-channel (R303). -/
def wfBank (b : Nat) : Bool := decide (b < 48)
/-- A temperature of one byte. -/
def wfTemp (t : Int) : Bool := decide (-128 ≤ t) && decide (t < 128)
/-- Capture input 0 to 23, or 24 for PPS_IN (R266). -/
def wfCapture (i : Nat) : Bool := decide (i < 25)
/-- Launch entry 0 to 63 (R269). -/
def wfLaunch (e : Nat) : Bool := decide (e < 64)
/-- I2S port 0 to 15. -/
def wfAudPort (a : Nat) : Bool := decide (a < 16)
/-- Audio group 1 to 8 (R281). -/
def wfGroup (g : Nat) : Bool := decide (1 ≤ g) && decide (g < 9)
/-- Audio stream 0 to 15. -/
def wfStream (k : Nat) : Bool := decide (k < 16)
/-- Touch surface 0 to 7. -/
def wfSurface (k : Nat) : Bool := decide (k < 8)
/-- A ring side: 0 east, 1 west. -/
def wfSide (x : Nat) : Bool := decide (x < 2)
/-- Lane 0 to 3 of a ring side. -/
def wfLane (l : Nat) : Bool := decide (l < 4)
/-- Ring 0 or 1. -/
def wfRing (r : Nat) : Bool := decide (r < 2)
/-- A ring frame: the widths of its fields (Table 17.2). -/
def wfFrame (f : RingFrame) : Bool :=
  decide (f.cls < 256) && decide (f.sender < 256) && decide (f.hops < 256) && decide (f.version < 2 ^ 32) &&
    decide (f.tick < 2 ^ 64) && decide (f.slot < 256) && decide (f.flow < 256) && decide (f.seq < 2 ^ 32) &&
    decide (f.flags < 256) && decide (f.receiver < 256) && decide (f.payload.length ≤ 42432)
/-- Journal slot 0 to 1,023 (R389). -/
def wfEntry (e : Nat) : Bool := decide (e < 1024)
/-- Check-value unit 0 to 31. -/
def wfCvu (u : Nat) : Bool := decide (u < 32)
/-- Instances of a calibration item (Table 19.1). -/
def calInstances (item : Nat) : Nat := [0, 16, 8, 4, 16, 64, 10, 48, 8].getD item 0
/-- Item 1 to 8 and an instance of it. -/
def wfCal (item inst : Nat) : Bool := decide (inst < calInstances item)
/-- Retention bank 0 to 7 (Table 20.6). -/
def wfRetention (b : Nat) : Bool := decide (b < 8)
/-- The straps POS and BOOTSEL (R443). -/
def wfStraps (pos bootsel : Nat) : Bool := decide (pos < 2) && decide (bootsel < 4)

/-- The numbers that a command carries name what the part has. -/
def Instr.wf : Instr → Bool
  | .wingTick _ w _ => wfWing w
  | .racingSelection _ o => wfOutput o
  | .bandRelease _ o _ => wfOutput o
  | .bandWritten _ target _ _ => wfTarget target
  | .mediaPacket _ p => wfNet p.port
  | .frameCompletionTimeout _ src => wfSource src
  | .framePublished _ src => wfSource src
  | .legLost _ src leg => wfSource src && wfLeg leg
  | .sourceSilence _ src => wfSource src
  | .netLinkDown _ port => wfNet port
  | .netLinkUp _ port => wfNet port
  | .arpRequest _ port addr => wfNet port && wfIp4 addr
  | .neighbourSolicitation _ port addr => wfNet port && wfIp6 addr
  | .icmpEchoRequest _ port addr _ => wfNet port && wfIp6 addr
  | .membershipQuery _ port _ group sources => wfNet port && (group.isEmpty || wfIp6 group) && sources.all wfIp6
  | .joinReportRepeat _ port group addr => wfNet port && wfIp6 group && wfIp6 addr
  | .is05Activation _ src _ _ => wfSource src
  | .accessUnit _ sess _ => wfDecoder sess
  | .decodedPictureOutput _ sess _ => wfDecoder sess
  | .decoderRearm _ by_ sess => wfBy by_ && wfDecoder sess
  | .rasterFrameStart _ o _ => wfOutput o
  | .rasterLine _ o _ _ => wfOutput o
  | .startOfBlanking _ o => wfOutput o
  | .lineMatch _ o => wfOutput o
  | .headFrameDone _ o => wfOutput o
  | .ledgerEntry _ o => wfOutput o
  | .ipPacketLaunch _ o _ _ => wfIpOutput o
  | .dpHpdHigh _ p _ => wfDpPort p
  | .dpUnplug _ p => wfDpPort p
  | .dpIrqHpd _ p _ _ => wfDpPort p
  | .dpTrainingDone _ p _ _ => wfDpPort p
  | .dpTrainingRetry _ p => wfDpPort p
  | .dpRetrain _ by_ p => wfBy by_ && wfDpPort p
  | .encoderSelection _ c _ => wfChannel c
  | .rowDecision _ c _ => wfChannel c
  | .sliceRelease _ c _ _ => wfChannel c
  | .encoderPacketSend _ c => wfChannel c
  | .pictureRecord _ c => wfChannel c
  | .rowRecordReceived _ c _ => wfChannel c
  | .followLost _ c => wfChannel c
  | .hello _ via _ => wfVia via
  | .auth _ via _ => wfVia via
  | .challengeTimeout _ sess => wfSession sess
  | .wdpBlockExpiry _ addr => wfIp4 addr
  | .sessionTimeout _ sess => wfSession sess
  | .close _ via _ => wfVia via
  | .echo _ via _ => wfVia via
  | .read _ via _ => wfVia via
  | .write _ via _ => wfVia via
  | .stage _ via _ => wfVia via
  | .commitAtTick _ via _ => wfVia via
  | .discard _ via _ => wfVia via
  | .cancel _ via _ => wfVia via
  | .subscribe _ via _ => wfVia via
  | .notifyAcknowledge _ via _ => wfVia via
  | .notifyResend _ sess _ => wfSession sess
  | .levelKeyWrite _ by_ level _ => wfBy by_ && wfLevel level
  | .saveAll _ by_ _ => wfBy by_
  | .saveDone _ _ => true
  | .loadDefaults _ by_ _ => wfBy by_
  | .longOpAbort _ by_ slot => wfBy by_ && wfSlot slot
  | .longOpAborted _ slot => wfSlot slot
  | .longOpClear _ by_ slot => wfBy by_ && wfSlot slot
  | .usdoRead _ index sub => wfObj index sub
  | .usdoWrite _ index sub _ _ => wfObj index sub
  | .canopenCommitTick _ _ => true
  | .rpdoReceived _ n _ => wfPdo n
  | .nmtCommand _ _ => true
  | .mailboxDoorbell _ ch _ _ => wfMailbox ch
  | .pcieWindowWrite _ win _ _ => wfWindow win
  | .mdioRead _ by_ phy reg value => wfBy by_ && wfPhy phy reg value
  | .mdioWrite _ by_ phy reg value => wfBy by_ && wfPhy phy reg value
  | .phyPoll _ port _ => wfMgt port
  | .layerClaim _ by_ layer slot => wfBy by_ && wfLayer layer && wfGraphicsSlot slot
  | .legendSetLoad _ by_ _ => wfBy by_
  | .fabricAccess _ a _ => wfAccess a
  | .accessRetire _ part => wfPart part
  | .curatorSwapPoint _ core => wfCore core
  | .swapLate _ core => wfCore core
  | .violationClear _ by_ mask => wfBy by_ && wfMask mask
  | .writeQueueDrain _ pc => wfPc pc
  | .refresh _ pc bank => wfPc pc && wfBank bank
  | .hbmParityError _ pc _ => wfPc pc
  | .pcRecovered _ pc _ => wfPc pc
  | .hbmTemperature _ m degC => wfHbm m && wfTemp degC
  | .rowDisturbanceWindow _ pc bank => wfPc pc && wfBank bank
  | .maintenanceWindow _ m _ => wfHbm m
  | .memScrub _ by_ m => wfBy by_ && wfHbm m
  | .scrubDone _ m => wfHbm m
  | .memTest _ by_ m => wfBy by_ && wfHbm m
  | .memoryTestChunk _ m _ => wfHbm m
  | .memLiveRepair _ by_ m => wfBy by_ && wfHbm m
  | .memRecordCandidates _ by_ m => wfBy by_ && wfHbm m
  | .memClearCandidates _ by_ m => wfBy by_ && wfHbm m
  | .memRecoverPc _ by_ m => wfBy by_ && wfHbm m
  | .memClearRepairRecord _ by_ m => wfBy by_ && wfHbm m
  | .flashWriteDone _ slot _ => wfSlot slot
  | .ptpSyncReceived _ port _ => wfPtpPort port
  | .ptpAnnounceReceived _ port _ => wfPtpPort port
  | .ptpDelayRespReceived _ port _ => wfPtpPort port
  | .ptpDelayReqReceived _ port _ _ _ => wfPtpPort port
  | .ptpMessageInterval _ port _ _ => wfPtpPort port
  | .ptpAnnounceTimeout _ port => wfPtpPort port
  | .timeRestep _ by_ => wfBy by_
  | .timeSlew _ by_ => wfBy by_
  | .timeHold _ by_ => wfBy by_
  | .evtEdge _ i _ _ => wfCapture i
  | .evtMerging _ i => wfCapture i
  | .evtStuck _ i => wfCapture i
  | .evtReleased _ i => wfCapture i
  | .ppsOutPulse _ => true
  | .launchArm _ by_ e => wfBy by_ && wfLaunch e
  | .launchDisarm _ by_ e => wfBy by_ && wfLaunch e
  | .launchTime _ e => wfLaunch e
  | .pulseEnd _ => true
  | .audioFrame _ a _ _ _ => wfAudPort a
  | .audUnderrun _ a => wfAudPort a
  | .audioDriftGate _ a _ => wfAudPort a
  | .bclkStopped _ a => wfAudPort a
  | .audioPortRearm _ by_ a => wfBy by_ && wfAudPort a
  | .audioGroupArm _ by_ g => wfBy by_ && wfGroup g
  | .audioGroupStop _ by_ g => wfBy by_ && wfGroup g
  | .audioGroupStart _ g => wfGroup g
  | .audioPacketReceived _ st p => wfStream st && wfLeg p.leg
  | .audioPesReceived _ st _ => wfStream st
  | .audioPacketSend _ st => wfStream st
  | .audStreamSilent _ st => wfStream st
  | .touchScan _ => true
  | .touchReport _ _ _ => true
  | .touchRebaseline _ by_ sf => wfBy by_ && wfSurface sf
  | .heartbeat _ => true
  | .ilkHoldEdge _ _ => true
  | .detectorExpiry _ => true
  | .ilkTakeIn _ => true
  | .claimPulseEnd _ => true
  | .claim _ by_ => wfBy by_
  | .swap _ by_ => wfBy by_
  | .cancelSwap _ by_ => wfBy by_
  | .swapPrepare _ _ => true
  | .swapConfirmation _ _ => true
  | .swapConfirmDeadline _ => true
  | .resynchronise _ by_ => wfBy by_
  | .resyncPhaseDone _ _ => true
  | .refollow _ by_ => wfBy by_
  | .mirroredBatchReceived _ b => wfWing b.wing
  | .mirroredWriteReceived _ key _ wing _ => wfObj key.idx key.sub && wfWing wing
  | .linkParametersReceived _ p _ => wfDpPort p
  | .compareRecord _ _ => true
  | .compareTimeout _ _ _ _ => true
  | .ringAlign _ side _ _ => wfSide side
  | .ringAlignRetry _ side => wfSide side
  | .ringLockLost _ side => wfSide side
  | .ringLane _ side lane => wfSide side && wfLane lane
  | .ringTick _ => true
  | .ringSlot _ side => wfSide side
  | .ringFrame _ side f => wfSide side && wfFrame f
  | .urgentBlock _ side _ => wfSide side
  | .ringReset _ by_ => wfBy by_
  | .ringRealign _ by_ => wfBy by_
  | .urgentNotify _ by_ _ => wfBy by_
  | .slotTableChange _ by_ ring _ => wfBy by_ && wfRing ring
  | .sharedSourceChange _ by_ _ => wfBy by_
  | .snapshot _ by_ => wfBy by_
  | .snapshotExportDone _ => true
  | .journalRecord _ => true
  | .journalClearEntry _ by_ e => wfBy by_ && wfEntry e
  | .journalClearAll _ by_ => wfBy by_
  | .journalEmpty _ by_ => wfBy by_
  | .aonRecordClear _ by_ => wfBy by_
  | .cvuData _ by_ u _ => wfBy by_ && wfCvu u
  | .cvuStartDma _ by_ u => wfBy by_ && wfCvu u
  | .cvuAbort _ by_ u => wfBy by_ && wfCvu u
  | .cvuInitialise _ by_ u => wfBy by_ && wfCvu u
  | .cvuRunningValueWrite _ by_ u _ => wfBy by_ && wfCvu u
  | .cvuDmaEnd _ u _ => wfCvu u
  | .calStartCampaign _ by_ => wfBy by_
  | .calStoreRecord _ by_ => wfBy by_
  | .calInstance _ item inst _ _ _ => wfCal item inst
  | .calSkipped _ item inst => wfCal item inst
  | .deviceSleep _ by_ => wfBy by_
  | .deviceDeepSleep _ by_ => wfBy by_
  | .deviceOff _ by_ => wfBy by_
  | .powerEntryStep _ => true
  | .wakeNFall _ => true
  | .wakeNArm _ => true
  | .canRxWake _ => true
  | .wakeTimer _ => true
  | .wakeStep _ _ => true
  | .wakeStepTimeout _ => true
  | .retentionRelease _ by_ bank => wfBy by_ && wfRetention bank
  | .thermalSample _ _ => true
  | .wingFault _ w _ => wfWing w
  | .curatorStopped _ w core _ => wfWing w && wfClusterCore core
  | .lockstepMismatch _ _ => true
  | .socSupply _ _ => true
  | .vddAonPowerOn _ => true
  | .resetNLow _ => true
  | .resetRelease _ pos bootsel => wfStraps pos bootsel
  | .bootStep _ _ => true
  | .firmwareReset _ by_ => wfBy by_
  | .armTrial _ by_ => wfBy by_
  | .confirmTrial _ by_ => wfBy by_
  | .raiseSecurityCounter _ by_ => wfBy by_
  | .cancelTrial _ by_ => wfBy by_
  | .stageImage _ by_ _ _ _ => wfBy by_
  | .stagingDone _ _ => true
  | .debugToken _ by_ _ => wfBy by_
  | .pciePerstHigh _ => true
  | .jtagInstruction _ _ _ => true
  | .sourceCounterReset _ by_ src => wfBy by_ && wfSource src
  | .decoderCounterReset _ by_ sess => wfBy by_ && wfDecoder sess
  | .outputCounterReset _ by_ o => wfBy by_ && wfOutput o
  | .encoderCounterReset _ by_ c => wfBy by_ && wfChannel c
  | .rateControlCounterReset _ by_ c => wfBy by_ && wfChannel c
  | .audioCounterReset _ by_ => wfBy by_
  | .memoryCounterReset _ by_ => wfBy by_
  | .duplexCounterReset _ by_ => wfBy by_
  | .ilkTakeInFall _ => true
  | .vddAonLost _ => true
  | .producerHeartbeat _ => true
  | .evtTail _ ch _ => wfMailbox ch

end Sys2Proof
end

