-- ==== Sys2Proof/Tests/Slice0.lean ====
section
/-! SUPPORT. Tests: ill-formed terms that the checks refuse, figures that the spec works out itself, and for each
obligation with hypotheses operands that meet all of them together, clause by clause, at the boundary values where
a clause has a range. -/
namespace Sys2Proof.Machine

/-- A state, its device changed: for the tests. -/
def State.mod (s : State) (f : Dev → Dev) : State := { s with dev := f s.dev }

end Sys2Proof.Machine

namespace Sys2Proof.Tests

open Sys2Proof.Machine
set_option linter.unusedVariables false
set_option Elab.async false

/-! ### States -/

/-- The device in Run, right after a boot. -/
def run : State := { dev := { pwr := { state := 0, resetLow := false } } }
/-- A supervisor's session. -/
def boss : Requester := ⟨1, 3⟩
/-- The device in Run, changed. -/
def aft (f : Dev → Dev) : State := { run with dev := f run.dev }
/-- The device in Run with objects set. -/
def obj (l : List (Nat × Nat × Nat)) : State := aft fun d => l.foldl (fun e x => e.wr x.1 x.2.1 x.2.2) d
/-- A pair's active device, and objects. -/
def act (l : List (Nat × Nat × Nat)) : State := obj ([(0x2000, 2, 1), (0x2100, 1, 1)] ++ l)
/-- A pair's standby, and objects. -/
def sby (l : List (Nat × Nat × Nat)) : State := obj ([(0x2000, 2, 1), (0x2100, 1, 0)] ++ l)
/-- A packet of video for port 0. -/
def pkt : Packet := ⟨0, [], [], 0, 0, 0, false, 96, 1200, .video [] false⟩
/-- A picture of a decoder session. -/
def unit0 : AccessUnit := ⟨.picture, 0, 0, false, none, [], [], 1, 0, 1, 8, 64, 64, 0, 0, [], false, false, false, 0⟩
/-- A composition of output 0 with the first of its bands released. -/
def comp (racing : Bool) (height : Nat) : Comp :=
  { id := 1, target := 0, tick := 0, racing := racing, mask := 1, width := 2, height := height, released := [0] }
/-- The timing 1080p60. -/
def hd60 : Timing := ⟨1920, 1080, 2200, 1125, 4, 5, 36, 148500000, false⟩
/-- A raster frame of two pixels. -/
def ras (sent : Bool) (c : Option Comp) : Raster := { k := 3, width := 2, height := 2, comp := c, sent := sent, tm := some hd60 }
/-- A sink. -/
def sink : SinkCaps := ⟨[1], [2], 30, 4, true, [], []⟩
/-- A legend set of the format, its legends 10 pixels wide. -/
def legends : List Byte := [0, 6] ++ List.replicate 14 0 ++
  (List.replicate 6 ([10, 0] ++ List.replicate 40 0)).flatten ++ List.replicate 96 0
/-- A row of a picture. -/
def row0 (awaits : Bool) (actual : Option Nat) : RowRt := { row := 0, u := ⟨0, 1⟩, zu := 0, awaits := awaits, actual := actual, heads := [[1]] }
/-- A picture of a channel, one row high. -/
def pic (rows : List RowRt) (closed : Bool) : EncPic :=
  { count := 5, tick := 0, ref := 0, ts := ⟨0, 1⟩, tin := ⟨0, 1⟩, kind := 0, codec := 0, width := 16, height := 16, delay := 4, rate := 1000
    qmin := 10, qmax := 40, thr := 0, input := .source none, rows := rows, closed := closed, bytes := [7] }
/-- An open session of a supervisor on MGT0. -/
def ses : Session :=
  { num := 1, level := 3, via := .mgt 0 7, isOpen := true, key := [1], openedAt := 9, lastValid := 9, lastSeq := 4, cached := [5] }
/-- The session with a record in its stage. -/
def stg : Session := { ses with stage := [{ idx := 0x3000, sub := 0x0E, data := [1] }] }
/-- A session that is being opened. -/
def opening : Session := { ses with isOpen := false, lastSeq := 0 }
/-- The device with the session. -/
def talk (x : Session) : State := aft fun d => d.setSession x.num (some x)
/-- A request of the session. -/
def req (ty seq : Nat) (body : List Byte) : Datagram := { bytes := wdpMessage [1] ty 1 0 0 seq body }
/-- A management port. -/
def mgt0 : Transport := .mgt 0 7
/-- The mailbox channel 7. -/
def box7 : Transport := .pcie 7
/-- A session of a mailbox channel, the endpoint enabled. -/
def boxed (x : Session) : State :=
  aft fun d => ({ d with bootRegs := [(regKey 0x2044 1 0, 1)], pwr := { d.pwr with perst := true } } : Dev).setSession 71 (some x)
/-- The CANopen interface enabled, and objects. -/
def can (l : List (Nat × Nat × Nat)) : State := (obj l).mod fun d => { d with bootRegs := [(regKey 0x2043 1 0, 1), (regKey 0x2043 2 0, 5)] }
/-- An Announce message. -/
def ann : Announce := ⟨0, [1, 2], 1, 128, 6, 0, 0, 128, [3], 0, 0x20, 0, []⟩
/-- A report. -/
def rep (code sev : Nat) : Report := { unit := 7, code := code, p1 := 1, p2 := 2, sev := sev, time := 9 }
/-- The ring enabled, this node 3, and objects. -/
def rng (l : List (Nat × Nat × Nat)) : State :=
  (obj l).mod fun d => { d with bootRegs := [(regKey 0x2110 1 0, 3), (regKey 0x2110 2 0, 1)] }
/-- A lane with the word at bit 0. -/
def lane0 : LaneObs := ⟨0, false, 0⟩
/-- A received ring frame. -/
def frm : RingFrame := ⟨2, 1, 1, 0, 0, 1, 0, 0, 0, 0xFF, true, 0, false, .other, []⟩
/-- A slot table that gives node 3 a class 2 flow in every 32nd link-slot. -/
def slots : List Byte := List.replicate 16 0 ++
  (List.range 256).flatMap fun j => if j % 32 = 1 then [3, 2, 1, 0] else [0xFF, 0, 0, 0]
/-- A slot table that gives node 3 the class 5 flow 9 in every 32nd link-slot. -/
def slots5 : List Byte := List.replicate 16 0 ++
  (List.range 256).flatMap fun j => if j % 32 = 1 then [3, 5, 1, 9] else [0xFF, 0, 0, 0]
/-- A lane with the alignment word at its start. -/
def laneOk : LaneObs := ⟨alignWord * 2 ^ 1984, true, 512⟩

/-! ### What the checks refuse -/

/-- A requester above the levels. -/
def stranger : Requester := ⟨1, 4⟩

/-- Units of the display path that the part does not have. -/
theorem test_wf_refuses_display :
    [Instr.wingTick 0 4 [], .racingSelection 0 128, .ipPacketLaunch 0 63 0 false, .ipPacketLaunch 0 128 0 false,
      .frameCompletionTimeout 0 256, .legLost 0 0 2, .decodedPictureOutput 0 128 ⟨0, [], [], []⟩, .pictureRecord 0 16,
      .layerClaim 0 boss 512 0, .layerClaim 0 boss 0 4, .bandWritten 0 (.output 128) 0 ⟨0, 0, [], []⟩,
      .bandWritten 0 (.layer 512) 0 ⟨0, 0, [], []⟩, .dpUnplug 0 16, .curatorSwapPoint 0 16,
      .curatorStopped 0 0 4 0].any Instr.wf = false := by decide

/-- Ports, addresses and sessions that the part does not have. -/
theorem test_wf_refuses_ports :
    [Instr.netLinkDown 0 8, .phyPoll 0 2 true, .ptpAnnounceTimeout 0 10, .hello 0 (.mgt 2 0) ⟨[], 4870⟩,
      .hello 0 (.mgt 0 (2 ^ 32)) ⟨[], 4870⟩, .hello 0 (.inband 8 0) ⟨[], 4870⟩, .hello 0 (.pcie 8) ⟨[], 4870⟩, .wdpBlockExpiry 0 (2 ^ 32),
      .icmpEchoRequest 0 0 [1] [], .sessionTimeout 0 0, .sessionTimeout 0 33, .sessionTimeout 0 63, .sessionTimeout 0 72,
      .levelKeyWrite 0 boss 4 [], .swap 0 stranger, .swap 0 ⟨2 ^ 16, 3⟩, .usdoRead 0 (2 ^ 16) 0, .usdoRead 0 0 256,
      .rpdoReceived 0 8 [], .pcieWindowWrite 0 64 0 [], .mdioRead 0 boss 32 0 0, .mdioRead 0 boss 0 32 0,
      .mdioRead 0 boss 0 0 (2 ^ 16), .longOpAborted 0 64, .evtTail 0 8 0].any Instr.wf = false := by decide

/-- Units of the other parts that the part does not have. -/
theorem test_wf_refuses_units :
    [Instr.fabricAccess 0 ⟨0, 0, 0, 0, 0, 1, []⟩ ⟨[], []⟩, .fabricAccess 0 ⟨16, 0, 0, 0, 0, 1, []⟩ ⟨[], []⟩,
      .fabricAccess 0 ⟨1, 0, 4, 0, 0, 1, []⟩ ⟨[], []⟩, .fabricAccess 0 ⟨1, 0, 0, 3, 0, 1, []⟩ ⟨[], []⟩,
      .fabricAccess 0 ⟨1, 0, 0, 0, 2 ^ 40, 1, []⟩ ⟨[], []⟩, .fabricAccess 0 ⟨1, 0, 0, 0, 0, 0, []⟩ ⟨[], []⟩,
      .fabricAccess 0 ⟨1, 0, 0, 0, 0, 257, []⟩ ⟨[], []⟩, .accessRetire 0 21, .violationClear 0 boss (2 ^ 32),
      .scrubDone 0 2, .writeQueueDrain 0 64, .refresh 0 0 48, .hbmTemperature 0 0 128, .hbmTemperature 0 0 (-129),
      .evtStuck 0 25, .launchTime 0 64, .audUnderrun 0 16, .audioGroupStart 0 0, .audioGroupStart 0 9,
      .audStreamSilent 0 16, .touchRebaseline 0 boss 8, .ringLane 0 2 0, .ringLane 0 0 4,
      .slotTableChange 0 boss 2 0, .ringFrame 0 0 { frm with hops := 256 }, .mirroredWriteReceived 0 ⟨2 ^ 16, 0⟩ [] 0 0,
      .mirroredWriteReceived 0 ⟨0, 0⟩ [] 4 0, .journalClearEntry 0 boss 1024, .cvuAbort 0 boss 32, .calSkipped 0 0 0,
      .calSkipped 0 1 16, .calSkipped 0 9 0, .retentionRelease 0 boss 8, .resetRelease 0 2 0,
      .resetRelease 0 0 4].any Instr.wf = false := by decide

/-- The last of their units pass. -/
theorem test_wf_accepts_the_last :
    [Instr.wingTick 0 3 [], .racingSelection 0 127, .ipPacketLaunch 0 127 0 true, .layerClaim 0 boss 511 3,
      .dpUnplug 0 15, .ptpAnnounceTimeout 0 9, .sessionTimeout 0 32, .sessionTimeout 0 71, .accessRetire 0 20,
      .refresh 0 63 47, .evtStuck 0 24, .calSkipped 0 6 9, .journalClearEntry 0 boss 1023].all Instr.wf = true := by
  decide

/-! ### Figures of the spec -/

/-- ASCII "123456789". -/
def nineDigits : List Byte := [49, 50, 51, 52, 53, 54, 55, 56, 57]

/-- The last column of Table 18.7. -/
theorem test_crc_table_18_7 :
    (List.range 4).map (fun c => crcResult (crcParams c) (crcFeed (crcParams c) (crcParams c).init nineDigits)) =
      [0xCBF43926, 0xE3069283, 0x29B1, 0x6C40DF5F0B497347] := by decide +kernel

/-- The four balls that the example after R463 finds. -/
theorem test_balls_of_the_example :
    [(ballName 4 36, ballNet 4 36), (ballName 59 34, ballNet 59 34), (ballName 24 3, ballNet 24 3),
      (ballName 4 6, ballNet 4 6)] =
      [("D36", "DP5_AUXP"), ("CB34", "DP12_HPD"), ("AE3", "NET_RX[7]N"), ("D6", "XSPI_DQ[3]")] := by decide +kernel

/-! ### The hypotheses of the obligations -/

/-- A datagram that arrives and is rightly tagged is ready, part by part. -/
theorem ready {d : Dev} {via : Transport} {g : Datagram} {ty : Nat} {h : WdpHead} {x : Session}
    (served : d.wdpServed via = true) (addressed : d.wdpAddressed via g = true) (head : wdpHead g.bytes = some h)
    (kind : h.ty = ty) (uses : viaUses via h.sess = true) (found : d.session h.sess = some x) (isOpen : x.isOpen = true)
    (tag : wdpTagOf g.bytes = wdpTag x.key (wdpSigned g.bytes)) : d.wdpReady via g ty h x :=
  ⟨⟨served, addressed⟩, head, kind, uses, found, isOpen, tag⟩

/-- With nothing listed, every pseudo-channel serves. -/
theorem idle_pcs (d : Dev) (h : d.pcs = []) (j : Nat) : (d.pc j).state ≠ 2 := by
  simp [Dev.pc, h, Tab.getD]

theorem test_hyps_StepRunsTheFrontCommand :
    (let c : Instr := .heartbeat 1; let rest : List Instr := [.ringTick 2];
        let s : State := { run with pending := [.heartbeat 1, .ringTick 2] }; s.pending = c :: rest) ∧
    (let s := run; s.pending = []) :=
    by decide +kernel

theorem test_hyps_ResetLeavesTheStatedDefaults :
    (let w := 0; w < 4) ∧
    (let w := 3; w < 4) ∧
    (let k := 63; k < 64) :=
    by decide +kernel

theorem test_hyps_UnitsRestOutsideRun :
    let c : Instr := .wingFault 5 0 1; let s : State := .reset; let t := 5; needsRun c = some t ∧
    (s.found t).alive = false :=
    by decide

theorem test_hyps_ARefusedWriteChangesNothing :
    let c : Instr := .journalEmpty 5 ⟨1, 0⟩; let s := run; let t := 5; let i : Nat := 0x2400; let sub := 7;
    let by_ : Requester := ⟨1, 0⟩; let data : List Byte := [1]; commandObject c = some (t, by_, i, sub, data) ∧
    (s.found t).alive = true ∧ (s.found t).commandStatus by_ i sub data ≠ stOk :=
    by decide

theorem test_hyps_AStandbyRefusesMirroredWrites :
    (let d : Dev := (sby []).dev; let by_ : Requester := boss; let i : Nat := decIdx 0; let sub := 9;
        let data : List Byte := [1]; d.valueStatus by_.level i sub data = stOk ∧
        (d.standby = true ∧ isLocal i = false)) ∧
    (let d : Dev := (sby []).dev; let by_ : Requester := boss; let i : Nat := 0x2100; let sub := 5;
        let data : List Byte := [1]; d.valueStatus by_.level i sub data = stOk ∧
        (d.standby = false ∨ isLocal i = true)) ∧
    (let d : Dev := run.dev; let by_ : Requester := boss; let i : Nat := 0x1010; let sub := 1;
        let data : List Byte := leBytes 4 0x65766173; d.valueStatus by_.level i sub data = stOk ∧
        (d.standby = false ∨ isLocal i = true)) :=
    by decide +kernel

theorem test_hyps_MirroredCommandsWaitForTheirTick :
    let c : Instr := .decoderCounterReset 5 boss 127; let s := act []; let t := 5; let i : Nat := decIdx 127;
    let sub : Nat := 0x0F; let by_ : Requester := boss; let data : List Byte := [1]; let d := s.found t;
    plainMirrored c = true ∧ commandObject c = some (t, by_, i, sub, data) ∧ d.alive = true ∧ d.duplex = true ∧
    isLocal i = false ∧ d.commandStatus by_ i sub data = stOk :=
    by decide

theorem test_hyps_CoupledWingsAreThoseOfEqualTiming :
    (let v := 0; let w := 3; v < 4 ∧ w < 4) ∧
    (let v := 1; let w := 0; v < 4 ∧ w < 4) :=
    by decide +kernel

theorem test_hyps_TicksAreRaisedAtTheFirstCount :
    (let phase := 3; let t := 100000000; phase ≤ t) ∧
    (let phase := 0; let t := 0; phase ≤ t) ∧
    (let code := 7; let phase := 0; let t := 100000000; let j := 6; let num := periodNum code * 1000000000;
        let den := periodDen code; phase ≤ t ∧ t * den ≤ phase * den + j * num) :=
    by decide +kernel

theorem test_hyps_WingTickActsOnceForEachTick :
    ((let s := run; let t := 0; let w := 3; let d := s.found t; let k := d.tickOf w t; d.memUp = true ∧
        d.alive = true ∧ d.raises w k = true) ∧
      (let s := run; let t := 0; let w := 4; let d := s.found t; let k := d.tickOf w t; d.raises w k = false) ∧
      (let s := obj [(outIdx 127, 1, 1)]; let t := 0; let w := 3; let d := s.found t; let k := d.tickOf w t;
        d.alive = true ∧ d.raises w k = true ∧ d.mirror = [] ∧ d.pwr.releases = [] ∧ d.duplex = false ∧
        d.batches = [])) ∧
    (let s := aft fun d => { d with batches := [⟨5, 1, 0, 1, [{ idx := 0x34F2, sub := 12, data := [7, 1] }], []⟩] };
        let t := 20000000; let w := 0;
        let b : Batch := ⟨5, 1, 0, 1, [{ idx := 0x34F2, sub := 12, data := [7, 1] }], []⟩; let sub := 12;
        let data : List Byte := [7, 1]; let d := s.found t; let k := d.tickOf w t; d.alive = true ∧ w = 0 ∧
        d.raises 0 k = true ∧ d.mirror = [] ∧ d.pwr.releases = [] ∧ d.duplex = false ∧ d.batches = [b] ∧
        b.wing = 0 ∧ b.tick ≤ k ∧ b.done = [] ∧ b.recs = [{ idx := 0x34F2, sub := sub, data := data }] ∧ 1 ≤ sub ∧
        sub ≤ 0x0C) ∧
    (let s := aft fun d => { d with batches := [⟨5, 1, 0, 0, [{ idx := 0x34F2, sub := 1, data := [7, 1] }], []⟩] };
        let t := 20000000; let w := 0;
        let b : Batch := ⟨5, 1, 0, 0, [{ idx := 0x34F2, sub := 1, data := [7, 1] }], []⟩; let sub := 1;
        let data : List Byte := [7, 1]; let d := s.found t; let k := d.tickOf w t; d.alive = true ∧ w = 0 ∧
        d.raises 0 k = true ∧ d.mirror = [] ∧ d.pwr.releases = [] ∧ d.duplex = false ∧ d.batches = [b] ∧
        b.wing = 0 ∧ b.tick ≤ k ∧ b.done = [] ∧ b.recs = [{ idx := 0x34F2, sub := sub, data := data }] ∧ 1 ≤ sub ∧
        sub ≤ 0x0C) :=
    by refine ⟨?_, ?_, ?_⟩ <;> decide +kernel

theorem test_hyps_LongOperationsTakeTheLowestIdleSlot :
    (let d : Dev := (obj ((List.range 64).map fun k => (0x2080 + k, 2, 1))).dev;
        (∀ k, k < 64 → d.slotState k ≠ 0)) ∧
    (let d : Dev := (obj [(0x2080, 2, 1)]).dev; (∃ k, k < 64 ∧ d.slotState k = 0)) :=
    by decide +kernel

theorem test_hyps_LongOperationCommandsComplete :
    ((let s := obj [(0x20BF, 2, 1), (0x20BF, 0x0C, 1)]; let t := 5; let slot := 63; let by_ : Requester := boss;
        let d := s.found t; d.grants by_ (0x2080 + slot) 0x0E [1] ∧ d.slotState slot = 1 ∧
        (by_.sess = d.rd (0x2080 + slot) 0x0C ∨ (d.longOp slot).ownerLevel < by_.level)) ∧
      (let s := obj [(0x2080, 2, 1), (0x2080, 0x0C, 7)]; let t := 5; let slot := 0; let by_ : Requester := boss;
        let d := s.found t; d.grants by_ (0x2080 + slot) 0x0E [1] ∧ d.slotState slot = 1 ∧
        (by_.sess = d.rd (0x2080 + slot) 0x0C ∨ (d.longOp slot).ownerLevel < by_.level)) ∧
      (let s := run; let t := 5; let slot := 0; let by_ : Requester := boss; let d := s.found t;
        d.grants by_ (0x2080 + slot) 0x0E [1] ∧ d.slotState slot ≠ 1) ∧
      (let s := obj [(0x2080, 2, 2), (0x2080, 1, 3)]; let t := 0; let slot := 0; let by_ : Requester := boss;
        let d := s.found t; d.grants by_ (0x2080 + slot) 0x0E [2] ∧ 2 ≤ d.slotState slot) ∧
      (let s := obj [(0x20BF, 2, 4)]; let t := 0; let slot := 63; let by_ : Requester := boss; let d := s.found t;
        d.grants by_ (0x2080 + slot) 0x0E [2] ∧ 2 ≤ d.slotState slot) ∧
      (let s := run; let t := 5; let slot := 0; let by_ : Requester := boss; let d := s.found t;
        d.grants by_ (0x2080 + slot) 0x0E [2] ∧ d.slotState slot < 2)) ∧
    ((let s := (obj [(0x2080, 2, 1), (0x2080, 1, 3)]).mod fun d => d.setLongOp 0 { abortAsked := true };
        let t := 9; let slot := 0; let d := s.found t; d.alive = true ∧ d.slotState slot = 1 ∧
        (d.longOp slot).abortAsked = true ∧ d.rd (0x2080 + slot) 1 ∈ [3, 4, 7, 8]) ∧
      (let s := (obj [(0x20BF, 2, 1), (0x20BF, 1, 8)]).mod fun d => d.setLongOp 63 { abortAsked := true };
        let t := 9; let slot := 63; let d := s.found t; d.alive = true ∧ d.slotState slot = 1 ∧
        (d.longOp slot).abortAsked = true ∧ d.rd (0x2080 + slot) 1 ∈ [3, 4, 7, 8]) ∧
      (let s := (obj [(0x20BF, 2, 1), (0x20BF, 1, 9)]).mod fun d => d.setLongOp 63 { abortAsked := true };
        let t := 9; let slot := 63; let d := s.found t; d.alive = true ∧ slot < 64 ∧ d.slotState slot = 1 ∧
        (d.longOp slot).abortAsked = true ∧ d.rd (0x2080 + slot) 1 ≠ 1 ∧ d.rd (0x2080 + slot) 1 ≠ 2)) ∧
    (let s := (obj [(0x2080, 2, 1), (0x2080, 1, 5)]).mod fun d => d.setLongOp 0 { abortAsked := true };
        let t := 9; let slot := 0; let d := s.found t; d.alive = true ∧ slot < 64 ∧ d.slotState slot = 1 ∧
        (d.longOp slot).abortAsked = true ∧ d.rd (0x2080 + slot) 1 ≠ 1 ∧ d.rd (0x2080 + slot) 1 ≠ 2) :=
    by refine ⟨?_, ?_, ?_⟩ <;> (try unfold Dev.grants) <;> decide +kernel

theorem test_hyps_FaultsThatStopAUnitComplete :
    ((let s := run; let t := 5; let w := 0; let d := s.found t; d.alive = true ∧ (d.wing w).stopped = false) ∧
      (let s := run; let t := 5; let w := 3; let d := s.found t; d.alive = true ∧ (d.wing w).stopped = false) ∧
      (let s := run; let t := 5; let w := 3; let d := s.found t; d.alive = true ∧ d.curStopped.contains w = false) ∧
      (let s := run; let t := 5; let d := s.found t; d.guardOn = true ∧ d.guardianStopped = false) ∧
      (let s := run; let t := 5; let d := s.found t; d.alive = true) ∧
      (let s := aft fun d => { d with bootRegs := [(regKey 0x2046 1 0, 1)] }; let t := 5; let phy := 31;
        let reg := 31; let by_ : Requester := boss; let d := s.found t;
        d.grants by_ 0x2046 5 (leBytes 4 (mdioWord 0 phy reg 0)) ∧ d.mdioOn = true) ∧
      (let s := aft fun d => { d with bootRegs := [(regKey 0x2046 2 0, 1)] }; let t := 5; let phy := 31;
        let reg := 1; let v := 65535; let by_ : Requester := boss; let d := s.found t;
        d.grants by_ 0x2046 5 (leBytes 4 (mdioWord 1 phy reg v)) ∧ d.mdioOn = true)) ∧
    (let s := aft fun d => { d with bootRegs := [(regKey 0x2046 1 0, 1)] }; let t := 5; let g := 0;
        let up : Bool := true; let d := s.found t; d.alive = true ∧ d.sgmii (g % 2) = true ∧
        bits (d.rd 0x2046 7) (2 * (g % 2) + 1) (2 * (g % 2)) ≠ (if up then 2 else 0)) ∧
    (let s := (obj [(0x2046, 7, 8)]).mod fun d => { d with bootRegs := [(regKey 0x2046 2 0, 1)] }; let t := 5;
        let g := 1; let up : Bool := false; let d := s.found t; d.alive = true ∧ d.sgmii (g % 2) = true ∧
        bits (d.rd 0x2046 7) (2 * (g % 2) + 1) (2 * (g % 2)) ≠ (if up then 2 else 0)) ∧
    (let s := obj [(outIdx 127, 1, 1)]; let t := 5; let w := 3; let d := s.found t; d.alive = true ∧
        (d.wing w).stopped = false ∧ w < 4) ∧
    (let s := obj [(outIdx 0, 1, 1)]; let t := 5; let w := 0; let d := s.found t; d.alive = true ∧
        (d.wing w).stopped = false ∧ w < 4) ∧
    (let s := aft fun d => d.setOut 127 { raster := some (ras true none) }; let t := 5; let d := s.found t;
        d.guardOn = true ∧ d.guardianStopped = false) :=
    by refine ⟨?_, ?_⟩ <;> (try unfold Dev.grants) <;> decide +kernel

theorem test_hyps_AStoppedGuardianPairStopsTheHeartbeat :
    (let s := run; let t := 5; (s.found t).guardAlive = true ∧ s.dev.guardianStopped = false) ∧
    (let s := aft fun d => { d with guardianStopped := true }; s.dev.guardianStopped = true) :=
    by decide +kernel

theorem test_hyps_NetworkPortCommandsComplete :
    ((let s := obj [(0x2038, 0x0A, 2)]; let t := 5; let p := 0; let d := s.found t; d.alive = true ∧ p < 8 ∧
        d.rd (netIdx p) 0x0A ≠ 0) ∧
      (let s := obj [(0x203F, 0x0A, 2)]; let t := 5; let p := 7; let d := s.found t; d.alive = true ∧ p < 8 ∧
        d.rd (netIdx p) 0x0A ≠ 0) ∧
      (let s := run; let t := 5; let p := 0; let d := s.found t; d.alive = true ∧ d.portExists p = true ∧
        d.linkUp p = false) ∧
      (let s := run; let t := 5; let p := 4; let d := s.found t; d.alive = true ∧ d.portExists p = true ∧
        d.linkUp p = false)) ∧
    ((let s := obj [(0x2038, 0x0A, 2), (0x2038, 2, 0x0A000001)]; let t := 5; let p := 0;
        let addr : Nat := 0x0A000001; let d := s.found t; d.alive = true ∧ d.linkUp p = true ∧ addr ≠ 0 ∧
        addr = d.portV4 p) ∧
      (let s := obj [(0x2038, 0x0A, 2), (0x2038, 0x0D, 0x0A000063)]; let t := 5; let p := 0;
        let addr : Nat := 0x0A000063; let d := s.found t; d.alive = true ∧ d.linkUp p = true ∧ addr ≠ 0 ∧
        addr ≠ d.portV4 p ∧ addr = d.rd (netIdx p) 0x0D ∧ d.active = true) ∧
      (let s := sby []; let t := 5; let p := 0; let addr := 7; let d := s.found t; d.alive = true ∧
        addr ≠ d.portV4 p ∧ d.active = false)) ∧
    ((let s := (obj [(0x2038, 0x0A, 2)]).mod fun d => { d with doms := [(domKey 0x2038 1 0, [2, 0, 0, 0, 0, 1]), (domKey 0x2038 7 0, List.replicate 16 7)] };
        let t := 5; let p := 0; let ip : List Byte := List.replicate 16 7;
        let mac : List Byte := [2, 0, 0, 0, 0, 1]; let d := s.found t; d.alive = true ∧ d.linkUp p = true ∧
        d.v6Answer p ip = some mac) ∧
      (let s := obj [(0x2038, 0x0A, 2), (0x2038, 2, 0x0A000001)]; let t := 5; let p := 0;
        let addr : Nat := 0x0A000001; let ip : List Byte := List.replicate 10 0 ++ [0xFF, 0xFF, 10, 0, 0, 1];
        let d := s.found t; d.alive = true ∧ d.linkUp p = true ∧ mappedV4 ip = some addr ∧ addr ≠ 0 ∧
        addr = d.portV4 p) ∧
      (let s := (obj [(0x2038, 0x0A, 2)]).mod fun d => { d with doms := [(domKey 0x2038 1 0, [2, 0, 0, 0, 0, 1]), (domKey 0x2038 7 0, List.replicate 16 7)] };
        let t := 5; let p := 0; let ip : List Byte := List.replicate 16 7;
        let mac : List Byte := [2, 0, 0, 0, 0, 1]; let d := s.found t; d.alive = true ∧ d.linkUp p = true ∧
        mappedV4 ip = none ∧ d.v6Answer p ip = some mac) ∧
      (let s := run; let t := 5; let p := 0; let d := s.found t; d.alive = true ∧ d.curDown (p / 2) = false)) ∧
    ((let s := (obj [(0x2038, 0x0A, 2)]).mod fun d => { d with joinRepeats := [⟨4, 0, [1], [2], true⟩] };
        let t := 4; let p := 0; let addr := 0; let grp : List Byte := [1]; let src : List Byte := [2];
        let r : JoinRepeat := ⟨4, 0, [1], [2], true⟩; let d := s.found t; d.alive = true ∧
        d.curDown (p / 2) = false ∧ d.linkUp p = true ∧ d.joinRepeats = [r] ∧ r.port = p ∧ r.group = grp ∧
        r.addr = src ∧ r.due ≤ t) ∧
      (let s := obj [(0x2038, 0x0A, 2)]; let t := 5; let p := 0; let ip : List Byte := List.replicate 16 7;
        let d := s.found t; d.alive = true ∧ d.linkUp p = true ∧ mappedV4 ip = none ∧ d.v6Answer p ip = none)) ∧
    ((let s := (obj [(0x203F, 0x0A, 2), (srcIdx 255, 1, 1), (srcIdx 255, 0x0E, 7)]).mod fun d => { d with doms := [(domKey (srcIdx 255) 0x0F 0, List.replicate 16 0xFF), (domKey (srcIdx 255) 0x10 0, List.replicate 16 0)] };
        let t := 5; let p := 7; let grp : List Byte := List.replicate 16 0xFF;
        let src : List Byte := List.replicate 16 0; let v6 : Bool := true; let d := s.found t; d.alive = true ∧
        d.curDown (p / 2) = false ∧ d.linkUp p = true ∧ d.memberships p = [(grp, src)] ∧
        (mappedV4 grp).isSome = !v6 ∧ grp ≠ [] ∧ allZero src = true) ∧
      (let s := (obj [(0x203F, 0x0A, 2), (srcIdx 255, 1, 1), (srcIdx 255, 0x0E, 7)]).mod fun d => { d with doms := [(domKey (srcIdx 255) 0x0F 0, List.replicate 10 0 ++ [0xFF, 0xFF, 239, 0, 0, 1]), (domKey (srcIdx 255) 0x10 0, List.replicate 16 0)] };
        let t := 5; let p := 7; let grp : List Byte := List.replicate 10 0 ++ [0xFF, 0xFF, 239, 0, 0, 1];
        let src : List Byte := List.replicate 16 0; let v6 : Bool := false; let d := s.found t; d.alive = true ∧
        d.curDown (p / 2) = false ∧ d.linkUp p = true ∧ d.memberships p = [(grp, src)] ∧
        (mappedV4 grp).isSome = !v6 ∧ grp ≠ [] ∧ allZero src = true)) ∧
    (let s := (obj [(0x203F, 0x0A, 2), (srcIdx 255, 1, 1), (srcIdx 255, 0x0E, 7)]).mod fun d => { d with doms := [(domKey (srcIdx 255) 0x0F 0, List.replicate 16 0xFF), (domKey (srcIdx 255) 0x10 0, List.replicate 16 7)] };
        let t := 5; let p := 7; let grp : List Byte := List.replicate 16 0xFF;
        let src : List Byte := List.replicate 16 7; let v6 : Bool := true; let d := s.found t; d.alive = true ∧
        d.curDown (p / 2) = false ∧ d.linkUp p = true ∧ d.memberships p = [(grp, src)] ∧
        (mappedV4 grp).isSome = !v6 ∧ grp ≠ [] ∧ allZero src = false) ∧
    (let s := (obj [(0x203F, 0x0A, 2), (srcIdx 255, 1, 1), (srcIdx 255, 0x0E, 7)]).mod fun d => { d with doms := [(domKey (srcIdx 255) 0x0F 0, List.replicate 16 0xFF), (domKey (srcIdx 255) 0x10 0, List.replicate 16 7)] };
        let t := 5; let p := 7; let grp : List Byte := List.replicate 16 0xFF;
        let src : List Byte := List.replicate 16 7; let srcs : List (List Byte) := [[1]]; let v6 : Bool := true;
        let d := s.found t; d.alive = true ∧ d.curDown (p / 2) = false ∧ d.linkUp p = true ∧
        d.memberships p = [(grp, src)] ∧ (mappedV4 grp).isSome = !v6 ∧ grp ≠ [] ∧ allZero src = false ∧ src ∉ srcs ∧
        srcs ≠ []) :=
    by refine ⟨?_, ?_, ?_, ?_, ?_, ?_, ?_⟩ <;> decide +kernel

theorem test_hyps_MediaPacketsReachTheirSources :
    (let s := obj [(0x2038, 0x0A, 2)]; let t := 5; let n := 0; let p : Packet := pkt;
      let rows : List RowData := []; let int : Bool := false; let d := s.found t;
      let e := (d.incf (netIdx p.port) 0x0B 0).addf (netIdx p.port) 0x0B 1 p.len 8; d.alive = true ∧
      d.linkUp p.port = true ∧ p.body = .video rows int ∧
      (∀ n b, n < 256 → b < 2 → e.srcOn n = true → e.legTakes n b p (e.leg n b).udp = false)) ∧
    ((let s := obj [(0x2038, 0x0A, 2)]; let t := 5; let p : Packet := { pkt with body := .unicast };
        let d := s.found t; d.alive = true ∧ d.linkUp p.port = true ∧ p.body = .unicast) ∧
      (let s := obj [(0x2038, 0x0A, 2)]; let t := 5; let p : Packet := pkt; let rows : List RowData := [];
        let int : Bool := false; let d := s.found t; d.alive = true ∧ d.linkUp p.port = true ∧
        p.body = .video rows int) ∧
      (let s := obj [(0x2038, 0x0A, 2), (srcIdx 255, 3, 1)]; let t := 5; let n := 255; let p : Packet := pkt;
        let rows : List RowData := []; let int : Bool := false; let n := 255; let d := s.found t; d.alive = true ∧
        d.linkUp p.port = true ∧ p.body = .video rows int ∧ d.rd (srcIdx n) 3 = 1) ∧
      (let s := obj [(0x2038, 0x0A, 2), (srcIdx 0, 3, 1)]; let t := 5; let n := 0; let p : Packet := pkt;
        let rows : List RowData := []; let int : Bool := false; let n := 0; let d := s.found t; d.alive = true ∧
        d.linkUp p.port = true ∧ p.body = .video rows int ∧ d.rd (srcIdx n) 3 = 1)) ∧
    (let s := (obj [(0x2038, 0x0A, 2), (srcIdx 255, 1, 1), (srcIdx 255, 0x21, 1), (srcIdx 255, 3, 1), (srcIdx 255, 0x18, 96), (srcIdx 255, 0x19, 1000000), (srcIdx 255, 0x0E, 0), (srcIdx 255, 0x11, 0), (srcIdx 255, 5, 16), (srcIdx 255, 6, 16), (srcIdx 255, 8, 0), (srcIdx 255, 9, 10)]).mod fun d => (d.setSrc 255 { bufs := [{ id := 4 }] }).wrd (srcIdx 255) 0x0F [];
        let t := 5; let n := 255; let id := 4; let p : Packet := { pkt with body := .video [] false };
        let rows : List RowData := []; let x : SourceRt := { bufs := [{ id := 4 }] }; let d := s.found t;
        let i := srcIdx n; d.alive = true ∧ d.linkUp p.port = true ∧ n < 256 ∧ d.srcOn n = true ∧
        (∀ m, m < 256 → m ≠ n → d.srcOn m = false) ∧ d.takesRing n = false ∧ d.rdb i 0x12 = false ∧
        d.legTakes n 0 p (d.leg n 0).udp = true ∧ d.legState n 0 = 1 ∧ d.src n = x ∧ x.frames = [] ∧ d.rd i 3 = 1 ∧
        p.body = .video rows false ∧ d.videoPoliced n p rows false = false ∧ d.rd i 0x19 ≤ 1000000 ∧ x.vrxA.1 = 0 ∧
        x.seen = [] ∧ x.newA = none ∧ x.take.map (·.1) = some id) ∧
    (let s := (obj [(0x2038, 0x0A, 2), (srcIdx 255, 1, 1), (srcIdx 255, 0x21, 1), (srcIdx 255, 3, 1), (srcIdx 255, 0x18, 96), (srcIdx 255, 0x19, 1000000), (srcIdx 255, 0x0E, 0), (srcIdx 255, 0x11, 0), (srcIdx 255, 5, 16), (srcIdx 255, 6, 16), (srcIdx 255, 8, 0), (srcIdx 255, 9, 10)]).mod fun d => (d.setSrc 255 { bufs := [{ id := 4 }] }).wrd (srcIdx 255) 0x0F [];
        let t := 5; let n := 255; let id := 4;
        let p : Packet := { pkt with body := .video [⟨15, 14, [1, 2, 3, 4]⟩] false };
        let rows : List RowData := [⟨15, 14, [1, 2, 3, 4]⟩]; let x : SourceRt := { bufs := [{ id := 4 }] };
        let d := s.found t; let i := srcIdx n; d.alive = true ∧ d.linkUp p.port = true ∧ n < 256 ∧
        d.srcOn n = true ∧ (∀ m, m < 256 → m ≠ n → d.srcOn m = false) ∧ d.takesRing n = false ∧
        d.rdb i 0x12 = false ∧ d.legTakes n 0 p (d.leg n 0).udp = true ∧ d.legState n 0 = 1 ∧ d.src n = x ∧
        x.frames = [] ∧ d.rd i 3 = 1 ∧ p.body = .video rows false ∧ d.videoPoliced n p rows false = false ∧
        d.rd i 0x19 ≤ 1000000 ∧ x.vrxA.1 = 0 ∧ x.seen = [] ∧ x.newA = none ∧ x.take.map (·.1) = some id) ∧
    (let s := (obj [(0x2038, 0x0A, 2), (srcIdx 255, 1, 1), (srcIdx 255, 0x21, 1), (srcIdx 255, 3, 2), (srcIdx 255, 0x18, 96), (srcIdx 255, 0x1A, 1000), (srcIdx 255, 0x0E, 0), (srcIdx 255, 0x11, 0), (srcIdx 255, 0x1B, 127), (decIdx 127, 6, 1), (decIdx 127, 5, 2), (decIdx 127, 0x0B, 1)]).mod fun d => d.wrd (srcIdx 255) 0x0F [];
        let t := 5; let n := 255; let p : Packet := { pkt with body := .coded [1, 2] true false };
        let x : SourceRt := {}; let bytes : List Byte := [1, 2]; let auEnd : Bool := true; let d := s.found t;
        let i := srcIdx n; let k := d.rd i 0x1B; d.alive = true ∧ d.linkUp p.port = true ∧ n < 256 ∧
        d.srcOn n = true ∧ (∀ m, m < 256 → m ≠ n → d.srcOn m = false) ∧ d.takesRing n = false ∧
        d.rdb i 0x12 = false ∧ d.legTakes n 0 p (d.leg n 0).udp = true ∧ d.legState n 0 = 1 ∧ d.src n = x ∧
        x.frames = [] ∧ 2 ≤ d.rd i 3 ∧ p.body = .coded bytes auEnd false ∧ p.pt = d.rd i 0x18 ∧
        codedExcluded (d.rd i 3) bytes = false ∧ p.len * 8 ≤ d.rd i 0x1A * 125 ∧ x.rateA = [] ∧ x.units = [] ∧
        x.cut = [] ∧ x.policedTs = none ∧ k < 128 ∧ d.dec k = {} ∧ d.decState k = 1 ∧
        p.len ≤ d.rd (decIdx k) 5 * 1024) ∧
    (let s := (obj [(0x2038, 0x0A, 2), (srcIdx 255, 1, 1), (srcIdx 255, 0x0E, 0), (srcIdx 255, 0x11, 0), (srcIdx 255, 0x1C, 1), (srcIdx 255, 0x1D, 0x4107)]).mod fun d => d.wrd (srcIdx 255) 0x0F [];
        let t := 5; let n := 255; let v : Nat := 0x4107;
        let p : Packet := { pkt with udp := 2, body := .anc 0x41 7 [1, 2, 3, 255] };
        let ws : List Nat := [1, 2, 3, 255]; let d := s.found t; let i := srcIdx n; d.alive = true ∧
        d.linkUp p.port = true ∧ n < 256 ∧ d.srcOn n = true ∧ (∀ m, m < 256 → m ≠ n → d.srcOn m = false) ∧
        d.takesRing n = false ∧ d.legTakes n 0 p ((d.leg n 0).udp + 2) = true ∧ d.rd i 0x1C = 1 ∧
        p.body = .anc (v / 256) (v % 256) ws ∧ v = d.rd i 0x1D ∧ 4 ≤ ws.length ∧ (∀ q ∈ ws, q < 256)) :=
    by refine ⟨⟨by decide, by decide, by decide, fun n b hn hb h => absurd h (by revert n; decide +kernel)⟩, ?_,
      ?_, ?_, ?_, ?_⟩ <;> decide +kernel

theorem test_hyps_FramesEndAndArePublished :
    ((let s := aft fun d => d.setSrc 0 { frames := [{ ts := 90, first := 1000, ended := false, buf := none, marker := some 3 : InFrame }] };
        let t := 50000000; let n := 0;
        let f : InFrame := { ts := 90, first := 1000, ended := false, buf := none, marker := some 3 : InFrame };
        let d := s.found t; d.alive = true ∧ (d.src n).frames.find? (fun g => !g.ended) = some f ∧
        f.first + periodNs (d.rd (srcIdx n) 7) + (if d.rdb (srcIdx n) 0x12 then d.rd (srcIdx n) 0x17 * 1000000 else 0) ≤ t ∧
        (∀ g ∈ (d.src n).frames, g.mismatch = false)) ∧
      (let s := aft fun d => d.setSrc 0 { frames := [{ ts := 90, first := 1000, ended := true, buf := none, marker := some 3 : InFrame }] };
        let t := 5; let n := 0;
        let f : InFrame := { ts := 90, first := 1000, ended := true, buf := none, marker := some 3 : InFrame };
        let d := s.found t; d.alive = true ∧ (d.src n).frames = [f] ∧ f.ended = true ∧ f.buf = none ∧
        f.tooSoon = false ∧ f.policed = [])) ∧
    ((let s := aft fun d => d.setSrc 0 { bufs := [{ id := 0, filling := true }], frames := [{ ts := 90, first := 1000, ended := true, buf := some 0, marker := some 3 : InFrame }] };
        let t := 5; let n := 0;
        let f : InFrame := { ts := 90, first := 1000, ended := true, buf := some 0, marker := some 3 : InFrame };
        let id := 0; let d := s.found t; d.alive = true ∧ (d.src n).frames = [f] ∧ f.ended = true ∧
        f.buf = some id ∧ f.tooSoon = false ∧ f.policed = [] ∧ f.lost = 0 ∧ f.marker.isSome = true) ∧
      (let s := (obj [(srcIdx 0, 0x21, 4)]).mod fun d => d.setSrc 0 { lastB := some 7 }; let t := 100000007;
        let n := 0; let leg := 1; let a := 7; let d := s.found t; d.alive = true ∧
        (if leg = 0 then (d.src n).lastA else (d.src n).lastB) = some a ∧ a + 100000000 ≤ t ∧ d.legState n leg = 1)) ∧
    ((let s := (obj [(srcIdx 0, 0x20, 2)]).mod fun d => d.setSrc 0 { lastA := some 7 }; let t := 100000007;
        let n := 0; let a := 7; let d := s.found t; d.alive = true ∧ (d.src n).lastA = some a ∧ a + 100000000 ≤ t ∧
        d.rdb (srcIdx n) 0x12 = false ∧ d.srcState n = 2) ∧
      (let s := (obj [(srcIdx 255, 0x21, 5), (srcIdx 255, 3, 1)]).mod fun d => d.setSrc 255 { lastA := some 7, lastB := some 7 };
        let t := 100000007; let n := 255; let leg := 0; let a := 7; let d := s.found t; d.alive = true ∧ leg < 2 ∧
        (if leg = 0 then (d.src n).lastA else (d.src n).lastB) = some a ∧ a + 100000000 ≤ t ∧ d.legState n leg = 1 ∧
        (d.src n).frames = [] ∧ d.rd (srcIdx n) 3 = 1 ∧ d.rd (srcIdx n) 0x21 < 16)) ∧
    (let s := (obj [(srcIdx 255, 0x21, 5), (srcIdx 255, 3, 1)]).mod fun d => d.setSrc 255 { lastA := some 7, lastB := some 7 };
        let t := 100000007; let n := 255; let leg := 1; let a := 7; let d := s.found t; d.alive = true ∧ leg < 2 ∧
        (if leg = 0 then (d.src n).lastA else (d.src n).lastB) = some a ∧ a + 100000000 ≤ t ∧ d.legState n leg = 1 ∧
        (d.src n).frames = [] ∧ d.rd (srcIdx n) 3 = 1 ∧ d.rd (srcIdx n) 0x21 < 16) :=
    by refine ⟨?_, ?_, ?_, ?_⟩ <;> decide +kernel

theorem test_hyps_Is05ActivationCommitsABatch :
    ((let s := (sby []).mod fun d => { d with bootRegs := [(regKey 0x2036 1 0, 1)], nmos := { node := true } };
        let t := 5; let n := 255; let d := s.found t; d.alive = true ∧ d.curDown 0 = false ∧ d.nmos.node = true ∧
        d.nmosUp = true ∧ n < 256 ∧ d.standby = true) ∧
      (let s := aft fun d => { d with bootRegs := [(regKey 0x2036 1 0, 1)], nmos := { node := true } }; let t := 5;
        let n := 0; let f : Sdp := ⟨[], true⟩; let d := s.found t; d.alive = true ∧ d.curDown 0 = false ∧
        d.nmos.node = true ∧ d.nmosUp = true ∧ n < 256 ∧ d.standby = false ∧ f.unsupported = true)) ∧
    (let s := (obj [(0x2036, 5, 2)]).mod fun d => { d with bootRegs := [(regKey 0x2036 1 0, 1)], nmos := { node := true } };
        let t := 5; let n := 255; let f : Sdp := ⟨[(0x0E, [7])], false⟩; let at_ : Option Nat := none;
        let d := s.found t;
        let e : Dev := { d with nmos := { d.nmos with staged := Tab.setD d.nmos.staged n f.vals [] } };
        let r := e.commit 0x0200 (d.srcWing n) (d.tickFrom (d.srcWing n) (at_.getD (t + d.rd 0x2036 7 * 1000000))) (d.sdpRecs n f).2;
        d.alive = true ∧ d.curDown 0 = false ∧ d.nmos.node = true ∧ d.nmosUp = true ∧ n < 256 ∧ d.standby = false ∧
        f.unsupported = false ∧ d.pwr.state = 0 ∧ (d.sdpRecs n f).1 = stOk ∧ r.1.st = stOk) ∧
    (let s := (obj [(0x2036, 5, 2)]).mod fun d => { d with bootRegs := [(regKey 0x2036 1 0, 1)], nmos := { node := true } };
        let t := 5; let n := 0; let f : Sdp := ⟨[(0x0E, [7])], false⟩; let at_ : Option Nat := some (10 ^ 13);
        let d := s.found t;
        let e : Dev := { d with nmos := { d.nmos with staged := Tab.setD d.nmos.staged n f.vals [] } };
        let r := e.commit 0x0200 (d.srcWing n) (d.tickFrom (d.srcWing n) (at_.getD (t + d.rd 0x2036 7 * 1000000))) (d.sdpRecs n f).2;
        d.alive = true ∧ d.curDown 0 = false ∧ d.nmos.node = true ∧ d.nmosUp = true ∧ n < 256 ∧ d.standby = false ∧
        f.unsupported = false ∧ d.pwr.state = 0 ∧ (d.sdpRecs n f).1 = stOk ∧ r.1.st ≠ stOk) ∧
    (let s := aft fun d => { d with bootRegs := [(regKey 0x2036 1 0, 1)], nmos := { node := true } }; let t := 5;
        let n := 255; let f : Sdp := ⟨[(0x0E, [8])], false⟩; let d := s.found t; d.alive = true ∧
        d.curDown 0 = false ∧ d.nmos.node = true ∧ d.nmosUp = true ∧ n < 256 ∧ d.standby = false ∧
        f.unsupported = false ∧ d.pwr.state = 0 ∧ (d.sdpRecs n f).1 ≠ stOk) :=
    by refine ⟨?_, ?_, ?_, ?_⟩ <;> decide +kernel

theorem test_hyps_DecoderCommandsComplete :
    ((let s := (obj [(srcIdx 255, 1, 1), (srcIdx 255, 5, 2), (srcIdx 255, 6, 2), (srcIdx 255, 3, 2), (srcIdx 255, 0x1B, 127), (decIdx 127, 0x0B, 1)]).mod fun d => (d.setSrc 255 { bufs := [{ id := 4 }], units := [{ ts := 90, first := 1, bytes := 4, complete := true, abandoned := true, lost := true : InUnit }] }).setDec 127 { refs := [6], fill := 10, pics := [⟨0, 0, false, 90, 0, 90, 3, 1, 8, none⟩], lastOutTs := none };
        let t := 9; let k := 127; let n := 255;
        let w : InUnit := { ts := 90, first := 1, bytes := 4, complete := true, abandoned := true, lost := true : InUnit };
        let d := s.found t;
        let taken := d.alive = true ∧ d.boundSource k = some n ∧ (d.dec (d.rd (srcIdx n) 0x1B)).ahead = [] ∧ (d.src n).units.find? (·.complete) = some w;
        taken ∧ w.abandoned = true ∧ (w.lost = true ∨ w.overflow = true)) ∧
      (let s := (obj [(srcIdx 255, 1, 1), (srcIdx 255, 5, 2), (srcIdx 255, 6, 2), (srcIdx 255, 3, 2), (srcIdx 255, 0x1B, 127), (decIdx 127, 0x0B, 1)]).mod fun d => (d.setSrc 255 { bufs := [{ id := 4 }], units := [{ ts := 90, first := 1, bytes := 4, complete := true, lost := false : InUnit }] }).setDec 127 { refs := [6], fill := 10, pics := [⟨0, 0, false, 90, 0, 90, 3, 1, 8, none⟩], lastOutTs := none };
        let t := 9; let k := 127; let n := 255; let au : AccessUnit := unit0;
        let w : InUnit := { ts := 90, first := 1, bytes := 4, complete := true, lost := false : InUnit };
        let d := s.found t; let i := decIdx k;
        let e := (((((d.setSrc n { d.src n with units := (d.src n).units.erase w }).setDec k { d.dec k with fill := (d.dec k).fill - w.bytes }).addf (srcIdx n) 0x23 3 w.once.length 8).incf i 0x0E 0).addf i 0x0E 6 au.discardedNals 8);
        let taken := d.alive = true ∧ d.boundSource k = some n ∧ (d.dec (d.rd (srcIdx n) 0x1B)).ahead = [] ∧ (d.src n).units.find? (·.complete) = some w;
        taken ∧ w.abandoned = false ∧ e.decState k = 1)) ∧
    ((let s := (obj [(srcIdx 255, 1, 1), (srcIdx 255, 5, 2), (srcIdx 255, 6, 2), (srcIdx 255, 3, 2), (srcIdx 255, 0x1B, 127), (decIdx 127, 0x0B, 3)]).mod fun d => (d.setSrc 255 { bufs := [{ id := 4 }], units := [{ ts := 90, first := 1, bytes := 4, complete := true, lost := false : InUnit }] }).setDec 127 { refs := [6], fill := 10, pics := [⟨0, 0, false, 90, 0, 90, 3, 1, 8, none⟩], lastOutTs := none };
        let t := 9; let k := 127; let n := 255; let au : AccessUnit := unit0;
        let w : InUnit := { ts := 90, first := 1, bytes := 4, complete := true, lost := false : InUnit };
        let d := s.found t; let i := decIdx k;
        let e := (((((d.setSrc n { d.src n with units := (d.src n).units.erase w }).setDec k { d.dec k with fill := (d.dec k).fill - w.bytes }).addf (srcIdx n) 0x23 3 w.once.length 8).incf i 0x0E 0).addf i 0x0E 6 au.discardedNals 8);
        let taken := d.alive = true ∧ d.boundSource k = some n ∧ (d.dec (d.rd (srcIdx n) 0x1B)).ahead = [] ∧ (d.src n).units.find? (·.complete) = some w;
        taken ∧ w.abandoned = false ∧ e.decState k = 3) ∧
      (let s := (obj [(srcIdx 255, 1, 1), (srcIdx 255, 5, 2), (srcIdx 255, 6, 2), (srcIdx 255, 3, 2), (srcIdx 255, 0x1B, 127), (decIdx 127, 0x0B, 3)]).mod fun d => (d.setSrc 255 { bufs := [{ id := 4 }], units := [{ ts := 90, first := 1, bytes := 4, complete := true, lost := false : InUnit }] }).setDec 127 { refs := [6], fill := 10, pics := [⟨0, 0, false, 90, 0, 90, 3, 1, 8, none⟩], lastOutTs := none };
        let t := 9; let k := 127; let n := 255; let id := 0; let au : AccessUnit := unit0;
        let o : PictureOut := ⟨0, [], [], []⟩;
        let w : InUnit := { ts := 90, first := 1, bytes := 4, complete := true, lost := false : InUnit };
        let p : DecPic := ⟨0, 0, false, 90, 0, 90, 3, 1, 8, none⟩; let d := s.found t;
        let pic : DecPic := { id := au.pic, order := au.order, flushes := au.flushes, ts := w.ts, first := w.first, ext := w.ext, legs := w.legs, chroma := au.chroma, depth := au.depth, token := ((d.src n).ancTokens.find? fun y => y.1 == w.ts).map (·.2) };
        d.alive = true ∧ d.boundSource k = some n ∧ (d.dec k).next = some p ∧ o.pic = p.id ∧
        (d.dec k).lastOutTs = none ∧ d.decState k = 3)) ∧
    ((let s := (obj [(srcIdx 255, 1, 1), (srcIdx 255, 5, 2), (srcIdx 255, 6, 2), (srcIdx 255, 3, 2), (srcIdx 255, 0x1B, 127), (decIdx 127, 0x0B, 3)]).mod fun d => (d.setSrc 255 { bufs := [{ id := 4 }], units := [{ ts := 90, first := 1, bytes := 4, complete := true, lost := false : InUnit }] }).setDec 127 { refs := [6], fill := 10, pics := [⟨0, 0, false, 90, 0, 90, 3, 1, 8, none⟩], lastOutTs := some 90 };
        let t := 9; let k := 127; let n := 255; let id := 0; let au : AccessUnit := unit0;
        let o : PictureOut := ⟨0, [], [], []⟩;
        let w : InUnit := { ts := 90, first := 1, bytes := 4, complete := true, lost := false : InUnit };
        let p : DecPic := ⟨0, 0, false, 90, 0, 90, 3, 1, 8, none⟩; let q := 90; let d := s.found t;
        let pic : DecPic := { id := au.pic, order := au.order, flushes := au.flushes, ts := w.ts, first := w.first, ext := w.ext, legs := w.legs, chroma := au.chroma, depth := au.depth, token := ((d.src n).ancTokens.find? fun y => y.1 == w.ts).map (·.2) };
        d.alive = true ∧ d.boundSource k = some n ∧ (d.dec k).next = some p ∧ o.pic = p.id ∧
        (d.dec k).lastOutTs = some q ∧ p.ts = q ∧ q < 2 ^ 32) ∧
      (let s := (obj [(srcIdx 255, 1, 1), (srcIdx 255, 5, 2), (srcIdx 255, 6, 2), (srcIdx 255, 3, 2), (srcIdx 255, 0x1B, 127), (decIdx 127, 0x0B, 4)]).mod fun d => (d.setSrc 255 { bufs := [{ id := 4 }], units := [{ ts := 90, first := 1, bytes := 4, complete := true, lost := false : InUnit }] }).setDec 127 { refs := [6], fill := 10, pics := [⟨0, 0, false, 90, 0, 90, 3, 1, 8, none⟩], lastOutTs := none };
        let t := 9; let k := 127; let by_ : Requester := boss; let d := s.found t; d.grants by_ (decIdx k) 9 [1] ∧
        d.decState k = 4) ∧
      (let s := run; let t := 9; let k := 127; let by_ : Requester := boss; let d := s.found t;
        d.grants by_ (decIdx k) 9 [1] ∧ d.decState k ≠ 4)) ∧
    (let s := (obj [(srcIdx 255, 1, 1), (srcIdx 255, 3, 2), (srcIdx 255, 0x1B, 127), (srcIdx 255, 5, 64), (srcIdx 255, 6, 64), (srcIdx 255, 9, 8), (decIdx 127, 2, 2), (decIdx 127, 3, 1), (decIdx 127, 4, 8), (decIdx 127, 0x0B, 1)]).mod fun d => (d.setSrc 255 { units := [{ ts := 90, first := 1, bytes := 4, complete := true, lost := false : InUnit }] }).setDec 127 { refs := [6], fill := 10, pics := [] };
        let t := 9; let k := 127; let n := 255; let au : AccessUnit := { unit0 with kind := .random };
        let w : InUnit := { ts := 90, first := 1, bytes := 4, complete := true, lost := false : InUnit };
        let d := s.found t;
        let taken := d.alive = true ∧ d.boundSource k = some n ∧ (d.dec (d.rd (srcIdx n) 0x1B)).ahead = [] ∧ (d.src n).units.find? (·.complete) = some w;
        let sound := w.abandoned = false ∧ w.lost = false ∧ w.overflow = false ∧ au.syntaxError = false ∧ au.hashWrong = false ∧ d.formatError n k au = false ∧ au.rasl = none;
        taken ∧ sound ∧ au.kind = .random ∧ au.refs = [] ∧ d.decState k = 1) ∧
    (let s := (obj [(srcIdx 255, 1, 1), (srcIdx 255, 3, 2), (srcIdx 255, 0x1B, 127), (srcIdx 255, 5, 64), (srcIdx 255, 6, 64), (srcIdx 255, 9, 8), (decIdx 127, 2, 2), (decIdx 127, 3, 1), (decIdx 127, 4, 8), (decIdx 127, 0x0B, 1)]).mod fun d => (d.setSrc 255 { units := [{ ts := 90, first := 1, bytes := 4, complete := true, lost := false : InUnit }] }).setDec 127 { refs := [6], fill := 10, pics := [] };
        let t := 9; let k := 127; let n := 255; let au : AccessUnit := unit0;
        let w : InUnit := { ts := 90, first := 1, bytes := 4, complete := true, lost := false : InUnit };
        let d := s.found t;
        let taken := d.alive = true ∧ d.boundSource k = some n ∧ (d.dec (d.rd (srcIdx n) 0x1B)).ahead = [] ∧ (d.src n).units.find? (·.complete) = some w;
        let sound := w.abandoned = false ∧ w.lost = false ∧ w.overflow = false ∧ au.syntaxError = false ∧ au.hashWrong = false ∧ d.formatError n k au = false ∧ au.rasl = none;
        taken ∧ sound ∧ au.kind = .picture ∧ d.decState k = 1) ∧
    (let s := (obj [(srcIdx 255, 1, 1), (srcIdx 255, 3, 2), (srcIdx 255, 0x1B, 127), (srcIdx 255, 5, 64), (srcIdx 255, 6, 64), (srcIdx 255, 9, 8), (decIdx 127, 2, 2), (decIdx 127, 3, 1), (decIdx 127, 4, 8), (decIdx 127, 0x0B, 3)]).mod fun d => (d.setSrc 255 { units := [{ ts := 90, first := 1, bytes := 4, complete := true, lost := false : InUnit }] }).setDec 127 { refs := [6], fill := 10, pics := [] };
        let t := 9; let k := 127; let n := 255;
        let au : AccessUnit := { unit0 with refs := [6], keep := [6], pic := 7 };
        let w : InUnit := { ts := 90, first := 1, bytes := 4, complete := true, lost := false : InUnit };
        let d := s.found t;
        let taken := d.alive = true ∧ d.boundSource k = some n ∧ (d.dec (d.rd (srcIdx n) 0x1B)).ahead = [] ∧ (d.src n).units.find? (·.complete) = some w;
        let sound := w.abandoned = false ∧ w.lost = false ∧ w.overflow = false ∧ au.syntaxError = false ∧ au.hashWrong = false ∧ d.formatError n k au = false ∧ au.rasl = none;
        taken ∧ sound ∧ au.kind = .picture ∧ d.decState k = 3 ∧ (∀ y ∈ au.refs, y ∈ (d.dec k).refs)) ∧
    (let s := (obj [(srcIdx 255, 1, 1), (srcIdx 255, 5, 2), (srcIdx 255, 6, 2), (srcIdx 255, 3, 2), (srcIdx 255, 0x1B, 127), (decIdx 127, 0x0B, 3)]).mod fun d => (d.setSrc 255 { bufs := [{ id := 4 }], units := [{ ts := 90, first := 1, bytes := 4, complete := true, lost := false : InUnit }] }).setDec 127 { refs := [6], fill := 10, pics := [⟨0, 0, false, 90, 0, 90, 3, 1, 8, none⟩], lastOutTs := none };
        let t := 9; let k := 127; let n := 255; let id := 4; let au : AccessUnit := unit0;
        let o : PictureOut := ⟨0, [], [], []⟩;
        let w : InUnit := { ts := 90, first := 1, bytes := 4, complete := true, lost := false : InUnit };
        let p : DecPic := ⟨0, 0, false, 90, 0, 90, 3, 1, 8, none⟩;
        let x : SourceRt := { bufs := [{ id := 4, filling := true }], units := [{ ts := 90, first := 1, bytes := 4, complete := true, lost := false : InUnit }] };
        let d := s.found t;
        let pic : DecPic := { id := au.pic, order := au.order, flushes := au.flushes, ts := w.ts, first := w.first, ext := w.ext, legs := w.legs, chroma := au.chroma, depth := au.depth, token := ((d.src n).ancTokens.find? fun y => y.1 == w.ts).map (·.2) };
        d.alive = true ∧ d.boundSource k = some n ∧ (d.dec k).next = some p ∧ o.pic = p.id ∧
        (d.dec k).lastOutTs = none ∧ d.decState k = 3 ∧ (d.src n).take = some (id, x)) :=
    by refine ⟨?_, ?_, ?_, ?_, ?_, ?_, ?_⟩ <;> (try unfold Dev.grants) <;> decide +kernel

theorem test_hyps_CounterResetsClearTheirCounters :
    (let s := obj [(srcIdx 255, 0x23, 3)]; let t := 5; let n := 255; let by_ : Requester := boss;
      let c : Instr := .sourceCounterReset 5 boss 255; let i : Nat := srcIdx 255; let sub : Nat := 0x24;
      let subs : List Nat := [0x23]; let fields := 9; let d := s.found t;
      ((c, i, sub, subs, fields) = (.sourceCounterReset t by_ n, srcIdx n, 0x24, [0x23], 9) ∨ (c, i, sub, subs, fields) = (.decoderCounterReset t by_ n, decIdx n, 0x0F, [0x0E], 12) ∨ (c, i, sub, subs, fields) = (.outputCounterReset t by_ n, outIdx n, 0x16, [0x13, 0x14, 0x15], 1) ∨ (c, i, sub, subs, fields) = (.encoderCounterReset t by_ n, encIdx n, 0x29, [0x28], 8) ∨ (c, i, sub, subs, fields) = (.rateControlCounterReset t by_ n, rcIdx n, 0x0C, [9, 0x0A, 0x0B], 1) ∨ (c, i, sub, subs, fields) = (.duplexCounterReset t by_, 0x2100, 0x0F, [0x0E], 7)) ∧
      d.grants by_ i sub [1]) ∧
    (let s := run; let t := 5; let n := 127; let by_ : Requester := boss;
      let c : Instr := .decoderCounterReset 5 boss 127; let i : Nat := decIdx 127; let sub : Nat := 0x0F;
      let subs : List Nat := [0x0E]; let fields := 12; let d := s.found t;
      ((c, i, sub, subs, fields) = (.sourceCounterReset t by_ n, srcIdx n, 0x24, [0x23], 9) ∨ (c, i, sub, subs, fields) = (.decoderCounterReset t by_ n, decIdx n, 0x0F, [0x0E], 12) ∨ (c, i, sub, subs, fields) = (.outputCounterReset t by_ n, outIdx n, 0x16, [0x13, 0x14, 0x15], 1) ∨ (c, i, sub, subs, fields) = (.encoderCounterReset t by_ n, encIdx n, 0x29, [0x28], 8) ∨ (c, i, sub, subs, fields) = (.rateControlCounterReset t by_ n, rcIdx n, 0x0C, [9, 0x0A, 0x0B], 1) ∨ (c, i, sub, subs, fields) = (.duplexCounterReset t by_, 0x2100, 0x0F, [0x0E], 7)) ∧
      d.grants by_ i sub [1]) ∧
    (let s := run; let t := 5; let n := 127; let by_ : Requester := boss;
      let c : Instr := .outputCounterReset 5 boss 127; let i : Nat := outIdx 127; let sub : Nat := 0x16;
      let subs : List Nat := [0x13, 0x14, 0x15]; let fields := 1; let d := s.found t;
      ((c, i, sub, subs, fields) = (.sourceCounterReset t by_ n, srcIdx n, 0x24, [0x23], 9) ∨ (c, i, sub, subs, fields) = (.decoderCounterReset t by_ n, decIdx n, 0x0F, [0x0E], 12) ∨ (c, i, sub, subs, fields) = (.outputCounterReset t by_ n, outIdx n, 0x16, [0x13, 0x14, 0x15], 1) ∨ (c, i, sub, subs, fields) = (.encoderCounterReset t by_ n, encIdx n, 0x29, [0x28], 8) ∨ (c, i, sub, subs, fields) = (.rateControlCounterReset t by_ n, rcIdx n, 0x0C, [9, 0x0A, 0x0B], 1) ∨ (c, i, sub, subs, fields) = (.duplexCounterReset t by_, 0x2100, 0x0F, [0x0E], 7)) ∧
      d.grants by_ i sub [1]) ∧
    (let s := run; let t := 5; let n := 15; let by_ : Requester := boss;
      let c : Instr := .encoderCounterReset 5 boss 15; let i : Nat := encIdx 15; let sub : Nat := 0x29;
      let subs : List Nat := [0x28]; let fields := 8; let d := s.found t;
      ((c, i, sub, subs, fields) = (.sourceCounterReset t by_ n, srcIdx n, 0x24, [0x23], 9) ∨ (c, i, sub, subs, fields) = (.decoderCounterReset t by_ n, decIdx n, 0x0F, [0x0E], 12) ∨ (c, i, sub, subs, fields) = (.outputCounterReset t by_ n, outIdx n, 0x16, [0x13, 0x14, 0x15], 1) ∨ (c, i, sub, subs, fields) = (.encoderCounterReset t by_ n, encIdx n, 0x29, [0x28], 8) ∨ (c, i, sub, subs, fields) = (.rateControlCounterReset t by_ n, rcIdx n, 0x0C, [9, 0x0A, 0x0B], 1) ∨ (c, i, sub, subs, fields) = (.duplexCounterReset t by_, 0x2100, 0x0F, [0x0E], 7)) ∧
      d.grants by_ i sub [1]) ∧
    (let s := run; let t := 5; let n := 15; let by_ : Requester := boss;
      let c : Instr := .rateControlCounterReset 5 boss 15; let i : Nat := rcIdx 15; let sub : Nat := 0x0C;
      let subs : List Nat := [9, 0x0A, 0x0B]; let fields := 1; let d := s.found t;
      ((c, i, sub, subs, fields) = (.sourceCounterReset t by_ n, srcIdx n, 0x24, [0x23], 9) ∨ (c, i, sub, subs, fields) = (.decoderCounterReset t by_ n, decIdx n, 0x0F, [0x0E], 12) ∨ (c, i, sub, subs, fields) = (.outputCounterReset t by_ n, outIdx n, 0x16, [0x13, 0x14, 0x15], 1) ∨ (c, i, sub, subs, fields) = (.encoderCounterReset t by_ n, encIdx n, 0x29, [0x28], 8) ∨ (c, i, sub, subs, fields) = (.rateControlCounterReset t by_ n, rcIdx n, 0x0C, [9, 0x0A, 0x0B], 1) ∨ (c, i, sub, subs, fields) = (.duplexCounterReset t by_, 0x2100, 0x0F, [0x0E], 7)) ∧
      d.grants by_ i sub [1]) ∧
    (let s := run; let t := 5; let n := 0; let by_ : Requester := boss;
      let c : Instr := .duplexCounterReset 5 boss; let i : Nat := 0x2100; let sub : Nat := 0x0F;
      let subs : List Nat := [0x0E]; let fields := 7; let d := s.found t;
      ((c, i, sub, subs, fields) = (.sourceCounterReset t by_ n, srcIdx n, 0x24, [0x23], 9) ∨ (c, i, sub, subs, fields) = (.decoderCounterReset t by_ n, decIdx n, 0x0F, [0x0E], 12) ∨ (c, i, sub, subs, fields) = (.outputCounterReset t by_ n, outIdx n, 0x16, [0x13, 0x14, 0x15], 1) ∨ (c, i, sub, subs, fields) = (.encoderCounterReset t by_ n, encIdx n, 0x29, [0x28], 8) ∨ (c, i, sub, subs, fields) = (.rateControlCounterReset t by_ n, rcIdx n, 0x0C, [9, 0x0A, 0x0B], 1) ∨ (c, i, sub, subs, fields) = (.duplexCounterReset t by_, 0x2100, 0x0F, [0x0E], 7)) ∧
      d.grants by_ i sub [1]) :=
    ⟨⟨by simp, by unfold Dev.grants; decide⟩, ⟨by simp, by unfold Dev.grants; decide⟩, ⟨by simp,
      by unfold Dev.grants; decide⟩, ⟨by simp, by unfold Dev.grants; decide⟩, ⟨by simp,
      by unfold Dev.grants; decide⟩, ⟨by simp, by unfold Dev.grants; decide⟩⟩

theorem test_hyps_CompositionCommandsComplete :
    ((let s := (obj [(outIdx 0, 1, 1), (outIdx 0, 6, 1)]).mod fun d => d.setOut 0 { comps := [{ comp true 16 with written := [0] }] };
        let t := 13481481; let o := 0; let n := 1; let d := s.found t; d.alive = true ∧ d.outOn o = true ∧
        d.racing o = true ∧ d.racingFrame o = some n ∧ d.fedAlready o n = false ∧
        (∀ e ∈ (d.out o).comps, e.racing = true → e.complete = true)) ∧
      (let s := obj [(outIdx 127, 1, 1), (outIdx 127, 6, 1)]; let t := 13481482; let o := 127; let n := 1;
        let d := s.found t; d.alive = true ∧ d.outOn o = true ∧ d.racing o = true ∧ d.racingFrame o = some n ∧
        d.fedAlready o n = false ∧ (∀ e ∈ (d.out o).comps, e.racing = true → e.complete = true))) ∧
    ((let s := (obj [(outIdx 0, 1, 1), (outIdx 0, 6, 1)]).mod fun d => d.setOut 0 { comps := [comp true 16] };
        let t := 13481481; let o := 0; let n := 1; let c : Comp := comp true 16; let d := s.found t;
        d.alive = true ∧ d.outOn o = true ∧ d.racing o = true ∧ d.racingFrame o = some n ∧
        d.fedAlready o n = false ∧ c ∈ (d.out o).comps ∧ c.racing = true ∧ c.complete = false) ∧
      (let s := (obj [(outIdx 0, 1, 1), (outIdx 0, 6, 1)]).mod fun d => d.setOut 0 { comps := [{ comp true 32 with released := [] }] };
        let t := 1000000; let o := 0; let band := 1; let c : Comp := { comp true 32 with released := [] };
        let d := s.found t; d.alive = true ∧ (d.out o).comps = [c] ∧ c.racing = true ∧ band ∉ c.released ∧
        band < bandCount c.height ∧ c.selAt + d.lines o (16 * band) ≤ t)) ∧
    ((let s := (obj [(outIdx 0, 1, 1), (outIdx 0, 6, 1)]).mod fun d => d.setOut 0 { comps := [comp true 32] };
        let t := 9; let o := 0; let band := 0; let c : Comp := comp true 32; let d := s.found t;
        let q := d.drainAll s.mem; let e := q.1.cleanBand (.output o) band; d.memUp = true ∧
        e.bandComp (e.out o).comps band = some c ∧ c.written.length + 1 < bandCount c.height) ∧
      (let s := (obj [(outIdx 0, 1, 1), (outIdx 0, 6, 0)]).mod fun d => d.setOut 0 { comps := [comp false 32] };
        let t := 9; let o := 0; let band := 0; let c : Comp := comp false 32; let d := s.found t;
        let q := d.drainAll s.mem; let e := q.1.cleanBand (.output o) band; d.memUp = true ∧
        e.bandComp (e.out o).comps band = some c ∧ c.written.length + 1 < bandCount c.height) ∧
      (let s := (obj [(outIdx 0, 1, 1), (outIdx 0, 6, 0)]).mod fun d => d.setOut 0 { comps := [comp false 16] };
        let t := 9; let o := 0; let band := 0; let c : Comp := comp false 16; let d := s.found t;
        let q := d.drainAll s.mem; let e := q.1.cleanBand (.output o) band; d.memUp = true ∧
        e.bandComp (e.out o).comps band = some c ∧ c.racing = false ∧ c.written.length + 1 = bandCount c.height) ∧
      (let s := aft fun d => ({ d with layerComps := [{ comp false 16 with isLayer := true, job := some 0 }] } : Dev).setLayer 0 { slots := [{ num := 0, gen := 0, pitch := 32, size := 4096 }] };
        let t := 9; let l := 0; let band := 0; let j := 0;
        let c : Comp := { comp false 16 with isLayer := true, job := some 0 }; let d := s.found t;
        let q := d.drainAll s.mem; let e := q.1.cleanBand (.layer l) band; d.memUp = true ∧
        e.bandComp (e.layerComps.filter fun x => x.target == l) band = some c ∧
        c.written.length + 1 = bandCount c.height ∧ c.job = some j)) ∧
    ((let s := obj [(outIdx 127, 1, 1), (outIdx 127, 6, 1)]; let t := 9; let o := 127; let d := s.found t;
        d.alive = true ∧ d.outOn o = true ∧ d.racing o = true ∧ d.racingFrame o = none) ∧
      (let s := (obj [(outIdx 0, 1, 1), (outIdx 0, 6, 1)]).mod fun d => d.setOut 0 { comps := [{ comp true 16 with written := [0] }] };
        let t := 13481481; let o := 0; let n := 1; let d := s.found t; d.alive = true ∧ d.outOn o = true ∧
        d.racing o = true ∧ d.racingFrame o = some n ∧ d.fedAlready o n = false ∧
        (∀ e ∈ (d.out o).comps, e.racing = true → e.complete = true) ∧
        (∀ r, (d.out o).raster = some r → r.waits = false))) ∧
    ((let s := obj [(outIdx 127, 1, 1), (outIdx 127, 6, 1)]; let t := 13481482; let o := 127; let n := 1;
        let d := s.found t; d.alive = true ∧ d.outOn o = true ∧ d.racing o = true ∧ d.racingFrame o = some n ∧
        d.fedAlready o n = false ∧ (∀ e ∈ (d.out o).comps, e.racing = true → e.complete = true) ∧
        (∀ r, (d.out o).raster = some r → r.waits = false)) ∧
      (let s := (obj [(outIdx 0, 1, 1), (outIdx 0, 6, 1)]).mod fun d => d.setOut 0 { comps := [{ comp true 32 with released := [] }] };
        let t := 9; let o := 0; let band := 1; let c : Comp := { comp true 32 with released := [] };
        let d := s.found t; d.alive = true ∧ (d.out o).comps = [c] ∧ t < c.selAt + d.lines o (16 * band))) ∧
    (let s := (obj [(outIdx 0, 1, 1), (outIdx 0, 6, 1)]).mod fun d => d.setOut 0 { comps := [comp true 32] };
        let t := 9; let o := 0; let band := 0; let c : Comp := comp true 32; let b : BandObs := ⟨0, 0, [], []⟩;
        let d := s.found t; let q := d.drainAll s.mem; let e := q.1.cleanBand (.output o) band; d.memUp = true ∧
        (e.out o).comps = [c] ∧ e.bandComp [c] band = some c ∧ c.written.length + 1 < bandCount c.height ∧
        b.fault = 0 ∧ b.stampMismatch = [] ∧ b.poisoned = []) :=
    by refine ⟨?_, ?_, ?_, ?_, ?_, ?_⟩ <;> decide +kernel

theorem test_hyps_LayerClaimsFollowTheirStatuses :
    ((let s := run; let t := 9; let l := 511; let k := 3; let by_ : Requester := boss; let d := s.found t;
        d.grants by_ (layIdx l) 0x1A (leBytes 1 k) ∧ (d.rd (layIdx l) 0x1B = 1 ∨ (d.layer l).slots = [])) ∧
      (let s := (obj [(layIdx 511, 0x1B, 1)]).mod fun d => d.setLayer 511 { slots := [{ num := 0, gen := 0 }] };
        let t := 9; let l := 511; let k := 0; let by_ : Requester := boss; let d := s.found t;
        d.grants by_ (layIdx l) 0x1A (leBytes 1 k) ∧ (d.rd (layIdx l) 0x1B = 1 ∨ (d.layer l).slots = [])) ∧
      (let s := aft fun d => d.setLayer 511 { slots := [{ num := 3, gen := 0, state := 0 }] }; let t := 9;
        let l := 511; let k := 0; let by_ : Requester := boss; let d := s.found t;
        d.grants by_ (layIdx l) 0x1A (leBytes 1 k) ∧ d.rd (layIdx l) 0x1B ≠ 1 ∧ (d.layer l).slots ≠ [] ∧
        (∀ y ∈ (d.layer l).slots, y.num ≠ k)) ∧
      (let s := aft fun d => d.setLayer 511 { slots := [{ num := 3, gen := 0, state := 2 }] }; let t := 9;
        let l := 511; let k := 3; let by_ : Requester := boss; let x : Slot := { num := 3, gen := 0, state := 2 };
        let d := s.found t; d.grants by_ (layIdx l) 0x1A (leBytes 1 k) ∧ d.rd (layIdx l) 0x1B ≠ 1 ∧
        (d.layer l).slots.find? (fun y => y.num == k) = some x ∧ (x.state = 2 ∨ x.state = 3))) ∧
    (let s := aft fun d => d.setLayer 511 { slots := [{ num := 3, gen := 0, state := 3 }] }; let t := 9;
        let l := 511; let k := 3; let by_ : Requester := boss; let x : Slot := { num := 3, gen := 0, state := 3 };
        let d := s.found t; d.grants by_ (layIdx l) 0x1A (leBytes 1 k) ∧ d.rd (layIdx l) 0x1B ≠ 1 ∧
        (d.layer l).slots.find? (fun y => y.num == k) = some x ∧ (x.state = 2 ∨ x.state = 3)) ∧
    (let s := aft fun d => d.setLayer 511 { slots := [{ num := 3, gen := 0, state := 0 }] }; let t := 9;
        let l := 511; let k := 3; let by_ : Requester := boss; let x : Slot := { num := 3, gen := 0, state := 0 };
        let d := s.found t; d.grants by_ (layIdx l) 0x1A (leBytes 1 k) ∧ d.rd (layIdx l) 0x1B ≠ 1 ∧
        (d.layer l).slots.find? (fun y => y.num == k) = some x ∧ (x.state = 0 ∨ x.state = 1)) ∧
    (let s := aft fun d => d.setLayer 511 { slots := [{ num := 3, gen := 0, state := 1 }] }; let t := 9;
        let l := 511; let k := 3; let by_ : Requester := boss; let x : Slot := { num := 3, gen := 0, state := 1 };
        let d := s.found t; d.grants by_ (layIdx l) 0x1A (leBytes 1 k) ∧ d.rd (layIdx l) 0x1B ≠ 1 ∧
        (d.layer l).slots.find? (fun y => y.num == k) = some x ∧ (x.state = 0 ∨ x.state = 1)) :=
    by refine ⟨?_, ?_⟩ <;> (try unfold Dev.grants) <;> decide +kernel

/-- Whether the signature of `legends` verifies is open (`Config.ecdsaVerify`): one of the second and the fourth clause
applies to it. -/
theorem test_hyps_LegendSetsAreVerified :
    (let s := run; let t := 9; let by_ : Requester := boss; let set : List Byte := []; let d := s.found t;
        d.grants by_ 0x34F5 1 set ∧ set = []) ∧
    (let s := run; let t := 9; let by_ : Requester := boss; let set : List Byte := legends; let d := s.found t;
        d.grants by_ 0x34F5 1 set ∧ set ≠ [] ∧ legendFormatOk set = true) ∧
    (let s := run; let t := 9; let by_ : Requester := boss; let set : List Byte := [0, 5]; let d := s.found t;
        d.grants by_ 0x34F5 1 set ∧ set ≠ [] ∧ legendFormatOk set = false) :=
    by unfold Dev.grants; decide +kernel

theorem test_hyps_RasterCommandsComplete :
    ((let s := obj [(outIdx 127, 1, 1)]; let t := 9; let o := 127; let d := s.found t; d.alive = true ∧
        d.outOn o = true ∧ (d.out o).hold ≤ t + 1) ∧
      (let s := obj [(outIdx 0, 1, 1)]; let t := 9; let o := 0; let d := s.found t; d.alive = true ∧
        d.outOn o = true ∧ (d.out o).hold ≤ t + 1)) ∧
    (let s := (obj [(outIdx 63, 1, 1), (outIdx 63, 0x0C, 3)]).mod fun d => d.setOut 63 { raster := some (ras true none) };
        let t := 9; let o := 63; let line : Nat := hd60.top + 1; let r : Raster := ras true none;
        let missing : Option Nat := none; let c : Comp := { id := 0, target := 0, tick := 0 }; let d := s.found t;
        let e := (d.setOut o { d.out o with raster := some r }).showRow o (line - r.top) r.marked; d.alive = true ∧
        (d.out o).raster = some r ∧ r.top ≤ line ∧ line < r.top + r.height ∧ o < 64 ∧ r.sent = true ∧
        r.comp.any (fun c => c.racing && !c.written.contains ((line - r.top) / 16)) = false ∧ missing = none ∧
        e.rdb (outIdx o) 0x30 = false) ∧
    ((let s := (obj [(outIdx 0, 1, 1), (outIdx 0, 0x0C, 3)]).mod fun d => d.setOut 0 { raster := some (ras true (some (comp false 16))) };
        let t := 9; let o := 0; let line : Nat := hd60.top + 1; let m := 1;
        let r : Raster := ras true (some (comp false 16)); let missing : Option Nat := some 1; let d := s.found t;
        d.alive = true ∧ (d.out o).raster = some r ∧ r.top ≤ line ∧ line < r.top + r.height ∧ r.comp.isSome = true ∧
        r.comp.any (·.racing) = false ∧ missing = some m ∧ m < r.width) ∧
      (let s := (obj [(outIdx 0, 1, 1), (outIdx 0, 0x0C, 3)]).mod fun d => d.setOut 0 { raster := some (ras true none) };
        let t := 9; let o := 0; let r : Raster := ras true none; let d := s.found t; d.alive = true ∧
        (d.out o).raster = some r) ∧
      (let s := (obj [(outIdx 127, 1, 1), (outIdx 127, 0x0C, 3)]).mod fun d => d.setOut 127 { raster := some (ras true none) };
        let t := 9; let o := 127; let r : Raster := ras true none; let d := s.found t; d.alive = true ∧
        (d.out o).raster = some r)) ∧
    ((let s := (obj [(outIdx 0, 1, 1), (outIdx 0, 0x0C, 3)]).mod fun d => d.setOut 0 { raster := some (ras true none) };
        let t := 9; let o := 0; let r : Raster := ras true none; let d := s.found t; d.alive = true ∧
        (d.out o).raster = some r ∧ r.comp = none ∧ r.told.contains 2 = false) ∧
      (let s := (obj [(outIdx 0, 1, 1), (outIdx 0, 0x0C, 3)]).mod fun d => d.setOut 0 { raster := some ({ ras true none with repeated := true }) };
        let t := 9; let o := 0; let r : Raster := { ras true none with repeated := true }; let d := s.found t;
        d.alive = true ∧ (d.out o).raster = some r ∧ r.comp = none ∧ r.told.contains 2 = false) ∧
      (let s := aft fun d => d.setOut 127 { entry := some (ras true none) }; let t := 9; let o := 127;
        let r : Raster := ras true none; let d := s.found t; d.alive = true ∧ (d.out o).entry = some r ∧
        d.guardianStopped = false ∧ d.duplex = false)) ∧
    ((let s := obj [(outIdx 127, 1, 1)]; let t := 9; let o := 127; let tm : Timing := hd60; let d := s.found t;
        d.alive = true ∧ o < 128 ∧ d.outOn o = true ∧ (d.out o).hold ≤ t + 1 ∧ d.timing o = some tm) ∧
      (let s := obj [(outIdx 0, 1, 1), (outIdx 0, 4, 5)]; let t := 16740741; let o := 0; let tm : Timing := hd60;
        let d := s.found t; d.alive = true ∧ o < 128 ∧ d.outOn o = true ∧ (d.out o).hold ≤ t + 1 ∧
        d.timing o = some tm)) ∧
    (let s := (obj [(outIdx 127, 1, 1)]).mod fun d => d.setOut 127 { ready := [comp false 16] };
        let t := 20000000; let o := 127; let c : Comp := comp false 16; let d := s.found t; d.alive = true ∧
        o < 128 ∧ d.outOn o = true ∧ (d.out o).hold ≤ t + 1 ∧ d.racing o = false ∧ (d.out o).blackNext = false ∧
        (d.out o).comps = [] ∧ (d.out o).ready = [c] ∧ c.tick + 1 = d.rasterTick o) ∧
    (let s := (obj [(outIdx 127, 1, 1), (outIdx 127, 0x0C, 3)]).mod fun d => d.setOut 127 { raster := some (ras true none) };
        let t := 9; let o := 127; let r : Raster := ras true none; let d := s.found t; d.alive = true ∧ o < 128 ∧
        (d.out o).raster = some r ∧ r.told = []) :=
    by refine ⟨?_, ?_, ?_, ?_, ?_, ?_⟩ <;> decide +kernel

theorem test_hyps_IpPacketsLaunchInOrder :
    ((let s := (obj [(outIdx 64, 1, 1), (outIdx 64, 0x10, 2), (outIdx 64, 0x20, 0), (0x2038, 0x0A, 2)]).mod fun d => d.setOut 64 { raster := some (ras true none), sendSeq := 2 ^ 32 - 1 };
        let t := 9; let o := 64; let j := 0; let r : Raster := ras true none; let d := s.found t;
        let a := r.packet j; d.alive = true ∧ 64 ≤ o ∧ (d.out o).raster = some r ∧ a.1 < r.height ∧
        (r.launchAt j).near 51 (Q.ofNat t) = true ∧ r.comp = none ∧ r.evals = []) ∧
      (let s := (obj [(outIdx 64, 1, 1), (outIdx 64, 0x10, 3), (outIdx 64, 0x20, 0), (0x2038, 0x0A, 2)]).mod fun d => d.setOut 64 { raster := some (ras true none), sendSeq := 2 ^ 32 - 1 };
        let t := 50; let o := 64; let j := 0; let r : Raster := ras true none; let d := s.found t;
        let a := r.packet j; d.alive = true ∧ 64 ≤ o ∧ (d.out o).raster = some r ∧ a.1 < r.height ∧
        (r.launchAt j).near 51 (Q.ofNat t) = true ∧ r.comp = none ∧ r.evals = [])) ∧
    (let s := (obj [(outIdx 64, 1, 1), (outIdx 64, 0x10, 3), (outIdx 64, 0x20, 0), (0x2038, 0x0A, 2)]).mod fun d => d.setOut 64 { raster := some (ras true none), sendSeq := 2 ^ 32 - 1 };
        let t := 14814; let o := 64; let j := 1; let r : Raster := ras true none; let d := s.found t;
        let a := r.packet j; d.alive = true ∧ 64 ≤ o ∧ (d.out o).raster = some r ∧ a.1 < r.height ∧
        (r.launchAt j).near 51 (Q.ofNat t) = true ∧ r.comp = none ∧ r.evals = []) :=
    by refine ⟨?_, ?_⟩ <;> decide +kernel

theorem test_hyps_DisplayPortCommandsComplete :
    ((let s := sby []; let t := 9; let p := 15; let d := s.found t; d.alive = true ∧ (d.dp p).hpd = false ∧
        d.standby = true) ∧
      (let s := run; let t := 9; let p := 15; let d := s.found t; d.alive = true ∧ (d.dp p).hpd = false ∧
        d.standby = false) ∧
      (let s := (obj [(outIdx 0, 0x38, 40)]).mod fun d => d.setDp 0 { hpd := true, caps := some sink }; let t := 9;
        let p := 0; let d := s.found t; (d.dp p).hpd = true ∧ d.standby = false ∧ d.sinkBelow p = true) ∧
      (let s := aft fun d => d.setDp 15 { hpd := true, caps := some sink }; let t := 9; let p := 15;
        let d := s.found t; (d.dp p).hpd = true ∧ d.standby = false ∧ d.sinkBelow p = false) ∧
      (let s := aft fun d => d.setDp 15 { hpd := true, caps := some sink }; let t := 9; let p := 15;
        let d := s.found t; d.alive = true ∧ (d.dp p).hpd = true)) ∧
    ((let s := aft fun d => d.setDp 0 { hpd := true, caps := some sink }; let t := 9; let p := 0;
        let d := s.found t; d.alive = true ∧ (d.dp p).hpd = true ∧ d.standby = false) ∧
      (let s := aft fun d => d.setDp 15 { hpd := true, link := 3 }; let t := 9; let p := 15; let d := s.found t;
        d.alive = true ∧ (d.dp p).hpd = true ∧ d.standby = false) ∧
      (let s := aft fun d => d.setDp 0 { hpd := true, link := 2 }; let t := 9; let p := 0; let d := s.found t;
        d.alive = true ∧ (d.dp p).link = 2 ∧ d.duplex = false) ∧
      (let s := aft fun d => d.setDp 0 { hpd := true, link := 2 }; let t := 9; let p := 0; let d := s.found t;
        d.alive = true ∧ (d.dp p).link = 2) ∧
      (let s := aft fun d => d.setDp 0 { hpd := true, link := 4, failedAt := 3 }; let t := 1000000003; let p := 0;
        let d := s.found t; d.alive = true ∧ (d.dp p).link = 4 ∧ (d.dp p).failedAt + 1000000000 ≤ t)) ∧
    ((let s := run; let t := 9; let p := 15; let by_ : Requester := boss; let d := s.found t;
        let i := outIdx (4 * p); d.grants by_ i 0x3F [1]) ∧
      (let s := run; let t := 9; let p := 15; let caps : SinkCaps := sink; let d := s.found t;
        let seen := d.setDp p { d.dp p with hpd := true, caps := some caps }; p < 16 ∧ d.alive = true ∧
        (d.dp p).hpd = false ∧ d.standby = false ∧ seen.sinkBelow p = false) ∧
      (let s := aft fun d => d.setDp 15 { hpd := true, caps := some sink }; let t := 9; let p := 15;
        let d := s.found t; p < 16 ∧ d.alive = true ∧ (d.dp p).hpd = true) ∧
      (let s := aft fun d => d.setDp 15 { hpd := true, caps := some sink }; let t := 9; let p := 15;
        let d := s.found t; p < 16 ∧ d.alive = true ∧ (d.dp p).hpd = true ∧ d.standby = false ∧
        d.sinkBelow p = false)) ∧
    ((let s := aft fun d => d.setDp 15 { hpd := true, link := 2 }; let t := 9; let p := 15; let d := s.found t;
        p < 16 ∧ d.alive = true ∧ (d.dp p).link = 2 ∧ d.duplex = false) ∧
      (let s := aft fun d => d.setDp 15 { hpd := true, link := 2 }; let t := 9; let p := 15; let d := s.found t;
        p < 16 ∧ d.alive = true ∧ (d.dp p).link = 2) ∧
      (let s := aft fun d => d.setDp 15 { hpd := true, link := 4, failedAt := 3 }; let t := 1000000003;
        let p := 15; let d := s.found t; p < 16 ∧ d.alive = true ∧ (d.dp p).link = 4 ∧
        (d.dp p).failedAt + 1000000000 ≤ t ∧ (d.dp p).hpd = true ∧ d.standby = false ∧ d.sinkBelow p = false)) ∧
    (let s := aft fun d => d.setDp 15 { hpd := true, link := 2 }; let t := 9; let p := 15;
        let by_ : Requester := boss; let d := s.found t; let i := outIdx (4 * p); p < 16 ∧ d.alive = true ∧
        d.grants by_ i 0x3F [1] ∧ (d.dp p).hpd = true ∧ d.standby = false ∧ d.sinkBelow p = false) :=
    by refine ⟨?_, ?_, ?_, ?_, ?_⟩ <;> (try unfold Dev.grants) <;> decide +kernel

theorem test_hyps_EncoderCommandsComplete :
    ((let s := (obj [(encIdx 15, 1, 1), (encIdx 15, 6, 1), (encIdx 15, 0x23, 2), (encIdx 15, 0x11, 0), (encIdx 15, 4, 1)]).mod fun d => d.setEnc 15 {  };
        let t := 0; let c := 15; let tick := 0; let d := s.found t; let i := encIdx c; d.alive = true ∧
        d.rd i 6 ≠ 0 ∧ d.encTakes c t = true ∧ d.encTick c = some tick ∧ (∀ x ∈ (d.enc c).pics, x.tick ≠ tick)) ∧
      (let s := (obj [(encIdx 15, 1, 1), (encIdx 15, 6, 1), (encIdx 15, 0x23, 2), (encIdx 15, 0x11, 0), (encIdx 15, 4, 1)]).mod fun d => d.setEnc 15 { pics := [pic [] false] };
        let t := 10000000; let c := 15; let row := 0; let p : EncPic := pic [] false; let d := s.found t;
        d.alive = true ∧ (d.enc c).pics = [p] ∧ p.rows.length = row ∧ row < p.nRows)) ∧
    ((let s := (obj [(encIdx 15, 1, 1), (encIdx 15, 6, 1), (encIdx 15, 0x23, 2), (encIdx 15, 0x11, 0), (encIdx 15, 4, 1)]).mod fun d => d.setEnc 15 { pics := [pic [row0 false none] false] };
        let t := 10000000; let c := 15; let row := 0; let ob : SliceObs := ⟨none, 0, 0⟩;
        let p : EncPic := pic [row0 false none] false; let r : RowRt := row0 false none; let d := s.found t;
        d.alive = true ∧ (d.enc c).pics = [p] ∧ p.rows = [r] ∧ r.row = 0 ∧ r.actual = none ∧ r.awaits = false ∧
        ob.fault = 0) ∧
      (let s := (obj [(encIdx 15, 1, 1), (encIdx 15, 6, 1), (encIdx 15, 0x23, 2), (encIdx 15, 0x11, 0), (encIdx 15, 4, 1)]).mod fun d => d.setEnc 15 { pics := [pic [row0 false none] false] };
        let t := 10000000; let c := 15; let row := 0; let ob : SliceObs := ⟨some 0, 0, 0⟩;
        let p : EncPic := pic [row0 false none] false; let r : RowRt := row0 false none; let d := s.found t;
        d.alive = true ∧ (d.enc c).pics = [p] ∧ p.rows = [r] ∧ r.row = 0 ∧ r.actual = none ∧ r.awaits = false ∧
        ob.fault = 0)) ∧
    ((let s := (obj [(encIdx 15, 1, 1), (encIdx 15, 6, 1), (encIdx 15, 0x23, 2), (encIdx 15, 0x11, 1), (encIdx 15, 4, 1)]).mod fun d => d.setEnc 15 {  };
        let t := 10000000; let c := 15; let d := s.found t; let i := encIdx c; d.alive = true ∧
        (d.enc c).nals.head?.elim (d.rd i 0x11) (·.carriage) = 1 ∧ d.encState c ≠ 0) ∧
      (let s := (obj [(encIdx 15, 1, 1), (encIdx 15, 0x23, 2), (encIdx 15, 0x11, 2), (encIdx 15, 0x15, 0), (encIdx 15, 0x1E, 1200), (0x2038, 0x0A, 2)]).mod fun d => d.setEnc 15 { nals := [{ pic := 5, ts := 0, bytes := [0x65, 1, 2] }], seq := 2 ^ 32 - 1 };
        let t := 10000000; let c := 15; let q : OutNal := { pic := 5, ts := 0, bytes := [0x65, 1, 2] };
        let d := s.found t; d.alive = true ∧ q.carriage ≠ 1 ∧ (d.enc c).nals = [q] ∧ (d.enc c).pics = [])) ∧
    ((let s := (obj [(encIdx 15, 1, 1), (encIdx 15, 6, 1), (encIdx 15, 0x23, 2), (encIdx 15, 0x11, 0), (encIdx 15, 4, 1)]).mod fun d => d.setEnc 15 { pics := [pic [row0 false (some 8)] true] };
        let t := 10000000; let c := 15; let p : EncPic := pic [row0 false (some 8)] true; let d := s.found t;
        d.alive = true ∧ d.wingDown (encWing c) = false ∧ d.duplex = false ∧ (d.enc c).donePic = some p ∧
        p.closed = true ∧ (d.enc c).begin_ ≠ 2 ∧ (d.enc c).pics = [p] ∧
        Q.le (p.dAt (p.nRows - 1)) (Q.ofNat t) = true ∧ d.resyncSlot = none) ∧
      (let s := (obj [(encIdx 15, 1, 1), (encIdx 15, 6, 1), (encIdx 15, 0x23, 3), (encIdx 15, 0x11, 0), (encIdx 15, 4, 1)]).mod fun d => d.setEnc 15 {  };
        let t := 10000000; let c := 15; let d := s.found t; d.alive = true ∧ d.encState c = 3 ∧
        (d.enc c).pics = [] ∧ d.resyncSlot = none)) ∧
    (let s := (obj [(encIdx 15, 1, 1), (encIdx 15, 6, 1), (encIdx 15, 0x23, 3), (encIdx 15, 0x11, 0), (encIdx 15, 4, 1)]).mod fun d => d.setEnc 15 { pics := [pic [row0 true none] false] };
        let t := 100000000; let c := 15; let p : EncPic := pic [row0 true none] false;
        let r : RowRt := row0 true none; let d := s.found t; d.alive = true ∧ d.encState c = 3 ∧
        d.resyncSlot = none ∧ (d.enc c).pics = [p] ∧ p.rows = [r] ∧ r.awaits = true ∧
        Q.le (r.u.add ((d.period (encWing c)).mul 2)) (Q.ofNat t) = true) ∧
    (let s := (sby [(encIdx 15, 1, 1), (encIdx 15, 0x23, 2), (encIdx 15, 0x11, 2), (encIdx 15, 0x15, 0), (encIdx 15, 0x1E, 1200), (0x2038, 0x0A, 2)]).mod fun d => d.setEnc 15 { nals := [{ pic := 5, ts := 0, bytes := [0x65, 1, 2] }], seq := 2 ^ 32 - 1 };
        let t := 10000000; let c := 15; let q : OutNal := { pic := 5, ts := 0, bytes := [0x65, 1, 2] };
        let d := s.found t; d.alive = true ∧ q.carriage ≠ 1 ∧ (d.enc c).nals = [q] ∧ (d.enc c).pics = []) :=
    by refine ⟨?_, ?_, ?_, ?_, ?_⟩ <;> decide +kernel

/-- The third clause stands below. -/
theorem test_hyps_OpeningASessionCompletes :
    (let s := run; let t := 9; let n := 1; let via : Transport := mgt0;
      let g : Datagram := { bytes := wdpMessage [1] 1 0 0 0 0 ([3, 0, 0, 0] ++ List.replicate 16 9) |>.take 36 |>.append (List.replicate 32 0) };
      let h : WdpHead := ⟨1, 0, 0, 0, 20⟩; let kv : List Byte := Config.factoryKey 0; let d := s.found t;
      let p := wdpPayload g.bytes; d.wdpArrives via g ∧ wdpHead g.bytes = some h ∧ h.ty = 1 ∧ h.sess = 0 ∧
      p.length = 20 ∧ allZero (wdpTagOf g.bytes) = true ∧ d.levelKeyFor via (byteAt p 0) = some kv ∧
      d.isBlocked via = false ∧ d.freeSession via = some n ∧ s.dev.pwr.resetAsked = false) ∧
    (let s := talk opening; let t := 9; let via : Transport := mgt0; let g : Datagram := req 3 1 [];
      let h : WdpHead := ⟨3, 1, 0, 1, 0⟩; let x : Session := opening; let d := s.found t; d.wdpArrives via g ∧
      wdpHead g.bytes = some h ∧ h.ty = 3 ∧ viaUses via h.sess = true ∧ d.session h.sess = some x ∧
      x.isOpen = false ∧ s.dev.pwr.resetAsked = false ∧ wdpTagOf g.bytes = wdpTag x.key (wdpSigned g.bytes) ∧
      t ≤ x.openedAt + 2000000000 ∧ h.seq = 1) ∧
    (let s := talk opening; let t := 2000000009; let n := 1; let x : Session := opening; let d := s.found t;
        d.session n = some x ∧ x.isOpen = false ∧ x.openedAt + 2000000000 ≤ t) ∧
    (let s := aft fun d => { d with blocked := [(7, 100)] }; let t := 100; let addr := 7; let d := s.found t;
        Tab.getD d.blocked addr 0 ≤ t) ∧
    (let s := talk ses; let t : Nat := 10^15; let n := 1; let x : Session := ses; let d := s.found t;
        d.alive = true ∧ d.session n = some x ∧ x.isOpen = true ∧ x.lastValid + d.rd 0x2040 3 * 1000000000 ≤ t) :=
    ⟨⟨⟨rfl, rfl⟩, rfl, by decide, by decide, by decide, rfl, rfl, by decide⟩, ⟨⟨rfl, rfl⟩, rfl, by decide,
      by decide, by decide, by decide, by decide, rfl, by decide⟩, by decide +kernel⟩

theorem test_hyps_RequestsKeepTheirSequence :
    (let s := talk ses; let t := 9; let ty := 4; let via : Transport := mgt0;
      let g : Datagram := req 4 5 [1, 2, 3, 4]; let h : WdpHead := ⟨4, 1, 0, 5, 4⟩; let x : Session := ses;
      let c : Instr := .close 9 mgt0 (req 4 5 [1, 2, 3, 4]); let d := s.found t;
      (c, ty) ∈ [(Instr.close t via g, 0x04), (.echo t via g, 0x05), (.read t via g, 0x10), (.write t via g, 0x11), (.stage t via g, 0x12), (.commitAtTick t via g, 0x13), (.discard t via g, 0x14), (.cancel t via g, 0x15), (.subscribe t via g, 0x18)] ∧
      d.wdpReady via g ty h x ∧ s.dev.pwr.resetAsked = false ∧ h.seq = x.lastSeq + 1) ∧
    (let s := talk ses; let t := 9; let ty := 24; let via : Transport := mgt0;
      let g : Datagram := req 24 4 [1, 2, 3, 4]; let h : WdpHead := ⟨24, 1, 0, 4, 4⟩; let x : Session := ses;
      let c : Instr := .subscribe 9 mgt0 (req 24 4 [1, 2, 3, 4]); let d := s.found t;
      (c, ty) ∈ [(Instr.close t via g, 0x04), (.echo t via g, 0x05), (.read t via g, 0x10), (.write t via g, 0x11), (.stage t via g, 0x12), (.commitAtTick t via g, 0x13), (.discard t via g, 0x14), (.cancel t via g, 0x15), (.subscribe t via g, 0x18)] ∧
      d.wdpReady via g ty h x ∧ s.dev.pwr.resetAsked = false ∧ h.seq = x.lastSeq) ∧
    (let s := talk ses; let t := 9; let ty := 4; let via : Transport := mgt0;
      let g : Datagram := req 4 3 [1, 2, 3, 4]; let h : WdpHead := ⟨4, 1, 0, 3, 4⟩; let x : Session := ses;
      let c : Instr := .close 9 mgt0 (req 4 3 [1, 2, 3, 4]); let d := s.found t;
      (c, ty) ∈ [(Instr.close t via g, 0x04), (.echo t via g, 0x05), (.read t via g, 0x10), (.write t via g, 0x11), (.stage t via g, 0x12), (.commitAtTick t via g, 0x13), (.discard t via g, 0x14), (.cancel t via g, 0x15), (.subscribe t via g, 0x18)] ∧
      d.wdpReady via g ty h x ∧ s.dev.pwr.resetAsked = false ∧ h.seq < x.lastSeq) ∧
    (let s := talk ses; let t := 9; let ty := 4; let via : Transport := mgt0;
      let g : Datagram := req 4 6 [1, 2, 3, 4]; let h : WdpHead := ⟨4, 1, 0, 6, 4⟩; let x : Session := ses;
      let c : Instr := .close 9 mgt0 (req 4 6 [1, 2, 3, 4]); let d := s.found t;
      (c, ty) ∈ [(Instr.close t via g, 0x04), (.echo t via g, 0x05), (.read t via g, 0x10), (.write t via g, 0x11), (.stage t via g, 0x12), (.commitAtTick t via g, 0x13), (.discard t via g, 0x14), (.cancel t via g, 0x15), (.subscribe t via g, 0x18)] ∧
      d.wdpReady via g ty h x ∧ s.dev.pwr.resetAsked = false ∧ x.lastSeq + 1 < h.seq ∧ x.early.length < 8 ∧
      (∀ y ∈ x.early, y.1 ≠ h.seq)) :=
    ⟨⟨by simp, ready rfl rfl rfl rfl rfl rfl rfl rfl, by decide⟩, ⟨by simp,
      ready rfl rfl rfl rfl rfl rfl rfl rfl, by decide⟩, ⟨by simp, ready rfl rfl rfl rfl rfl rfl rfl rfl,
      by decide⟩, ⟨by simp, ready rfl rfl rfl rfl rfl rfl rfl rfl, by decide⟩⟩

theorem test_hyps_RequestsDoWhatTheyAsk :
    (let s := talk ses; let t := 9; let via : Transport := mgt0; let g : Datagram := req 5 5 [1, 2];
      let h : WdpHead := ⟨5, 1, 0, 5, 2⟩; let x : Session := ses; let d := s.found t; let n := h.sess; x.num = n ∧
      h.seq = x.lastSeq + 1 ∧ x.early = [] ∧ s.dev.pwr.resetAsked = false ∧ d.wdpReady via g 0x05 h x) ∧
    (let s := talk ses; let t := 9; let via : Transport := mgt0;
      let g : Datagram := req 16 5 [0x01, 0x10, 0, 0, 0, 0, 0, 0]; let h : WdpHead := ⟨16, 1, 0, 5, 8⟩;
      let x : Session := ses; let d := s.found t; let n := h.sess; x.num = n ∧ h.seq = x.lastSeq + 1 ∧
      x.early = [] ∧ s.dev.pwr.resetAsked = false ∧ d.wdpReady via g 0x10 h x) ∧
    (let s := talk ses; let t := 9; let via : Transport := mgt0;
      let g : Datagram := req 17 5 [0x17, 0x10, 0, 1, 0, 0, 0, 0, 2, 0, 0, 0, 100, 0, 0, 0];
      let h : WdpHead := ⟨17, 1, 0, 5, 16⟩; let x : Session := ses; let y : Session := ses; let d := s.found t;
      let n := h.sess; let p := wdpPayload g.bytes; let x' := { x with lastValid := t };
      let e := d.setSession n (some x'); x.num = n ∧ h.seq = x.lastSeq + 1 ∧ x.early = [] ∧
      s.dev.pwr.resetAsked = false ∧ d.wdpReady via g 0x11 h x ∧ (Dev.wdpWrite s.mem e x' p).2.session n = some y ∧
      y.early = [] ∧ (Dev.wdpWrite s.mem e x' p).2.pwr.resetAsked = false) ∧
    (let s := talk ses; let t := 9; let via : Transport := mgt0;
      let g : Datagram := req 18 5 [0x00, 0x34, 1, 1, 0, 0, 0, 0, 1, 0, 0, 0, 1, 0, 0, 0];
      let h : WdpHead := ⟨18, 1, 0, 5, 16⟩; let x : Session := ses;
      let rs : List WRec := [{ idx := 0x3400, sub := 1, last := true, off := 0, data := [1] }];
      let k : Nat := 0xFFFF; let stage : List Rec := [{ idx := 0x3400, sub := 1, data := [1] }]; let d := s.found t;
      let n := h.sess; let p := wdpPayload g.bytes; let x' := { x with lastValid := t };
      let e := d.setSession n (some x'); x.num = n ∧ h.seq = x.lastSeq + 1 ∧ x.early = [] ∧
      s.dev.pwr.resetAsked = false ∧ d.wdpReady via g 0x12 h x ∧ parseWrites 119 p = some rs ∧
      e.stageRecs x.level rs 0 x.stage = (stOk, k, stage) ∧ stage.length ≤ 4096 ∧ stageBytes stage ≤ 64 * 2 ^ 20) ∧
    (let s := talk ses; let t := 9; let via : Transport := mgt0;
      let g : Datagram := req 19 5 [0, 0, 0, 0, 1, 0, 0, 0, 0, 0, 0, 0]; let h : WdpHead := ⟨19, 1, 0, 5, 12⟩;
      let x : Session := ses; let y : Session := ses; let stage : List Rec := []; let d := s.found t;
      let n := h.sess; let p := wdpPayload g.bytes; let x' := { x with lastValid := t };
      let e := d.setSession n (some x'); let r := (e.setStage n []).commit n (byteAt p 0) (fieldAt p 4 8) x.stage;
      x.num = n ∧ h.seq = x.lastSeq + 1 ∧ x.early = [] ∧ s.dev.pwr.resetAsked = false ∧ d.wdpReady via g 0x13 h x ∧
      d.pwr.state = 0 ∧ p.length = 12 ∧ r.2.session n = some y ∧ y.early = [] ∧ r.2.pwr.resetAsked = false) ∧
    (let s := talk ses; let t := 9; let via : Transport := mgt0; let g : Datagram := req 20 5 [];
      let h : WdpHead := ⟨20, 1, 0, 5, 0⟩; let x : Session := ses; let d := s.found t; let n := h.sess; x.num = n ∧
      h.seq = x.lastSeq + 1 ∧ x.early = [] ∧ s.dev.pwr.resetAsked = false ∧ d.wdpReady via g 0x14 h x) ∧
    (let s := talk ses; let t := 9; let via : Transport := mgt0; let g : Datagram := req 21 5 [9, 0, 0, 0];
      let h : WdpHead := ⟨21, 1, 0, 5, 4⟩; let x : Session := ses; let y : Session := ses; let d := s.found t;
      let n := h.sess; let p := wdpPayload g.bytes; let x' := { x with lastValid := t };
      let e := d.setSession n (some x'); let r := e.cancel x.by (fieldAt p 0 4); x.num = n ∧ h.seq = x.lastSeq + 1 ∧
      x.early = [] ∧ s.dev.pwr.resetAsked = false ∧ d.wdpReady via g 0x15 h x ∧ d.pwr.state = 0 ∧ p.length = 4 ∧
      r.2.session n = some y ∧ y.early = [] ∧ r.2.pwr.resetAsked = false) ∧
    (let s := talk ses; let t := 9; let via : Transport := mgt0;
      let g : Datagram := req 24 5 [7, 0, 1, 3, 0, 0, 0, 0, 1, 0, 0, 0, 0x01, 0x10, 0, 0];
      let h : WdpHead := ⟨24, 1, 0, 5, 16⟩; let x : Session := ses;
      let b : Sub := { num := 7, kind := 0, period := 1, wing := 3, param := 0, objs := [⟨0x1001, 0⟩] };
      let d := s.found t; let n := h.sess; let p := wdpPayload g.bytes; let x' := { x with lastValid := t };
      let e := d.setSession n (some x'); x.num = n ∧ h.seq = x.lastSeq + 1 ∧ x.early = [] ∧
      s.dev.pwr.resetAsked = false ∧ d.wdpReady via g 0x18 h x ∧ 12 ≤ p.length ∧ p.length = 12 + 4 * fieldAt p 8 2 ∧
      byteAt p 2 ≠ 0 ∧
      b = { num := byteAt p 0, kind := byteAt p 1, period := byteAt p 2, wing := byteAt p 3, param := fieldAt p 4 4, objs := (chunks 4 (p.drop 12)).map fun z => { idx := fieldAt z 0 2, sub := byteAt z 2 } } ∧
      e.subStatus b = stOk) ∧
    (let s := talk ses; let t := 9; let via : Transport := mgt0; let g : Datagram := req 4 5 [];
      let h : WdpHead := ⟨4, 1, 0, 5, 0⟩; let x : Session := ses; let d := s.found t; let n := h.sess;
      let p := wdpPayload g.bytes; x.num = n ∧ h.seq = x.lastSeq + 1 ∧ x.early = [] ∧ s.dev.pwr.resetAsked = false ∧
      d.wdpReady via g 0x04 h x ∧ p.length ≠ 2) ∧
    (let s := talk ses; let t := 9; let via : Transport := mgt0;
      let g : Datagram := req 16 5 [0x01, 0x10, 0, 0, 0, 0, 0, 0]; let h : WdpHead := ⟨16, 1, 0, 5, 8⟩;
      let x : Session := ses; let row : Row := (objRow 0x1001 0).getD ⟨0, 0, .u8, .ro, .i, 0, .any⟩;
      let d := s.found t; let n := h.sess; let p := wdpPayload g.bytes; let x' := { x with lastValid := t };
      let e := d.setSession n (some x'); let i := fieldAt p 0 2; let z := e.readObj i (byteAt p 2); x.num = n ∧
      h.seq = x.lastSeq + 1 ∧ x.early = [] ∧ s.dev.pwr.resetAsked = false ∧ d.wdpReady via g 0x10 h x ∧
      p.length = 8 ∧ (byteAt p 3).testBit 0 = false ∧ objRow i (byteAt p 2) = some row ∧ row.ty ≠ .dom ∧
      e.readStatus i (byteAt p 2) = stOk ∧ z.length ≤ 1000 ∧ i ≠ 0x2300) ∧
    (let s := talk ses; let t := 9; let via : Transport := mgt0;
      let g : Datagram := req 17 5 [0x43, 0x20, 7, 1, 0, 0, 0, 0, 1, 0, 0, 0, 2, 0, 0, 0];
      let h : WdpHead := ⟨17, 1, 0, 5, 16⟩; let x : Session := ses; let v : Byte := 2; let d := s.found t;
      let n := h.sess; let p := wdpPayload g.bytes; x.num = n ∧ h.seq = x.lastSeq + 1 ∧ x.early = [] ∧
      s.dev.pwr.resetAsked = false ∧ d.wdpReady via g 0x11 h x ∧
      parseWrites 119 p = some [⟨0x2043, 7, true, 0, [v]⟩] ∧ d.commandStatus x.by 0x2043 7 [v] = stOk) ∧
    (let s := talk stg; let t := 9; let via : Transport := mgt0;
      let g : Datagram := req 19 5 [0, 0, 0, 0, 2, 0, 0, 0, 0, 0, 0, 0]; let h : WdpHead := ⟨19, 1, 0, 5, 12⟩;
      let x : Session := stg; let stage : List Rec := []; let d := s.found t; let n := h.sess;
      let p := wdpPayload g.bytes; let x' := { x with lastValid := t }; let e := d.setSession n (some x');
      let w := byteAt p 0; let i := fieldAt p 4 8; let f := e.setStage n [];
      let j := f.jobResults (f.setRecs x.stage) x.stage; x.num = n ∧ h.seq = x.lastSeq + 1 ∧ x.early = [] ∧
      s.dev.pwr.resetAsked = false ∧ d.wdpReady via g 0x13 h x ∧ d.pwr.state = 0 ∧ p.length = 12 ∧ x.stage ≠ [] ∧
      d.duplex = false ∧ f.commitStatus w i x.stage = stOk ∧ (j.admitAt (j.tickTime w i) x.stage).st = stOk) ∧
    (let s : State := (talk ses).mod fun d => { d with batches := [⟨9, 1, 0, 4, [], []⟩] }; let t := 9;
      let via : Transport := mgt0; let g : Datagram := req 21 5 [9, 0, 0, 0]; let h : WdpHead := ⟨21, 1, 0, 5, 4⟩;
      let x : Session := ses; let bat : Batch := ⟨9, 1, 0, 4, [], []⟩; let d := s.found t; let n := h.sess;
      let p := wdpPayload g.bytes; x.num = n ∧ h.seq = x.lastSeq + 1 ∧ x.early = [] ∧ s.dev.pwr.resetAsked = false ∧
      d.wdpReady via g 0x15 h x ∧ d.pwr.state = 0 ∧ p.length = 4 ∧ d.duplex = false ∧ d.batches = [bat] ∧
      bat.num = fieldAt p 0 4 ∧ bat.done = [] ∧ (bat.sess = n ∨ 3 ≤ x.level) ∧ t + d.commitLead ≤ d.batchTime bat) :=
    ⟨⟨by decide, by decide, by decide, by decide, ready rfl rfl rfl rfl rfl rfl rfl rfl⟩, ⟨by decide, by decide,
      by decide, by decide, ready rfl rfl rfl rfl rfl rfl rfl rfl⟩, ⟨by decide, by decide, by decide, by decide,
      ready rfl rfl rfl rfl rfl rfl rfl rfl, by decide, by decide +kernel, by decide⟩, ⟨by decide, by decide,
      by decide, by decide, ready rfl rfl rfl rfl rfl rfl rfl rfl, rfl, rfl, by decide⟩, ⟨by decide, by decide,
      by decide, by decide, ready rfl rfl rfl rfl rfl rfl rfl rfl, by decide, by decide, by decide +kernel⟩,
      ⟨by decide, by decide, by decide, by decide, ready rfl rfl rfl rfl rfl rfl rfl rfl⟩, ⟨by decide, by decide,
      by decide, by decide, ready rfl rfl rfl rfl rfl rfl rfl rfl, by decide, by decide, by decide +kernel⟩,
      ⟨by decide, by decide, by decide, by decide, ready rfl rfl rfl rfl rfl rfl rfl rfl, by decide⟩, ⟨by decide,
      by decide, by decide, by decide, ready rfl rfl rfl rfl rfl rfl rfl rfl, by decide⟩, ⟨by decide, by decide,
      by decide, by decide, ready rfl rfl rfl rfl rfl rfl rfl rfl, by decide⟩, ⟨by decide, by decide, by decide,
      by decide, ready rfl rfl rfl rfl rfl rfl rfl rfl, rfl, by decide⟩,
      (by refine ⟨?_, ?_, ?_, ?_, ready rfl rfl rfl rfl rfl rfl rfl rfl, ?_, ?_, ?_, ?_, by decide +kernel⟩ <;> decide),
      (by refine ⟨?_, ?_, ?_, ?_, ready rfl rfl rfl rfl rfl rfl rfl rfl, ?_, ?_, ?_, ?_, ?_, ?_, ?_, by decide +kernel⟩ <;> decide)⟩

theorem test_hyps_NotifyAndMailboxCommandsComplete :
    (let s := talk ({ ses with unacked := [{ nseq := 4, body := [1], sent := 2 }] }); let t := 9;
      let via : Transport := mgt0; let g : Datagram := { bytes := wdpMessage [1] 0x20 1 1 0 5 [4, 0, 0, 0] };
      let h : WdpHead := ⟨32, 1, 1, 5, 4⟩;
      let x : Session := { ses with unacked := [{ nseq := 4, body := [1], sent := 2 }] }; let d := s.found t;
      d.wdpReady via g 0x20 h x ∧ h.flags.testBit 0 = true ∧ s.dev.pwr.resetAsked = false) ∧
    (let s := boxed ({ ses with num := 71, via := box7 }); let t := 9; let ch := 7;
      let g : Datagram := { bytes := wdpMessage [1] 5 71 0 0 5 [] }; let h : WdpHead := ⟨5, 71, 0, 5, 0⟩;
      let x : Session := { ses with num := 71, via := box7 }; let rspRead : Bool := false; let d := s.found t;
      let m₀ := if rspRead = true then d.setMbx ch { d.mbx ch with valid := false } else d;
      let m := m₀.setMbx ch { m₀.mbx ch with req := g.bytes }; m.wdpReady (.pcie ch) g h.ty h x ∧
      d.wdpServed (.pcie ch) = true ∧ h.ty ≠ 1 ∧ h.ty ≠ 0x20 ∧ h.seq = x.lastSeq + 1) ∧
    (let s := boxed ({ ses with num := 71, via := box7 }); let t := 9; let ch := 7;
      let g : Datagram := { bytes := wdpMessage [1] 5 71 0 0 5 [] }; let h : WdpHead := ⟨5, 71, 0, 5, 0⟩;
      let x : Session := { ses with num := 71, via := box7 }; let rspRead : Bool := false; let d := s.found t;
      let m₀ := if rspRead = true then d.setMbx ch { d.mbx ch with valid := false } else d;
      let m := m₀.setMbx ch { m₀.mbx ch with req := g.bytes }; m.wdpReady (.pcie ch) g 0x05 h x ∧
      d.wdpServed (.pcie ch) = true ∧ h.seq = x.lastSeq + 1 ∧ x.early = [] ∧ s.dev.pwr.resetAsked = false) ∧
    (let s := boxed ({ ses with num := 71, via := box7 }); let t := 9; let ch := 7;
      let g : Datagram := { bytes := [1, 2] }; let d := s.found t; d.wdpServed (.pcie ch) = true ∧
      wdpHead g.bytes = none) ∧
    (let s := boxed ({ ses with num := 71, via := box7 }); let t := 9; let ch := 0;
      let g : Datagram := { bytes := [] }; let d := s.found t; d.wdpServed (.pcie ch) = true ∧
      wdpHead g.bytes = none) ∧
    (let s := talk ({ ses with unacked := [{ nseq := 4, body := [1], sent := 4 }] }); let t := 9; let n := 1;
        let x : Session := { ses with unacked := [{ nseq := 4, body := [1], sent := 4 }] };
        let v : Unacked := { nseq := 4, body := [1], sent := 4 }; let d := s.found t; d.alive = true ∧
        d.session n = some x ∧ x.isOpen = true ∧ x.unacked.find? (fun w => w.nseq == v.nseq) = some v ∧ v.sent < 5) ∧
    (let s := talk ({ ses with unacked := [{ nseq := 4, body := [1], sent := 5 }] }); let t := 9; let n := 1;
        let x : Session := { ses with unacked := [{ nseq := 4, body := [1], sent := 5 }] };
        let v : Unacked := { nseq := 4, body := [1], sent := 5 }; let d := s.found t; d.alive = true ∧
        d.session n = some x ∧ x.isOpen = true ∧ x.unacked.find? (fun w => w.nseq == v.nseq) = some v ∧ 5 ≤ v.sent) ∧
    (let s := boxed ({ ses with num := 71, via := box7 }); let t := 9; let ch := 7; let d := s.found t;
        d.alive = true ∧ d.wdpServed (.pcie ch) = true ∧ (d.mbx ch).waiting = []) :=
    ⟨⟨ready rfl rfl rfl rfl rfl rfl rfl rfl, by decide⟩, ⟨ready rfl rfl rfl rfl rfl rfl rfl rfl, by decide⟩,
      ⟨ready rfl rfl rfl rfl rfl rfl rfl rfl, by decide⟩, ⟨by decide, rfl⟩, ⟨by decide, rfl⟩, by decide +kernel⟩

theorem test_hyps_CanopenCommandsComplete :
    ((let s := can []; let t := 9; let i : Nat := 0x1001; let sub := 0; let d := s.found t; d.alive = true ∧
        d.canSends = true ∧ d.readStatus i sub = stOk) ∧
      (let s := can []; let t := 9; let i : Nat := 0xFFFF; let sub := 1; let d := s.found t; d.alive = true ∧
        d.canSends = true ∧ d.readStatus i sub ≠ stOk) ∧
      (let s := can [(0x2043, 5, 3)]; let t := 9; let i : Nat := 0x1017; let sub := 0;
        let data : List Byte := [100, 0]; let last : Bool := true;
        let e : Dev := (Dev.usdoWritten [] 0x1017 0 [100, 0] true ((can [(0x2043, 5, 3)]).found 9)).2;
        let d := s.found t; d.alive = true ∧ d.canSends = true ∧ Dev.usdoWritten s.mem i sub data last d = (stOk, e))) ∧
    ((let s := can [(0x2043, 5, 3)]; let t := 9; let tick := 1; let d := s.found t;
        let r := ({ d with canStage := [] } : Dev).commit d.canSess (d.rd 0x2043 7) tick d.canStage;
        d.alive = true ∧ d.canSends = true ∧ d.pwr.state = 0 ∧
        d.valueStatus d.canBy.level 0x2043 6 (leBytes 8 tick) = stOk ∧ tick < 2 ^ 64 ∧ r.1.st = stOk) ∧
      (let s := can [(0x2043, 5, 3)]; let t := 9; let tick : Nat := 2^64-1; let d := s.found t;
        let r := ({ d with canStage := [] } : Dev).commit d.canSess (d.rd 0x2043 7) tick d.canStage;
        d.alive = true ∧ d.canSends = true ∧ d.pwr.state = 0 ∧
        d.valueStatus d.canBy.level 0x2043 6 (leBytes 8 tick) = stOk ∧ tick < 2 ^ 64 ∧ r.1.st ≠ stOk)) ∧
    ((let s := (can [(0x2043, 5, 3), (0x1407, 1, 0x201), (0x1607, 0, 1), (0x1607, 1, 0x10170010)]).mod fun d => { d with nmt := .operational };
        let t := 9; let n := 7; let data : List Byte := [100, 0]; let d := s.found t; d.alive = true ∧
        d.canSends = true ∧ n < 8 ∧ d.pdoOn (0x1400 + n) = true ∧
        (d.mapping (0x1600 + n)).foldl (fun a m => a + m.2.2) 0 ≤ data.length) ∧
      (let s := can []; let t := 9; let d := s.found t; d.alive = true ∧ d.bootRd 0x2043 1 ≠ 0) ∧
      (let s := can []; let t := 9; let c : NmtCmd := .resetNode; let d := s.found t; d.alive = true ∧
        d.bootRd 0x2043 1 ≠ 0 ∧ (c = .resetNode ∨ c = .resetCommunication)) ∧
      (let s := can []; let t := 9; let c : NmtCmd := .resetCommunication; let d := s.found t; d.alive = true ∧
        d.bootRd 0x2043 1 ≠ 0 ∧ (c = .resetNode ∨ c = .resetCommunication))) ∧
    ((let s := can [(0x1017, 0, 100)]; let t := 9; let d := s.found t; d.alive = true ∧ d.bootRd 0x2043 1 ≠ 0 ∧
        d.rd 0x1017 0 ≠ 0) ∧
      (let s := can []; let t := 9; let i : Nat := 0x1001; let sub := 0; let d := s.found t; d.alive = true ∧
        d.canSends = true ∧ d.readStatus i sub = stOk ∧ i ≠ 0x2300) ∧
      (let s := can [(0x2043, 5, 3)]; let t := 9; let v : Byte := 2; let d := s.found t; d.alive = true ∧
        d.canSends = true ∧ d.valueStatus d.canBy.level 0x2043 7 [v] = stOk)) ∧
    (let s := (can [(0x2043, 5, 3), (0x1407, 1, 0x201), (0x1607, 0, 1), (0x1607, 1, 0x20430708)]).mod fun d => { d with nmt := .operational };
        let t := 9; let n := 7; let v : Byte := 2; let d := s.found t; d.alive = true ∧ d.canSends = true ∧
        d.valueStatus d.canBy.level 0x2043 7 [v] = stOk ∧ n < 8 ∧ d.pdoOn (0x1400 + n) = true ∧
        d.mapping (0x1600 + n) = [(0x2043, 7, 1)]) ∧
    (let s := (can [(0x2043, 5, 3)]).mod fun d => { d with canStage := stg.stage }; let t := 9; let tick := 2;
        let d := s.found t; let f : Dev := { d with canStage := [] }; let w := d.rd 0x2043 7;
        let j := f.jobResults (f.setRecs d.canStage) d.canStage; d.alive = true ∧ d.canSends = true ∧
        d.pwr.state = 0 ∧ d.valueStatus d.canBy.level 0x2043 6 (leBytes 8 tick) = stOk ∧ tick < 2 ^ 64 ∧
        d.duplex = false ∧ d.canStage ≠ [] ∧ f.commitStatus w tick d.canStage = stOk ∧
        (j.admitAt (j.tickTime w tick) d.canStage).st = stOk) :=
    by refine ⟨?_, ?_, ?_, ?_, ?_, ?_⟩ <;> decide +kernel

theorem test_hyps_PersistentObjectsCompleteTheirCommands :
    (let s := run; let t := 9; let level := 0; let by_ : Requester := boss;
        let key : List Byte := List.replicate 32 7; let d := s.found t; d.grants by_ 0x2041 (level % 4 + 1) key) ∧
    (let s := run; let t := 9; let level := 3; let by_ : Requester := boss;
        let key : List Byte := List.replicate 32 7; let d := s.found t; d.grants by_ 0x2041 (level % 4 + 1) key) ∧
    (let s := run; let t := 9; let sig := 5; let by_ : Requester := boss; let d := s.found t;
        d.grants by_ 0x1010 1 (leBytes 4 sig) ∧ sig ≠ 0x65766173) ∧
    (let s := run; let t := 9; let k := 0; let by_ : Requester := boss; let d := s.found t;
        d.grants by_ 0x1010 1 (leBytes 4 0x65766173) ∧ d.anyRuns [4, 5, 9] = false ∧ d.idleSlot = some k) ∧
    (let s := (obj [(0x20BF, 2, 1), (0x20BF, 1, 9)]).mod fun d => { d with saving := some ⟨1, [], []⟩ };
        let t := 9; let k := 63; let x : Saved := ⟨1, [], []⟩; let d := s.found t; d.alive = true ∧
        d.slotOfKind 9 = some k ∧ d.saving = some x) ∧
    (let s := run; let t := 9; let sig : Nat := 0x64616F6D; let by_ : Requester := boss; let d := s.found t;
        d.grants by_ 0x1011 1 (leBytes 4 sig) ∧ sig ≠ 0x64616F6C) ∧
    (let s := run; let t := 9; let by_ : Requester := boss; let d := s.found t;
        d.grants by_ 0x1011 1 (leBytes 4 0x64616F6C) ∧ d.duplex = false) :=
    by unfold Dev.grants; decide +kernel

theorem test_hyps_AnAccessIsRefusedWhole :
    (let s := run; let t := 9; let a : Access := ⟨1, 0, 0, 0, 0xFFC, 8, []⟩; let d := s.found t; d.memUp = true ∧
        accFits a = true) ∧
    (let s := run; let t := 9; let a : Access := ⟨1, 0, 0, 0, 0xFFC, 8, []⟩; let ffb : Nat := 0xFFC;
        let v : PageVerdict := { kind := 1, rule := 65535, set := 255 }; let d := s.found t; d.memUp = true ∧
        accFits a = true ∧ d.checkAccess a = some (ffb, v)) ∧
    (let s := run; let t := 9; let a : Access := ⟨2, 0, 0, 0, 0x5FFFFFFF8, 16, []⟩; let ffb : Nat := 0x600000000;
        let v : PageVerdict := { kind := 4, rule := 65535, set := 255 }; let b : Nat := 0x5FFFFFFF8;
        let d := s.found t; d.memUp = true ∧ accFits a = true ∧ d.checkAccess a = some (ffb, v) ∧ a.addr ≤ b ∧
        b < ffb ∧ b / 4096 ≠ ffb / 4096) :=
    by decide +kernel

theorem test_hyps_AllowedAccessesComplete :
    ((let s := run; let t := 9; let a : Access := ⟨2, 0, 3, 1, 0x1000000000, 8, [1]⟩; let d := s.found t;
        d.memUp = true ∧ accFits a = true ∧ d.checkAccess a = none ∧ a.op = 1 ∧ hbmOf a.addr = none) ∧
      (let s := run; let t := 9; let a : Access := ⟨2, 0, 3, 1, 0x800000000, 8, [1]⟩; let d := s.found t;
        d.memUp = true ∧ accFits a = true ∧ d.checkAccess a = none ∧ a.op = 1 ∧ (hbmOf a.addr).isSome = true)) ∧
    ((let s := run; let t := 9; let a : Access := ⟨2, 0, 3, 0, 0x5FFFFFFF8, 8, []⟩; let d := s.found t;
        d.memUp = true ∧ accFits a = true ∧ d.checkAccess a = none ∧ a.op ≠ 1 ∧ (hbmOf a.addr).isSome = true) ∧
      (let s := run; let t := 9; let a : Access := ⟨2, 0, 3, 0, 0x1000000000, 8, []⟩; let d := s.found t;
        d.memUp = true ∧ accFits a = true ∧ d.checkAccess a = none ∧ a.op ≠ 1 ∧ hbmOf a.addr = none) ∧
      (let s := aft fun d => d.setPart 20 { flying := 3 }; let t := 9; let p := 20; let d := s.found t;
        let x := d.part p; d.alive = true ∧ x.old = 0) ∧
      (let s := aft fun d => d.setPart 20 { flying := 3, old := 1 }; let t := 9; let p := 20; let d := s.found t;
        let x := d.part p; d.alive = true ∧ 0 < x.old)) ∧
    ((let s := aft fun d => d.setPart 15 { flying := 3, next := 2 }; let t := 9; let p := 15; let d := s.found t;
        let x := d.part p; d.alive = true ∧ p < 16 ∧ x.next ≠ 0) ∧
      (let s := aft fun d => d.setPart 0 { next := 2, asked := 5 }; let t := 1000005; let p := 0;
        let d := s.found t; let x := d.part p; d.alive = true ∧ p < 16 ∧ x.next ≠ 0 ∧ x.asked + 1000000 ≤ t) ∧
      (let s := run; let t := 9; let by_ : Requester := boss; let mask : Nat := 2 ^ 21 - 1; let d := s.found t;
        d.grants by_ 0x2504 3 (leBytes 4 mask) ∧ mask < 2 ^ 21) ∧
      (let s := run; let t := 9; let by_ : Requester := boss; let mask := 0; let d := s.found t;
        d.grants by_ 0x2504 3 (leBytes 4 mask) ∧ mask < 2 ^ 21) ∧
      (let s := aft fun d => { d with bootRegs := [(regKey 0x2044 1 0, 1)] }; let t := 9; let w := 63;
        let off := 0; let data : List Byte := [1]; let d := s.found t;
        let row := slice (d.rdd 0x2044 2) (16 * w) 16; d.memUp = true ∧ d.bootRd 0x2044 1 ≠ 0 ∧
        (fieldAt row 14 2).testBit 0 = false ∨ fieldAt row 8 4 < off + data.length)) ∧
    (let s := aft fun d => ({ d with bootRegs := [(regKey 0x2044 1 0, 1)] } : Dev).wrd 0x2044 2 ([0, 0, 0, 0, 8, 0, 0, 0] ++ [0, 16, 0, 0, 0, 0] ++ [1, 0]);
        let t := 9; let w := 0; let off := 4092; let data : List Byte := [1, 2, 3, 4]; let d := s.found t;
        let row := slice (d.rdd 0x2044 2) (16 * w) 16; d.memUp = true ∧ d.bootRd 0x2044 1 ≠ 0 ∧
        (fieldAt row 14 2).testBit 0 = true ∧ off + data.length ≤ fieldAt row 8 4 ∧ data ≠ [] ∧ data.length ≤ 256) ∧
    (let s := run; let t := 9; let a : Access := ⟨2, 0, 3, 1, 0x5FFFFFFF8, 8, [1, 2, 3, 4, 5, 6, 7, 8]⟩;
        let data : List Byte := []; let d := s.found t;
        let inWord := fun (a : Access) => d.checkAccess a = none ∧ (hbmOf a.addr).isSome = true ∧ a.addr % 32 + a.len ≤ 32 ∧ (d.pc (placeOf (a.addr / 32 * 32)).pc).state = 0 ∧ (d.pc (placeOf (a.addr / 32 * 32)).pc).queue.length < 47;
        d.memUp = true ∧ accFits a = true ∧ a.op = 1 ∧ a.data.length = a.len ∧ inWord a) ∧
    (let s := run; let t := 9; let a : Access := ⟨2, 0, 3, 1, 0x800000000, 8, List.replicate 8 7⟩;
        let data : List Byte := []; let d := s.found t;
        let inWord := fun (a : Access) => d.checkAccess a = none ∧ (hbmOf a.addr).isSome = true ∧ a.addr % 32 + a.len ≤ 32 ∧ (d.pc (placeOf (a.addr / 32 * 32)).pc).state = 0 ∧ (d.pc (placeOf (a.addr / 32 * 32)).pc).queue.length < 47;
        d.memUp = true ∧ accFits a = true ∧ a.op = 1 ∧ a.data.length = a.len ∧ inWord a) ∧
    (let s := aft fun d => (({ d with bootRegs := [(regKey 0x2044 1 0, 1)] } : Dev).wrd 0x2044 2 (List.replicate 1008 0 ++ [0, 0, 0, 0, 8, 0, 0, 0] ++ [0, 16, 0, 0, 0, 0] ++ [1, 0])).wrd 0x2501 1 (List.replicate 8 0 ++ List.replicate 8 0xFF ++ [0xFF, 0xFF, 0xFF, 0xFF, 15, 7, 0, 1] ++ List.replicate 8 0);
        let t := 9; let w := 63; let off := 4092; let a : Access := ⟨1, 0, 3, 0, 0, 8, []⟩;
        let data : List Byte := [1, 2, 3, 4]; let d := s.found t; let row := slice (d.rdd 0x2044 2) (16 * w) 16;
        let b : Access := { cls := clsPcie, inst := w, mode := 0, op := 1, addr := fieldAt row 0 8 + off, len := data.length, data := data };
        let inWord := fun (a : Access) => d.checkAccess a = none ∧ (hbmOf a.addr).isSome = true ∧ a.addr % 32 + a.len ≤ 32 ∧ (d.pc (placeOf (a.addr / 32 * 32)).pc).state = 0 ∧ (d.pc (placeOf (a.addr / 32 * 32)).pc).queue.length < 47;
        d.memUp = true ∧ d.bootRd 0x2044 1 ≠ 0 ∧ (fieldAt row 14 2).testBit 0 = true ∧
        off + data.length ≤ fieldAt row 8 4 ∧ data ≠ [] ∧ inWord b) :=
    by refine ⟨?_, ?_, ?_, ?_, ?_, ?_, ?_⟩ <;> (try unfold Dev.grants) <;> decide +kernel

/-- The third clause stands below. -/
theorem test_hyps_AReadSeesTheNewestAcceptedWrite :
    (let d : Dev := run.dev; let w := 5; let off := 30; let data : List Byte := [1, 2];
        (d.pc (placeOf (w * 32)).pc).state = 0 ∧ (d.pc (placeOf (w * 32)).pc).queue.length < 47 ∧
        off + data.length ≤ 32) ∧
    (let d : Dev := run.dev; let w := 5; let off := 0; let data : List Byte := List.replicate 32 3; let j := 31;
        (d.pc (placeOf (w * 32)).pc).state = 0 ∧ (d.pc (placeOf (w * 32)).pc).queue.length < 47 ∧
        off + data.length ≤ 32 ∧ j < 32) ∧
    (let d : Dev := run.dev; let w := 5; let off := 30; let data : List Byte := [1, 2]; let j := 0;
        (d.pc (placeOf (w * 32)).pc).state = 0 ∧ (d.pc (placeOf (w * 32)).pc).queue.length < 47 ∧
        off + data.length ≤ 32 ∧ j < 32) :=
    by decide +kernel

/-- The tenth clause stands below. -/
theorem test_hyps_HbmEventsComplete :
    (let s := aft fun d => d.setPcRt 32 { state := 2 }; let t := 16400000; let p := 32; let m := 1;
      let e := 16666667; let d := s.found t; let q := d.drainAll s.mem; d.memUp = true ∧ p / 32 = m % 2 ∧
      (q.1.pc p).state = 2 ∧ (q.1.pc p).trained = false ∧
      (∀ j, j / 32 = m % 2 → j < p → (q.1.pc j).state ≠ 2 ∨ (q.1.pc j).trained = true) ∧
      q.1.groupWindow (m % 2) (p % 32 / 4) 0 = some e) ∧
    (let s := aft fun d => d.setPcRt 32 { state := 2 }; let t := 16666666; let p := 32; let m := 1;
      let e := 16666667; let d := s.found t; let q := d.drainAll s.mem; d.memUp = true ∧ p / 32 = m % 2 ∧
      (q.1.pc p).state = 2 ∧ (q.1.pc p).trained = false ∧
      (∀ j, j / 32 = m % 2 → j < p → (q.1.pc j).state ≠ 2 ∨ (q.1.pc j).trained = true) ∧
      q.1.groupWindow (m % 2) (p % 32 / 4) 0 = some e) ∧
    (let s := (obj [(0x20BF, 2, 1), (0x20BF, 1, 8)]).mod fun d => d.setLongOp 63 { arg := 1 }; let t := 16400000;
      let m := 1; let k := 63; let e := 16666667; let d := s.found t; let q := d.drainAll s.mem; d.memUp = true ∧
      (∀ j, j / 32 = m % 2 → (q.1.pc j).state ≠ 2 ∨ (q.1.pc j).trained = true) ∧ q.1.memSlot 8 (m % 2) = some k ∧
      q.1.maintenanceEnd (m % 2) 0 = some e ∧ (q.1.longOp k).abortAsked = false ∧ (q.1.hbm (m % 2)).rowAt ≠ e ∧
      q.1.standby = false ∧ q.1.nextRow (m % 2) = none) ∧
    ((let s := aft fun d => d.setPcRt 63 { queue := [{ word := 5, off := 0, data := [1], at_ := 3 }] };
        let t := 2003; let d := s.found t; d.memUp = true) ∧
      (let s := obj [(hbmIdx 1, 1, 1)]; let t := 9; let p := 63; let d := s.found t; let x := d.pc p;
        d.alive = true ∧ x.state = 0 ∧ d.rd (hbmIdx (p / 32)) 1 = 1) ∧
      (let s := obj [(hbmIdx 0, 1, 1)]; let t := 9; let p := 0; let d := s.found t; let x := d.pc p;
        d.alive = true ∧ x.state = 0 ∧ d.rd (hbmIdx (p / 32)) 1 = 1) ∧
      (let s := run; let t := 9; let p := 0; let cmd := 3; let d := s.found t; let x := d.pc p; d.alive = true ∧
        x.state = 0 ∧ x.cmd ≠ cmd + 1) ∧
      (let s := aft fun d => d.setPcRt 0 { cmd := 4, streak := 2 }; let t := 9; let p := 0; let cmd := 3;
        let d := s.found t; let x := d.pc p; d.alive = true ∧ x.state = 0 ∧ x.cmd = cmd + 1 ∧ x.streak = 2)) ∧
    (let s := aft fun d => d.setPcRt 63 { state := 2, trained := true }; let t := 9; let p := 63;
        let d := s.found t; let x := d.pc p; d.alive = true ∧ x.state = 2 ∧ x.trained = true) ∧
    (let s := aft fun d => d.setPcRt 63 { state := 2 }; let t := 9; let p := 63; let d := s.found t;
        let x := d.pc p; d.alive = true ∧ x.state = 2) ∧
    (let s := run; let t := 9; let c : Int := 127; let d := s.found t; d.alive = true ∧ -128 ≤ c ∧ c < 128) ∧
    (let s := run; let t := 9; let c : Int := -128; let d := s.found t; d.alive = true ∧ -128 ≤ c ∧ c < 128) ∧
    (let s := aft fun d => { d with acts := [(63 * 64 * 16384 + 5, {})] }; let t := 9; let d := s.found t;
        d.alive = true) ∧
    (let s := aft fun d => d.setPcRt 0 { queue := List.replicate 17 { word := 5, off := 0, data := [1], at_ := 3 } };
        let t := 9; let d := s.found t; d.memUp = true) :=
    by refine ⟨(by refine ⟨?_, ?_, ?_, ?_, fun j h l => by omega, ?_⟩ <;> decide +kernel),
      (by refine ⟨?_, ?_, ?_, ?_, fun j h l => by omega, ?_⟩ <;> decide +kernel), ⟨by decide +kernel,
      fun j _ => .inl (idle_pcs _ (by decide +kernel) j), by decide +kernel⟩, ?_, ?_⟩ <;> decide +kernel

theorem test_hyps_MemoryCommandsComplete :
    ((let t := 9; let m := 1; let by_ : Requester := boss; let c : Instr := .memRecordCandidates 9 boss 1;
        let v := 4; let kind := 4;
        (c, v, kind) ∈ [(Instr.memRecordCandidates t by_ m, 4, 4), (.memClearRepairRecord t by_ m, 7, 4)]) ∧
      (let t := 9; let m := 0; let by_ : Requester := boss; let c : Instr := .memClearRepairRecord 9 boss 0;
        let v := 7; let kind := 4;
        (c, v, kind) ∈ [(Instr.memRecordCandidates t by_ m, 4, 4), (.memClearRepairRecord t by_ m, 7, 4)]) ∧
      (let s := run; let t := 9; let m := 1; let d := s.found t; d.memBusy (m % 2) = false) ∧
      (let s := obj [(0x2080, 2, 2)]; let t := 9; let m := 1; let by_ : Requester := boss; let d := s.found t;
        d.memBusy (m % 2) = false ∧
        (d.memStart by_ (m % 2) 7 1 1 (d.freeMemory (m % 2)) (m % 2) (d.hbm (m % 2)).faults []).dev.memoryFits (m % 2) = true) ∧
      (let s := sby []; let t := 9; let m := 1; let d := s.found t; d.memBusy (m % 2) = false ∧ d.standby = true) ∧
      (let s := (obj [(0x2080, 2, 1), (0x2080, 1, 7)]).mod fun d => d.setLongOp 0 { arg := 1 }; let t := 9;
        let m := 1; let by_ : Requester := boss; let c : Instr := .memScrub 9 boss 1; let v := 1;
        let d := s.found t; let i := hbmIdx (m % 2); d.memBusy (m % 2) = true ∧
        (c, v) ∈ [(Instr.memScrub t by_ m, 1), (.memTest t by_ m, 2)] ∧ d.grants by_ i 0x0C [BitVec.ofNat 8 v]) ∧
      (let s := (obj [(0x2080, 2, 1), (0x2080, 1, 3)]).mod fun d => d.setLongOp 0 { arg := 1 }; let t := 9;
        let m := 1; let by_ : Requester := boss; let c : Instr := .memTest 9 boss 1; let v := 2; let d := s.found t;
        let i := hbmIdx (m % 2); d.memBusy (m % 2) = true ∧
        (c, v) ∈ [(Instr.memScrub t by_ m, 1), (.memTest t by_ m, 2)] ∧ d.grants by_ i 0x0C [BitVec.ofNat 8 v])) ∧
    ((let s := run; let t := 9; let m := 1; let by_ : Requester := boss; let d := s.found t;
        let i := hbmIdx (m % 2); d.grants by_ i 0x0C [5] ∧ d.memSlot 8 (m % 2) = none) ∧
      (let s := (obj [(0x2080, 2, 1), (0x2080, 1, 8)]).mod fun d => d.setLongOp 0 { arg := 1 }; let t := 9;
        let m := 1; let k := 0; let by_ : Requester := boss; let d := s.found t; let i := hbmIdx (m % 2);
        d.grants by_ i 0x0C [5] ∧ d.memSlot 8 (m % 2) = some k) ∧
      (let s := (obj [(hbmIdx 1, 0x0D, 31)]).mod fun d => d.setPcRt 63 { state := 1 }; let t := 9; let m := 1;
        let by_ : Requester := boss; let d := s.found t; let i := hbmIdx (m % 2);
        let p := 32 * (m % 2) + d.rd i 0x0D; d.grants by_ i 0x0C [6] ∧ (d.pc p).state = 1) ∧
      (let s := obj [(hbmIdx 1, 0x0D, 31)]; let t := 9; let m := 1; let by_ : Requester := boss;
        let d := s.found t; let i := hbmIdx (m % 2); let p := 32 * (m % 2) + d.rd i 0x0D; d.grants by_ i 0x0C [6] ∧
        (d.pc p).state ≠ 1) ∧
      (let s := aft fun d => d.setPcRt 63 { replays := 3 }; let t := 9; let by_ : Requester := boss;
        let d := s.found t; d.grants by_ 0x2600 4 [1]) ∧
      (let s := (obj [(0x2080, 2, 1), (0x2080, 1, 3)]).mod fun d => d.setLongOp 0 { arg := 1 }; let t := 9;
        let m := 1; let k := 0; let d := s.found t; let q := d.drainAll s.mem; d.memUp = true ∧
        q.1.memSlot 3 m = some k ∧ q.1.badWords m = [] ∧ (q.1.hbm m).faults ≤ (q.1.longOp k).arg2)) ∧
    ((let s := (obj [(0x2080, 2, 1), (0x2080, 1, 7), (0x2080, 5, 2 ^ 30)]).mod fun d => d.setLongOp 0 { arg := 1 };
        let t := 9; let m := 1; let k := 0; let d := s.found t; d.memUp = true ∧ d.memSlot 7 m = some k ∧
        d.rd (0x2080 + k) 4 + 64 * 2 ^ 20 < d.rd (0x2080 + k) 5) ∧
      (let s := (obj [(0x2080, 2, 1), (0x2080, 1, 4)]).mod fun d => d.setLongOp 0 { arg := 32 }; let t := 9;
        let k := 0; let v := 3; let d := s.found t; d.alive = true ∧ d.runningKind k = 4 ∧ v ≠ 0) ∧
      (let s := (obj [(0x2080, 2, 1), (0x2080, 1, 4)]).mod fun d => d.setLongOp 0 { arg := 33 }; let t := 9;
        let k := 0; let d := s.found t; d.alive = true ∧ d.runningKind k = 4 ∧ (d.longOp k).arg / 16 = flashClear) ∧
      (let s := (obj [(0x2080, 2, 1), (0x2080, 1, 4)]).mod fun d => d.setLongOp 0 { arg := 33 }; let t := 9;
        let k := 0; let v := 3; let d := s.found t; d.alive = true ∧ d.runningKind k = 4 ∧ v ≠ 0)) ∧
    (let s := (obj [(0x2080, 2, 1), (0x2080, 1, 4)]).mod fun d => d.setLongOp 0 { arg := 16 * flashClear + 1 };
        let t := 9; let k := 0; let d := s.found t; d.alive = true ∧ d.runningKind k = 4 ∧
        (d.longOp k).arg / 16 = flashClear) :=
    by refine ⟨?_, ?_, ?_, ?_⟩ <;> (try unfold Dev.grants) <;> decide +kernel

theorem test_hyps_TimeUnitCommandsComplete :
    ((let s := (obj [(ptpIdx 9, 7, 9), (0x2200, 1, 1)]); let t := 9; let p := 9; let d := s.found t;
        d.alive = true ∧ d.curDown 0 = false ∧ p < 10 ∧ d.ptpState p = 9) ∧
      (let s := (obj [(ptpIdx 0, 7, 9), (0x2200, 1, 2)]); let t := 9; let p := 0; let d := s.found t;
        d.alive = true ∧ d.curDown 0 = false ∧ p < 10 ∧ d.ptpState p = 9) ∧
      (let s := (obj [(ptpIdx 0, 7, 9), (0x2200, 1, 2)]).mod fun d => { d with time := { d.time with good := 15 } };
        let t := 9; let p := 0; let d := s.found t; d.alive = true ∧ d.curDown 0 = false ∧ p < 10 ∧ d.ptpState p = 9)) ∧
    ((let s := (obj [(ptpIdx 9, 1, 1), (0x2201, 1, 0), (0x2201, 4, 1), (0x2200, 7, 0xFF)]).mod fun d => { d with doms := [(domKey 0x2201 0x0A 0, [9])] };
        let t := 9; let p := 9; let a : Announce := ann; let d := s.found t; d.alive = true ∧ d.curDown 0 = false ∧
        p < 10 ∧ d.rdb (ptpIdx p) 1 = true ∧ a.domain = d.rd 0x2201 1 ∧ a.sender ≠ d.rdd 0x2201 0x0A ∧
        d.rdb 0x2201 4 = true ∧ (∀ q, q < 10 → (d.ptp q).ann = none) ∧ d.rd 0x2200 7 = 0xFF) ∧
      (let s := obj [(ptpIdx 9, 1, 0)]; let t := 9; let p := 9; let d := s.found t; d.alive = true ∧
        d.curDown 0 = false ∧ p < 10 ∧ d.rdb (ptpIdx p) 1 = false)) ∧
    ((let s := aft fun d => d.setPtp 9 { ann := some ann }; let t : Nat := 10^13; let p := 9; let d := s.found t;
        let x := d.ptp p; d.alive = true ∧ d.curDown 0 = false ∧ p < 10 ∧ x.ann.isSome = true ∧
        max x.annAt x.syncAt + d.ptpTimeout ≤ t) ∧
      (let s := (obj [(ptpIdx 9, 7, 9), (0x2200, 1, 1)]).mod fun d => d.setPtp 9 { path := some 40, reqAt := some 7 };
        let t := 9; let p := 9; let path : Int := 40; let at_ : Int := 7; let d := s.found t; let x := d.ptp p;
        d.alive = true ∧ d.curDown 0 = false ∧ p < 10 ∧ d.ptpState p = 9 ∧ x.path = some path ∧ x.reqAt = some at_)) ∧
    ((let s := (obj [(ptpIdx 7, 7, 6), (0x2200, 1, 1)]); let t := 9; let p := 7; let d := s.found t;
        d.alive = true ∧ d.curDown 0 = false ∧ p < 10 ∧ d.ptpState p = 6 ∧ p < 8) ∧
      (let s := (obj [(ptpIdx 8, 7, 9), (0x2200, 1, 1)]); let t := 9; let p := 8; let d := s.found t;
        d.alive = true ∧ d.curDown 0 = false ∧ p < 10 ∧ d.ptpState p = 9 ∧ d.rd (ptpIdx p) 6 = 0 ∧ 8 ≤ p) ∧
      (let s := obj [(0x2200, 1, 5), (0x2200, 3, 7)]; let t := 900; let by_ : Requester := boss;
        let d := s.found t; d.grants by_ 0x2200 0x0B [1] ∧ d.timeState ∈ [2, 3, 5])) ∧
    ((let s := obj [(0x2200, 1, 2)]; let t := 900; let by_ : Requester := boss; let d := s.found t;
        d.grants by_ 0x2200 0x0B [1] ∧ d.timeState ∈ [2, 3, 5]) ∧
      (let s := obj [(0x2200, 1, 5)]; let t := 9; let by_ : Requester := boss; let d := s.found t;
        d.grants by_ 0x2200 0x0B [2] ∧ d.timeState = 5) ∧
      (let s := obj [(0x2200, 1, 5)]; let t := 9; let by_ : Requester := boss; let d := s.found t;
        d.grants by_ 0x2200 0x0B [3] ∧ d.timeState = 5) ∧
      (let s := run; let t := 9; let by_ : Requester := boss; let c : Instr := .timeRestep 9 boss; let v := 1;
        let d := s.found t; (c, v) ∈ [(Instr.timeRestep t by_, 1), (.timeSlew t by_, 2), (.timeHold t by_, 3)] ∧
        d.grants by_ 0x2200 0x0B [BitVec.ofNat 8 v] ∧ d.timeState ∉ (if v = 1 then [2, 3, 5] else [5])) ∧
      (let s := obj [(0x2200, 1, 2)]; let t := 9; let by_ : Requester := boss; let c : Instr := .timeSlew 9 boss;
        let v := 2; let d := s.found t;
        (c, v) ∈ [(Instr.timeRestep t by_, 1), (.timeSlew t by_, 2), (.timeHold t by_, 3)] ∧
        d.grants by_ 0x2200 0x0B [BitVec.ofNat 8 v] ∧ d.timeState ∉ (if v = 1 then [2, 3, 5] else [5]))) ∧
    (let s := obj [(0x2200, 1, 3)]; let t := 9; let by_ : Requester := boss; let c : Instr := .timeHold 9 boss;
        let v := 3; let d := s.found t;
        (c, v) ∈ [(Instr.timeRestep t by_, 1), (.timeSlew t by_, 2), (.timeHold t by_, 3)] ∧
        d.grants by_ 0x2200 0x0B [BitVec.ofNat 8 v] ∧ d.timeState ∉ (if v = 1 then [2, 3, 5] else [5])) :=
    by refine ⟨?_, ?_, ?_, ?_, ?_, ?_⟩ <;> (try unfold Dev.grants) <;> decide +kernel

theorem test_hyps_TimedLaunchesComplete :
    (let s := obj [(launchIdx 63, 1, 1), (launchIdx 63, 2, 0), (launchIdx 63, 6, 5), (launchIdx 63, 3, time48 1000009), (launchIdx 63, 9, 0), (launchIdx 63, 5, 0), (launchIdx 63, 7, 0xFFFF), (0x2239, 1, 2), (0x2038, 0x0A, 2)];
        let t := 9; let e := 63; let by_ : Requester := boss; let d := s.found t; let i := launchIdx e;
        let due := ofTime48 (d.rd i 3); d.grants by_ i 8 [1] ∧ d.rd i 1 = 1 ∧ d.rd i 2 = 0 ∧ d.rd i 6 ≠ 0 ∧
        d.rd 0x2239 1 = 2 ∧ t + 1000000 ≤ due ∧ due ≤ t + 600000000000 ∧ d.launchState e ∉ [1, 2]) ∧
    ((let s := obj [(launchIdx 0, 1, 1), (launchIdx 0, 2, 0), (launchIdx 0, 6, 5), (launchIdx 0, 3, time48 600000000009), (launchIdx 0, 9, 0), (launchIdx 0, 5, 0), (launchIdx 0, 7, 0xFFFF), (0x2239, 1, 2), (0x2038, 0x0A, 2)];
        let t := 9; let e := 0; let by_ : Requester := boss; let d := s.found t; let i := launchIdx e;
        let due := ofTime48 (d.rd i 3); d.grants by_ i 8 [1] ∧ d.rd i 1 = 1 ∧ d.rd i 2 = 0 ∧ d.rd i 6 ≠ 0 ∧
        d.rd 0x2239 1 = 2 ∧ t + 1000000 ≤ due ∧ due ≤ t + 600000000000 ∧ d.launchState e ∉ [1, 2]) ∧
      (let s := obj [(launchIdx 63, 1, 1), (launchIdx 63, 2, 0), (launchIdx 63, 6, 5), (launchIdx 63, 3, time48 1000008), (launchIdx 63, 9, 0), (launchIdx 63, 5, 0), (launchIdx 63, 7, 0xFFFF), (0x2239, 1, 2), (0x2038, 0x0A, 2)];
        let t := 9; let e := 63; let by_ : Requester := boss; let d := s.found t; let i := launchIdx e;
        let due := ofTime48 (d.rd i 3); d.grants by_ i 8 [1] ∧ d.rd i 1 = 1 ∧ d.rd i 2 = 0 ∧ d.rd i 6 ≠ 0 ∧
        d.rd 0x2239 1 = 2 ∧ due < t + 1000000)) ∧
    ((let s := obj [(launchIdx 63, 1, 1), (launchIdx 63, 2, 0), (launchIdx 63, 6, 5), (launchIdx 63, 3, time48 600000000010), (launchIdx 63, 9, 0), (launchIdx 63, 5, 0), (launchIdx 63, 7, 0xFFFF), (0x2239, 1, 2), (0x2038, 0x0A, 2)];
        let t := 9; let e := 63; let by_ : Requester := boss; let d := s.found t; let i := launchIdx e;
        let due := ofTime48 (d.rd i 3); d.grants by_ i 8 [1] ∧ d.rd i 1 = 1 ∧ d.rd i 2 = 0 ∧ d.rd i 6 ≠ 0 ∧
        d.rd 0x2239 1 = 2 ∧ t + 600000000000 < due) ∧
      (let s := run; let t := 9; let e := 63; let by_ : Requester := boss; let d := s.found t;
        let i := launchIdx e; d.grants by_ i 8 [0]) ∧
      (let s := (obj [(launchIdx 63, 1, 1), (launchIdx 63, 2, 0), (launchIdx 63, 6, 5), (launchIdx 63, 3, time48 100), (launchIdx 63, 9, 1), (launchIdx 63, 5, 0), (launchIdx 63, 7, 0xFFFF), (0x2239, 1, 2), (0x2038, 0x0A, 2)]).mod fun d => { d with due := [(63, 100)] };
        let t := 100; let e := 63; let d := s.found t; let i := launchIdx e; d.alive = true ∧
        d.launchWaits e = true ∧ d.launchDue e ≤ t ∧ d.rd i 1 = 1 ∧ d.rd 0x2239 1 = 2 ∧ d.pps.high = false)) ∧
    (let s := (obj [(launchIdx 63, 1, 2), (launchIdx 63, 2, 0), (launchIdx 63, 6, 5), (launchIdx 63, 3, time48 100), (launchIdx 63, 9, 1), (launchIdx 63, 5, 0), (launchIdx 63, 7, 0xFFFF), (0x2239, 1, 2), (0x2038, 0x0A, 2)]).mod fun d => { d with due := [(63, 100)] };
        let t := 100; let e := 63; let d := s.found t; let i := launchIdx e; d.alive = true ∧
        d.launchWaits e = true ∧ d.launchDue e ≤ t ∧ d.rd i 1 = 2 ∧ d.standby = false ∧ d.dup.gated = false ∧
        d.rd i 5 < 8 ∧ d.linkUp (d.rd i 5) = true ∧ d.rd i 7 = 0xFFFF ∧
        (d.launchedIn (d.rd i 5)).foldl (fun a x => a + x.2) ((d.rdd 0x2280 (d.rd i 6 + 1)).length + 4) ≤ 12500) ∧
    ((let s := (obj [(launchIdx 63, 1, 2), (launchIdx 63, 2, 0), (launchIdx 63, 6, 5), (launchIdx 63, 3, time48 100), (launchIdx 63, 9, 1), (launchIdx 63, 5, 0), (launchIdx 63, 7, 0xFFFF), (0x2239, 1, 2), (0x2038, 0x0A, 0)]).mod fun d => { d with due := [(63, 100)] };
        let t := 100; let e := 63; let d := s.found t; let i := launchIdx e; d.alive = true ∧
        d.launchWaits e = true ∧ d.launchDue e ≤ t ∧ d.rd i 1 = 2 ∧ d.standby = false ∧ d.dup.gated = false ∧
        d.rd i 5 < 8 ∧ d.linkUp (d.rd i 5) = false) ∧
      (let b : List Byte := List.replicate 12 1; let o := 2; o + 10 ≤ b.length) ∧
      (let s := obj [(0x2239, 1, 1), (0x2239, 4, 1)]; let t := 2000000000; let d := s.found t; d.alive = true ∧
        d.ppsSends = true ∧ ((t : Int) - d.rdi 32 0x2239 3) % 1000000000 = 0 ∧ d.pps.high = false)) ∧
    (let s := aft fun d => { d with pps := { high := true, until_ := 9 } }; let t := 9; let d := s.found t;
        d.alive = true ∧ d.pps.high = true) ∧
    (let s := aft fun d => { d with pps := { high := true, until_ := 10 } }; let t := 9; let d := s.found t;
        d.alive = true ∧ d.pps.high = true) :=
    by refine ⟨?_, ?_, ?_, ?_, ?_, ?_⟩ <;> (try unfold Dev.grants) <;> decide +kernel

theorem test_hyps_EventInputsCapture :
    ((let s := (obj [(evtIdx 24, 1, 1), (evtIdx 24, 2, 3), (evtIdx 24, 3, 5), (evtIdx 24, 4, 10), (evtIdx 24, 5, 1), (evtIdx 24, 6, 1), (evtIdx 24, 9, 0), (evtIdx 24, 0x0C, 0)]).mod fun d => d.setEvt 24 {  };
        let t := 9; let i := 24; let at_ := 5; let d := s.found t; let j := evtIdx i; d.alive = true ∧ i < 25 ∧
        d.rdb j 1 = true ∧ t < at_ + d.rd j 3) ∧
      (let s := (obj [(evtIdx 24, 1, 1), (evtIdx 24, 2, 3), (evtIdx 24, 3, 5), (evtIdx 24, 4, 10), (evtIdx 24, 5, 1), (evtIdx 24, 6, 1), (evtIdx 24, 9, 3), (evtIdx 24, 0x0C, 0)]).mod fun d => d.setEvt 24 {  };
        let t := 10; let i := 24; let at_ := 5; let level : Bool := true; let d := s.found t; let j := evtIdx i;
        d.alive = true ∧ i < 25 ∧ d.rdb j 1 = true ∧ at_ + d.rd j 3 ≤ t ∧ d.evtBit i 1 = false ∧
        (d.rd j 2).testBit (if level then 0 else 1) = true ∧ d.evtMerges i (at_ - at_ % 2) = false)) ∧
    ((let s := (obj [(evtIdx 24, 1, 1), (evtIdx 24, 2, 3), (evtIdx 24, 3, 5), (evtIdx 24, 4, 10), (evtIdx 24, 5, 1), (evtIdx 24, 6, 1), (evtIdx 24, 9, 3), (evtIdx 24, 0x0C, 0)]).mod fun d => d.setEvt 24 { resumed := false, merged := 1 };
        let t := 10; let i := 24; let at_ := 5; let level : Bool := false; let d := s.found t; let j := evtIdx i;
        d.alive = true ∧ i < 25 ∧ d.rdb j 1 = true ∧ at_ + d.rd j 3 ≤ t ∧ d.evtBit i 1 = false ∧
        (d.rd j 2).testBit (if level then 0 else 1) = true ∧ d.evtMerges i (at_ - at_ % 2) = true) ∧
      (let s := (obj [(evtIdx 24, 1, 1), (evtIdx 24, 2, 3), (evtIdx 24, 3, 5), (evtIdx 24, 4, 10), (evtIdx 24, 5, 1), (evtIdx 24, 6, 1), (evtIdx 24, 9, 3), (evtIdx 24, 0x0C, 4)]).mod fun d => d.setEvt 24 { merged := 7 };
        let t := 10; let i := 24; let d := s.found t; let x := d.evt i; d.alive = true ∧ i < 25 ∧ x.merged ≠ 0)) ∧
    (let s := (obj [(evtIdx 24, 1, 1), (evtIdx 24, 2, 3), (evtIdx 24, 3, 5), (evtIdx 24, 4, 10), (evtIdx 24, 5, 1), (evtIdx 24, 6, 1), (evtIdx 24, 9, 3), (evtIdx 24, 0x0C, 1)]).mod fun d => d.setEvt 24 { since := 5 };
        let t := 1000005; let i := 24; let d := s.found t; let j := evtIdx i; let x := d.evt i; d.alive = true ∧
        i < 25 ∧ d.rdb j 1 = true ∧ d.evtBit i 1 = false ∧ d.evtActive i = true ∧ x.since + d.rd j 6 * 1000000 ≤ t) ∧
    (let s := (obj [(evtIdx 24, 1, 1), (evtIdx 24, 2, 3), (evtIdx 24, 3, 5), (evtIdx 24, 4, 10), (evtIdx 24, 5, 0), (evtIdx 24, 6, 1), (evtIdx 24, 9, 3), (evtIdx 24, 0x0C, 2)]).mod fun d => d.setEvt 24 { since := 5 };
        let t := 5000000; let i := 24; let d := s.found t; let j := evtIdx i; d.alive = true ∧ i < 25 ∧
        d.evtBit i 1 = true ∧ d.rd j 5 < 2) ∧
    (let s := (obj [(evtIdx 24, 1, 1), (evtIdx 24, 2, 3), (evtIdx 24, 3, 5), (evtIdx 24, 4, 10), (evtIdx 24, 5, 1), (evtIdx 24, 6, 1), (evtIdx 24, 9, 3), (evtIdx 24, 0x0C, 3)]).mod fun d => d.setEvt 24 { since := 5 };
        let t := 5000000; let i := 24; let d := s.found t; let j := evtIdx i; d.alive = true ∧ i < 25 ∧
        d.evtBit i 1 = true ∧ d.rd j 5 < 2) :=
    by refine ⟨?_, ?_, ?_⟩ <;> decide +kernel

theorem test_hyps_AudioPortsAndGroupsComplete :
    ((let s := (obj [(audIdx 15, 1, 1), (audIdx 15, 0x0A, 2), (audIdx 15, 2, 0), (audIdx 15, 5, 0), (audIdx 15, 7, 0), (audIdx 15, 8, 0xFF), (audIdx 15, 6, 8)]).mod fun d => d.setAudPort 15 {  };
        let t := 1000000; let a := 15; let bclks := 64; let d := s.found t; let i := audIdx a; let x := d.audPort a;
        let n := audFramePos (d.audPortHz a) t; d.alive = true ∧ d.audState a = 2 ∧ x.from_ ≤ n ∧ d.rd i 2 = 0 ∧
        (d.rd i 5 ≠ 1 ∨ bclks = 64)) ∧
      (let s := (obj [(audIdx 15, 1, 1), (audIdx 15, 0x0A, 2), (audIdx 15, 2, 0), (audIdx 15, 5, 1), (audIdx 15, 7, 0), (audIdx 15, 8, 0xFF), (audIdx 15, 6, 8)]).mod fun d => d.setAudPort 15 {  };
        let t := 1000000; let a := 15; let bclks := 64; let d := s.found t; let i := audIdx a; let x := d.audPort a;
        let n := audFramePos (d.audPortHz a) t; d.alive = true ∧ d.audState a = 2 ∧ x.from_ ≤ n ∧ d.rd i 2 = 0 ∧
        (d.rd i 5 ≠ 1 ∨ bclks = 64))) ∧
    ((let s : State := ((obj [(audIdx 15, 1, 1), (audIdx 15, 0x0A, 2), (audIdx 15, 2, 0), (audIdx 15, 5, 0), (audIdx 15, 7, 0), (audIdx 15, 8, 0xFF), (audIdx 15, 6, 8)]).mod fun d => d.setAudPort 15 {  }).mod fun d => { d with aud := { d.aud with mute := [(30, 1)] } };
        let t := 1000000; let a := 15; let bclks := 64; let d := s.found t; let i := audIdx a; let x := d.audPort a;
        let n := audFramePos (d.audPortHz a) t; d.alive = true ∧ d.audState a = 2 ∧ x.from_ ≤ n ∧ d.rd i 2 = 0 ∧
        (d.rd i 5 ≠ 1 ∨ bclks = 64)) ∧
      (let s := (obj [(audIdx 15, 1, 1), (audIdx 15, 0x0A, 2), (audIdx 15, 2, 1), (audIdx 15, 5, 0), (audIdx 15, 7, 3), (audIdx 15, 8, 0xFF), (audIdx 15, 6, 8)]).mod fun d => d.setAudPort 15 {  };
        let t := 1000000; let a := 15; let d := s.found t; let i := audIdx a; let x := d.audPort a;
        let n := audFramePos (d.audPortHz a) t; d.alive = true ∧ d.audState a = 2 ∧ x.from_ ≤ n ∧ d.rd i 2 ≠ 0 ∧
        d.rd i 7 ≠ 0xFF ∧ d.rd i 8 = 0xFF)) ∧
    ((let s : State := ((obj [(audIdx 15, 1, 1), (audIdx 15, 0x0A, 2), (audIdx 15, 2, 1), (audIdx 15, 5, 0), (audIdx 15, 7, 3), (audIdx 15, 8, 0xFF), (audIdx 15, 6, 8)]).mod fun d => d.setAudPort 15 {  }).mod fun d => { d with aud := { d.aud with rings := [(ringKey 3 (audFramePos 48000 1000000), (audFramePos 48000 1000000 + 1, 77))] } };
        let t := 1000000; let a := 15; let d := s.found t; let i := audIdx a; let x := d.audPort a;
        let n := audFramePos (d.audPortHz a) t; d.alive = true ∧ d.audState a = 2 ∧ x.from_ ≤ n ∧ d.rd i 2 ≠ 0 ∧
        d.rd i 7 ≠ 0xFF ∧ d.rd i 8 = 0xFF) ∧
      (let s := (obj [(audIdx 15, 1, 1), (audIdx 15, 0x0A, 2), (audIdx 15, 2, 0), (audIdx 15, 5, 0), (audIdx 15, 7, 0), (audIdx 15, 8, 0xFF), (audIdx 15, 6, 8)]).mod fun d => d.setAudPort 15 { zeros := 4 };
        let t := 1000000; let a := 15; let d := s.found t; let x := d.audPort a; d.alive = true ∧ x.zeros ≠ 0 ∧
        x.told = none) ∧
      (let s := (obj [(audIdx 15, 1, 1), (audIdx 15, 0x0A, 2), (audIdx 15, 2, 0), (audIdx 15, 5, 1), (audIdx 15, 7, 0), (audIdx 15, 8, 0xFF), (audIdx 15, 6, 8)]).mod fun d => d.setAudPort 15 {  };
        let t := 1000000; let a := 15; let d := s.found t; let i := audIdx a; d.alive = true ∧ d.rd i 5 = 1 ∧
        d.audState a = 2)) ∧
    ((let s := (obj [(audIdx 15, 1, 1), (audIdx 15, 0x0A, 3), (audIdx 15, 2, 0), (audIdx 15, 5, 1), (audIdx 15, 7, 0), (audIdx 15, 8, 0xFF), (audIdx 15, 6, 8)]).mod fun d => d.setAudPort 15 { gateOk := true };
        let t := 1000000; let a := 15; let by_ : Requester := boss; let d := s.found t; let i := audIdx a;
        let x := d.audPort a; d.grants by_ i 0x0C [1] ∧ d.audState a = 3 ∧ x.gateOk = true) ∧
      (let s := (obj [(audIdx 15, 1, 1), (audIdx 15, 0x0A, 3), (audIdx 15, 2, 0), (audIdx 15, 5, 1), (audIdx 15, 7, 0), (audIdx 15, 8, 0xFF), (audIdx 15, 6, 8)]).mod fun d => d.setAudPort 15 {  };
        let t := 1000000; let a := 15; let by_ : Requester := boss; let d := s.found t; let i := audIdx a;
        let x := d.audPort a; d.grants by_ i 0x0C [1] ∧ (d.audState a ≠ 3 ∨ x.gateOk = false)) ∧
      (let s := (obj [(audIdx 15, 1, 1), (audIdx 15, 0x0A, 2), (audIdx 15, 2, 0), (audIdx 15, 5, 1), (audIdx 15, 7, 0), (audIdx 15, 8, 0xFF), (audIdx 15, 6, 8)]).mod fun d => d.setAudPort 15 {  };
        let t := 1000000; let a := 15; let by_ : Requester := boss; let d := s.found t; let i := audIdx a;
        let x := d.audPort a; d.grants by_ i 0x0C [1] ∧ (d.audState a ≠ 3 ∨ x.gateOk = false)) ∧
      (let s := obj [(audIdx 15, 1, 1), (audIdx 15, 6, 8), (audIdx 15, 0x0A, 1), (0x3618, 7, 0), (0x3618, 1, 0), (0x3618, 2, time48 10000009), (0x3618, 6, 3)];
        let t := 9; let g := 8; let by_ : Requester := boss; let d := s.found t; 0 < g ∧ g ≤ 8 ∧
        d.grants by_ (0x3610 + g) 5 [1] ∧ d.audGroup g = 0 ∧
        (∀ b, b < 16 → b ∈ d.audMembers g → d.rd (audIdx b) 3 = d.audGroupRate g) ∧ t + 10000000 ≤ d.audTrigger g ∧
        d.audTrigger g ≤ t + 600000000000)) ∧
    ((let s := obj [(audIdx 15, 1, 1), (audIdx 15, 6, 8), (audIdx 15, 0x0A, 1), (0x3618, 7, 0), (0x3618, 1, 0), (0x3618, 2, time48 600000000009), (0x3618, 6, 3)];
        let t := 9; let g := 8; let by_ : Requester := boss; let d := s.found t; 0 < g ∧ g ≤ 8 ∧
        d.grants by_ (0x3610 + g) 5 [1] ∧ d.audGroup g = 0 ∧
        (∀ b, b < 16 → b ∈ d.audMembers g → d.rd (audIdx b) 3 = d.audGroupRate g) ∧ t + 10000000 ≤ d.audTrigger g ∧
        d.audTrigger g ≤ t + 600000000000) ∧
      (let s := obj [(audIdx 15, 1, 1), (audIdx 15, 6, 8), (audIdx 15, 0x0A, 1), (0x3618, 7, 0), (0x3618, 1, 0), (0x3618, 2, time48 10000008), (0x3618, 6, 3)];
        let t := 9; let g := 8; let by_ : Requester := boss; let d := s.found t; 0 < g ∧ g ≤ 8 ∧
        d.grants by_ (0x3610 + g) 5 [1] ∧ d.audGroup g = 0 ∧
        (∀ b, b < 16 → b ∈ d.audMembers g → d.rd (audIdx b) 3 = d.audGroupRate g) ∧ d.audTrigger g < t + 10000000)) ∧
    (let s := obj [(audIdx 15, 1, 1), (audIdx 15, 6, 8), (audIdx 15, 0x0A, 1), (0x3618, 7, 1), (0x3618, 1, 0), (0x3618, 2, time48 5), (0x3618, 6, 3)];
        let t := 1000000; let g := 8; let d := s.found t; 0 < g ∧ g ≤ 8 ∧ d.alive = true ∧ d.audGroup g = 1 ∧
        d.rd (0x3610 + g) 6 ≤ audFramePos (audHz (d.audGroupRate g)) t) ∧
    (let s := obj [(audIdx 15, 1, 1), (audIdx 15, 6, 8), (audIdx 15, 0x0A, 2), (0x3618, 7, 2), (0x3618, 1, 0), (0x3618, 2, time48 5), (0x3618, 6, 3)];
        let t := 9; let g := 8; let by_ : Requester := boss; let d := s.found t; 0 < g ∧ g ≤ 8 ∧
        d.grants by_ (0x3610 + g) 5 [2]) :=
    by refine ⟨?_, ?_, ?_, ?_, ?_, ?_⟩ <;> (try unfold Dev.grants) <;> decide +kernel

theorem test_hyps_AudioStreamsComplete :
    (let s := obj [(0x2038, 0x0A, 2), (recvIdx 15, 3, 0), (recvIdx 15, 1, 1), (recvIdx 15, 2, 0), (recvIdx 15, 0x0E, 0xFF), (recvIdx 15, 8, 0), (recvIdx 15, 9, 0), (recvIdx 15, 0x0A, 2), (recvIdx 15, 0x0C, 4), (recvIdx 15, 0x0D, 0)];
        let t := 1000000000; let st := 15; let p : AudioPacket := ⟨0, 7, 48010, [1, 2, 3, 4, 5, 6]⟩;
        let b0 : Byte := 1; let b1 : Byte := 2; let b2 : Byte := 3; let b3 : Byte := 4; let b4 : Byte := 5;
        let b5 : Byte := 6; let d := s.found t; let i := recvIdx st; let f := d.rd i 0x0C;
        let cur := audPos (audHz (d.rd i 9)) t; let pos := extendNear 32 cur p.ts - d.rd i 0x0D; d.alive = true ∧
        st < 16 ∧ d.rdb i 1 = true ∧ d.rd i 2 = 0 ∧ d.rd i 0x0E = 0xFF ∧ p.leg = 0 ∧ d.audIn st = {} ∧
        p.payload = [b0, b1, b2, b3, b4, b5] ∧ d.rd i 8 ≠ 1 ∧ d.rd i 0x0A = 2 ∧ d.linkUp (d.rd i 3) = true ∧
        0 ≤ pos ∧ (pos - cur).natAbs ≤ 32768 ∧ Tab.getD d.aud.mute f 0 = 0 ∧ [b0, b1] ≠ [0xF8, 0x72]) ∧
    ((let s := obj [(0x2038, 0x0A, 2), (recvIdx 15, 3, 0), (recvIdx 15, 1, 0), (recvIdx 15, 2, 0), (recvIdx 15, 0x0E, 0xFF), (recvIdx 15, 8, 0), (recvIdx 15, 9, 0), (recvIdx 15, 0x0A, 2), (recvIdx 15, 0x0C, 4), (recvIdx 15, 0x0D, 0)];
        let t := 9; let st := 15; let d := s.found t; let i := recvIdx st; d.alive = true ∧ d.rdb i 1 = false) ∧
      (let s := obj [(0x2038, 0x0A, 2), (recvIdx 15, 3, 0), (recvIdx 15, 1, 1), (recvIdx 15, 2, 1), (recvIdx 15, 0x0E, 0xFF), (recvIdx 15, 8, 0), (recvIdx 15, 9, 0), (recvIdx 15, 0x0A, 2), (recvIdx 15, 0x0C, 4), (recvIdx 15, 0x0D, 0), (recvIdx 15, 0x10, 9), (recvIdx 15, 0x11, 0x1FFE), (0x3009, 1, 1), (0x3009, 3, 5), (0x3009, 2, 0)];
        let t := 9; let st := 15; let q : AudioPes := ⟨9, 0x1FFE, 0, 0, 2, false, []⟩; let d := s.found t;
        let i := recvIdx st; d.alive = true ∧ d.rdb i 1 = true ∧ d.rd i 2 = 1 ∧ d.pesOf st q = true ∧
        q.is302m = false)) ∧
    (let s := obj [(0x2038, 0x0A, 2), (recvIdx 15, 3, 0), (recvIdx 15, 1, 1), (recvIdx 15, 2, 1), (recvIdx 15, 0x0E, 0xFF), (recvIdx 15, 8, 0), (recvIdx 15, 9, 0), (recvIdx 15, 0x0A, 2), (recvIdx 15, 0x0C, 4), (recvIdx 15, 0x0D, 0), (recvIdx 15, 0x10, 9), (recvIdx 15, 0x11, 0x1FFE), (0x3009, 1, 1), (0x3009, 3, 5), (0x3009, 2, 0)];
        let t := 500000000; let st := 15;
        let q : AudioPes := ⟨9, 0x1FFE, 90000, 500000000, 8, true, [1, 2, 3, 4, 5, 6, 7, 8]⟩; let d := s.found t;
        let i := recvIdx st; d.alive = true ∧ st < 16 ∧ d.rdb i 1 = true ∧ d.rd i 2 = 1 ∧ d.pesOf st q = true ∧
        q.is302m = true ∧ q.channels ∈ [2, 4, 6, 8] ∧ (d.audIn st).anchor = none) ∧
    (let s := obj [(sendIdx 15, 0x12, 2), (sendIdx 15, 3, 0), (sendIdx 15, 0x0D, 1), (sendIdx 15, 0x0E, 0xFF), (sendIdx 15, 0x0A, 2), (sendIdx 15, 8, 0), (sendIdx 15, 9, 0), (sendIdx 15, 0x0B, 0), (0x2038, 0x0A, 2)];
        let t := 1000000000; let st := 15; let d := s.found t; let o := sendIdx st;
        let m := audPerPacket (audHz (d.rd o 9)) (d.rd o 0x0B);
        let end_ := audFramePos (audHz (d.rd o 9)) (t - d.rd o 0x0D * 1000) / m * m; let y := d.audOut st;
        d.alive = true ∧ d.rd o 0x12 = 2 ∧ d.rd o 0x0D * 1000 ≤ t ∧ m ≤ end_ ∧ y.done < end_ ∧ d.rd o 0x0E = 0xFF ∧
        d.linkUp (d.rd o 3) = true) ∧
    (let s := obj [(0x2038, 0x0A, 2), (recvIdx 15, 3, 0), (recvIdx 15, 1, 1), (recvIdx 15, 2, 0), (recvIdx 15, 0x0E, 0xFF), (recvIdx 15, 8, 0), (recvIdx 15, 9, 0), (recvIdx 15, 0x0A, 2), (recvIdx 15, 0x0C, 4), (recvIdx 15, 0x0D, 0)];
        let t := 100000000; let st := 15; let d := s.found t; let i := recvIdx st; d.alive = true ∧ st < 16 ∧
        d.rdb i 1 = true ∧ d.bankHeld 4 = false ∧ (d.audIn st).last + 100000000 ≤ t ∧ d.rd i 0x12 ≠ 3) ∧
    (let s := (obj [(recvIdx 15, 0x13, 4)]).mod fun d => { d with aud := { d.aud with zeros := [(3, 4)] } };
        let t := 9; let by_ : Requester := boss; let d := s.found t; d.grants by_ 0x3600 5 [1]) :=
    by refine ⟨?_, ?_, ?_, ?_⟩ <;> (try unfold Dev.grants) <;> decide +kernel

theorem test_hyps_TouchCommandsComplete :
    ((let s := (obj [(surfIdx 7, 1, 1)]).mod fun d => d.setSurf 7 { rebase := true }; let t := 0;
        let d := s.found t; d.alive = true ∧ d.touchRuns = true ∧ d.scanDue = true) ∧
      (let s := (obj [(surfIdx 7, 1, 1), (0x2010, 1, 8)]).mod fun d => { d with touch := { d.touch with hopTo := 3 } };
        let t := 4166667; let d := s.found t; d.alive = true ∧ d.touchRuns = true ∧ d.scanDue = true) ∧
      (let s := (obj [(surfIdx 7, 1, 1), (surfIdx 7, 0x0F, 2), (0x3700, 4, 0)]).mod fun d => { d with touch := { d.touch with scanning := true } };
        let t := 9; let d := s.found t; d.alive = true ∧ d.touch.scanning = true ∧ d.touch.endAt ≤ t) ∧
      (let s := (obj [(surfIdx 7, 1, 1), (surfIdx 7, 0x0F, 2), (0x3700, 4, 1)]).mod fun d => { d with touch := { d.touch with scanning := true } };
        let t := 9; let d := s.found t; d.alive = true ∧ d.touch.scanning = true ∧ d.touch.endAt ≤ t)) ∧
    ((let x : TNode := { st := 0, base := 256000 }; let v := 950; let thr := 50; let rel := 30;
        let dl : Int := (x.base / 256 : Nat) - v; x.st = 0 ∧ (thr : Int) ≤ dl ∧ (rel : Int) ≤ dl) ∧
      (let x : TNode := { st := 1, base := 256000 }; let v := 970; let rel := 30;
        let dl : Int := (x.base / 256 : Nat) - v; x.st ≠ 0 ∧ (rel : Int) ≤ dl) ∧
      (let x : TNode := { st := 2, base := 256000 }; let v := 971; let thr := 50; let rel := 30; let neg := 100;
        let dl : Int := (x.base / 256 : Nat) - v; x.st ≠ 0 ∧ dl < rel ∧ -(neg : Int) < dl ∧ dl < thr) ∧
      (let x : TNode := { st := 0, base := 256000 }; let v := 1100; let thr := 50; let neg := 100;
        let dl : Int := (x.base / 256 : Nat) - v; x.st = 0 ∧ dl ≤ -(neg : Int) ∧ dl < thr) ∧
      (let s := obj [(surfIdx 7, 0x0F, 2)]; let t := 9; let k := 7; let by_ : Requester := boss;
        let d := s.found t; d.grants by_ (surfIdx k) 0x0E [1] ∧ d.surfState k ≠ 1)) ∧
    (let s := obj [(surfIdx 7, 0x0F, 1)]; let t := 9; let k := 7; let by_ : Requester := boss;
        let d := s.found t; d.grants by_ (surfIdx k) 0x0E [1] ∧ d.surfState k = 1) :=
    by refine ⟨?_, ?_, ?_⟩ <;> (try unfold Dev.grants) <;> decide +kernel

theorem test_hyps_ARunningValueCanBeSavedAndWrittenBack :
    (let u := 31; u < 32) ∧
    (let u := 0; u < 32) ∧
    (let s := obj [(cvuIdx 31, 0x0A, 1), (cvuIdx 31, 7, 0), (cvuIdx 31, 8, 0)]; let t := 9; let u := 31;
        let v : Nat := 2^64-1; let by_ : Requester := boss; let d := s.found t;
        d.grants by_ (cvuIdx u) 4 (leBytes 8 v) ∧ d.rd (cvuIdx u) 0x0A ∈ [1, 3]) ∧
    (let s := obj [(cvuIdx 31, 0x0A, 3), (cvuIdx 31, 7, 0), (cvuIdx 31, 8, 0)]; let t := 9; let u := 31;
        let v : Nat := 2^64-1; let by_ : Requester := boss; let d := s.found t;
        d.grants by_ (cvuIdx u) 4 (leBytes 8 v) ∧ d.rd (cvuIdx u) 0x0A ∈ [1, 3]) ∧
    (let s := obj [(cvuIdx 31, 0x0A, 2), (cvuIdx 31, 7, 0), (cvuIdx 31, 8, 0)]; let t := 9; let u := 31;
        let v := 5; let by_ : Requester := boss; let d := s.found t; d.grants by_ (cvuIdx u) 4 (leBytes 8 v) ∧
        d.rd (cvuIdx u) 0x0A ∉ [1, 3]) ∧
    (let d : Dev := run.dev; let e : Dev := run.dev; let u := 31; let code : Nat := run.dev.rd (cvuIdx 31) 2;
        d.rd (cvuIdx u) 2 = code ∧ e.rd (cvuIdx u) 2 = code ∧ d.rd (cvuIdx u) 4 < 2 ^ (crcParams code).width) :=
    by unfold Dev.grants; decide +kernel

theorem test_hyps_CvuCommandsComplete :
    ((let s := obj [(cvuIdx 31, 0x0A, 1), (cvuIdx 31, 7, 0), (cvuIdx 31, 8, 0)]; let t := 9; let u := 31;
        let by_ : Requester := boss; let data : List Byte := [1, 2]; let d := s.found t; let i := cvuIdx u;
        d.cvuState u ∉ [0, 2] ∧ d.grants by_ i 6 data) ∧
      (let s := obj [(cvuIdx 31, 0x0A, 4), (cvuIdx 31, 7, 0), (cvuIdx 31, 8, 0)]; let t := 9; let u := 31;
        let by_ : Requester := boss; let data : List Byte := [1, 2]; let d := s.found t; let i := cvuIdx u;
        d.cvuState u ∉ [0, 2] ∧ d.grants by_ i 6 data) ∧
      (let s := obj [(cvuIdx 31, 0x0A, 3), (cvuIdx 31, 7, 0), (cvuIdx 31, 8, 0)]; let t := 9; let u := 31;
        let by_ : Requester := boss; let d := s.found t; let i := cvuIdx u; d.cvuState u ∉ [0, 2] ∧
        d.grants by_ i 9 [3]) ∧
      (let s := obj [(cvuIdx 31, 0x0A, 1), (cvuIdx 31, 7, 0x5FFFFFFF8), (cvuIdx 31, 8, 8)]; let t := 9;
        let u := 31; let by_ : Requester := boss; let d := s.found t; let i := cvuIdx u; d.cvuState u ∉ [0, 2] ∧
        d.grants by_ i 9 [1] ∧ d.rd i 8 ≠ 0 ∧ (∀ x ∈ mapBounds, x ≤ d.rd i 7 ∨ d.rd i 7 + d.rd i 8 ≤ x)) ∧
      (let s := obj [(cvuIdx 31, 0x0A, 1), (cvuIdx 31, 7, 0x5FFFFFFF8), (cvuIdx 31, 8, 9)]; let t := 9;
        let u := 31; let by_ : Requester := boss; let d := s.found t; let i := cvuIdx u; d.cvuState u ∉ [0, 2] ∧
        d.grants by_ i 9 [1] ∧ (∃ x ∈ mapBounds, d.rd i 7 < x ∧ x < d.rd i 7 + d.rd i 8))) ∧
    ((let s := obj [(cvuIdx 31, 0x0A, 2), (cvuIdx 31, 7, 0), (cvuIdx 31, 8, 8)]; let t := 9; let u := 31;
        let by_ : Requester := boss; let data : List Byte := [1]; let c : Instr := .cvuData 9 boss 31 [1];
        let sub := 6; let val : List Byte := [1]; let d := s.found t; let i := cvuIdx u; d.cvuState u ∈ [0, 2] ∧
        (c, sub, val) ∈ [(Instr.cvuData t by_ u data, 6, data), (.cvuInitialise t by_ u, 9, [3]), (.cvuStartDma t by_ u, 9, [1])] ∧
        d.grants by_ i sub val) ∧
      (let s := obj [(cvuIdx 31, 0x0A, 0), (cvuIdx 31, 7, 0), (cvuIdx 31, 8, 8)]; let t := 9; let u := 31;
        let by_ : Requester := boss; let data : List Byte := []; let c : Instr := .cvuInitialise 9 boss 31;
        let sub := 9; let val : List Byte := [3]; let d := s.found t; let i := cvuIdx u; d.cvuState u ∈ [0, 2] ∧
        (c, sub, val) ∈ [(Instr.cvuData t by_ u data, 6, data), (.cvuInitialise t by_ u, 9, [3]), (.cvuStartDma t by_ u, 9, [1])] ∧
        d.grants by_ i sub val) ∧
      (let s := obj [(cvuIdx 31, 0x0A, 0), (cvuIdx 31, 7, 0), (cvuIdx 31, 8, 8)]; let t := 9; let u := 31;
        let by_ : Requester := boss; let data : List Byte := []; let c : Instr := .cvuStartDma 9 boss 31;
        let sub := 9; let val : List Byte := [1]; let d := s.found t; let i := cvuIdx u; d.cvuState u ∈ [0, 2] ∧
        (c, sub, val) ∈ [(Instr.cvuData t by_ u data, 6, data), (.cvuInitialise t by_ u, 9, [3]), (.cvuStartDma t by_ u, 9, [1])] ∧
        d.grants by_ i sub val) ∧
      (let s := (obj [(cvuIdx 31, 0x0A, 2), (cvuIdx 31, 7, 0), (cvuIdx 31, 8, 8)]).mod fun d => d.wrd 0x2501 1 (List.replicate 8 0 ++ List.replicate 8 0xFF ++ [0, 16, 0, 0, 255, 7, 0, 1] ++ List.replicate 8 0);
        let t := 9; let u := 31;
        let b : List Byte := (((obj [(cvuIdx 31, 0x0A, 2), (cvuIdx 31, 7, 0), (cvuIdx 31, 8, 8)]).mod fun d => d.wrd 0x2501 1 (List.replicate 8 0 ++ List.replicate 8 0xFF ++ [0, 16, 0, 0, 255, 7, 0, 1] ++ List.replicate 8 0)).found 9).cvuRead [] 31 8 ⟨[], []⟩ |>.1;
        let o : MemObs := ⟨[], []⟩; let why := 0;
        let e : Dev := (((obj [(cvuIdx 31, 0x0A, 2), (cvuIdx 31, 7, 0), (cvuIdx 31, 8, 8)]).mod fun d => d.wrd 0x2501 1 (List.replicate 8 0 ++ List.replicate 8 0xFF ++ [0, 16, 0, 0, 255, 7, 0, 1] ++ List.replicate 8 0)).found 9).cvuRead [] 31 8 ⟨[], []⟩ |>.2.2;
        let d := s.found t; let i := cvuIdx u; d.memUp = true ∧ d.alive = true ∧ d.cvuState u = 2 ∧
        d.cvuRead s.mem u (d.rd i 8) o = (b, why, e) ∧ why = 0)) ∧
    ((let s := obj [(cvuIdx 31, 0x0A, 2), (cvuIdx 31, 7, 0), (cvuIdx 31, 8, 8)]; let t := 9; let u := 31;
        let b : List Byte := ((obj [(cvuIdx 31, 0x0A, 2), (cvuIdx 31, 7, 0), (cvuIdx 31, 8, 8)]).found 9).cvuRead [] 31 8 ⟨[], []⟩ |>.1;
        let o : MemObs := ⟨[], []⟩; let why := 2;
        let e : Dev := ((obj [(cvuIdx 31, 0x0A, 2), (cvuIdx 31, 7, 0), (cvuIdx 31, 8, 8)]).found 9).cvuRead [] 31 8 ⟨[], []⟩ |>.2.2;
        let d := s.found t; let i := cvuIdx u; d.memUp = true ∧ d.alive = true ∧ d.cvuState u = 2 ∧
        d.cvuRead s.mem u (d.rd i 8) o = (b, why, e) ∧ why ≠ 0) ∧
      (let s := (obj [(cvuIdx 31, 0x0A, 2), (cvuIdx 31, 7, 0), (cvuIdx 31, 8, 8)]).mod fun d => d.wrd 0x2501 1 (List.replicate 8 0 ++ List.replicate 8 0xFF ++ [0, 16, 0, 0, 255, 7, 0, 1] ++ List.replicate 8 0);
        let t := 9; let u := 31;
        let b : List Byte := (((obj [(cvuIdx 31, 0x0A, 2), (cvuIdx 31, 7, 0), (cvuIdx 31, 8, 8)]).mod fun d => d.wrd 0x2501 1 (List.replicate 8 0 ++ List.replicate 8 0xFF ++ [0, 16, 0, 0, 255, 7, 0, 1] ++ List.replicate 8 0)).found 9).cvuRead [] 31 8 ⟨[], []⟩ |>.1;
        let o : MemObs := ⟨[], []⟩; let why := 0;
        let e : Dev := (((obj [(cvuIdx 31, 0x0A, 2), (cvuIdx 31, 7, 0), (cvuIdx 31, 8, 8)]).mod fun d => d.wrd 0x2501 1 (List.replicate 8 0 ++ List.replicate 8 0xFF ++ [0, 16, 0, 0, 255, 7, 0, 1] ++ List.replicate 8 0)).found 9).cvuRead [] 31 8 ⟨[], []⟩ |>.2.2;
        let d := s.found t; let i := cvuIdx u; d.memUp = true ∧ d.alive = true ∧ d.cvuState u = 2 ∧
        d.cvuRead s.mem u (d.rd i 8) o = (b, why, e)) ∧
      (let s := obj [(cvuIdx 31, 0x0A, 2), (cvuIdx 31, 7, 0), (cvuIdx 31, 8, 8)]; let t := 9; let u := 31;
        let b : List Byte := ((obj [(cvuIdx 31, 0x0A, 2), (cvuIdx 31, 7, 0), (cvuIdx 31, 8, 8)]).found 9).cvuRead [] 31 8 ⟨[], []⟩ |>.1;
        let o : MemObs := ⟨[], []⟩; let why := 2;
        let e : Dev := ((obj [(cvuIdx 31, 0x0A, 2), (cvuIdx 31, 7, 0), (cvuIdx 31, 8, 8)]).found 9).cvuRead [] 31 8 ⟨[], []⟩ |>.2.2;
        let d := s.found t; let i := cvuIdx u; d.memUp = true ∧ d.alive = true ∧ d.cvuState u = 2 ∧
        d.cvuRead s.mem u (d.rd i 8) o = (b, why, e))) ∧
    (let s := obj [(cvuIdx 31, 0x0A, 2), (cvuIdx 31, 7, 0), (cvuIdx 31, 8, 8)]; let t := 9; let u := 31;
        let by_ : Requester := boss; let d := s.found t; let i := cvuIdx u; d.grants by_ i 9 [2] ∧ d.cvuState u = 2) ∧
    (let s := obj [(cvuIdx 31, 0x0A, 1), (cvuIdx 31, 7, 0), (cvuIdx 31, 8, 8)]; let t := 9; let u := 31;
        let by_ : Requester := boss; let d := s.found t; let i := cvuIdx u; d.grants by_ i 9 [2] ∧ d.cvuState u ≠ 2) :=
    by refine ⟨?_, ?_, ?_, ?_⟩ <;> (try unfold Dev.grants) <;> decide +kernel

theorem test_hyps_TheJournalRecordsInOrder :
    ((let s := (obj [(0x2400, 1, 0), (0x2400, 3, 5)]).mod fun d => { d with queue := [rep 0x0405 1, rep 0x0406 0] };
        let t := 9; let r : Report := rep 0x0405 1; let rest : List Report := [rep 0x0406 0]; let d := s.found t;
        let n := d.jCount; d.guardAlive = true ∧ d.guardianStopped = false ∧ d.queue = r :: rest ∧ n ≤ 1024 ∧
        r.sev < 4 ∧ r.code < 2 ^ 16) ∧
      (let s := (obj [(0x2400, 1, 1), (0x2400, 3, 5)]).mod fun d => { d with queue := [rep 0x0405 1, rep 0x0406 0] };
        let t := 9; let r : Report := rep 0x0405 1; let rest : List Report := [rep 0x0406 0]; let d := s.found t;
        let n := d.jCount; d.guardAlive = true ∧ d.guardianStopped = false ∧ d.queue = r :: rest ∧ n ≤ 1024 ∧
        r.sev < 4 ∧ r.code < 2 ^ 16)) ∧
    ((let s := (obj [(0x2400, 1, 1022), (0x2400, 3, 5)]).mod fun d => { d with queue := [rep 0x0405 1, rep 0x0406 0] };
        let t := 9; let r : Report := rep 0x0405 1; let rest : List Report := [rep 0x0406 0]; let d := s.found t;
        let n := d.jCount; d.guardAlive = true ∧ d.guardianStopped = false ∧ d.queue = r :: rest ∧ n ≤ 1024 ∧
        r.sev < 4 ∧ r.code < 2 ^ 16) ∧
      (let s := (obj [(0x2400, 1, 1023), (0x2400, 3, 5)]).mod fun d => { d with queue := [rep 0x0405 1, rep 0x0406 0] };
        let t := 9; let r : Report := rep 0x0405 1; let rest : List Report := [rep 0x0406 0]; let d := s.found t;
        let n := d.jCount; d.guardAlive = true ∧ d.guardianStopped = false ∧ d.queue = r :: rest ∧ n ≤ 1024 ∧
        r.sev < 4 ∧ r.code < 2 ^ 16)) ∧
    (let s := (obj [(0x2400, 1, 1024), (0x2400, 3, 5)]).mod fun d => { d with queue := [rep 0x0405 1, rep 0x0406 0] };
        let t := 9; let r : Report := rep 0x0405 1; let rest : List Report := [rep 0x0406 0]; let d := s.found t;
        let n := d.jCount; d.guardAlive = true ∧ d.guardianStopped = false ∧ d.queue = r :: rest ∧ n ≤ 1024 ∧
        r.sev < 4 ∧ r.code < 2 ^ 16) ∧
    (let s : State := ((obj [(0x2400, 1, 1)]).mod fun d => { d with queue := [rep 0x0405 1] }) |> fun s => match exec (.journalRecord 9) { s with dev := { s.dev with queue := [rep 0x0405 1, rep 0x0405 1] } } with | .next u => u | _ => s;
        let t := 9; let r : Report := rep 0x0405 1; let rest : List Report := []; let d := s.found t;
        let n := d.jCount; d.guardAlive = true ∧ d.guardianStopped = false ∧ d.queue = r :: rest ∧ n ≤ 1024 ∧
        r.sev < 4 ∧ r.code < 2 ^ 16) :=
    by refine ⟨?_, ?_, ?_⟩ <;> decide +kernel

theorem test_hyps_ClearingAndEmptyingTheJournal :
    ((let s := (obj [(0x2400, 1, 1024)]).mod fun d => d.wrc 0x2401 1 3 (List.replicate 32 1); let t := 9;
        let e := 1023; let by_ : Requester := boss; let d := s.found t; let n := d.jCount; n ≤ 1024 ∧
        d.grants by_ 0x2400 5 (leBytes 2 e) ∧ e < n) ∧
      (let s := (obj [(0x2400, 1, 4)]).mod fun d => d.wrc 0x2401 1 3 (List.replicate 32 1); let t := 9; let e := 3;
        let by_ : Requester := boss; let d := s.found t; let n := d.jCount; n ≤ 1024 ∧
        d.grants by_ 0x2400 5 (leBytes 2 e) ∧ e < n) ∧
      (let s := (obj [(0x2400, 1, 4)]).mod fun d => d.wrc 0x2401 1 3 (List.replicate 32 1); let t := 9; let e := 4;
        let by_ : Requester := boss; let d := s.found t; let n := d.jCount; n ≤ 1024 ∧
        d.grants by_ 0x2400 5 (leBytes 2 e) ∧ n ≤ e) ∧
      (let s := (obj [(0x2400, 1, 4)]).mod fun d => d.wrc 0x2401 1 3 (List.replicate 32 1); let t := 9;
        let by_ : Requester := boss; let d := s.found t; let n := d.jCount; n ≤ 1024 ∧ d.grants by_ 0x2400 6 [1]) ∧
      (let s := (obj [(0x2400, 1, 4)]).mod fun d => d.wrc 0x2401 1 3 (List.replicate 32 1); let t := 9;
        let by_ : Requester := boss; let d := s.found t; let n := d.jCount; n ≤ 1024 ∧ d.grants by_ 0x2400 7 [1])) ∧
    (let s := (obj [(0x2400, 1, 4)]).mod fun d => d.wrc 0x2401 1 3 (List.replicate 32 1); let t := 9;
        let by_ : Requester := boss; let d := s.found t; let n := d.jCount; n ≤ 1024 ∧ d.grants by_ 0x2402 3 [1]) :=
    by refine ⟨?_, ?_⟩ <;> (try unfold Dev.grants) <;> decide +kernel

theorem test_hyps_CoreBallsAreGroundOrTheirSupply :
    ((let r := 9; let c := 9; 9 ≤ r ∧ r ≤ 54 ∧ 9 ≤ c ∧ c ≤ 54 ∧ (r + c) % 2 = 0) ∧
      (let r := 54; let c := 54; 9 ≤ r ∧ r ≤ 54 ∧ 9 ≤ c ∧ c ≤ 54 ∧ (r + c) % 2 = 0)) ∧
    ((let r := 9; let c := 10; 9 ≤ r ∧ r ≤ 54 ∧ 9 ≤ c ∧ c ≤ 54 ∧ (r + c) % 2 = 1 ∧ r ≤ 26) ∧
      (let r := 26; let c := 31; 9 ≤ r ∧ r ≤ 54 ∧ 9 ≤ c ∧ c ≤ 54 ∧ (r + c) % 2 = 1 ∧ r ≤ 26)) ∧
    (let r := 26; let c := 33; 9 ≤ r ∧ r ≤ 54 ∧ 9 ≤ c ∧ c ≤ 54 ∧ (r + c) % 2 = 1 ∧ r ≤ 26) ∧
    (let r := 27; let c := 22; 9 ≤ r ∧ r ≤ 54 ∧ 9 ≤ c ∧ c ≤ 54 ∧ (r + c) % 2 = 1 ∧ 27 ≤ r ∧ r ≤ 36 ∧ 21 ≤ c ∧
        c ≤ 42) ∧
    (let r := 36; let c := 21; 9 ≤ r ∧ r ≤ 54 ∧ 9 ≤ c ∧ c ≤ 54 ∧ (r + c) % 2 = 1 ∧ 27 ≤ r ∧ r ≤ 36 ∧ 21 ≤ c ∧
        c ≤ 42) ∧
    (let r := 35; let c := 42; 9 ≤ r ∧ r ≤ 54 ∧ 9 ≤ c ∧ c ≤ 54 ∧ (r + c) % 2 = 1 ∧ 27 ≤ r ∧ r ≤ 36 ∧ 21 ≤ c ∧
        c ≤ 42) ∧
    (let r := 27; let c := 20; 9 ≤ r ∧ r ≤ 54 ∧ 9 ≤ c ∧ c ≤ 54 ∧ (r + c) % 2 = 1 ∧ 27 ≤ r ∧ r ≤ 30 ∧
        (c ≤ 20 ∨ 43 ≤ c)) ∧
    (let r := 30; let c := 43; 9 ≤ r ∧ r ≤ 54 ∧ 9 ≤ c ∧ c ≤ 54 ∧ (r + c) % 2 = 1 ∧ 27 ≤ r ∧ r ≤ 30 ∧
        (c ≤ 20 ∨ 43 ≤ c)) ∧
    (let r := 31; let c := 20; 9 ≤ r ∧ r ≤ 54 ∧ 9 ≤ c ∧ c ≤ 54 ∧ (r + c) % 2 = 1 ∧ 31 ≤ r ∧ r ≤ 34 ∧
        (c ≤ 20 ∨ 43 ≤ c)) ∧
    (let r := 34; let c := 43; 9 ≤ r ∧ r ≤ 54 ∧ 9 ≤ c ∧ c ≤ 54 ∧ (r + c) % 2 = 1 ∧ 31 ≤ r ∧ r ≤ 34 ∧
        (c ≤ 20 ∨ 43 ≤ c)) ∧
    (let r := 35; let c := 20; 9 ≤ r ∧ r ≤ 54 ∧ 9 ≤ c ∧ c ≤ 54 ∧ (r + c) % 2 = 1 ∧ 35 ≤ r ∧ r ≤ 36 ∧
        (c ≤ 20 ∨ 43 ≤ c)) ∧
    ((let r := 36; let c := 43; 9 ≤ r ∧ r ≤ 54 ∧ 9 ≤ c ∧ c ≤ 54 ∧ (r + c) % 2 = 1 ∧ 35 ≤ r ∧ r ≤ 36 ∧
        (c ≤ 20 ∨ 43 ≤ c)) ∧
      (let r := 37; let c := 10; 9 ≤ r ∧ r ≤ 54 ∧ 9 ≤ c ∧ c ≤ 54 ∧ (r + c) % 2 = 1 ∧ 37 ≤ r)) ∧
    (let r := 54; let c := 53; 9 ≤ r ∧ r ≤ 54 ∧ 9 ≤ c ∧ c ≤ 54 ∧ (r + c) % 2 = 1 ∧ 37 ≤ r) :=
    by refine ⟨?_, ?_, ?_, ?_, ?_, ?_, ?_, ?_, ?_, ?_, ?_, ?_, ?_⟩ <;> decide +kernel

theorem test_hyps_TheInterlockDecidesTheRole :
    ((let s := (act []).mod fun d => { d with dup := { beatFrom := 9 } }; let t := 1000; let d := s.found t;
        let x := d.dup; d.guardAlive = true ∧ d.duplex = true ∧ d.rd 0x2100 1 = 1 ∧ d.guardianStopped = false ∧
        x.gated = false ∧ x.beatFrom ≤ t ∧ t ≤ (t + 1000) / 500000 * 500000 + 1000) ∧
      (let s := (act []).mod fun d => { d with dup := { holdOut := true } }; let t := 499000; let d := s.found t;
        let x := d.dup; d.guardAlive = true ∧ d.duplex = true ∧ d.rd 0x2100 1 = 1 ∧ d.guardianStopped = false ∧
        x.gated = false ∧ x.beatFrom ≤ t ∧ t ≤ (t + 1000) / 500000 * 500000 + 1000)) ∧
    ((let s := (sby []).mod fun d => { d with dup := { edge := some 100, run := 19 } }; let t := 9;
        let aon := 450100; let e := 100; let d := s.found t; let x := d.dup; d.guardAlive = true ∧
        d.standby = true ∧ x.edge = some e ∧ e + 450000 ≤ aon ∧ aon ≤ e + 550000) ∧
      (let s := (sby []).mod fun d => { d with dup := { edge := some 100, run := 20 } }; let t := 9;
        let aon := 550100; let e := 100; let d := s.found t; let x := d.dup; d.guardAlive = true ∧
        d.standby = true ∧ x.edge = some e ∧ e + 450000 ≤ aon ∧ aon ≤ e + 550000) ∧
      (let s := (sby []).mod fun d => { d with dup := { edge := some 100, run := 19 } }; let t := 9;
        let aon := 450099; let e := 100; let d := s.found t; let x := d.dup; d.guardAlive = true ∧
        d.standby = true ∧ x.edge = some e ∧ (aon < e + 450000 ∨ e + 550000 < aon))) ∧
    ((let s := (sby []).mod fun d => { d with dup := { edge := some 100, armed := true } }; let t := 9;
        let aon := 550101; let e := 100; let d := s.found t; let x := d.dup; d.guardAlive = true ∧
        d.standby = true ∧ x.edge = some e ∧ (aon < e + 450000 ∨ e + 550000 < aon)) ∧
      (let s := (sby [(0x2100, 4, 2)]).mod fun d => { d with dup := { armed := true, edgeAt := 10 } };
        let t := 2970009; let d := s.found t; let x := d.dup; d.guardAlive = true ∧ d.standby = true ∧
        x.armed = true ∧ x.edgeAt ≠ 0 ∧ x.edgeAt - 1 + 2970000 ≤ t ∧ d.rd 0x2100 4 = 2 ∧ x.takeIn = false)) ∧
    ((let s := (sby [(0x2100, 4, 0)]).mod fun d => { d with dup := { armed := true, edgeAt := 10 } };
        let t := 2970009; let d := s.found t; let x := d.dup; d.guardAlive = true ∧ d.standby = true ∧
        x.armed = true ∧ x.edgeAt ≠ 0 ∧ x.edgeAt - 1 + 2970000 ≤ t ∧ d.rd 0x2100 4 = 0) ∧
      (let s := sby []; let t := 9; let by_ : Requester := boss; let d := s.found t; let x := d.dup;
        d.grants by_ 0x2100 5 [1] ∧ d.standby = true ∧ x.armed = false ∧ x.takeIn = false) ∧
      (let s := act []; let t := 9; let by_ : Requester := boss; let d := s.found t; let x := d.dup;
        d.grants by_ 0x2100 5 [1] ∧ (d.standby = false ∨ x.armed = true)) ∧
      (let s := (sby []).mod fun d => { d with dup := { armed := true } }; let t := 9; let by_ : Requester := boss;
        let d := s.found t; let x := d.dup; d.grants by_ 0x2100 5 [1] ∧ (d.standby = false ∨ x.armed = true))) ∧
    ((let s := act []; let t := 9; let d := s.found t; let x := d.dup; d.alive = true ∧ d.pwr.state = 0 ∧
        d.duplex = true ∧ d.rd 0x2100 1 = 1 ∧ d.justNow x.claimAt = false) ∧
      (let s := (act [(0x2100, 2, 1)]).mod fun d => { d with dup := { claimAt := 5 } }; let t := 10005;
        let d := s.found t; let x := d.dup; d.alive = true ∧ d.pwr.state = 0 ∧ d.duplex = true ∧ d.rd 0x2100 1 = 1 ∧
        d.justNow x.claimAt = false)) ∧
    (let s := (act []).mod fun d => { d with dup := { claimAt := 5 } }; let t := 10004; let d := s.found t;
        let x := d.dup; d.alive = true ∧ d.pwr.state = 0 ∧ d.duplex = true ∧ d.rd 0x2100 1 = 1 ∧
        d.justNow x.claimAt = true ∧ d.posS = false) ∧
    (let s := (act []).mod fun d => { d with dup := { takeOut := true, claimAt := 5 } }; let t := 1000004;
        let d := s.found t; let x := d.dup; d.guardAlive = true ∧ x.takeOut = true ∧ x.claimAt - 1 + 1000000 ≤ t) ∧
    (let s := (act []).mod fun d => { d with dup := { takeOut := true, claimAt := 5 } }; let t : Nat := 10 ^ 9;
        let d := s.found t; let x := d.dup; d.guardAlive = true ∧ x.takeOut = true ∧ x.claimAt - 1 + 1000000 ≤ t) :=
    by refine ⟨?_, ?_, ?_, ?_, ?_, ?_⟩ <;> (try unfold Dev.grants) <;> decide +kernel

/-- The tenth clause stands below. -/
theorem test_hyps_SwapsAreConfirmedOrDropped :
    (let s := (act [(0x2100, 6, 10)]).mod fun d => { d with dup := { partner := 4, linkUp := true } };
        let t := 9; let by_ : Requester := boss; let d := s.found t; let x := d.dup; let n := d.rd 0x2100 6;
        let at_ := d.tickTime 0 n; d.grants by_ 0x2100 5 [2] ∧ d.duplex = true ∧ d.rd 0x2100 1 = 1 ∧ x.partner = 4 ∧
        x.linkUp = true ∧ d.timedFlows = true ∧ t + 6000000 ≤ at_ ∧ at_ ≤ t + 600000000000 ∧ x.swap = none) ∧
    ((let s := (act [(0x2100, 6, 0)]).mod fun d => { d with dup := { partner := 4, linkUp := true } }; let t := 9;
        let by_ : Requester := boss; let d := s.found t; let x := d.dup; let n := d.rd 0x2100 6;
        let at_ := d.tickTime 0 n; d.grants by_ 0x2100 5 [2] ∧ d.duplex = true ∧ d.rd 0x2100 1 = 1 ∧ x.partner = 4 ∧
        x.linkUp = true ∧ d.timedFlows = true ∧ at_ < t + 6000000) ∧
      (let s := (act [(0x2100, 6, 10 ^ 9)]).mod fun d => { d with dup := { partner := 4, linkUp := true } };
        let t := 9; let by_ : Requester := boss; let d := s.found t; let x := d.dup; let n := d.rd 0x2100 6;
        let at_ := d.tickTime 0 n; d.grants by_ 0x2100 5 [2] ∧ d.duplex = true ∧ d.rd 0x2100 1 = 1 ∧ x.partner = 4 ∧
        x.linkUp = true ∧ d.timedFlows = true ∧ t + 600000000000 < at_)) ∧
    ((let s := sby []; let t := 9; let by_ : Requester := boss; let d := s.found t; d.grants by_ 0x2100 5 [2] ∧
        d.standby = true) ∧
      (let s := (act []).mod fun d => { d with dup := { swap := some { tick := 3, at_ := 2000010, sent := false, confirmed := false } } };
        let t := 9; let by_ : Requester := boss;
        let w : SwapRt := { tick := 3, at_ := 2000010, sent := false, confirmed := false }; let d := s.found t;
        let x := d.dup; let n := d.rd 0x2100 6; let at_ := d.tickTime 0 n; d.grants by_ 0x2100 5 [3] ∧
        x.swap = some w ∧ t + 2000000 < w.at_) ∧
      (let s := (act []).mod fun d => { d with dup := { swap := some { tick := 3, at_ := 2000009, sent := false, confirmed := false } } };
        let t := 9; let by_ : Requester := boss;
        let w : SwapRt := { tick := 3, at_ := 2000009, sent := false, confirmed := false }; let d := s.found t;
        let x := d.dup; let n := d.rd 0x2100 6; let at_ := d.tickTime 0 n; d.grants by_ 0x2100 5 [3] ∧
        x.swap = some w ∧ w.at_ ≤ t + 2000000)) ∧
    ((let s := (act []).mod fun d => { d with dup := { linkUp := true, swap := some { tick := 3, at_ := 2000009, sent := false, confirmed := false } } };
        let t := 9; let w : SwapRt := { tick := 3, at_ := 2000009, sent := false, confirmed := false };
        let d := s.found t; let x := d.dup; let n := d.rd 0x2100 6; let at_ := d.tickTime 0 n; d.alive = true ∧
        d.duplex = true ∧ x.linkUp = true ∧ d.rd 0x2100 1 = 1 ∧ x.swap = some w ∧ w.sent = false ∧
        w.at_ ≤ t + 2000000) ∧
      (let s := (act []).mod fun d => { d with dup := { linkUp := true, swap := some { tick := 3, at_ := 1000009, sent := true, confirmed := false } } };
        let t := 9; let w : SwapRt := { tick := 3, at_ := 1000009, sent := true, confirmed := false };
        let d := s.found t; let x := d.dup; let n := d.rd 0x2100 6; let at_ := d.tickTime 0 n; d.alive = true ∧
        d.duplex = true ∧ x.linkUp = true ∧ d.rd 0x2100 1 = 1 ∧ x.swap = some w ∧ t + 1000000 ≤ w.at_)) ∧
    (let s := (act []).mod fun d => { d with dup := { linkUp := true, swap := some { tick := 3, at_ := 1000009, sent := true, confirmed := false } } };
        let t := 9; let w : SwapRt := { tick := 3, at_ := 1000009, sent := true, confirmed := false };
        let d := s.found t; let x := d.dup; let n := d.rd 0x2100 6; let at_ := d.tickTime 0 n; d.alive = true ∧
        d.duplex = true ∧ x.linkUp = true ∧ d.rd 0x2100 1 = 1 ∧ x.swap = some w ∧ w.confirmed = false ∧
        w.at_ ≤ t + 1000000) :=
    by refine ⟨?_, ?_, ?_, ?_, ?_⟩ <;> (try unfold Dev.grants) <;> decide +kernel

theorem test_hyps_TheStandbyResynchronisesAndMirrors :
    ((let s := (sby [(0x2100, 3, 2)]).mod fun d => { d with dup := { partner := 1, linkUp := true } }; let t := 9;
        let k := 0; let by_ : Requester := boss; let d := s.found t; let x := d.dup; d.grants by_ 0x2100 5 [4] ∧
        d.standby = true ∧ d.pairState = 2 ∧ x.partner = 1 ∧ x.linkUp = true ∧ d.idleSlot = some k) ∧
      (let s := act []; let t := 9; let by_ : Requester := boss; let d := s.found t; d.grants by_ 0x2100 5 [4] ∧
        d.standby = false) ∧
      (let s : State := ((sby [(0x2080, 2, 1), (0x2080, 1, 1), (0x2080, 7, 2), (0x2080, 8, 4), (encIdx 15, 1, 1), (outIdx 127, 1, 1)]).mod fun d => { d with dup := { counted := [255, 3], filled := [3] } });
        let t := 9; let k := 0; let without : List Nat := [255]; let d := s.found t; let x := d.dup;
        d.memUp = true ∧ d.resyncSlot = some k ∧ (d.longOp k).abortAsked = false ∧ d.resyncPhase = 2 ∧
        (∀ j ∈ x.counted, j ∈ x.filled ∨ j ∈ without))) ∧
    ((let s : State := ((sby [(0x2080, 2, 1), (0x2080, 1, 1), (0x2080, 7, 4), (0x2080, 8, 4), (encIdx 15, 1, 1), (outIdx 127, 1, 1)]).mod fun d => { d with dup := { matched := [127, 271] } });
        let t := 9; let k := 0; let d := s.found t; let x := d.dup; d.memUp = true ∧ d.resyncSlot = some k ∧
        (d.longOp k).abortAsked = false ∧ d.resyncPhase = 4 ∧ (∀ o, o < 128 → d.outOn o = true → o ∈ x.matched) ∧
        (∀ c, c < 16 → d.rdb (encIdx c) 1 = true → 256 + c ∈ x.matched)) ∧
      (let s := (sby [(encIdx 15, 0x23, 4), (encIdx 14, 0x23, 4)]).mod fun d => { d with dup := { following := [(15, 2)] } };
        let t := 9; let by_ : Requester := boss; let d := s.found t; d.grants by_ 0x2100 5 [5] ∧ d.standby = true) ∧
      (let s := (sby []).mod fun d => { d with dup := { inStep := true } }; let t := 9; let d := s.found t;
        let x := d.dup; d.alive = true ∧ d.standby = true ∧ x.inStep = true) ∧
      (let s := (sby []).mod fun d => { d with batches := [⟨4, 1, 0, 9, [], []⟩, ⟨5, 1, 0, 9, [], []⟩] };
        let t := 9; let m : MirrorBatch := ⟨4, 1, 0, 9, []⟩; let d := s.found t; d.alive = true ∧ d.standby = true ∧
        m.recs = [])) ∧
    ((let s := (sby []).mod fun d => { d with dup := { inStep := true } }; let t := 9;
        let m : MirrorBatch := ⟨4, 1, 0, 9, [⟨outIdx 0, 6, [0]⟩]⟩; let d := s.found t; let x := d.dup;
        d.alive = true ∧ d.standby = true ∧ m.recs ≠ [] ∧ d.resyncPhase ≠ 1 ∧ x.inStep = true ∧
        (d.admitAt (d.batchTime (ofMirror m)) (ofMirror m).recs).st = stOk) ∧
      (let s := sby []; let t := 9; let p := 15; let d := s.found t; d.alive = true ∧ d.standby = true ∧ p < 16) ∧
      (let s := act []; let t := 9; let r : CompareRec := .source 3 4 true 5; let d := s.found t; let x := d.dup;
        d.alive = true ∧ d.duplex = true ∧ (∀ o ∈ x.own, recKey o.1 ≠ recKey r))) ∧
    (let s := (act []).mod fun d => { d with dup := { own := [(.source 255 4 true 5, 3)] } }; let t := 9;
        let n := 255; let tick := 3; let q := 4; let crc := 5; let fin : Bool := true; let d := s.found t;
        let x := d.dup; let source := CompareRec.source n q fin crc; d.alive = true ∧ d.duplex = true ∧
        x.own = [(source, tick)] ∧ n ∉ x.filled) ∧
    (let s := (act []).mod fun d => { d with dup := { own := [(.source 255 4 true 5, 3)] } };
        let t : Nat := 10 ^ 9; let e : CompareRec × Nat := (.source 255 4 true 5, 3); let d := s.found t;
        let x := d.dup; d.alive = true ∧ x.own = [e] ∧ d.twoTicksAgo e.1 e.2 = true) ∧
    (let s := (act []).mod fun d => { d with dup := { own := [(.output 127 4 1 5 false [] 6 7 8, 3)] } };
        let t : Nat := 10 ^ 9; let e : CompareRec × Nat := (.output 127 4 1 5 false [] 6 7 8, 3);
        let d := s.found t; let x := d.dup; d.alive = true ∧ x.own = [e] ∧ d.twoTicksAgo e.1 e.2 = true ∧
        (recKey e.1).1 = 0) :=
    by refine ⟨?_, ?_, ?_, ?_⟩ <;> (try unfold Dev.grants) <;> decide +kernel

theorem test_hyps_TheRingAlignsAndCarriesFrames :
    (let s := (rng [(sideIdx 1, 1, 1), (sideIdx 1, 3, 0), (0x2200, 0x0A, 1)]).mod fun d => d.setSide 1 { last := 16 };
        let t := 9; let x := 1; let nb := 15; let lanes : List LaneObs := List.replicate 4 laneOk;
        let d := s.found t; let i := sideIdx x; let side := d.side x; d.alive = true ∧ x < 2 ∧ d.curDown 0 = false ∧
        d.ringOn = true ∧ d.sideState x = 1 ∧ lanes.length = 4 ∧ nb < 16 ∧ (∀ l ∈ lanes, laneGood l = true) ∧
        side.last = nb + 1 ∧ side.lastPath = d.rd i 2) ∧
    (let s := (rng [(sideIdx 1, 1, 1), (sideIdx 1, 3, 0), (0x2200, 0x0A, 1)]).mod fun d => d.setSide 1 {  };
        let t := 9; let x := 1; let nb := 15; let lanes : List LaneObs := List.replicate 4 lane0;
        let d := s.found t; let side := d.side x; d.alive = true ∧ x < 2 ∧ d.curDown 0 = false ∧ d.ringOn = true ∧
        d.sideState x = 1 ∧ lanes.length = 4 ∧ nb < 16 ∧ (lanes.filter laneGood).length < 3 ∧ side.tries = 0) ∧
    ((let s := (rng [(sideIdx 1, 1, 0), (sideIdx 1, 3, 0), (0x2200, 0x0A, 1)]).mod fun d => d.setSide 1 { failedAt := 5 };
        let t := 10000005; let x := 1; let d := s.found t; let side := d.side x; d.alive = true ∧ x < 2 ∧
        d.curDown 0 = false ∧ d.ringOn = true ∧ d.sideState x = 0 ∧ side.failedAt + 10000000 ≤ t) ∧
      (let s := (rng [(sideIdx 1, 1, 2), (sideIdx 1, 3, 15), (0x2200, 0x0A, 1)]).mod fun d => d.setSide 1 {  };
        let t := 9; let x := 1; let d := s.found t; d.alive = true ∧ x < 2 ∧ 2 ≤ d.sideState x) ∧
      (let s := (rng [(sideIdx 0, 1, 3), (sideIdx 0, 3, 7), (0x2200, 0x0A, 1)]).mod fun d => d.setSide 0 { named := true };
        let t := 9; let x := 0; let d := s.found t; d.alive = true ∧ x < 2 ∧ 2 ≤ d.sideState x)) ∧
    ((let s := (rng [(sideIdx 1, 1, 2), (sideIdx 1, 3, 15), (0x2200, 0x0A, 1)]).mod fun d => d.setSide 1 {  };
        let t := 9; let x := 1; let lane := 3; let d := s.found t; let i := sideIdx x; d.alive = true ∧ x < 2 ∧
        2 ≤ d.sideState x ∧ d.rd i 3 = 15 ∧ lane < 4) ∧
      (let s := (rng [(sideIdx 1, 1, 2), (sideIdx 1, 3, 15), (0x2200, 0x0A, 1)]).mod fun d => d.setSide 1 {  };
        let t := 9; let x := 1; let lane := 0; let d := s.found t; let i := sideIdx x; d.alive = true ∧ x < 2 ∧
        2 ≤ d.sideState x ∧ d.rd i 3 = 15 ∧ lane < 4)) ∧
    (let s := (rng [(sideIdx 1, 1, 2), (sideIdx 1, 3, 15), (0x2200, 0x0A, 1)]).mod fun d => d.setSide 1 {  };
        let t := 0; let x := 1; let d := s.found t; let side := d.side x; d.alive = true ∧ x < 2 ∧
        2 ≤ d.sideState x ∧ t % 4096 = 0 ∧ side.slotAt ≠ t / 4096 + 1 ∧ maintenanceSlot (t % 1048576 / 4096) = true) ∧
    ((let s := (rng [(sideIdx 1, 1, 2), (sideIdx 1, 3, 15), (0x2200, 0x0A, 1)]).mod fun d => d.setSide 1 {  };
        let t := 4096; let x := 1; let d := s.found t; let side := d.side x; d.alive = true ∧ x < 2 ∧
        2 ≤ d.sideState x ∧ t % 4096 = 0 ∧ side.slotAt ≠ t / 4096 + 1 ∧
        maintenanceSlot (t % 1048576 / 4096) = false ∧ d.rd 0x2200 0x0A ≠ 0 ∧
        Tab.getD d.ring.fwd (x * 256 + t % 1048576 / 4096) none = none ∧
        (tableEntry (d.slotTable x) (t % 1048576 / 4096)).1 ≠ d.node') ∧
      (let s := (rng [(sideIdx 1, 1, 2), (sideIdx 1, 3, 15), (0x2200, 0x0A, 1)]).mod fun d => d.setSide 1 {  };
        let t := 9; let x := 1; let f : RingFrame := { frm with cut := true }; let d := s.found t; d.alive = true ∧
        x < 2 ∧ 2 ≤ d.sideState x ∧ d.rd 0x2200 0x0A ≠ 0 ∧ f.cut = true)) ∧
    ((let s := (rng [(sideIdx 1, 1, 2), (sideIdx 1, 3, 15), (0x2200, 0x0A, 1)]).mod fun d => d.setSide 1 {  };
        let t := 9; let x := 1; let f : RingFrame := { frm with checksOk := false }; let d := s.found t;
        d.alive = true ∧ x < 2 ∧ 2 ≤ d.sideState x ∧ d.rd 0x2200 0x0A ≠ 0 ∧ f.cut = false ∧ f.checksOk = false) ∧
      (let s := (rng [(sideIdx 1, 1, 2), (sideIdx 1, 3, 15), (0x2200, 0x0A, 1)]).mod fun d => d.setSide 1 {  };
        let t := 9; let x := 1; let f : RingFrame := { frm with version := 5 }; let d := s.found t; d.alive = true ∧
        x < 2 ∧ 2 ≤ d.sideState x ∧ d.rd 0x2200 0x0A ≠ 0 ∧ f.cut = false ∧ f.checksOk = true ∧ f.cls ≠ 6 ∧
        f.version ≠ tableVersion (d.slotTable (1 - x)))) ∧
    (let s := (rng [(sideIdx 1, 1, 2), (sideIdx 1, 3, 15), (0x2200, 0x0A, 1)]).mod fun d => d.setSide 1 {  };
        let t := 9; let x := 1; let f : RingFrame := { frm with off := 128 }; let d := s.found t; d.alive = true ∧
        x < 2 ∧ 2 ≤ d.sideState x ∧ d.rd 0x2200 0x0A ≠ 0 ∧ f.cut = false ∧ f.checksOk = true ∧ f.cls ≠ 6 ∧
        f.version = tableVersion (d.slotTable (1 - x)) ∧ -128 ≤ f.off ∧ f.off ≤ 128 ∧ f.msg = .other ∧
        (tableEntry (d.slotTable (1 - x)) f.slot).1 ≠ f.sender ∧ f.cls ≠ 5) ∧
    (let s := (rng [(sideIdx 0, 1, 2), (sideIdx 0, 3, 15), (0x2200, 0x0A, 1)]).mod fun d => d.setSide 0 {  };
        let t := 9; let x := 0; let f : RingFrame := { frm with off := -128 }; let d := s.found t; d.alive = true ∧
        x < 2 ∧ 2 ≤ d.sideState x ∧ d.rd 0x2200 0x0A ≠ 0 ∧ f.cut = false ∧ f.checksOk = true ∧ f.cls ≠ 6 ∧
        f.version = tableVersion (d.slotTable (1 - x)) ∧ -128 ≤ f.off ∧ f.off ≤ 128 ∧ f.msg = .other ∧
        (tableEntry (d.slotTable (1 - x)) f.slot).1 ≠ f.sender ∧ f.cls ≠ 5) ∧
    (let s : State := ((rng [(sideIdx 1, 1, 2), (sideIdx 1, 3, 15), (0x2200, 0x0A, 1)]).mod fun d => d.setSide 1 {  }).mod fun d => { d with ring := { d.ring with taking := [(255, 1)], parts := [(255, { started := true, nextSeq := 4, bytes := [6] })] } };
        let t := 9; let x := 1;
        let f : RingFrame := { frm with cls := 5, receiver := 3, seq := 4, payload := [7, 8] }; let n := 255;
        let d := s.found t; d.alive = true ∧ x < 2 ∧ 2 ≤ d.sideState x ∧ d.rd 0x2200 0x0A ≠ 0 ∧ f.cut = false ∧
        f.checksOk = true ∧ f.cls ≠ 6 ∧ f.version = tableVersion (d.slotTable (1 - x)) ∧ -128 ≤ f.off ∧
        f.off ≤ 128 ∧ f.msg = .other ∧ (tableEntry (d.slotTable (1 - x)) f.slot).1 ≠ f.sender ∧ f.cls = 5 ∧
        f.receiver = d.node' ∧ f.flags = 0 ∧
        ((List.range 256).find? fun n => Tab.getD d.ring.taking n 0 == (1 - x) * 256 + f.flow + 1) = some n ∧
        (d.share n).started = true ∧ f.seq = (d.share n).nextSeq) ∧
    ((let s := (rng []).mod fun d => { d with ring := { tables := [(1, (3, slots))], shared := some (2, [7]) } };
        let t := 2097152; let x := 1; let d := s.found t; d.alive = true ∧ x < 2 ∧ d.ringOn = true ∧ t % 1048576 = 0) ∧
      (let s : State := ((rng [(sideIdx 1, 1, 2), (sideIdx 1, 3, 15), (0x2200, 0x0A, 1)]).mod fun d => d.setSide 1 {  }).mod fun d => { d with ring := { d.ring with fwd := [(257, some { frm with payload := [5] })] } };
        let t := 4096; let x := 1; let f : RingFrame := { frm with payload := [5] }; let d := s.found t;
        let side := d.side x; let ls := t % 1048576 / 4096; let key := x * 256 + ls; d.alive = true ∧ x < 2 ∧
        2 ≤ d.sideState x ∧ t % 4096 = 0 ∧ side.slotAt ≠ t / 4096 + 1 ∧ maintenanceSlot ls = false ∧
        d.rd 0x2200 0x0A ≠ 0 ∧ Tab.getD d.ring.fwd key none = some f)) ∧
    (let s : State := ((rng [(sideIdx 0, 1, 3), (sideIdx 0, 3, 15), (0x2200, 0x0A, 1)]).mod fun d => d.setSide 0 {  }).mod fun d => { d with ring := { d.ring with fwd := [(255, some { frm with payload := [5] })] } };
        let t : Nat := 255 * 4096; let x := 0; let f : RingFrame := { frm with payload := [5] }; let d := s.found t;
        let side := d.side x; let ls := t % 1048576 / 4096; let key := x * 256 + ls; d.alive = true ∧ x < 2 ∧
        2 ≤ d.sideState x ∧ t % 4096 = 0 ∧ side.slotAt ≠ t / 4096 + 1 ∧ maintenanceSlot ls = false ∧
        d.rd 0x2200 0x0A ≠ 0 ∧ Tab.getD d.ring.fwd key none = some f) ∧
    (let s : State := ((rng [(sideIdx 1, 1, 2), (sideIdx 1, 3, 15), (0x2200, 0x0A, 1)]).mod fun d => d.setSide 1 {  }).mod fun d => d.wrd 0x2121 1 slots;
        let t := 4096; let x := 1; let cls := 2; let w := 1; let flow := 0; let d := s.found t;
        let side := d.side x; let ls := t % 1048576 / 4096; let key := x * 256 + ls; d.alive = true ∧ x < 2 ∧
        2 ≤ d.sideState x ∧ t % 4096 = 0 ∧ side.slotAt ≠ t / 4096 + 1 ∧ maintenanceSlot ls = false ∧
        d.rd 0x2200 0x0A ≠ 0 ∧ Tab.getD d.ring.fwd key none = none ∧
        tableEntry (d.slotTable x) ls = (d.node', cls, w, flow) ∧ cls ≠ 5) ∧
    (let s : State := ((rng [(sideIdx 1, 1, 2), (sideIdx 1, 3, 15), (0x2200, 0x0A, 1)]).mod fun d => d.setSide 1 {  }).mod fun d => d.wrd 0x2121 1 slots;
        let t : Nat := 1048576 + 225 * 4096; let x := 1; let cls := 2; let w := 1; let flow := 0;
        let d := s.found t; let side := d.side x; let ls := t % 1048576 / 4096; let key := x * 256 + ls;
        d.alive = true ∧ x < 2 ∧ 2 ≤ d.sideState x ∧ t % 4096 = 0 ∧ side.slotAt ≠ t / 4096 + 1 ∧
        maintenanceSlot ls = false ∧ d.rd 0x2200 0x0A ≠ 0 ∧ Tab.getD d.ring.fwd key none = none ∧
        tableEntry (d.slotTable x) ls = (d.node', cls, w, flow) ∧ cls ≠ 5) ∧
    (let s : State := ((rng [(sideIdx 1, 1, 2), (sideIdx 1, 3, 15), (0x2200, 0x0A, 1)]).mod fun d => d.setSide 1 {  }).mod fun d => d.wrd 0x2121 1 slots5;
        let t := 4096; let x := 1; let cls := 5; let w := 1; let flow := 9; let d := s.found t;
        let side := d.side x; let ls := t % 1048576 / 4096; let key := x * 256 + ls; d.alive = true ∧ x < 2 ∧
        2 ≤ d.sideState x ∧ t % 4096 = 0 ∧ side.slotAt ≠ t / 4096 + 1 ∧ maintenanceSlot ls = false ∧
        d.rd 0x2200 0x0A ≠ 0 ∧ Tab.getD d.ring.fwd key none = none ∧
        tableEntry (d.slotTable x) ls = (d.node', cls, w, flow) ∧ cls = 5 ∧ d.flowSource x flow = none) ∧
    (let s : State := (((rng [(sideIdx 1, 1, 2), (sideIdx 1, 3, 15), (0x2200, 0x0A, 1)]).mod fun d => d.setSide 1 {  }).mod fun d => d.wrd 0x2121 1 slots5).mod fun d => { d with ring := { d.ring with entries := [3, 17, 2, 5, 1, 9, 0, 0] } };
        let t := 4096; let x := 1; let cls := 5; let w := 1; let flow := 9; let n := 17; let d := s.found t;
        let side := d.side x; let ls := t % 1048576 / 4096; let key := x * 256 + ls; d.alive = true ∧ x < 2 ∧
        2 ≤ d.sideState x ∧ t % 4096 = 0 ∧ side.slotAt ≠ t / 4096 + 1 ∧ maintenanceSlot ls = false ∧
        d.rd 0x2200 0x0A ≠ 0 ∧ Tab.getD d.ring.fwd key none = none ∧
        tableEntry (d.slotTable x) ls = (d.node', cls, w, flow) ∧ cls = 5 ∧ d.flowSource x flow = some n) ∧
    (let s : State := (((rng [(sideIdx 1, 1, 2), (sideIdx 1, 3, 15), (0x2200, 0x0A, 1)]).mod fun d => d.setSide 1 {  }).mod fun d => d.wrd 0x2121 1 slots5).mod fun d => { d.setSrc 17 { bufs := [{ id := 0, frame := some { width := 2, height := 1, published := 5, ts := 4 } }] } with ring := { d.ring with entries := [3, 17, 2, 5, 1, 9, 0, 0] } };
        let t := 4096; let x := 1; let cls := 5; let w := 1; let flow := 9; let n := 17; let d := s.found t;
        let side := d.side x; let ls := t % 1048576 / 4096; let key := x * 256 + ls; d.alive = true ∧ x < 2 ∧
        2 ≤ d.sideState x ∧ t % 4096 = 0 ∧ side.slotAt ≠ t / 4096 + 1 ∧ maintenanceSlot ls = false ∧
        d.rd 0x2200 0x0A ≠ 0 ∧ Tab.getD d.ring.fwd key none = none ∧
        tableEntry (d.slotTable x) ls = (d.node', cls, w, flow) ∧ cls = 5 ∧ d.flowSource x flow = some n) :=
    by refine ⟨?_, ?_, ?_, ?_, ?_, ?_, ?_, ?_, ?_, ?_, ?_, ?_, ?_, ?_, ?_, ?_, ?_⟩ <;> decide +kernel

theorem test_hyps_RingCommandsComplete :
    ((let s := rng []; let t := 9; let by_ : Requester := boss; let d := s.found t; d.ringOn = true ∧
        d.grants by_ 0x2110 7 [1]) ∧
      (let s := rng []; let t := 9; let by_ : Requester := boss; let d := s.found t; d.ringOn = true ∧
        d.grants by_ 0x2110 7 [2]) ∧
      (let s := rng []; let t := 9; let by_ : Requester := boss; let body : List Byte := List.replicate 16 5;
        let d := s.found t; d.ringOn = true ∧ d.grants by_ 0x2110 8 body) ∧
      (let s := (rng [(sideIdx 1, 1, 2), (sideIdx 1, 3, 15), (0x2200, 0x0A, 1)]).mod fun d => d.setSide 1 {  };
        let t := 9; let x := 1; let m : List Byte := [2, 3, 9];
        let copies : List (List Byte) := [[2, 3, 9], [2, 3, 9]]; let d := s.found t; d.alive = true ∧ x < 2 ∧
        2 ≤ d.sideState x ∧ agreed copies = some m ∧ byteAt m 1 = d.node')) ∧
    ((let s := (rng [(sideIdx 1, 1, 2), (sideIdx 1, 3, 15), (0x2200, 0x0A, 1)]).mod fun d => d.setSide 1 {  };
        let t := 9; let x := 1; let m : List Byte := [2, 4, 9];
        let copies : List (List Byte) := [[1], [2, 4, 9], [2, 4, 9]]; let d := s.found t; d.alive = true ∧ x < 2 ∧
        2 ≤ d.sideState x ∧ agreed copies = some m ∧ byteAt m 1 ≠ d.node') ∧
      (let s := rng []; let t := 9; let ring := 1; let k := 5; let by_ : Requester := boss; let d := s.found t;
        let r := ring % 2; let tab := d.rdd (0x2120 + r) 2; d.grants by_ (0x2120 + r) 3 (leBytes 8 k) ∧
        tab.length ≠ 1040) ∧
      (let s := (rng []).mod fun d => (d.wrd 0x2120 2 slots).wrd 0x2121 2 slots; let t := 9; let ring := 1;
        let k := 2; let by_ : Requester := boss; let d := s.found t; let r := ring % 2;
        let tab := d.rdd (0x2120 + r) 2; d.grants by_ (0x2120 + r) 3 (leBytes 8 k) ∧ tab.length = 1040 ∧
        d.timedIn (d.nextTable 0) = true ∧ d.timedIn (d.nextTable 1) = true ∧ t + 2000000 ≤ k * 1048576 ∧
        k * 1048576 ≤ t + 600000000000 ∧ d.tableFault r tab = none)) ∧
    (let s := run; let t := 97152; let k := 2; let by_ : Requester := boss; let d := s.found t;
        d.timedFlows = true ∧ d.grants by_ 0x2122 2 (leBytes 8 k) ∧ d.rdd 0x2122 1 = [] ∧
        t + 2000000 ≤ k * 1048576 ∧ k * 1048576 ≤ t + 600000000000) ∧
    (let s := obj [(0x2130, 1, time48 2000009)]; let t := 9; let by_ : Requester := boss; let d := s.found t;
        d.timedFlows = true ∧ d.grants by_ 0x2130 2 [1] ∧ d.snapshotFits = true ∧
        t + 2000000 ≤ ofTime48 (d.rd 0x2130 1)) ∧
    (let s := obj [(0x20BF, 2, 1), (0x20BF, 1, 6)]; let t := 9; let k := 63; let d := s.found t; d.alive = true ∧
        d.slotOfKind 6 = some k) :=
    by refine ⟨?_, ?_, ?_⟩ <;> (try unfold Dev.grants) <;> decide +kernel

theorem test_hyps_CalibrationCommandsComplete :
    ((let s := obj [(0x2340, 1, 256)]; let t := 9; let k := 0; let by_ : Requester := boss; let d := s.found t;
        let mask := d.rd 0x2340 1; k < 64 ∧ d.grants by_ 0x2340 3 [1] ∧ d.calSlot = none ∧ mask ≠ 0 ∧ mask % 2 = 0 ∧
        mask < 512 ∧ d.idleSlot = some k) ∧
      (let s := obj [(0x2340, 1, 510)]; let t := 9; let k := 0; let by_ : Requester := boss; let d := s.found t;
        let mask := d.rd 0x2340 1; k < 64 ∧ d.grants by_ 0x2340 3 [1] ∧ d.calSlot = none ∧ mask ≠ 0 ∧ mask % 2 = 0 ∧
        mask < 512 ∧ d.idleSlot = some k)) ∧
    ((let s := obj [(0x2340, 1, 0)]; let t := 9; let k := 0; let by_ : Requester := boss; let d := s.found t;
        let mask := d.rd 0x2340 1; k < 64 ∧ d.grants by_ 0x2340 3 [1] ∧ d.calSlot = none ∧ mask = 0) ∧
      (let s := obj [(0x20BF, 2, 1), (0x20BF, 1, 2)]; let t := 9; let k := 63; let by_ : Requester := boss;
        let d := s.found t; k < 64 ∧ d.grants by_ 0x2340 3 [1] ∧ d.calSlot = some k)) ∧
    (let s := (obj [(0x2080, 2, 1), (0x2080, 1, 2), (0x2340, 6, 10)]).mod fun d => { d with cal := { items := 2, item := 1, itemAt := 5 } };
        let t := 9; let k := 0; let item := 1; let inst := 15; let idle : Bool := false; let d := s.found t;
        let x := d.cal; k < 64 ∧ d.alive = true ∧ d.calSlot = some k ∧ (d.longOp k).abortAsked = false ∧
        d.calWaits item inst = true ∧ x.done.length + 1 < calCount item ∧ d.bankHeld 7 = false ∧
        d.calWindow item inst idle = true ∧ 0 < item ∧ item < 8) ∧
    (let s := (obj [(0x2080, 2, 1), (0x2080, 1, 2), (0x2340, 6, 10)]).mod fun d => { d with cal := { items := 2, item := 3, itemAt := 5 } };
        let t := 9; let k := 0; let item := 3; let inst := 0; let idle : Bool := true; let d := s.found t;
        let x := d.cal; k < 64 ∧ d.alive = true ∧ d.calSlot = some k ∧ (d.longOp k).abortAsked = false ∧
        d.calWaits item inst = true ∧ x.done.length + 1 < calCount item ∧ d.bankHeld 7 = false ∧
        d.calWindow item inst idle = true ∧ 0 < item ∧ item < 8) ∧
    ((let s := (obj [(0x2080, 2, 1), (0x2080, 1, 2), (0x2340, 6, 10)]).mod fun d => { d with cal := { items := 2, item := 8, itemAt := 5 } };
        let t := 10000000005; let k := 0; let item := 8; let inst := 7; let d := s.found t; let x := d.cal; k < 64 ∧
        d.alive = true ∧ d.calSlot = some k ∧ (d.longOp k).abortAsked = false ∧ d.calWaits item inst = true ∧
        x.done.length + 1 < calCount item ∧ x.itemAt + d.rd 0x2340 6 * 1000000000 ≤ t) ∧
      (let s := run; let t := 9; let k := 0; let by_ : Requester := boss; let d := s.found t; k < 64 ∧
        d.grants by_ 0x2340 3 [2] ∧ d.slotOfKind 4 = none ∧ d.slotOfKind 5 = none ∧ d.slotOfKind 9 = none ∧
        d.idleSlot = some k)) ∧
    (let s := obj [(0x2080, 2, 1), (0x2080, 1, 4)]; let t := 9; let k := 0; let by_ : Requester := boss;
        let d := s.found t; k < 64 ∧ d.grants by_ 0x2340 3 [2] ∧
        (d.slotOfKind 4 ≠ none ∨ d.slotOfKind 5 ≠ none ∨ d.slotOfKind 9 ≠ none)) ∧
    (let s := obj [(0x2080, 2, 1), (0x2080, 1, 5)]; let t := 9; let k := 0; let by_ : Requester := boss;
        let d := s.found t; k < 64 ∧ d.grants by_ 0x2340 3 [2] ∧
        (d.slotOfKind 4 ≠ none ∨ d.slotOfKind 5 ≠ none ∨ d.slotOfKind 9 ≠ none)) ∧
    (let s := obj [(0x2080, 2, 1), (0x2080, 1, 9)]; let t := 9; let k := 0; let by_ : Requester := boss;
        let d := s.found t; k < 64 ∧ d.grants by_ 0x2340 3 [2] ∧
        (d.slotOfKind 4 ≠ none ∨ d.slotOfKind 5 ≠ none ∨ d.slotOfKind 9 ≠ none)) :=
    by refine ⟨?_, ?_, ?_, ?_, ?_, ?_⟩ <;> (try unfold Dev.grants) <;> decide +kernel

theorem test_hyps_PowerCommandsComplete :
    ((let s := run; let t := 9; let v := 1; let by_ : Requester := boss; let c : Instr := .deviceSleep 9 boss;
        let d := s.found t; let p := d.pwr;
        (c, v) ∈ [(Instr.deviceSleep t by_, 1), (.deviceDeepSleep t by_, 2), (.deviceOff t by_, 3)] ∧
        d.grants by_ 0x2300 5 [BitVec.ofNat 8 v] ∧ d.duplex = false ∧ p.wakeLow = false ∧ d.batches = [] ∧
        p.entry = none ∧ (∀ k, k < 64 → d.slotState k ≠ 1)) ∧
      (let s := run; let t := 9; let v := 3; let by_ : Requester := boss; let c : Instr := .deviceOff 9 boss;
        let d := s.found t; let p := d.pwr;
        (c, v) ∈ [(Instr.deviceSleep t by_, 1), (.deviceDeepSleep t by_, 2), (.deviceOff t by_, 3)] ∧
        d.grants by_ 0x2300 5 [BitVec.ofNat 8 v] ∧ d.duplex = false ∧ p.wakeLow = false ∧ d.batches = [] ∧
        p.entry = none ∧ (∀ k, k < 64 → d.slotState k ≠ 1))) ∧
    ((let s := act []; let t := 9; let v := 2; let by_ : Requester := boss;
        let c : Instr := .deviceDeepSleep 9 boss; let d := s.found t;
        (c, v) ∈ [(Instr.deviceSleep t by_, 1), (.deviceDeepSleep t by_, 2), (.deviceOff t by_, 3)] ∧
        d.grants by_ 0x2300 5 [BitVec.ofNat 8 v] ∧ d.duplex = true) ∧
      (let s := aft fun d => { d with pwr := { d.pwr with entry := some { target := 1, step := 1 }, latched := 0 } };
        let t := 9; let e : EntryRt := { target := 1, step := 1 }; let d := s.found t; let p := d.pwr;
        let n := nextStep (entrySteps e.target) e.step; p.entry = some e ∧ e.target ∈ [1, 2, 3] ∧ n ≠ 6 ∧
        p.latched = 0) ∧
      (let s := aft fun d => { d with pwr := { d.pwr with entry := some { target := 3, step := 2 }, latched := 0 } };
        let t := 9; let e : EntryRt := { target := 3, step := 2 }; let d := s.found t; let p := d.pwr;
        let n := nextStep (entrySteps e.target) e.step; p.entry = some e ∧ e.target ∈ [1, 2, 3] ∧ n ≠ 6 ∧
        p.latched = 0)) ∧
    ((let s := aft fun d => { d with pwr := { d.pwr with entry := some { target := 2, step := 4 }, latched := 0 } };
        let t := 9; let e : EntryRt := { target := 2, step := 4 }; let d := s.found t; let p := d.pwr;
        let n := nextStep (entrySteps e.target) e.step; p.entry = some e ∧ e.target ∈ [1, 2, 3] ∧ n ≠ 6 ∧
        p.latched = 0) ∧
      (let s := aft fun d => { d with pwr := { d.pwr with entry := some { target := 1, step := 5 }, latched := 0 } };
        let t := 9; let e : EntryRt := { target := 1, step := 5 }; let d := s.found t; let p := d.pwr;
        let n := nextStep (entrySteps e.target) e.step; p.entry = some e ∧ e.target ∈ [1, 2, 3] ∧ n = 6 ∧
        p.latched = 0) ∧
      (let s := aft fun d => { d with pwr := { d.pwr with entry := some { target := 2, step := 5 }, latched := 0 } };
        let t := 9; let e : EntryRt := { target := 2, step := 5 }; let d := s.found t; let p := d.pwr;
        let n := nextStep (entrySteps e.target) e.step; p.entry = some e ∧ e.target ∈ [1, 2, 3] ∧ n = 6 ∧
        p.latched = 0)) ∧
    ((let s := aft fun d => { d with pwr := { d.pwr with entry := some { target := 3, step := 3 }, latched := 0 } };
        let t := 9; let e : EntryRt := { target := 3, step := 3 }; let d := s.found t; let p := d.pwr;
        let n := nextStep (entrySteps e.target) e.step; p.entry = some e ∧ e.target ∈ [1, 2, 3] ∧ n = 6 ∧
        p.latched = 0) ∧
      (let s := aft fun d => { d with pwr := { d.pwr with entry := some { target := 1, step := 1 }, latched := 1 } };
        let t := 9; let e : EntryRt := { target := 1, step := 1 }; let d := s.found t; let p := d.pwr;
        let n := nextStep (entrySteps e.target) e.step; p.entry = some e ∧ e.target ∈ [1, 2, 3] ∧ n = 2 ∧
        p.latched ≠ 0) ∧
      (let s := aft fun d => { d with pwr := { d.pwr with entry := some { target := 3, step := 1 }, latched := 1 } };
        let t := 9; let e : EntryRt := { target := 3, step := 1 }; let d := s.found t; let p := d.pwr;
        let n := nextStep (entrySteps e.target) e.step; p.entry = some e ∧ e.target ∈ [1, 2, 3] ∧ n = 2 ∧
        p.latched ≠ 0)) ∧
    ((let s := (obj [(0x2300, 7, 6), (0x2300, 6, 5)]).mod fun d => { d with pwr := { d.pwr with state := 1, wakeArmed := true, enteredAt := 9 } };
        let t := 9; let d := s.found t; let p := d.pwr; p.wake = none ∧ p.wakeArmed = true ∧ p.state ∈ [1, 2, 3]) ∧
      (let s := (obj [(0x2300, 7, 6), (0x2300, 6, 5)]).mod fun d => { d with pwr := { d.pwr with state := 2, wakeArmed := true, enteredAt := 9 } };
        let t := 9; let d := s.found t; let p := d.pwr; p.wake = none ∧ p.wakeArmed = true ∧ p.state ∈ [1, 2, 3]) ∧
      (let s := (obj [(0x2300, 7, 6), (0x2300, 6, 5)]).mod fun d => { d with pwr := { d.pwr with state := 3, wakeArmed := true, enteredAt := 9 } };
        let t := 9; let d := s.found t; let p := d.pwr; p.wake = none ∧ p.wakeArmed = true ∧ p.state ∈ [1, 2, 3]) ∧
      (let s := run; let t := 9; let d := s.found t; let p := d.pwr; p.state = 0 ∧ p.entry = none) ∧
      (let s := (obj [(0x2300, 7, 6), (0x2300, 6, 5)]).mod fun d => { d with pwr := { d.pwr with state := 1, wakeArmed := true, enteredAt := 9 } };
        let t := 9; let d := s.found t; let p := d.pwr; p.wake = none ∧ (d.rd 0x2300 7).testBit 1 = true ∧
        p.state ∈ [1, 2])) ∧
    (let s := (obj [(0x2300, 7, 6), (0x2300, 6, 5)]).mod fun d => { d with pwr := { d.pwr with state := 2, wakeArmed := true, enteredAt := 9 } };
        let t := 9; let d := s.found t; let p := d.pwr; p.wake = none ∧ (d.rd 0x2300 7).testBit 1 = true ∧
        p.state ∈ [1, 2]) ∧
    (let s := (obj [(0x2300, 7, 6), (0x2300, 6, 5)]).mod fun d => { d with pwr := { d.pwr with state := 3, wakeArmed := true, enteredAt := 9 } };
        let t := 9; let d := s.found t; let p := d.pwr; p.state = 3) ∧
    (let s := (obj [(0x2300, 7, 6), (0x2300, 6, 5)]).mod fun d => { d with pwr := { d.pwr with state := 2, wakeArmed := true, enteredAt := 9 } };
        let t := 4950009; let d := s.found t; let p := d.pwr; p.wake = none ∧ (d.rd 0x2300 7).testBit 2 = true ∧
        d.rd 0x2300 6 ≠ 0 ∧ p.state ∈ [1, 2] ∧ p.enteredAt + d.rd 0x2300 6 * 990000 ≤ t) ∧
    (let s := obj [(0x2300, 0x0A, 255)]; let t := 9; let bank := 7; let by_ : Requester := boss;
        let d := s.found t; d.grants by_ 0x2300 0x0B [BitVec.ofNat 8 bank] ∧ d.bankHeld bank = true) ∧
    (let s := obj [(0x2300, 0x0A, 255)]; let t := 9; let bank := 0; let by_ : Requester := boss;
        let d := s.found t; d.grants by_ 0x2300 0x0B [BitVec.ofNat 8 bank] ∧ d.bankHeld bank = true) ∧
    (let s := run; let t := 9; let d := s.found t; d.alive = true) :=
    by refine ⟨?_, ?_, ?_, ?_, ?_, ?_⟩ <;> (try unfold Dev.grants) <;> decide +kernel

theorem test_hyps_ResetWakeAndBootComplete :
    ((let s := (obj []).mod fun d => { d with pwr := { d.pwr with state := 5 } }; let t := 9; let d := s.found t;
        let p := d.pwr; p.state = 5) ∧
      (let s := obj [(0x3400, 1, 1)]; let t := 9; let d := s.found t; let p := d.pwr; p.state ≠ 5) ∧
      (let s := run; let t := 9; let by_ : Requester := boss; let d := s.found t; d.grants by_ 0x2360 7 [1]) ∧
      (let s := (obj []).mod fun d => { d with pwr := { d.pwr with state := 4, resetLow := true } }; let t := 9;
        let d := s.found t; let p := d.pwr; p.state = 4 ∧ p.resetLow = true) ∧
      (let s := (obj []).mod fun d => { d with pwr := { d.pwr with state := 4, resetLow := true, enables := 0x3F } };
        let t := 9; let d := s.found t; let p := d.pwr; p.state = 4 ∧ p.resetLow = true) ∧
      (let s := (obj []).mod fun d => { d with pwr := { d.pwr with state := 4, bootStep := 0, straps := 3 } };
        let t := 9; let d := s.found t; let p := d.pwr; p.state = 4 ∧ p.resetLow = false ∧ p.wake = none ∧
        p.bootStep = 0)) ∧
    ((let s := (obj []).mod fun d => { d with pwr := { d.pwr with state := 4, bootStep := 1, straps := 6 } };
        let t := 9; let d := s.found t; let p := d.pwr; p.state = 4 ∧ p.resetLow = false ∧ p.wake = none ∧
        p.bootStep = 1 ∧ p.straps / 2 = 3) ∧
      (let s := (obj []).mod fun d => { d with pwr := { d.pwr with state := 4, bootStep := 2 } }; let t := 9;
        let d := s.found t; let p := d.pwr; p.state = 4 ∧ p.resetLow = false ∧ p.wake = none ∧ p.bootStep = 2) ∧
      (let s := (obj []).mod fun d => { d with pwr := { d.pwr with state := 4, bootStep := 4 } }; let t := 9;
        let d := s.found t; let p := d.pwr; p.state = 4 ∧ p.resetLow = false ∧ p.wake = none ∧ p.bootStep = 4)) ∧
    ((let s := (obj []).mod fun d => { d with pwr := { d.pwr with state := 4, bootStep := 8 } }; let t := 9;
        let d := s.found t; let p := d.pwr; p.state = 4 ∧ p.resetLow = false ∧ p.wake = none ∧ p.bootStep = 8) ∧
      (let s := (obj []).mod fun d => { d with pwr := { d.pwr with state := 1, wake := some ⟨1, 2, 1, 0, 5⟩ } };
        let t := 9; let w : WakeRt := ⟨1, 2, 1, 0, 5⟩; let d := s.found t; let p := d.pwr;
        let next := nextStep (wakeSteps w.from_) w.step; p.wake = some w ∧ w.step ∉ [9, 10, 11] ∧ next ≠ 8) ∧
      (let s := (obj []).mod fun d => { d with pwr := { d.pwr with state := 2, wake := some ⟨2, 1, 1, 0, 5⟩ } };
        let t := 9; let w : WakeRt := ⟨2, 1, 1, 0, 5⟩; let d := s.found t; let p := d.pwr;
        let next := nextStep (wakeSteps w.from_) w.step; p.wake = some w ∧ w.step ∉ [9, 10, 11] ∧ next ≠ 8) ∧
      (let s := (obj []).mod fun d => { d with pwr := { d.pwr with state := 1, wake := some ⟨1, 11, 1, 0, 5⟩ } };
        let t := 9; let w : WakeRt := ⟨1, 11, 1, 0, 5⟩; let d := s.found t; let p := d.pwr; p.wake = some w ∧
        w.step = 11)) ∧
    ((let s := (obj []).mod fun d => { d with pwr := { d.pwr with state := 3, wake := some ⟨3, 7, 1, 0, 5⟩ } };
        let t := 9; let w : WakeRt := ⟨3, 7, 1, 0, 5⟩; let d := s.found t; let p := d.pwr; p.wake = some w ∧
        w.from_ = 3 ∧ w.step = 7) ∧
      (let s := (obj []).mod fun d => { d with pwr := { d.pwr with state := 2, wake := some ⟨2, 1, 1, 0, 5⟩ } };
        let t := 4950005; let w : WakeRt := ⟨2, 1, 1, 0, 5⟩; let d := s.found t; let p := d.pwr; p.wake = some w ∧
        0 < w.step ∧ w.step < 8 ∧ w.stepAt + wakeTimeout w.step * 990 ≤ t) ∧
      (let s := (obj []).mod fun d => { d with pwr := { d.pwr with state := 3, wake := some ⟨3, 7, 1, 0, 5⟩ } };
        let t := 1980005; let w : WakeRt := ⟨3, 7, 1, 0, 5⟩; let d := s.found t; let p := d.pwr; p.wake = some w ∧
        0 < w.step ∧ w.step < 8 ∧ w.stepAt + wakeTimeout w.step * 990 ≤ t) ∧
      (let s := (obj []).mod fun d => { d with pwr := { d.pwr with state := 4, bootStep := 6 } }; let t := 9;
        let d := s.found t; let p := d.pwr; p.state = 4 ∧ p.bootStep < 7)) ∧
    (let s := aft fun d => { d with bootRegs := [(regKey 0x2044 1 0, 1)] }; let t := 9; let d := s.found t;
        let p := d.pwr; p.state = 0 ∧ d.bootRd 0x2044 1 = 1) :=
    by refine ⟨?_, ?_, ?_, ?_, ?_⟩ <;> (try unfold Dev.grants) <;> decide +kernel

/-- The clauses that rest on a signature stand below. -/
theorem test_hyps_FirmwareAndDebugCommandsComplete :
    ((let s := obj [(0x2360, 8, 2)]; let t := 9; let k := 0; let by_ : Requester := boss;
        let c : Instr := .confirmTrial 9 boss; let v := 3;
        let held : List Nat := [(run.dev.rd 0x2360 2), 0xFF, 0, 0]; let d := s.found t; let trial := d.rd 0x2360 8;
        let running := d.rd 0x2360 2; k < 64 ∧ d.anyRuns [4, 5, 9] = false ∧ d.idleSlot = some k ∧
        (c, v, held) ∈ [(Instr.armTrial t by_, 2, [d.selector.active, d.targetSlot, 1, 1]), (.confirmTrial t by_, 3, [running, 0xFF, 0, 0]), (.cancelTrial t by_, 5, [d.selector.active, 0xFF, 0, 0])] ∧
        d.grants by_ 0x2360 7 [BitVec.ofNat 8 v] ∧ trial = (if v = 2 then 0 else if v = 3 then 2 else 1) ∧
        (v = 2 → d.slotValid d.targetSlot = true)) ∧
      (let s := obj [(0x2360, 8, 1)]; let t := 9; let k := 0; let by_ : Requester := boss;
        let c : Instr := .cancelTrial 9 boss; let v := 5; let held : List Nat := [0, 0xFF, 0, 0];
        let d := s.found t; let trial := d.rd 0x2360 8; let running := d.rd 0x2360 2; k < 64 ∧
        d.anyRuns [4, 5, 9] = false ∧ d.idleSlot = some k ∧
        (c, v, held) ∈ [(Instr.armTrial t by_, 2, [d.selector.active, d.targetSlot, 1, 1]), (.confirmTrial t by_, 3, [running, 0xFF, 0, 0]), (.cancelTrial t by_, 5, [d.selector.active, 0xFF, 0, 0])] ∧
        d.grants by_ 0x2360 7 [BitVec.ofNat 8 v] ∧ trial = (if v = 2 then 0 else if v = 3 then 2 else 1) ∧
        (v = 2 → d.slotValid d.targetSlot = true))) ∧
    ((let s := obj [(0x2360, 8, 1)]; let t := 9; let k := 0; let by_ : Requester := boss;
        let c : Instr := .armTrial 9 boss; let v := 2; let held : List Nat := [0, (run.dev.targetSlot), 1, 1];
        let d := s.found t; let trial := d.rd 0x2360 8; let running := d.rd 0x2360 2; k < 64 ∧
        d.anyRuns [4, 5, 9] = false ∧ d.idleSlot = some k ∧
        (c, v, held) ∈ [(Instr.armTrial t by_, 2, [d.selector.active, d.targetSlot, 1, 1]), (.confirmTrial t by_, 3, [running, 0xFF, 0, 0]), (.cancelTrial t by_, 5, [d.selector.active, 0xFF, 0, 0])] ∧
        d.grants by_ 0x2360 7 [BitVec.ofNat 8 v] ∧ trial ≠ (if v = 2 then 0 else if v = 3 then 2 else 1)) ∧
      (let s := obj [(0x2360, 8, 0)]; let t := 9; let k := 0; let by_ : Requester := boss;
        let c : Instr := .cancelTrial 9 boss; let v := 5; let held : List Nat := [0, 0xFF, 0, 0];
        let d := s.found t; let trial := d.rd 0x2360 8; let running := d.rd 0x2360 2; k < 64 ∧
        d.anyRuns [4, 5, 9] = false ∧ d.idleSlot = some k ∧
        (c, v, held) ∈ [(Instr.armTrial t by_, 2, [d.selector.active, d.targetSlot, 1, 1]), (.confirmTrial t by_, 3, [running, 0xFF, 0, 0]), (.cancelTrial t by_, 5, [d.selector.active, 0xFF, 0, 0])] ∧
        d.grants by_ 0x2360 7 [BitVec.ofNat 8 v] ∧ trial ≠ (if v = 2 then 0 else if v = 3 then 2 else 1))) ∧
    ((let s := (obj [(0x20BF, 2, 1), (0x20BF, 1, 4)]).mod fun d => d.setLongOp 63 { arg := 16 * flashTrial, held := [1, 0, 1, 1] };
        let t := 9; let k := 63; let d := s.found t; k < 64 ∧ d.alive = true ∧ d.runningKind k = 4 ∧
        (d.longOp k).arg / 16 = flashTrial) ∧
      (let s := obj [(0x2360, 2, 1)]; let t := 9; let k := 0; let by_ : Requester := boss; let d := s.found t;
        let trial := d.rd 0x2360 8; let running := d.rd 0x2360 2; k < 64 ∧ d.grants by_ 0x2360 7 [4] ∧ trial ≠ 2 ∧
        running < 2) ∧
      (let s := obj [(0x2360, 8, 2)]; let t := 9; let k := 0; let by_ : Requester := boss; let d := s.found t;
        let trial := d.rd 0x2360 8; k < 64 ∧ d.grants by_ 0x2360 7 [4] ∧ trial = 2)) ∧
    ((let s := (obj [(0x20BF, 2, 1), (0x20BF, 1, 5)]).mod fun d => { d with pwr := { d.pwr with stage := some ⟨0, 1, [1, 2], 9⟩ } };
        let t := 9; let k := 63; let by_ : Requester := boss; let data : List Byte := [1];
        let x : StageRt := ⟨0, 1, [1, 2], 9⟩; let off := 3; let d := s.found t; k < 64 ∧ d.alive = true ∧
        d.accessStatus by_.level 0x2360 0x0B = stOk ∧ data.length ≤ d.stageBuffer ∧ d.pwr.stage = some x ∧
        d.slotOfKind 5 = some k ∧ x.sess = by_.sess ∧ off ≠ x.data.length) ∧
      (let s := run; let t := 9; let k := 0; let by_ : Requester := boss;
        let token : List Byte := List.replicate 120 0; let d := s.found t; k < 64 ∧ d.grants by_ 0x2360 0x0E token) ∧
      (let s := run; let t := 9; let k := 0; let d := s.found t; k < 64 ∧ d.pwr.state ≠ 5)) ∧
    (let s := run; let t := 9; let k := 0; let d := s.found t; k < 64 ∧ d.pwr.state ≠ 5 ∧ d.pwr.resetLow = false) :=
    by refine ⟨?_, ?_, ?_, ?_, ?_⟩ <;> (try unfold Dev.grants) <;> decide +kernel

/-! ### Hypotheses that rest on a device's open values, and on every unit -/

/-- A state with a command in front and a byte in memory. -/
theorem test_hyps_StepKeepsTheMemoryCanonical :
    let s : State := { run with mem := [(160, 7)], pending := [.heartbeat 9] };
    s.Inv ∧ ∃ t, step s = .next t := ⟨rfl, _, rfl⟩

theorem test_hyps_OnlyMemoryCommandsTouchMemory :
    let s : State := { run with mem := [(160, 7)] };
    (reachesMemory (.heartbeat 9) = false ∧ ∃ t, exec (.heartbeat 9) s = .next t) ∧
    (mayReset (.resetNLow 9) = true ∧ ∃ t, exec (.resetNLow 9) s = .next t) :=
  ⟨⟨rfl, _, rfl⟩, ⟨rfl, _, rfl⟩⟩

/-- A datagram of the opening session with a tag of one byte value. -/
def tagged (b : Byte) : Datagram := { bytes := (req 3 1 []).bytes.take 16 ++ List.replicate 32 b }

/-- The third clause: a datagram whose tag is wrong, whatever the open function gives. -/
theorem test_hyps_OpeningASessionCompletes_wrong_tag :
    ∃ g : Datagram, let d := (talk opening).found 9; d.wdpArrives mgt0 g ∧
      wdpHead g.bytes = some ⟨3, 1, 0, 1, 0⟩ ∧ viaUses mgt0 1 = true ∧ d.session 1 = some opening ∧
      opening.isOpen = false ∧ (talk opening).dev.pwr.resetAsked = false ∧
      wdpTagOf g.bytes ≠ wdpTag opening.key (wdpSigned g.bytes) := by
  by_cases h : wdpTagOf (tagged 0).bytes = wdpTag opening.key (wdpSigned (tagged 0).bytes)
  · refine ⟨tagged 1, ⟨rfl, rfl⟩, rfl, by decide, by decide, rfl, rfl, fun e => ?_⟩
    rw [show wdpSigned (tagged 1).bytes = wdpSigned (tagged 0).bytes by decide, ← h] at e
    exact absurd e (by decide)
  · exact ⟨tagged 0, ⟨rfl, rfl⟩, rfl, by decide, by decide, rfl, rfl, h⟩

/-- A device in whose maintenance window a live repair of device 1 runs, with one row to repair. -/
def repairing : State :=
  (obj [(0x2080, 2, 1), (0x2080, 1, 8)]).mod fun d => (d.setLongOp 0 { arg := 1 }).setHbm 1 { cands := [⟨31, 47, 5, 1, 2, 1⟩] }

/-- The tenth clause, where the row's bank group has a spare row (an open number of the device). -/
theorem test_hyps_HbmEventsComplete_live_repair (hs : 0 < Config.spareRows 767 % 256) :
    let d := repairing.found 16400000; let q := d.drainAll []; let row : Cand := ⟨31, 47, 5, 1, 2, 1⟩;
    d.memUp = true ∧ (∀ j, j / 32 = 1 % 2 → (q.1.pc j).state ≠ 2 ∨ (q.1.pc j).trained = true) ∧
      q.1.memSlot 8 (1 % 2) = some 0 ∧ q.1.maintenanceEnd (1 % 2) 0 = some 16666667 ∧
      (q.1.longOp 0).abortAsked = false ∧ (q.1.hbm (1 % 2)).rowAt ≠ 16666667 ∧ q.1.nextRow (1 % 2) = some row ∧
      q.1.groupWindow (1 % 2) (row.pc % 32 / 4) 0 = some 16666667 := by
  refine ⟨by decide +kernel, fun j _ => .inl (idle_pcs _ (by decide +kernel) j), ?_⟩
  refine ⟨by decide +kernel, by decide +kernel, by decide +kernel, by decide +kernel, ?_, by decide +kernel⟩
  unfold Dev.nextRow
  rw [show Dev.toRepair _ (1 % 2) = [⟨31, 47, 5, 1, 2, 1⟩] by decide +kernel]
  have e : Tab.getD (Dev.hbm ((repairing.found 16400000).drainAll []).1 (1 % 2)).spares 767 0 = 0 := by decide +kernel
  have l : Dev.sparesLeft ((repairing.found 16400000).drainAll []).1 (1 % 2) 31 47 = Config.spareRows 767 % 256 := by
    unfold Dev.sparesLeft
    exact congrArg (Config.spareRows 767 % 256 - ·) e
  simp [List.find?, l, hs]

/-- The third clause: nothing queued and nothing poisoned. -/
theorem test_hyps_AReadSeesTheNewestAcceptedWrite_idle :
    (∀ p q, p < 64 → q ∈ (run.dev.pc p).queue →
      p = (placeOf (q.word * 32)).pc ∧ q.off + q.data.length ≤ 32) ∧ run.dev.words = [] ∧
    ∀ p, (run.dev.pc p).poison = false := by
  refine ⟨?_, rfl, fun _ => rfl⟩
  intro p q _ h
  have e : (run.dev.pc p).queue = [] := rfl
  rw [e] at h
  cases h

/-- The tenth clause: a standby, synchronised and without a pending batch. -/
theorem test_hyps_SwapsAreConfirmedOrDropped_prepare :
    let s := (sby [(0x2100, 3, 4)]).mod fun d => { d with dup := { linkUp := true, applied := 7 } };
    let d := s.found 9; let m : SwapState := ⟨3, 7, []⟩;
    d.alive = true ∧ d.duplex = true ∧ d.dup.linkUp = true ∧ d.rd 0x2100 1 = 0 ∧ d.pairState = 4 ∧
      d.dup.applied = m.applied ∧ ∀ k, k ∈ d.batches.map (·.num) ↔ k ∈ m.pending := by
  refine ⟨by decide, by decide, by decide, by decide, by decide, by decide, fun k => ?_⟩
  have e : (((sby [(0x2100, 3, 4)]).mod fun d => { d with dup := { linkUp := true, applied := 7 } }).found 9).batches = [] :=
    rfl
  simp [e]

/-- A hash as an image holds it, of an empty section. -/
def emptyHash : List Byte := leBytes 48 (Config.sha384 []).toNat

/-- An image of the format, its two sections empty. -/
def image : List Byte :=
  [0x57, 0x46, 0x49, 0x4D, 1, 2, 0, 0] ++ List.replicate 16 0 ++ [0, 0x96, 0, 0, 0xB1, 0, 0, 0] ++ [0, 0x10, 0, 0] ++
    List.replicate 16 0 ++ emptyHash ++ emptyHash ++ List.replicate 3948 0

theorem image_hash_first : imgHash image 36 52 = true := by
  have e : slice image 52 48 = emptyHash := rfl
  have f : slice image (imgField image 36 4) (imgField image 40 4) = [] := rfl
  unfold imgHash
  rw [e, show 36 + 4 = 40 from rfl, f]
  exact beq_self_eq_true _

theorem image_hash_second : imgHash image 44 100 = true := by
  have e : slice image 100 48 = emptyHash := rfl
  have f : slice image (imgField image 44 4) (imgField image 48 4) = [] := rfl
  unfold imgHash
  rw [e, show 44 + 4 = 48 from rfl, f]
  exact beq_self_eq_true _

theorem image_valid (d : Dev) (hs : imgSigned image = true) (hc : d.flash.counter = 0) : d.imgReason image = 0 := by
  have f : (!imgFormat image || imgField image 32 4 != image.length || decide (96 * 2 ^ 20 < image.length) ||
      decide (768 * 1024 < imgField image 40 4)) = false := by decide +kernel
  have g : imgSecurity image = 0 := by decide +kernel
  unfold Dev.imgReason
  rw [f, hs, image_hash_first, image_hash_second, g, hc]
  rfl

/-- The arming of a trial, with that image in the other slot. -/
theorem test_hyps_FirmwareAndDebugCommandsComplete_trial (hs : imgSigned image = true) :
    let s := (obj [(0x2360, 8, 0), (0x2360, 2, 0)]).mod fun d => { d with flash := { d.flash with images := [(1, image)] } };
    let d := s.found 9; d.anyRuns [4, 5, 9] = false ∧ d.idleSlot = some 0 ∧ d.grants boss 0x2360 7 [2] ∧
      d.rd 0x2360 8 = 0 ∧ d.slotValid d.targetSlot = true := by
  refine ⟨by decide, by decide, by unfold Dev.grants; decide, by decide, ?_⟩
  unfold Dev.slotValid
  rw [show Dev.slotImage _ _ = image from rfl, image_valid _ hs rfl]
  rfl

/-- Staging and its end, where the image's signature verifies (an open function of the device). -/
theorem test_hyps_FirmwareAndDebugCommandsComplete_staging (hs : imgSigned image = true) :
    (let d := run.found 9; d.alive = true ∧ d.accessStatus boss.level 0x2360 0x0B = stOk ∧
      image.length ≤ d.stageBuffer ∧ d.pwr.stage = none ∧ d.anyRuns [4, 5, 9] = false ∧ d.headerOk image = true ∧
      d.idleSlot = some 0 ∧ image.length ≤ imgField image 32 4) ∧
    (let x : StageRt := ⟨0, 1, image, 0⟩;
      let s := (obj [(0x20BF, 2, 1), (0x20BF, 1, 5)]).mod fun d => { d with pwr := { d.pwr with stage := some x } };
      let d := s.found 9; d.alive = true ∧ d.pwr.stage = some x ∧ d.slotOfKind 5 = some 63 ∧
      x.total ≤ x.data.length ∧ imgSigned x.data = true ∧ imgHash x.data 36 52 = true ∧
      imgHash x.data 44 100 = true) := by
  refine ⟨⟨by decide, by decide, by decide +kernel, rfl, by decide, ?_, by decide, by decide +kernel⟩,
    by decide, rfl, by decide, Nat.zero_le _, hs, image_hash_first, image_hash_second⟩
  unfold Dev.headerOk
  rw [hs]
  decide +kernel

end Sys2Proof.Tests
end

section
/-! O19: what becomes of an ended frame that the memory refused (R109, Table 15.4). -/
namespace Sys2Proof.Machine.Intake

theorem src_congr {d e : Dev} (h : d.sources = e.sources) (n : Nat) : d.src n = e.src n := by
  simp only [Dev.src, h]

theorem src_addf (d : Dev) (i s f v w n : Nat) : (d.addf i s f v w).src n = d.src n := src_congr rfl n

theorem src_setSrc_same (d : Dev) (n : Nat) (x : SourceRt) : (d.setSrc n x).src n = x := Tab.getD_setD_same _ _ _ _

theorem rd_setSrc (d : Dev) (n : Nat) (x : SourceRt) (i s : Nat) : (d.setSrc n x).rd i s = d.rd i s :=
  Dev.rd_congr rfl i s

/-- The counters of a source leave its impaired policy alone. -/
theorem policy_addf (d : Dev) (n f v w : Nat) :
    (d.addf (srcIdx n) 0x23 f v w).rd (srcIdx n) 0x0D = d.rd (srcIdx n) 0x0D :=
  Dev.rdf_wrf_other d (by simp only [regKey]; omega)

/-- An ended frame that the memory refused is impaired: under policy HOLD (0) its buffer goes back to the pool, and
the newest frame of its source stays the one before it (R109, Table 15.4). -/
theorem framePublished_newest_of_denied {d : Dev} {n id : Nat} {f : InFrame} (hf : (d.src n).frames = [f])
    (he : f.ended = true) (hb : f.buf = some id) (hs : f.tooSoon = false) (hd : f.denied = true)
    (hp : d.rd (srcIdx n) 0x0D = 0) : ((d.framePublished n).src n).newest = (d.src n).newest := by
  have hend : (d.src n).frames.find? (·.ended) = some f := by simp [hf, he]
  have hbad : (f.lost != 0 || f.marker.isNone || !f.policed.isEmpty || f.denied) = true := by simp [hd]
  simp [Dev.framePublished, hend, hb, hs, hbad, hp, Dev.incf, src_addf, src_setSrc_same, rd_setSrc, policy_addf,
    SourceRt.release, SourceRt.updBuf]

/-- A frame that arrived whole, while a write of its samples was refused (`Dev.intakeDenied`). -/
def deniedFrame : InFrame := { ts := 90, first := 1000, ended := true, buf := some 0, marker := some 3, denied := true }

/-- A source that has that frame to publish and nothing published before. -/
def deniedSource : SourceRt := { bufs := [{ id := 0, filling := true }], frames := [deniedFrame] }

/-- A device in Run with that source as source 0, under policy HOLD. -/
def deniedState : State :=
  { dev := (({ pwr := { state := 0, resetLow := false } } : Dev).wr (srcIdx 0) 0x0D 0).setSrc 0 deniedSource }

theorem deniedState_src : (deniedState.found 5).src 0 = deniedSource :=
  calc (deniedState.found 5).src 0
    _ = deniedState.dev.src 0 := src_congr rfl 0
    _ = deniedSource := src_setSrc_same _ _ _

theorem deniedState_policy : (deniedState.found 5).rd (srcIdx 0) 0x0D = 0 :=
  calc (deniedState.found 5).rd (srcIdx 0) 0x0D
    _ = (({ pwr := { state := 0, resetLow := false } } : Dev).wr (srcIdx 0) 0x0D 0).rd (srcIdx 0) 0x0D :=
      Dev.rd_congr rfl _ _
    _ = 0 := Dev.rd_wr_same _ _ _ _

theorem exec_framePublished (t n : Nat) (s : State) : exec (.framePublished t n) s = execFramePublished t n s := by
  rfl

theorem exec_framePublished_alive {s : State} {t : Nat} (h : (s.found t).alive = true) (n : Nat) :
    exec (.framePublished t n) s = .next { s with dev := (s.found t).framePublished n } := by
  rw [exec_framePublished, execFramePublished, onDev_alive h]

end Sys2Proof.Machine.Intake

open Sys2Proof Sys2Proof.Machine Sys2Proof.Machine.Intake in
/-- Refutes O19: the third clause, publication, has no premise `f.denied = false`. A frame that the memory refused is
impaired although no packet of it is lost, so that policy HOLD publishes nothing. -/
theorem not_framesEndAndArePublished : ¬ Obligations.FramesEndAndArePublished := by
  intro h
  obtain ⟨-, -, publishes, -⟩ := h deniedState 5 0 0 0 deniedFrame 0 rfl
  have frames : ((deniedState.found 5).src 0).frames = [deniedFrame] := congrArg SourceRt.frames deniedState_src
  obtain ⟨u, hu, -, newest, -⟩ := publishes frames rfl rfl rfl rfl rfl rfl
  have kept : (((deniedState.found 5).framePublished 0).src 0).newest = none := by
    rw [framePublished_newest_of_denied frames rfl rfl rfl rfl deniedState_policy, deniedState_src]
    rfl
  rw [exec_framePublished_alive rfl, Host.Outcome.next.injEq] at hu
  subst hu
  exact absurd (kept.symm.trans newest) (by simp)
end

section
/-! O20: what a commit and the reports around it do to the batches and to the NMOS node, and what an IS-05 activation
makes of it (R104, R65, R91). -/
namespace Sys2Proof.Machine.Is05

/-- What an activation is stated in: the NMOS node, the values loaded at the last reset, and the accepted batches. -/
structure Books where
  nmos : NmosRt
  boot : Tab Nat
  num : Nat
  batches : List Batch

/-- The books of a device. -/
def books (d : Dev) : Books := ⟨d.nmos, d.bootRegs, d.batchNum, d.batches⟩

/-- A fold keeps what each of its steps keeps. -/
theorem foldl_keeps {α β γ : Type} (g : α → γ) (f : α → β → α) (h : ∀ a b, g (f a b) = g a) (l : List β) (a : α) :
    g (l.foldl f a) = g a := by
  induction l generalizing a with
  | nil => rfl
  | cons b l ih => exact (ih _).trans (h a b)

theorem books_eq {d e : Dev} (hn : d.nmos = e.nmos) (hr : d.bootRegs = e.bootRegs) (hb : d.batchNum = e.batchNum)
    (hq : d.batches = e.batches) : books d = books e := by
  simp only [books, hn, hr, hb, hq]

/-! ### Operations that leave the books alone -/

@[simp] theorem books_wrf (d : Dev) (i s f v : Nat) : books (d.wrf i s f v) = books d := books_eq rfl rfl rfl rfl
@[simp] theorem books_wr (d : Dev) (i s v : Nat) : books (d.wr i s v) = books d := books_eq rfl rfl rfl rfl
@[simp] theorem books_send (d : Dev) (o : Out) : books (d.send o) = books d := books_eq rfl rfl rfl rfl
@[simp] theorem books_free (d : Dev) : books d.free.2 = books d := books_eq rfl rfl rfl rfl
@[simp] theorem books_setSession (d : Dev) (n : Nat) (x : Option Session) : books (d.setSession n x) = books d :=
  books_eq rfl rfl rfl rfl
@[simp] theorem books_setMbx (d : Dev) (ch : Nat) (x : Mbx) : books (d.setMbx ch x) = books d :=
  books_eq rfl rfl rfl rfl

@[simp] theorem books_sendVia (d : Dev) (via : Transport) (msg : List Byte) : books (d.sendVia via msg) = books d := by
  unfold Dev.sendVia
  split
  · split <;> simp
  · simp

@[simp] theorem books_originate (d : Dev) (n : Nat) (x : Session) (ty flags : Nat) (p : List Byte) :
    books (d.originate n x ty flags p) = books d := by
  unfold Dev.originate
  extract_lets x' msg
  split
  · extract_lets b
    split
    · simp
    · split
      · split <;> simp
      · simp
  · simp

@[simp] theorem books_sendDev (d : Dev) (n ty flags : Nat) (p : List Byte) :
    books (d.sendDev n ty flags p) = books d := by
  unfold Dev.sendDev
  split
  · split <;> simp
  · rfl

@[simp] theorem books_notifyTo (d : Dev) (n event time : Nat) (body : List Byte) :
    books (d.notifyTo n event time body) = books d := by
  unfold Dev.notifyTo
  split
  · split <;> simp
  · rfl

@[simp] theorem books_notify (d : Dev) (event time : Nat) (body : List Byte) :
    books (d.notify event time body) = books d := by
  refine foldl_keeps books _ (fun d n => ?_) _ _
  split
  · split <;> simp
  · rfl

@[simp] theorem books_report (d : Dev) (r : Report) : books (d.report r) = books d := by
  unfold Dev.report
  split
  · dsimp only
    split <;> rfl
  · dsimp only
    split <;> simp

@[simp] theorem books_raise (d : Dev) (unit code p1 p2 sev : Nat) : books (d.raise unit code p1 p2 sev) = books d := by
  simp [Dev.raise, Dev.event]

@[simp] theorem books_toPartner (d : Dev) (what : String) (b : List Byte) : books (d.toPartner what b) = books d := by
  unfold Dev.toPartner
  split <;> simp

/-- Whatever verdict the partner gives, the device has drawn its four free values, or none. -/
theorem askPartner_dev (d : Dev) : d.askPartner.2 = d ∨ d.askPartner.2 = d.free.2.free.2.free.2.free.2 := by
  have pick : ∀ (c : Prop) [Decidable c] (v : Verdict) (e : Dev) (r : Verdict × Dev), r.2 = e →
      (if c then (v, e) else r).2 = e := by
    intro c _ v e r h
    split
    · rfl
    · exact h
  unfold Dev.askPartner
  split
  · exact .inr (pick _ _ _ _ (pick _ _ _ _ (pick _ _ _ _ rfl)))
  · exact .inl rfl

@[simp] theorem books_askPartner (d : Dev) : books d.askPartner.2 = books d := by
  obtain h | h := askPartner_dev d <;> simp [h]

@[simp] theorem books_jobResults (d new : Dev) (recs : List Rec) : books (d.jobResults new recs) = books d :=
  foldl_keeps books _ (fun _ _ => books_wr _ _ _ _) _ _

@[simp] theorem books_admission (d : Dev) (v : Verdict) (sess tick device : Nat) :
    books (d.admission v sess tick device) = books d := by
  unfold Dev.admission Dev.admissionShows
  dsimp only
  split <;> simp

@[simp] theorem books_stateRefused (d : Dev) (v : Verdict) (recs : List Rec) :
    books (d.stateRefused v recs) = books d := by
  unfold Dev.stateRefused
  split
  · refine foldl_keeps books _ (fun d r => ?_) _ _
    split
    · simp [Dev.powerCount, Dev.addf]
    · rfl
  · rfl

/-! ### What a commit does to the books -/

/-- The books after an accepted batch: the next number, and the batch unless it has no records (R43, R65). -/
def booksWith (d : Dev) (sess w k : Nat) (recs : List Rec) : Books :=
  { books d with
    num := d.batchNum + 1
    batches := if recs.isEmpty then d.batches
      else d.batches ++ [{ num := d.batchNum + 1, sess := sess, wing := w, tick := k, recs := recs }] }

/-- The device whose admission judges a batch: with the check results of the job lists that it touches (R149). -/
def checked (d : Dev) (recs : List Rec) : Dev := d.jobResults (d.setRecs recs) recs

/-- A batch that this device admits goes to the partner, whose verdict comes back; one of local objects does not
(R44, R91). -/
def asked (d : Dev) (b : Batch) : Verdict × Dev :=
  let d := if !b.recs.isEmpty && d.active then d.toPartner "batch" (batchBytes b) else d
  if !b.recs.isEmpty then d.askPartner else ({}, d)

/-- A batch enters the accepted ones under its number, unless nothing of it is left to apply. -/
def entered (d : Dev) (b : Batch) : Dev :=
  { d with batchNum := b.num, batches := if b.recs.isEmpty then d.batches else d.batches ++ [b] }

/-- A commit in its steps: what refuses it before admission, the admission here, the partner's, the acceptance. -/
theorem commit_eq (d : Dev) (sess w k : Nat) (recs : List Rec) : d.commit sess w k recs =
    if d.commitStatus w k recs ≠ stOk then
      ({ st := d.commitStatus w k recs }, d.admission { st := d.commitStatus w k recs } sess k 0)
    else
      let e := checked d recs
      let v := e.admitAt (e.tickTime w k) recs
      if v.st ≠ stOk then
        ({ st := v.st, excess := v.excess.getD ⟨0, 0, 0⟩ }, (e.admission v sess k 0).stateRefused v recs)
      else
        let b : Batch := { num := e.batchNum + 1, sess := sess, wing := w, tick := k, recs := recs }
        let q := asked e { b with recs := recs.filter fun r => !isLocal r.idx }
        if q.1.st ≠ stOk then
          ({ st := q.1.st, excess := q.1.excess.getD ⟨0, 0, 0⟩, device := 1 }, q.2.admission q.1 sess k 1)
        else ({ st := stOk, num := b.num }, (entered q.2 b).admission {} sess k 0) := rfl

@[simp] theorem books_checked (d : Dev) (recs : List Rec) : books (checked d recs) = books d := books_jobResults _ _ _

@[simp] theorem books_asked (d : Dev) (b : Batch) : books (asked d b).2 = books d := by
  have hsent : books (if (!b.recs.isEmpty && d.active) = true then d.toPartner "batch" (batchBytes b) else d) =
      books d := by
    split
    · exact books_toPartner _ _ _
    · rfl
  unfold asked
  extract_lets d'
  split
  · exact (books_askPartner d').trans hsent
  · exact hsent

/-- A batch enters a device of the same books with the same outcome. -/
theorem books_entered {d e : Dev} (h : books d = books e) (b : Batch) : books (entered d b) =
    { books e with num := b.num, batches := if b.recs.isEmpty then e.batches else e.batches ++ [b] } := by
  have hq : d.batches = e.batches := congrArg Books.batches h
  rw [← h, ← hq]
  rfl

/-- What a commit may come to: it is refused and leaves the books alone, or is accepted and enters its batch. -/
def Settled (d : Dev) (sess w k : Nat) (recs : List Rec) (r : Committed × Dev) : Prop :=
  (r.1.st ≠ stOk ∧ books r.2 = books d) ∨ (r.1.st = stOk ∧ books r.2 = booksWith d sess w k recs)

theorem settled_refused {d e : Dev} {sess w k st num device : Nat} {recs : List Rec} {x : Excess} (hc : st ≠ stOk)
    (he : books e = books d) : Settled d sess w k recs ({ st := st, num := num, excess := x, device := device }, e) :=
  .inl ⟨hc, he⟩

theorem settled_accepted {d e : Dev} {sess w k num : Nat} {recs : List Rec}
    (he : books e = booksWith d sess w k recs) : Settled d sess w k recs ({ st := stOk, num := num }, e) :=
  .inr ⟨rfl, he⟩

theorem commit_settled (d : Dev) (sess w k : Nat) (recs : List Rec) :
    Settled d sess w k recs (d.commit sess w k recs) := by
  have hnum : (checked d recs).batchNum = d.batchNum := congrArg Books.num (books_checked d recs)
  rw [commit_eq]
  split
  · exact settled_refused ‹_› (books_admission _ _ _ _ _)
  · dsimp only
    split
    · exact settled_refused ‹_› (by simp)
    · split
      · exact settled_refused ‹_› (by simp)
      · refine settled_accepted ?_
        rw [books_admission, books_entered ((books_asked _ _).trans (books_checked d recs)), hnum]
        rfl

theorem commit_bootRegs (d : Dev) (sess w k : Nat) (recs : List Rec) :
    (d.commit sess w k recs).2.bootRegs = d.bootRegs := by
  obtain ⟨-, h⟩ | ⟨-, h⟩ := commit_settled d sess w k recs <;> exact congrArg Books.boot h

theorem commit_accepted {d : Dev} {sess w k : Nat} {recs : List Rec} (h : (d.commit sess w k recs).1.st = stOk) :
    books (d.commit sess w k recs).2 = booksWith d sess w k recs := by
  obtain ⟨hst, -⟩ | ⟨-, hb⟩ := commit_settled d sess w k recs
  · exact absurd h hst
  · exact hb

/-! ### What an activation does -/

/-- The device that keeps the values of a transport file as the staged parameters of a receiver (R104). -/
def staged (d : Dev) (n : Nat) (f : Sdp) : Dev :=
  { d with nmos := { d.nmos with staged := Tab.setD d.nmos.staged n f.vals [] } }

/-- An activation that reaches the node of a device, in the order in which it can be refused: the staged
parameters have no part in the checks of the file's values (R104). -/
theorem activateReceiver_eq {d : Dev} {t n : Nat} (f : Sdp) (at_ : Option Nat) (ht : d.now = t)
    (hnode : d.nmos.node = true) (hup : d.nmosUp = true) (hn : n < 256) : d.activateReceiver n f at_ =
    if d.standby then d.send (.http d.nmosIface 500 "STANDBY")
    else if f.unsupported then d.send (.http d.nmosIface 400 "")
    else if d.pwr.state = 4 then (staged d n f).send (.http d.nmosIface 400 (statusName stWrongState))
    else if (d.sdpRecs n f).1 ≠ stOk then
      (staged d n f).send (.http d.nmosIface 400 (statusName (d.sdpRecs n f).1))
    else
      let r := (staged d n f).commit 0x0200 (d.srcWing n)
        (d.tickFrom (d.srcWing n) (at_.getD (t + d.rd 0x2036 7 * 1000000))) (d.sdpRecs n f).2
      if r.1.st = stOk then r.2.send (.http r.2.nmosIface 200 "")
      else r.2.send (.http r.2.nmosIface 400 (statusName r.1.st)) := by
  subst ht
  unfold Dev.activateReceiver
  rw [if_neg (by simp [hnode, hup, hn])]
  rfl

/-- A commit changes no value of the last boot, so that the answer leaves over the interface of the node. -/
theorem nmosIface_commit (d : Dev) (sess w k : Nat) (recs : List Rec) :
    (d.commit sess w k recs).2.nmosIface = d.nmosIface := by
  simp only [Dev.nmosIface, Dev.bootRd, commit_bootRegs]

theorem exec_is05Activation (t n : Nat) (f : Sdp) (at_ : Option Nat) (s : State) :
    exec (.is05Activation t n f at_) s = execIs05Activation t n f at_ s := by
  rfl

theorem exec_is05Activation_runs {s : State} {t : Nat} (n : Nat) (f : Sdp) (at_ : Option Nat)
    (h : (s.found t).alive = true) (hc : (s.found t).curDown 0 = false) :
    exec (.is05Activation t n f at_) s = .next { s with dev := (s.found t).activateReceiver n f at_ } := by
  rw [exec_is05Activation, execIs05Activation, onCurator_eq _ _ _ h hc]

end Sys2Proof.Machine.Is05

open Sys2Proof Sys2Proof.Machine Sys2Proof.Machine.Is05 in
/-- Settles O20: the branches of an activation in order, and the books that an accepted commit leaves. -/
theorem is05ActivationCommitsABatch : Obligations.Is05ActivationCommitsABatch := by
  intro s t n f at_ d halive hcur hnode hup hn
  have run := exec_is05Activation_runs n f at_ halive hcur
  rw [activateReceiver_eq (t := t) f at_ rfl hnode hup hn] at run
  refine ⟨fun hs => ?_, fun hs hf => ?_, fun hs hf hp hst => ?_, fun hs hf hp hst => ?_⟩
  · rw [run, if_pos hs]
    rfl
  · rw [run, if_neg (by simp [hs]), if_pos hf]
    rfl
  · intro e r
    have hiface : r.2.nmosIface = d.nmosIface := nmosIface_commit (staged d n f) _ _ _ _
    rw [if_neg (by simp [hs]), if_neg (by simp [hf]), if_neg (by simp [hp]), if_neg (by simp [hst])] at run
    change exec _ s = .next { s with
      dev := if r.1.st = stOk then r.2.send (.http r.2.nmosIface 200 "")
        else r.2.send (.http r.2.nmosIface 400 (statusName r.1.st)) } at run
    rw [hiface] at run
    refine ⟨fun hok => ?_, fun hbad => ?_⟩
    · rw [if_pos hok] at run
      have hbooks : books r.2 = booksWith (staged d n f) _ _ _ _ := commit_accepted hok
      have hstaged : r.2.nmos.staged = e.nmos.staged := congrArg (·.nmos.staged) hbooks
      have hnum : r.2.batchNum = d.batchNum + 1 := congrArg Books.num hbooks
      exact ⟨run, _, run, rfl, hnum, hstaged,
        fun hne => (congrArg Books.batches hbooks).trans (if_neg (by simpa using hne))⟩
    · rw [if_neg hbad] at run
      exact run
  · rw [run, if_neg (by simp [hs]), if_neg (by simp [hf]), if_neg (by simp [hp]), if_pos hst]
    rfl
end

section
/-! O24: what a claim of a layer's slot comes to, status by status (R162, Table 6.7, Table 6.11). -/
namespace Sys2Proof.Machine.Claims

/-- The device after the CLAIM_REFUSED event of a claim (Table 6.11). -/
def claimRefused (d : Dev) (l k : Nat) : Dev := d.event (uWing (d.layWing l)) 0x0605 l k

/-- The device in which slot `k` of allocation `g` of a layer is CLAIMED; one that was stays as it is (Table 6.7). -/
def claimed (d : Dev) (l k g : Nat) : Dev :=
  d.setLayer l ((d.layer l).updSlot k g fun y => if y.state = 1 then y else y.enter 1)

/-! ### The branches of a claim -/

theorem claimSlot_without_slots {d : Dev} {l : Nat} (k : Nat)
    (h : d.rd (layIdx l) 0x1B = 1 ∨ (d.layer l).slots = []) :
    d.claimSlot l k = (claimRefused d l k).res stWrongState :=
  if_pos h

theorem claimSlot_of_no_number {d : Dev} {l k : Nat} (hw : d.rd (layIdx l) 0x1B ≠ 1) (hs : (d.layer l).slots ≠ [])
    (hn : ∀ y ∈ (d.layer l).slots, y.num ≠ k) : d.claimSlot l k = (claimRefused d l k).res stRange := by
  have hx : (d.layer l).slots.find? (fun y => y.num == k) = none := by simpa using hn
  unfold Dev.claimSlot
  rw [if_neg (not_or.mpr ⟨hw, hs⟩), hx]
  rfl

theorem claimSlot_of_find {d : Dev} {l k : Nat} {x : Slot} (hw : d.rd (layIdx l) 0x1B ≠ 1)
    (hx : (d.layer l).slots.find? (fun y => y.num == k) = some x) : d.claimSlot l k =
      if x.state = 2 ∨ x.state = 3 then (claimRefused d l k).res stOnLoan else (claimed d l k x.gen).res stOk := by
  have hs : (d.layer l).slots ≠ [] := List.ne_nil_of_mem (List.mem_of_find?_eq_some hx)
  unfold Dev.claimSlot
  rw [if_neg (not_or.mpr ⟨hw, hs⟩), hx]
  rfl

theorem claimed_slots (d : Dev) (l k g : Nat) : ((claimed d l k g).layer l).slots =
    (d.layer l).slots.map fun y => if y.num = k ∧ y.gen = g ∧ y.state ≠ 1 then y.enter 1 else y := by
  simp only [claimed, Dev.layer, Dev.setLayer, Tab.getD_setD_same, LayerRt.updSlot]
  refine List.map_congr_left fun y _ => ?_
  by_cases h1 : y.state = 1
  · simp [h1]
  · simp [h1]

/-! ### The command -/

/-- A granted write is judged as it arrives and acts at once, so that both are one claim. -/
theorem claimWrite_granted {d : Dev} {by_ : Requester} {l k : Nat} (h : d.grants by_ (layIdx l) 0x1A (leBytes 1 k)) :
    d.claimWrite by_ l k = d.claimSlot l k := by
  have hst : d.commandStatus by_ (layIdx l) 0x1A (leBytes 1 k) = stOk := h.2.1
  simp only [Dev.claimWrite, hst, ne_eq, not_true_eq_false, if_false, Dev.command_granted h, ite_self]

theorem exec_layerClaim (t : Nat) (by_ : Requester) (l k : Nat) (s : State) :
    exec (.layerClaim t by_ l k) s = execLayerClaim t by_ l k s := by
  rfl

/-- A granted write answers its writer with the status of the claim. -/
theorem exec_layerClaim_granted {s : State} {t : Nat} {by_ : Requester} {l k st : Nat} {e : Dev}
    (h : (s.found t).grants by_ (layIdx l) 0x1A (leBytes 1 k)) (hr : (s.found t).claimSlot l k = e.res st) :
    exec (.layerClaim t by_ l k) s = .next { s with dev := e.send (.answer by_ st none) } := by
  rw [exec_layerClaim, execLayerClaim, onCommand_alive h.1, claimWrite_granted h, hr]
  rfl

end Sys2Proof.Machine.Claims

open Sys2Proof Sys2Proof.Machine Sys2Proof.Machine.Claims in
/-- Settles O24: a granted claim is `Dev.claimSlot`, whose branches are the statuses of R162 in order. -/
theorem layerClaimsFollowTheirStatuses : Obligations.LayerClaimsFollowTheirStatuses := by
  intro s t l k by_ x d refused hg
  refine ⟨fun hn => ?_, fun hw hs hn => ?_, fun hw hx => ?_⟩
  · exact exec_layerClaim_granted hg (claimSlot_without_slots k hn)
  · exact exec_layerClaim_granted hg (claimSlot_of_no_number hw hs hn)
  · have claim := claimSlot_of_find hw hx
    refine ⟨fun hlent => exec_layerClaim_granted hg (claim.trans (if_pos hlent)), fun hfree => ?_⟩
    have hnot : ¬ (x.state = 2 ∨ x.state = 3) := by omega
    exact ⟨_, exec_layerClaim_granted hg (claim.trans (if_neg hnot)), rfl, rfl, rfl, claimed_slots d l k x.gen⟩
end

section
/-! O25: what a granted write of a legend set comes to (R183, Table 7.9). -/
namespace Sys2Proof.Machine.Legends

/-- What is wrong with a legend set, as the reason LEGEND_REJECTED gives: 1 format, 2 signature; 0 nothing. -/
def rejectReason (b : List Byte) : Nat :=
  if b = [] then 0
  else if legendFormatOk b = false then 1
  else if Config.ecdsaVerify contentKey (b.take (b.length - 96)) (b.drop (b.length - 96)) = false then 2
  else 0

/-- The device with a legend set stored and its status told (0x34F5:02). -/
def stored (d : Dev) (b : List Byte) : Dev := (d.wrd 0x34F5 1 b).wr 0x34F5 2 (if b = [] then 0 else 1)

/-- The device with a legend set rejected for `reason`, the stored set left as it was. -/
def rejected (d : Dev) (reason : Nat) : Dev := (d.wr 0x34F5 2 2).raise uGuard 0x0704 0 reason sevInfo

/-! ### The verification -/

theorem rejectReason_of_empty {b : List Byte} (h : b = []) : rejectReason b = 0 := if_pos h

theorem rejectReason_of_bad_format {b : List Byte} (hne : b ≠ []) (hf : legendFormatOk b = false) :
    rejectReason b = 1 := by
  rw [rejectReason, if_neg hne, if_pos hf]

theorem rejectReason_of_right_format {b : List Byte} (hne : b ≠ []) (hf : legendFormatOk b = true) :
    rejectReason b =
      if Config.ecdsaVerify contentKey (b.take (b.length - 96)) (b.drop (b.length - 96)) = false then 2 else 0 := by
  rw [rejectReason, if_neg hne, if_neg (by simp [hf])]

theorem stored_of_empty (d : Dev) {b : List Byte} (h : b = []) :
    stored d b = (d.wrd 0x34F5 1 []).wr 0x34F5 2 0 := by
  rw [stored, if_pos h, h]

theorem stored_of_nonempty (d : Dev) {b : List Byte} (h : b ≠ []) :
    stored d b = (d.wrd 0x34F5 1 b).wr 0x34F5 2 1 := by
  rw [stored, if_neg h]

/-! ### The command -/

theorem loadLegends_granted {d : Dev} {by_ : Requester} {b : List Byte} (h : d.grants by_ 0x34F5 1 b) :
    d.loadLegends by_ b =
      if rejectReason b ≠ 0 then (rejected d (rejectReason b)).res stRange else (stored d b).res stOk := by
  have hst : d.commandStatus by_ 0x34F5 1 b = stOk := h.2.1
  simp only [Dev.loadLegends, hst, true_and, Dev.command_granted h, Bool.not_eq_true']
  rfl

theorem exec_legendSetLoad (t : Nat) (by_ : Requester) (b : List Byte) (s : State) :
    exec (.legendSetLoad t by_ b) s = execLegendSetLoad t by_ b s := by
  rfl

section
variable {s : State} {t : Nat} {by_ : Requester} {b : List Byte}

theorem exec_legendSetLoad_of_sound (h : (s.found t).grants by_ 0x34F5 1 b) (hb : rejectReason b = 0) :
    exec (.legendSetLoad t by_ b) s = .next { s with dev := (stored (s.found t) b).grantedTo by_ } := by
  rw [exec_legendSetLoad, execLegendSetLoad, onCommand_alive h.1, loadLegends_granted h,
    if_neg (fun hr => hr hb), Dev.res, Dev.grantedTo]

theorem exec_legendSetLoad_of_unsound {reason : Nat} (h : (s.found t).grants by_ 0x34F5 1 b)
    (hb : rejectReason b = reason) (hr : reason ≠ 0) : exec (.legendSetLoad t by_ b) s =
      .next { s with dev := (rejected (s.found t) reason).send (.answer by_ stRange none) } := by
  subst hb
  rw [exec_legendSetLoad, execLegendSetLoad, onCommand_alive h.1, loadLegends_granted h, if_pos hr, Dev.res]

end

end Sys2Proof.Machine.Legends

open Sys2Proof Sys2Proof.Machine Sys2Proof.Machine.Legends in
/-- Settles O25: a granted write stores the set when the verification finds nothing wrong with it, and otherwise
rejects it for the reason found (R183). -/
theorem legendSetsAreVerified : Obligations.LegendSetsAreVerified := by
  intro s t by_ b d hg
  refine ⟨fun he => ?empty, fun hne hf hv => ?sound, fun hne hf => ?badFormat, fun hne hf hv => ?badSignature⟩
  case empty =>
    rw [exec_legendSetLoad_of_sound hg (rejectReason_of_empty he), stored_of_empty _ he]
  case sound =>
    have nothing : rejectReason b = 0 := by rw [rejectReason_of_right_format hne hf, hv, if_neg (by decide)]
    rw [exec_legendSetLoad_of_sound hg nothing, stored_of_nonempty _ hne]
  case badFormat =>
    exact exec_legendSetLoad_of_unsound hg (rejectReason_of_bad_format hne hf) (by decide)
  case badSignature =>
    have signature : rejectReason b = 2 := by rw [rejectReason_of_right_format hne hf, hv, if_pos rfl]
    exact exec_legendSetLoad_of_unsound hg signature (by decide)
end

section
/-! O43: what an edge, the end of a second, a stuck time and a release do to a capture input (R266, R267, R406,
R407). -/
namespace Sys2Proof.Machine.EventInputs

/-! ### Bits of a number -/

/-- Setting a clear bit carries into no other. -/
theorem testBit_two_pow_add_other {w i j : Nat} (h : j ≠ i) (hw : w.testBit i = false) :
    (2 ^ i + w).testBit j = w.testBit j := by
  obtain hlt | hgt := Nat.lt_or_gt_of_ne h
  · exact Nat.testBit_two_pow_add_gt hlt w
  · obtain ⟨k, rfl⟩ : ∃ k, j = k + (i + 1) := ⟨j - (i + 1), by omega⟩
    have even : w / 2 ^ i % 2 = 0 := by
      rw [Nat.testBit_eq_decide_div_mod_eq, decide_eq_false_iff_not] at hw
      omega
    have quotient : (2 ^ i + w) / 2 ^ i = w / 2 ^ i + 1 := by
      rw [Nat.add_comm, Nat.add_div_right _ (Nat.two_pow_pos i)]
    have high : (2 ^ i + w) / 2 ^ (i + 1) = w / 2 ^ (i + 1) := by
      rw [Nat.pow_succ, ← Nat.div_div_eq_div_mul, ← Nat.div_div_eq_div_mul, quotient]
      omega
    rw [Nat.testBit_add, Nat.testBit_add, high]

theorem testBit_setBit (v i j : Nat) (b : Bool) : (setBit v i b).testBit j = if j = i then b else v.testBit j := by
  unfold setBit
  split
  case isTrue h =>
    split
    · subst_vars
      exact eq_of_beq h
    · rfl
  case isFalse h =>
    cases b
    case true =>
      have clear : v.testBit i = false := by simpa using h
      rw [if_pos rfl, Nat.add_comm]
      split
      case isTrue e => rw [e, Nat.testBit_two_pow_add_eq, clear, Bool.not_false]
      case isFalse e => exact testBit_two_pow_add_other e clear
    case false =>
      have held : v.testBit i = true := by simpa using h
      obtain ⟨w, rfl⟩ : ∃ w, v = 2 ^ i + w := ⟨v - 2 ^ i, by have := Nat.ge_two_pow_of_testBit held; omega⟩
      have clear : w.testBit i = false := by simpa [Nat.testBit_two_pow_add_eq] using held
      rw [if_neg (by simp), Nat.add_sub_cancel_left]
      split
      case isTrue e => rw [e, clear]
      case isFalse e => exact (testBit_two_pow_add_other e clear).symm

/-! ### Bytes of a record -/

theorem slice_length (b : List Byte) (o n : Nat) : (slice b o n).length = n := by
  simp only [slice, List.length_append, List.length_take, List.length_replicate]
  omega

theorem leNat_leBytes (n v : Nat) : leNat (leBytes n v) = v % 256 ^ n := by
  induction n generalizing v with
  | zero => simp [leBytes, leNat, Nat.mod_one]
  | succ n ih => rw [leBytes, leNat, ih, BitVec.toNat_ofNat, Nat.pow_succ' (m := 256), Nat.mod_mul]

theorem byteAt_append (p r : List Byte) (b : Byte) : byteAt (p ++ b :: r) p.length = b.toNat := by
  simp [byteAt]

theorem fieldAt_append (p q r : List Byte) : fieldAt (p ++ (q ++ r)) p.length q.length = leNat q := by
  simp [fieldAt, slice]

theorem evtRecord_bytes (at_ edge flags : Nat) : evtRecord at_ edge flags 0 =
    leBytes 10 (time48 at_) ++ [BitVec.ofNat 8 edge, BitVec.ofNat 8 flags] ++ [0, 0] ++ [0, 0] := by
  simp [evtRecord, time48Bytes, leBytes]

theorem edgeByte (falls : Bool) : BitVec.ofNat 8 (if falls then 0 else 1) = if falls then 0 else 1 := by
  cases falls <;> rfl

/-- A record with the merged flag set and its merge count raised (R406). -/
def mergedRecord (b : List Byte) : List Byte :=
  slice b 0 11 ++ leBytes 1 (setBit (byteAt b 11) 0 true) ++ leBytes 2 (satInc 16 (fieldAt b 12 2)) ++ slice b 14 2

theorem mergedRecord_flag (b : List Byte) : (byteAt (mergedRecord b) 11).testBit 0 = true := by
  have flags : byteAt (mergedRecord b) 11 = setBit (byteAt b 11) 0 true % 256 := by
    have h := byteAt_append (slice b 0 11) (leBytes 2 (satInc 16 (fieldAt b 12 2)) ++ slice b 14 2)
      (BitVec.ofNat 8 (setBit (byteAt b 11) 0 true))
    rw [slice_length, BitVec.toNat_ofNat] at h
    simpa [mergedRecord, leBytes] using h
  rw [flags, show 256 = 2 ^ 8 from rfl, Nat.testBit_mod_two_pow, testBit_setBit]
  rfl

theorem mergedRecord_count (b : List Byte) :
    fieldAt (mergedRecord b) 12 2 = min (fieldAt b 12 2 + 1) 0xFFFF := by
  have h := fieldAt_append (slice b 0 11 ++ leBytes 1 (setBit (byteAt b 11) 0 true))
    (leBytes 2 (satInc 16 (fieldAt b 12 2))) (slice b 14 2)
  rw [List.length_append, slice_length, leBytes_length, leBytes_length, leNat_leBytes, ← List.append_assoc] at h
  rw [mergedRecord, h, satInc]
  omega

/-! ### What a notification changes -/

/-- A device but for what the sending of a notification may change. -/
def mute (d : Dev) : Dev := { d with sessions := [], mbxs := [], outbox := [] }

@[simp] theorem mute_send (d : Dev) (o : Out) : mute (d.send o) = mute d := rfl
@[simp] theorem mute_setSession (d : Dev) (n : Nat) (x : Option Session) : mute (d.setSession n x) = mute d := rfl
@[simp] theorem mute_setMbx (d : Dev) (ch : Nat) (x : Mbx) : mute (d.setMbx ch x) = mute d := rfl

@[simp] theorem mute_sendVia (d : Dev) (via : Transport) (msg : List Byte) : mute (d.sendVia via msg) = mute d := by
  unfold Dev.sendVia
  split
  · split <;> simp
  · simp

theorem mute_originate (d : Dev) (n : Nat) (x : Session) (ty flags : Nat) (p : List Byte) :
    mute (d.originate n x ty flags p) = mute d := by
  unfold Dev.originate
  extract_lets x' msg
  split
  · extract_lets b
    split
    · rw [mute_send, mute_send, mute_setMbx, mute_setSession]
    · split
      · split
        · rfl
        · rw [mute_setMbx]
      · rw [mute_setMbx]
  · rw [mute_sendVia, mute_setSession]

theorem mute_sendDev (d : Dev) (n ty flags : Nat) (p : List Byte) : mute (d.sendDev n ty flags p) = mute d := by
  unfold Dev.sendDev
  split
  · split
    · exact mute_originate _ _ _ _ _ _
    · rfl
  · rfl

theorem mute_notifyTo (d : Dev) (n event time : Nat) (body : List Byte) :
    mute (d.notifyTo n event time body) = mute d := by
  unfold Dev.notifyTo
  split
  · split
    · rw [mute_sendDev, mute_setSession]
    · rfl
  · rfl

theorem mute_notify (d : Dev) (event time : Nat) (body : List Byte) : mute (d.notify event time body) = mute d := by
  refine Is05.foldl_keeps mute _ (fun d n => ?_) _ _
  split
  · split
    · exact mute_notifyTo _ _ _ _ _
    · rfl
  · rfl

/-! ### What the capture inputs are stated in -/

/-- The objects of the capture inputs, their rings and what they hold beside their objects. -/
structure Captures where
  evts : Tab EvtRt
  doms : Tab (List Byte)
  obj : Fin 25 → Fin 256 → Nat

def captures (d : Dev) : Captures := ⟨d.evts, d.doms, fun i s => d.rd (evtIdx i) s⟩

section
variable {d e : Dev} {i : Nat}

theorem captures_eq (hx : e.evts = d.evts) (hd : e.doms = d.doms)
    (ho : ∀ i s, i < 25 → s < 256 → e.rd (evtIdx i) s = d.rd (evtIdx i) s) : captures e = captures d := by
  simp only [captures, Captures.mk.injEq]
  exact ⟨hx, hd, funext fun i => funext fun s => ho i s i.2 s.2⟩

theorem rd_of_captures (h : captures e = captures d) (hi : i < 25) {s : Nat} (hs : s < 256) :
    e.rd (evtIdx i) s = d.rd (evtIdx i) s :=
  congrFun (congrFun (congrArg Captures.obj h) ⟨i, hi⟩) ⟨s, hs⟩

theorem evtBit_of_captures (h : captures e = captures d) (hi : i < 25) (b : Nat) : e.evtBit i b = d.evtBit i b := by
  rw [Dev.evtBit, Dev.evtBit, rd_of_captures h hi (by decide)]

theorem evtActive_of_captures (h : captures e = captures d) (hi : i < 25) : e.evtActive i = d.evtActive i := by
  rw [Dev.evtActive, Dev.evtActive, evtBit_of_captures h hi, rd_of_captures h hi (by decide)]

theorem evt_of_captures (h : captures e = captures d) (i : Nat) : e.evt i = d.evt i :=
  congrArg (fun c : Captures => Tab.getD c.evts i ({} : EvtRt)) h

theorem rdc_congr (h : e.doms = d.doms) (j s c : Nat) : e.rdc j s c = d.rdc j s c := by
  simp only [Dev.rdc, h]

theorem rdc_of_captures (h : captures e = captures d) (j s c : Nat) : e.rdc j s c = d.rdc j s c :=
  rdc_congr (congrArg Captures.doms h) j s c

end

theorem captures_mute (d : Dev) : captures (mute d) = captures d := rfl

theorem captures_of_mute {d e : Dev} (h : mute e = mute d) : captures e = captures d := by
  rw [← captures_mute e, h, captures_mute]

/-- A write outside the objects of the capture inputs. -/
theorem captures_wr (d : Dev) {o r : Nat} (v : Nat) (ho : o < 0x2220 ∨ 0x2238 < o) (hr : r < 256) :
    captures (d.wr o r v) = captures d :=
  captures_eq rfl rfl fun i s hi hs => Dev.rd_wr_other d (by simp only [regKey, evtIdx]; omega)

theorem captures_report (d : Dev) (r : Report) : captures (d.report r) = captures d := by
  have guard (e : Dev) {s : Nat} (v : Nat) (hs : s < 256) : captures (e.wr 0x2400 s v) = captures e :=
    captures_wr e v (by decide) hs
  unfold Dev.report
  split
  · dsimp only
    split
    · exact guard _ _ (by decide)
    · rfl
  · dsimp only
    split
    · exact (guard _ _ (by decide)).trans (guard _ _ (by decide))
    · exact guard _ _ (by decide)

theorem captures_raise (d : Dev) (unit code p1 p2 sev : Nat) : captures (d.raise unit code p1 p2 sev) = captures d :=
  (captures_report _ _).trans (captures_of_mute (mute_notify _ _ _ _))

/-- A fold over numbers keeps what each of its steps keeps. -/
theorem foldNat_keeps {σ γ : Type} (g : σ → γ) (f : σ → Nat → σ) (h : ∀ a k, g (f a k) = g a) (n : Nat)
    (a : σ) : g (foldNat f n a) = g a := by
  induction n with
  | zero => rfl
  | succ n ih => exact (h _ _).trans ih

theorem captures_send (d : Dev) (o : Out) : captures (d.send o) = captures d := rfl
theorem captures_setDue (d : Dev) (e t : Nat) : captures (d.setDue e t) = captures d := rfl

/-- The launches of a capture leave the capture inputs alone. -/
theorem captures_evtLaunch (d : Dev) (i at_ : Nat) : captures (d.evtLaunch i at_) = captures d := by
  have entry (e : Dev) (k : Nat) {s : Nat} (v : Nat) (hs : s < 256) :
      captures (e.wr (launchIdx k) s v) = captures e :=
    captures_wr e v (by simp only [launchIdx]; omega) hs
  refine foldNat_keeps captures _ (fun e k => ?_) _ _
  extract_lets o kind due e'
  split
  · rfl
  · split
    · split
      · rfl
      · have armed : captures e' = captures e := (entry _ _ _ (by decide)).trans (captures_setDue _ _ _)
        split
        · rw [captures_send, armed]
        · exact armed
    · split
      · exact (captures_raise _ _ _ _ _ _).trans (entry _ _ _ (by decide))
      · rfl

theorem report_queue {d : Dev} (r : Report) (h : d.queue.length < 64) : (d.report r).queue = d.queue ++ [r] := by
  unfold Dev.report
  rw [if_pos h]
  dsimp only
  split <;> rfl

/-! ### The operations of a capture input -/

@[simp] theorem rdc_wr (d : Dev) (i s v j r c : Nat) : (d.wr i s v).rdc j r c = d.rdc j r c := rfl
@[simp] theorem evt_wr (d : Dev) (i s v k : Nat) : (d.wr i s v).evt k = d.evt k := rfl
@[simp] theorem evt_wrc (d : Dev) (i s c : Nat) (v : List Byte) (k : Nat) : (d.wrc i s c v).evt k = d.evt k := rfl
@[simp] theorem rd_wrc (d : Dev) (i s c : Nat) (v : List Byte) (j r : Nat) : (d.wrc i s c v).rd j r = d.rd j r := rfl

/-- A write of one object leaves the other subs of its index alone. -/
theorem rd_wr_sub (d : Dev) (i v : Nat) {s r : Nat} (h : r ≠ s) : (d.wr i s v).rd i r = d.rd i r :=
  Dev.rd_wr_other d (by simp only [regKey]; omega)

@[simp] theorem evtBit_setEvtBit (d : Dev) (i b c : Nat) (v : Bool) :
    (d.setEvtBit i b v).evtBit i c = if c = b then v else d.evtBit i c := by
  rw [Dev.evtBit, Dev.setEvtBit, Dev.rd_wr_same, testBit_setBit, Dev.evtBit]

theorem rd_setEvtBit (d : Dev) (i b : Nat) (v : Bool) {s : Nat} (h : s ≠ 0x0C) :
    (d.setEvtBit i b v).rd (evtIdx i) s = d.rd (evtIdx i) s :=
  rd_wr_sub d _ _ h

@[simp] theorem evt_setEvtBit (d : Dev) (i b k : Nat) (v : Bool) : (d.setEvtBit i b v).evt k = d.evt k := rfl
@[simp] theorem rdc_setEvtBit (d : Dev) (i b : Nat) (v : Bool) (j s c : Nat) :
    (d.setEvtBit i b v).rdc j s c = d.rdc j s c := rfl
@[simp] theorem queue_setEvtBit (d : Dev) (i b : Nat) (v : Bool) : (d.setEvtBit i b v).queue = d.queue := rfl

@[simp] theorem evt_setEvt (d : Dev) (i : Nat) (x : EvtRt) : (d.setEvt i x).evt i = x := Tab.getD_setD_same _ _ _ _
@[simp] theorem rd_setEvt (d : Dev) (i : Nat) (x : EvtRt) (j s : Nat) : (d.setEvt i x).rd j s = d.rd j s := rfl
@[simp] theorem evtBit_setEvt (d : Dev) (i : Nat) (x : EvtRt) (k b : Nat) :
    (d.setEvt i x).evtBit k b = d.evtBit k b := rfl
@[simp] theorem rdc_setEvt (d : Dev) (i : Nat) (x : EvtRt) (j s c : Nat) :
    (d.setEvt i x).rdc j s c = d.rdc j s c := rfl

section
variable (d : Dev) (i at_ edge flags : Nat)

theorem newRecord_ring : (d.newRecord i at_ edge flags).rdc (evtIdx i) 8 (d.rd (evtIdx i) 9 % 256) =
    leBytes 10 (time48 at_) ++ [BitVec.ofNat 8 edge, BitVec.ofNat 8 flags] ++ [0, 0] ++ [0, 0] := by
  unfold Dev.newRecord
  rw [rdc_wr, rdc_wr, Dev.rdc_wrc_same, evtRecord_bytes]

theorem newRecord_count : (d.newRecord i at_ edge flags).rd (evtIdx i) 9 = (d.rd (evtIdx i) 9 + 1) % 2 ^ 64 := by
  unfold Dev.newRecord
  rw [rd_wr_sub _ _ _ (by decide), Dev.rd_wr_same]

theorem newRecord_time : (d.newRecord i at_ edge flags).rd (evtIdx i) 0x0A = time48 at_ := by
  unfold Dev.newRecord
  rw [Dev.rd_wr_same]

theorem newRecord_rd {s : Nat} (h9 : s ≠ 9) (hA : s ≠ 0x0A) :
    (d.newRecord i at_ edge flags).rd (evtIdx i) s = d.rd (evtIdx i) s := by
  unfold Dev.newRecord
  rw [rd_wr_sub _ _ _ hA, rd_wr_sub _ _ _ h9, rd_wrc]

@[simp] theorem newRecord_evtBit (b : Nat) : (d.newRecord i at_ edge flags).evtBit i b = d.evtBit i b := by
  rw [Dev.evtBit, newRecord_rd _ _ _ _ _ (by decide) (by decide), Dev.evtBit]

@[simp] theorem newRecord_evt (k : Nat) : (d.newRecord i at_ edge flags).evt k = d.evt k := by
  unfold Dev.newRecord
  rw [evt_wr, evt_wr, evt_wrc]

@[simp] theorem newRecord_queue : (d.newRecord i at_ edge flags).queue = d.queue := by
  unfold Dev.newRecord
  rw [Dev.wr_queue, Dev.wr_queue, Dev.wrc_queue]

end

section
variable (d : Dev) (i : Nat)

theorem mergeEdge_ring : (d.mergeEdge i).rdc (evtIdx i) 8 ((d.rd (evtIdx i) 9 - 1) % 256) =
    mergedRecord (padTo 16 (d.rdc (evtIdx i) 8 ((d.rd (evtIdx i) 9 - 1) % 256))) := by
  unfold Dev.mergeEdge
  rw [rdc_setEvt, rdc_setEvtBit, Dev.rdc_wrc_same, mergedRecord]

theorem mergeEdge_count : (d.mergeEdge i).rd (evtIdx i) 9 = d.rd (evtIdx i) 9 := by
  unfold Dev.mergeEdge
  rw [rd_setEvt, rd_setEvtBit _ _ _ _ (by decide), rd_wrc]

theorem mergeEdge_flag : (d.mergeEdge i).evtBit i 2 = true := by
  unfold Dev.mergeEdge
  rw [evtBit_setEvt, evtBit_setEvtBit, if_pos rfl]

theorem mergeEdge_merged : ((d.mergeEdge i).evt i).merged = (d.evt i).merged + 1 := by
  unfold Dev.mergeEdge
  rw [evt_setEvt]

end

/-! ### An edge -/

/-- The device with an accepted level of an input, in which the rising edge of PPS_IN has told its offset (R266,
R267). -/
def accepted (d : Dev) (i : Nat) (level : Bool) (at_ : Nat) : Dev :=
  let e := (d.setEvtBit i 0 level).setEvt i { d.evt i with since := at_ }
  if i = 24 ∧ level then e.wr 0x2238 0x0D (ofSigned 32 (ppsOffset (at_ - at_ % 2))) else e

/-- The device with a new record of an edge, before its launches (R266). -/
def recorded (d : Dev) (i at_ : Nat) (level : Bool) : Dev :=
  let e := (d.newRecord i at_ (if level then 0 else 1) 0).setEvtBit i 2 false
  e.setEvt i { e.evt i with resumed := false, inTick := (e.evt i).inTick + 1 }

section
variable (d : Dev) (i : Nat) (level : Bool) (at_ : Nat)

/-- The offset of PPS_IN is an object of input 24. -/
theorem accepted_rd_of_level {s : Nat} (h : s ≠ 0x0D) :
    (accepted d i level at_).rd (evtIdx i) s = (d.setEvtBit i 0 level).rd (evtIdx i) s := by
  unfold accepted
  dsimp only
  split
  case isTrue hpps =>
    obtain ⟨rfl, -⟩ := hpps
    exact rd_wr_sub _ _ _ h
  case isFalse => rfl

theorem accepted_rd {s : Nat} (hC : s ≠ 0x0C) (hD : s ≠ 0x0D) :
    (accepted d i level at_).rd (evtIdx i) s = d.rd (evtIdx i) s :=
  (accepted_rd_of_level d i level at_ hD).trans (rd_setEvtBit d i 0 level hC)

theorem accepted_level : (accepted d i level at_).evtBit i 0 = level := by
  rw [Dev.evtBit, accepted_rd_of_level d i level at_ (by decide)]
  exact (evtBit_setEvtBit d i 0 0 level).trans (if_pos rfl)

theorem accepted_evt : (accepted d i level at_).evt i = { d.evt i with since := at_ } := by
  unfold accepted
  dsimp only
  split
  · rw [evt_wr, evt_setEvt]
  · rw [evt_setEvt]

theorem accepted_rdc (j s c : Nat) : (accepted d i level at_).rdc j s c = d.rdc j s c := by
  unfold accepted
  dsimp only
  split
  · rw [rdc_wr, rdc_setEvt, rdc_setEvtBit]
  · rw [rdc_setEvt, rdc_setEvtBit]

theorem accepted_merges (a : Nat) : (accepted d i level at_).evtMerges i a = d.evtMerges i a := by
  rw [Dev.evtMerges, accepted_evt, accepted_rd d i level at_ (by decide) (by decide),
    accepted_rd d i level at_ (by decide) (by decide), Dev.evtMerges]

theorem recorded_ring : (recorded d i at_ level).rdc (evtIdx i) 8 (d.rd (evtIdx i) 9 % 256) =
    leBytes 10 (time48 at_) ++ [if level then 0 else 1, 0] ++ [0, 0] ++ [0, 0] := by
  rw [recorded, rdc_setEvt, rdc_setEvtBit, newRecord_ring, edgeByte]
  rfl

theorem recorded_rd {s : Nat} (h : s ≠ 0x0C) :
    (recorded d i at_ level).rd (evtIdx i) s = (d.newRecord i at_ (if level then 0 else 1) 0).rd (evtIdx i) s := by
  rw [recorded, rd_setEvt, rd_setEvtBit _ _ _ _ h]

theorem recorded_evtBit (b : Nat) :
    (recorded d i at_ level).evtBit i b = if b = 2 then false else d.evtBit i b := by
  rw [recorded, evtBit_setEvt, evtBit_setEvtBit, newRecord_evtBit]

theorem recorded_evt : (recorded d i at_ level).evt i =
    { d.evt i with resumed := false, inTick := (d.evt i).inTick + 1 } := by
  rw [recorded, evt_setEvt, evt_setEvtBit, newRecord_evt]

/-- A capture merges or makes a new record, which then launches (R266, R406). -/
theorem evtCapture_accepted :
    ((d.setEvtBit i 0 level).setEvt i { d.evt i with since := at_ }).evtCapture i (at_ - at_ % 2) level =
      if d.evtMerges i (at_ - at_ % 2) then (accepted d i level at_).mergeEdge i
      else (recorded (accepted d i level at_) i (at_ - at_ % 2) level).evtLaunch i (at_ - at_ % 2) := by
  rw [← accepted_merges d i level at_]
  rfl

end

section
variable {d : Dev} {i at_ : Nat} {level : Bool}

theorem not_disabled (he : d.rdb (evtIdx i) 1 = true) (hi : i < 25) :
    ¬ ((!d.rdb (evtIdx i) 1) = true ∨ 24 < i) := by
  simp only [he, Bool.not_true, Bool.false_eq_true, false_or]
  omega

theorem evtEdge_short (he : d.rdb (evtIdx i) 1 = true) (hi : i < 25) (hf : d.now < at_ + d.rd (evtIdx i) 3) :
    d.evtEdge i level at_ = d.incf (evtIdx i) 0x0B 0 := by
  rw [Dev.evtEdge, if_neg (not_disabled he hi), if_pos hf]

/-- An accepted edge of the selected polarity is captured. -/
theorem evtEdge_captured (he : d.rdb (evtIdx i) 1 = true) (hi : i < 25) (hf : at_ + d.rd (evtIdx i) 3 ≤ d.now)
    (hs : d.evtBit i 1 = false) (hp : (d.rd (evtIdx i) 2).testBit (if level then 0 else 1) = true) :
    d.evtEdge i level at_ =
      if d.evtMerges i (at_ - at_ % 2) then (accepted d i level at_).mergeEdge i
      else (recorded (accepted d i level at_) i (at_ - at_ % 2) level).evtLaunch i (at_ - at_ % 2) := by
  have selected : (((d.setEvtBit i 0 level).setEvt i { d.evt i with since := at_ }).rd (evtIdx i) 2).testBit
      (if level then 0 else 1) = true := by
    rwa [rd_setEvt, rd_setEvtBit _ _ _ _ (by decide)]
  rw [Dev.evtEdge, if_neg (not_disabled he hi), if_neg (Nat.not_lt.mpr hf), if_neg (by simp [hs])]
  dsimp only
  rw [if_pos selected, evtCapture_accepted]

end

/-! ### The end of a second with merged edges -/

/-- A report of an input (Table 18.10). -/
def inputReport (code i p2 sev t : Nat) : Report :=
  { unit := uTime, code := code, p1 := i, p2 := p2, sev := sev, time := t }

/-- The device with the merged edges of a second reported, the input no longer told as merging unless an edge would
still merge (R406). -/
def secondEnded (d : Dev) (i : Nat) : Dev :=
  let e := (d.report (inputReport 0x1204 i ((d.evt i).merged % 2 ^ 32) sevInfo d.now)).setEvt i
    { d.evt i with merged := 0, mergeFrom := 0 }
  if e.evtMerges i e.now then e else e.setEvtBit i 2 false

section
variable (d : Dev) (i : Nat)

theorem secondEnded_evt : (secondEnded d i).evt i = { d.evt i with merged := 0, mergeFrom := 0 } := by
  unfold secondEnded
  dsimp only
  split <;> simp

theorem secondEnded_ring (j s : Nat) : (secondEnded d i).rdc j s = d.rdc j s := by
  funext c
  unfold secondEnded
  dsimp only
  split
  · rw [rdc_setEvt, rdc_of_captures (captures_report _ _)]
  · rw [rdc_setEvtBit, rdc_setEvt, rdc_of_captures (captures_report _ _)]

theorem secondEnded_queue (h : d.queue.length < 64) : (secondEnded d i).queue = d.queue ++
    [inputReport 0x1204 i ((d.evt i).merged % 2 ^ 32) sevInfo d.now] := by
  unfold secondEnded
  dsimp only
  split
  · rw [Dev.setEvt_queue, report_queue _ h]
  · rw [queue_setEvtBit, Dev.setEvt_queue, report_queue _ h]

end

/-! ### A stuck input -/

/-- The device with the stuck record of an input, before its report (R407). -/
def stuck (d : Dev) (i : Nat) : Dev :=
  (d.newRecord i ((d.evt i).since + d.rd (evtIdx i) 6 * 1000000) (if d.evtBit i 0 then 0 else 1) 2).setEvtBit i 1 true

section
variable (d : Dev) (i : Nat)

theorem stuck_now : (stuck d i).now = d.now := by
  unfold stuck Dev.setEvtBit Dev.newRecord
  rw [Dev.wr_now, Dev.wr_now, Dev.wr_now, Dev.wrc_now]

theorem stuck_rd {s : Nat} (h9 : s ≠ 9) (hA : s ≠ 0x0A) (hC : s ≠ 0x0C) :
    (stuck d i).rd (evtIdx i) s = d.rd (evtIdx i) s :=
  (rd_setEvtBit _ _ _ _ hC).trans (newRecord_rd _ _ _ _ _ h9 hA)

theorem stuck_ring : (stuck d i).rdc (evtIdx i) 8 (d.rd (evtIdx i) 9 % 256) =
    leBytes 10 (time48 ((d.evt i).since + d.rd (evtIdx i) 6 * 1000000)) ++ [if d.evtBit i 0 then 0 else 1, 2] ++
      [0, 0] ++ [0, 0] := by
  rw [stuck, rdc_setEvtBit, newRecord_ring, edgeByte]
  rfl

theorem stuck_flag : (stuck d i).evtBit i 1 = true := by
  rw [stuck, evtBit_setEvtBit, if_pos rfl]

theorem stuck_count : (stuck d i).rd (evtIdx i) 9 = (d.rd (evtIdx i) 9 + 1) % 2 ^ 64 := by
  rw [stuck, rd_setEvtBit _ _ _ _ (by decide), newRecord_count]

theorem stuck_queue : (stuck d i).queue = d.queue := by
  rw [stuck, queue_setEvtBit, newRecord_queue]

end

/-- An input that holds its active level for its stuck time gets its stuck record and is reported (R407). -/
theorem evtStuck_of_held {d : Dev} {i : Nat} (he : d.rdb (evtIdx i) 1 = true) (hs : d.evtBit i 1 = false)
    (ha : d.evtActive i = true) (ht : (d.evt i).since + d.rd (evtIdx i) 6 * 1000000 ≤ d.now) :
    d.evtStuck i = (stuck d i).report (inputReport 0x1205 i (d.rd (evtIdx i) 6) sevDegraded d.now) := by
  rw [← stuck_now d i, ← stuck_rd d i (s := 6) (by decide) (by decide) (by decide), Dev.evtStuck,
    if_pos ⟨he, by simp [hs], ha, ht⟩]
  rfl

/-! ### A release -/

/-- How long a released input was active. -/
def activeFor (d : Dev) (i : Nat) : Nat := d.now - d.rd (evtIdx i) 3 - (d.evt i).since

/-- A time in ns as whole ms, the nearest ones, as a 32-bit parameter holds it. -/
def nearestMs (ns : Nat) : Nat := min ((2 * ns + 1000000) / 2000000) (2 ^ 32 - 1)

/-- The device with an input released, before its report (R407). -/
def released (d : Dev) (i : Nat) : Dev :=
  ((d.setEvtBit i 1 false).setEvtBit i 0 (d.rd (evtIdx i) 5 == 0)).setEvt i
    { d.evt i with since := d.now - d.rd (evtIdx i) 3, resumed := true }

theorem nearestMs_bounds {ns : Nat} (h : ns < 10 ^ 15) :
    nearestMs ns * 1000000 ≤ ns + 500000 ∧ ns ≤ nearestMs ns * 1000000 + 500000 := by
  unfold nearestMs
  omega

section
variable (d : Dev) (i : Nat)

theorem released_rd {s : Nat} (h : s ≠ 0x0C) :
    (released d i).rd (evtIdx i) s = d.rd (evtIdx i) s := by
  rw [released, rd_setEvt, rd_setEvtBit _ _ _ _ h, rd_setEvtBit _ _ _ _ h]

theorem released_evtBit (b : Nat) : (released d i).evtBit i b =
    if b = 0 then d.rd (evtIdx i) 5 == 0 else if b = 1 then false else d.evtBit i b := by
  rw [released, evtBit_setEvt, evtBit_setEvtBit, evtBit_setEvtBit]

theorem released_inactive (h : d.rd (evtIdx i) 5 < 2) : (released d i).evtActive i = false := by
  rw [Dev.evtActive, released_evtBit, if_pos rfl, released_rd d i (by decide)]
  obtain h0 | h1 : d.rd (evtIdx i) 5 = 0 ∨ d.rd (evtIdx i) 5 = 1 := by omega
  · rw [h0]
    rfl
  · rw [h1]
    rfl

end

theorem evtReleased_of_stuck {d : Dev} {i : Nat} (hs : d.evtBit i 1 = true) : d.evtReleased i =
    (released d i).report (inputReport 0x1206 i (nearestMs (activeFor d i)) sevInfo d.now) := by
  rw [Dev.evtReleased, if_pos hs]
  rfl

/-! ### The commands -/

theorem exec_evtEdge (t i : Nat) (level : Bool) (at_ : Nat) (s : State) :
    exec (.evtEdge t i level at_) s = execEvtEdge t i level at_ s := by
  rfl

theorem exec_evtMerging (t i : Nat) (s : State) : exec (.evtMerging t i) s = execEvtMerging t i s := by
  rfl

theorem exec_evtStuck (t i : Nat) (s : State) : exec (.evtStuck t i) s = execEvtStuck t i s := by
  rfl

theorem exec_evtReleased (t i : Nat) (s : State) : exec (.evtReleased t i) s = execEvtReleased t i s := by
  rfl

section
variable {s : State} {t : Nat} (i : Nat) (h : (s.found t).alive = true)
include h

theorem exec_evtEdge_alive (level : Bool) (at_ : Nat) :
    exec (.evtEdge t i level at_) s = .next { s with dev := (s.found t).evtEdge i level at_ } := by
  rw [exec_evtEdge, execEvtEdge, onDev_alive h]

theorem exec_evtMerging_of_merged (hm : ((s.found t).evt i).merged ≠ 0) :
    exec (.evtMerging t i) s = .next { s with dev := secondEnded (s.found t) i } := by
  rw [exec_evtMerging, execEvtMerging, onDev_alive h]
  dsimp only
  rw [if_neg hm]
  rfl

theorem exec_evtStuck_alive :
    exec (.evtStuck t i) s = .next { s with dev := (s.found t).evtStuck i } := by
  rw [exec_evtStuck, execEvtStuck, onDev_alive h]

theorem exec_evtReleased_alive :
    exec (.evtReleased t i) s = .next { s with dev := (s.found t).evtReleased i } := by
  rw [exec_evtReleased, execEvtReleased, onDev_alive h]

end

end Sys2Proof.Machine.EventInputs

open Sys2Proof Sys2Proof.Machine Sys2Proof.Machine.EventInputs in
/-- Settles O43: an edge is counted, merged or recorded, and what the launches, notifications and reports around the
input change is not what it is read through. -/
theorem eventInputsCapture : Obligations.EventInputsCapture := by
  intro s t i at_ level d j n x halive hi
  refine ⟨fun he hf => ?short, fun he hf hs hp => ⟨fun hm => ?newRecord, fun hm => ?merged⟩, fun hm => ?second,
    fun he hs ha ht => ?stuckInput, fun hs hpol => ?released⟩
  case short => rw [exec_evtEdge_alive i halive, evtEdge_short he hi hf]
  case newRecord =>
    have run := exec_evtEdge_alive i halive level at_
    rw [evtEdge_captured he hi hf hs hp, if_neg (by simpa using hm)] at run
    have launched := captures_evtLaunch (recorded (accepted d i level at_) i (at_ - at_ % 2) level) i (at_ - at_ % 2)
    have hn : (accepted d i level at_).rd j 9 = n := accepted_rd d i level at_ (by decide) (by decide)
    refine ⟨_, run, rfl, ?_, ?_, ?_, ?_, ?_, ?_, ?_⟩
    · rw [rdc_of_captures launched, ← hn, recorded_ring]
    · rw [rd_of_captures launched hi (by decide), recorded_rd _ _ _ _ (by decide), newRecord_count, hn]
    · rw [rd_of_captures launched hi (by decide), recorded_rd _ _ _ _ (by decide), newRecord_time]
    · rw [evtBit_of_captures launched hi, recorded_evtBit, if_neg (by decide), accepted_level]
    · rw [evtBit_of_captures launched hi, recorded_evtBit, if_pos rfl]
    · rw [evt_of_captures launched, recorded_evt, accepted_evt]
    · rw [evt_of_captures launched, recorded_evt, accepted_evt]
  case merged =>
    have run := exec_evtEdge_alive i halive level at_
    rw [evtEdge_captured he hi hf hs hp, if_pos hm] at run
    have hn : (accepted d i level at_).rd j 9 = n := accepted_rd d i level at_ (by decide) (by decide)
    have ring := mergeEdge_ring (accepted d i level at_) i
    rw [hn, accepted_rdc] at ring
    refine ⟨_, run, rfl, ?_, mergeEdge_flag _ _, ?_, ?_, ?_⟩
    · rw [mergeEdge_count, hn]
    · rw [mergeEdge_merged, accepted_evt]
    · rw [ring, mergedRecord_flag]
    · rw [ring, mergedRecord_count]
  case second =>
    refine ⟨_, exec_evtMerging_of_merged i halive hm, rfl, ?_, secondEnded_ring d i j 8, secondEnded_queue d i⟩
    rw [secondEnded_evt]
  case stuckInput =>
    have run := exec_evtStuck_alive i halive
    rw [evtStuck_of_held he hs ha ht] at run
    refine ⟨_, run, rfl, ?_, ?_, ?_, fun hq => ?_⟩
    · rw [evtBit_of_captures (captures_report _ _) hi, stuck_flag]
    · rw [rd_of_captures (captures_report _ _) hi (by decide), stuck_count]
    · rw [rdc_of_captures (captures_report _ _), stuck_ring]
    · rw [← stuck_queue d i] at hq ⊢
      exact report_queue _ hq
  case released =>
    have run := exec_evtReleased_alive i halive
    rw [evtReleased_of_stuck hs] at run
    refine ⟨_, run, rfl, ?_, ?_, ?_, fun hq => ⟨_, report_queue _ hq, nearestMs_bounds⟩⟩
    · rw [evtBit_of_captures (captures_report _ _) hi, released_evtBit, if_neg (by decide), if_pos rfl]
    · rw [evtActive_of_captures (captures_report _ _) hi, released_inactive d i hpol]
    · rw [rd_of_captures (captures_report _ _) hi (by decide), released_rd d i (by decide)]
end

section
/-! O44: what an output port plays in the frames whose source position would lie before position 0 (R282, R283). -/
namespace Sys2Proof.Machine.AudioPorts

/-- In a frame earlier than its playout delay an output port has no source position: its left source, whatever it
holds, gives a zero sample, which is counted (R282, R283). -/
theorem audPlay_zeros_of_lt_delay {d : Dev} {a n : Nat} (hl : d.rd (audIdx a) 7 ≠ 0xFF) (hr : d.rd (audIdx a) 8 = 0xFF)
    (hn : n < d.rd (audIdx a) 9) : ((d.audPlay a n).audPort a).zeros = (d.audPort a).zeros + 1 := by
  have played : d.audPlay a n = (d.setAudPort a { d.audPort a with zeros := (d.audPort a).zeros + 1 }).send
      (.pin ("AUD" ++ decStr a ++ "_SD") (n :: (audSlots (d.rd (audIdx a) 4) 0 0).1)) := by
    simp [Dev.audPlay, hl, hr, hn]
  rw [played]
  exact congrArg AudPort.zeros (Tab.getD_setD_same _ _ _ _)

/-- A frame of a running output port that is a clock master. -/
theorem audioFrame_of_output {d : Dev} {a l r bclks : Nat} (hs : d.audState a = 2) (ho : d.rd (audIdx a) 2 ≠ 0)
    (hm : d.rd (audIdx a) 5 = 0) (hf : (d.audPort a).from_ ≤ audFramePos (d.audPortHz a) d.now) :
    d.audioFrame a l r bclks = d.audPlay a (audFramePos (d.audPortHz a) d.now) := by
  have hfrom : ¬ audFramePos (d.audPortHz a) d.now < (d.audPort a).from_ := by omega
  simp [Dev.audioFrame, Dev.audInput, hs, ho, hm, hfrom]

/-- A device in Run whose port AUD0 is a running output: its left source is channel 32, its right source is none, and
its playout delay is 96 samples. Channel 32 holds a sample at position 0. -/
def earlyOutput : State :=
  { dev := (((((({ pwr := { state := 0, resetLow := false } } : Dev).wr (audIdx 0) 2 1).wr (audIdx 0) 7 32).wr
      (audIdx 0) 8 0xFF).wr (audIdx 0) 9 96).wr (audIdx 0) 0x0A 2).audWrite 32 0 77 }

theorem exec_audioFrame (t a l r bclks : Nat) (s : State) :
    exec (.audioFrame t a l r bclks) s = execAudioFrame t a l r bclks s := by
  rfl

/-- At 1 ms, in frame 48, the port plays a zero and counts it. -/
theorem exec_audioFrame_earlyOutput (l r bclks : Nat) : ∃ u,
    exec (.audioFrame 1000000 0 l r bclks) earlyOutput = .next u ∧
    (u.dev.audPort 0).zeros = ((earlyOutput.found 1000000).audPort 0).zeros + 1 := by
  refine ⟨_, (exec_audioFrame _ _ _ _ _ _).trans (onDev_alive (by decide)), ?_⟩
  dsimp only
  rw [audioFrame_of_output (by decide) (by decide) (by decide) (by decide)]
  exact audPlay_zeros_of_lt_delay (by decide) (by decide) (by decide)

end Sys2Proof.Machine.AudioPorts

open Sys2Proof Sys2Proof.Machine Sys2Proof.Machine.AudioPorts in
/-- Refutes O44: the clause on output ports has no premise that the frame lies a playout delay after position 0, and
its difference of positions is 0 in an earlier frame. A source that holds a sample at position 0 is then read by the
clause and not by the port, which has no position to play (R282). -/
theorem not_audioPortsAndGroupsComplete : ¬ Obligations.AudioPortsAndGroupsComplete := by
  intro h
  obtain ⟨frames, -⟩ := h earlyOutput 1000000 0 0 0 0 0 0 ⟨0, 4⟩
  obtain ⟨-, plays⟩ := frames (by decide) (by decide) (by decide)
  obtain ⟨u, hu, -, -, written, -⟩ := plays (by decide) (by decide) (by decide)
  have sample : (earlyOutput.found 1000000).audRead 32 (48 - 96) = some 77 := by decide
  obtain ⟨-, kept⟩ := written 77 sample
  obtain ⟨v, hv, counted⟩ := exec_audioFrame_earlyOutput 0 0 0
  obtain rfl : u = v := Host.Outcome.next.inj (hu.symm.trans hv)
  omega
end

section
/-! O45: what the packets and the PES of a receive stream write and leave alone, what a send stream sends, and what the
counter reset clears (R276, R283 to R287). -/
namespace Sys2Proof.Machine.AudioStreams

/-! ### What an event and its report leave alone -/

/-- An event changes nothing but what its notification travels through. -/
theorem mute_event (d : Dev) (unit code p1 p2 : Nat) :
    EventInputs.mute (d.event unit code p1 p2) = EventInputs.mute d :=
  EventInputs.mute_notify _ _ _ _

theorem rdf_mute (d : Dev) (i s f : Nat) : (EventInputs.mute d).rdf i s f = d.rdf i s f := rfl

theorem event_rdf (d : Dev) (unit code p1 p2 i s f : Nat) :
    (d.event unit code p1 p2).rdf i s f = d.rdf i s f := by
  rw [← rdf_mute (d.event unit code p1 p2), mute_event, rdf_mute]

/-- A report writes no object but those of the guardian pair. -/
theorem report_rdf (d : Dev) (r : Report) {i s f : Nat} (hi : i ≠ 0x2400) (hs : s < 256) (hf : f < 65536) :
    (d.report r).rdf i s f = d.rdf i s f := by
  have guard (e : Dev) {o v : Nat} (ho : o < 256) : (e.wr 0x2400 o v).rdf i s f = e.rdf i s f :=
    Dev.rdf_wrf_other e fun h => hi (regKey_inj hs ho hf (by decide) h).1
  unfold Dev.report
  split
  · dsimp only
    split
    · exact guard _ (by decide)
    · rfl
  · dsimp only
    split
    · exact (guard _ (by decide)).trans (guard _ (by decide))
    · exact guard _ (by decide)

theorem raise_rdf (d : Dev) (unit code p1 p2 sev : Nat) {i s f : Nat} (hi : i ≠ 0x2400) (hs : s < 256)
    (hf : f < 65536) : (d.raise unit code p1 p2 sev).rdf i s f = d.rdf i s f :=
  (report_rdf _ _ hi hs hf).trans (event_rdf _ _ _ _ _ _ _ _)

/-- What samples are written and read through: the audio block, what is known of the HBM's words, and the time. -/
structure Rings where
  aud : AudRt
  words : Tab Nat
  pcs : Tab PcRt
  now : Nat

def rings (d : Dev) : Rings := ⟨d.aud, d.words, d.pcs, d.now⟩

theorem rings_mute (d : Dev) : rings (EventInputs.mute d) = rings d := rfl

theorem rings_event (d : Dev) (unit code p1 p2 : Nat) : rings (d.event unit code p1 p2) = rings d := by
  rw [← rings_mute (d.event unit code p1 p2), mute_event, rings_mute]

theorem rings_wr (d : Dev) (i s v : Nat) : rings (d.wr i s v) = rings d := rfl
theorem rings_addf (d : Dev) (i s f n w : Nat) : rings (d.addf i s f n w) = rings d := rfl

theorem rings_report (d : Dev) (r : Report) : rings (d.report r) = rings d := by
  unfold Dev.report
  split
  · dsimp only
    split
    · exact rings_wr _ _ _ _
    · rfl
  · dsimp only
    split
    · exact (rings_wr _ _ _ _).trans (rings_wr _ _ _ _)
    · exact rings_wr _ _ _ _

theorem rings_raise (d : Dev) (unit code p1 p2 sev : Nat) : rings (d.raise unit code p1 p2 sev) = rings d :=
  (rings_report _ _).trans (rings_event _ _ _ _ _)

section
variable {d e : Dev}

theorem poisonedAt_of_rings (h : rings e = rings d) : e.poisonedAt = d.poisonedAt := by
  obtain ⟨-, hw, hp, -⟩ := Rings.mk.inj h
  funext w
  unfold Dev.poisonedAt Dev.wordState Dev.pc
  rw [hw, hp]

theorem aud_of_rings (h : rings e = rings d) : e.aud = d.aud := congrArg Rings.aud h

theorem now_of_rings (h : rings e = rings d) : e.now = d.now := congrArg Rings.now h

theorem audIn_of_rings (h : rings e = rings d) (st : Nat) : e.audIn st = d.audIn st := by
  unfold Dev.audIn
  rw [aud_of_rings h]

end

/-! ### One sample and one frame (R276, R284) -/

theorem audRead_audWrite_same (d : Dev) (ch pos v : Nat) : (d.audWrite ch pos v).audRead ch pos =
    if d.poisonedAt (fun _ => Config.audioWord ch (pos % 65536)) then none else some (v % 2 ^ 24) := by
  have held : Tab.getD (d.audWrite ch pos v).aud.rings (ringKey ch pos) (0, 0) = (pos + 1, v % 2 ^ 24) := by
    simp [Dev.audWrite]
  have health : (d.audWrite ch pos v).poisonedAt = d.poisonedAt := rfl
  simp only [Dev.audRead, held, health, true_and, Bool.not_eq_true']
  split <;> simp_all

theorem audRead_audWrite_other (d : Dev) {ch pos c q : Nat} (v : Nat) (h : ringKey c q ≠ ringKey ch pos) :
    (d.audWrite ch pos v).audRead c q = d.audRead c q := by
  have held : Tab.getD (d.audWrite ch pos v).aud.rings (ringKey c q) (0, 0) =
      Tab.getD d.aud.rings (ringKey c q) (0, 0) := by
    simp only [Dev.audWrite, Tab.getD_setD_other _ _ _ _ h]
  have health : (d.audWrite ch pos v).poisonedAt = d.poisonedAt := rfl
  simp only [Dev.audRead, held, health]

/-- A pair that is not muted and carries no preamble stays so. -/
theorem audPair_of_clear {d : Dev} {ch l r : Nat} (hm : Tab.getD d.aud.mute ch 0 = 0) (hp : burstPreamble l r = false) :
    d.audPair ch l r = d := by
  simp [Dev.audPair, hm, hp]

/-- The device with the two samples of a pair written at a position. -/
def pairWritten (d : Dev) (f pos l r : Nat) : Dev := (d.audWrite f pos l).audWrite (f + 1) pos r

/-- A frame of one pair that is not muted and carries no preamble is its two samples. -/
theorem audFrame_of_clear_pair {d : Dev} {f l r : Nat} (pos : Nat) (hm : Tab.getD d.aud.mute f 0 = 0)
    (hp : burstPreamble l r = false) :
    d.audFrame f pos [l, r] = pairWritten d f pos l r := by
  have pair : ((d.audWrite f pos l).audWrite (f + 1) pos r).audPair f l r = pairWritten d f pos l r :=
    audPair_of_clear hm hp
  simpa [Dev.audFrame, Dev.audMuted, foldNat, hm, hp] using pair

theorem audRead_pairWritten (d : Dev) (f pos l r : Nat) :
    (pairWritten d f pos l r).audRead f pos =
      (if d.poisonedAt (fun _ => Config.audioWord f (pos % 65536)) then none else some (l % 2 ^ 24)) ∧
    (pairWritten d f pos l r).audRead (f + 1) pos =
      (if d.poisonedAt (fun _ => Config.audioWord (f + 1) (pos % 65536)) then none else some (r % 2 ^ 24)) :=
  ⟨(audRead_audWrite_other _ _ (by simp only [ringKey]; omega)).trans (audRead_audWrite_same _ _ _ _),
    audRead_audWrite_same _ _ _ _⟩

/-! ### What the writing of frames leaves alone -/

/-- What a receive stream is read through, but for the count of its policed samples. -/
structure Streams where
  ins : Tab AudIn
  obj : Fin 16 → Fin 256 → Nat
  packets : Fin 16 → Nat

def streams (d : Dev) : Streams :=
  ⟨d.aud.ins, fun st s => d.rd (recvIdx st) s, fun st => d.rdf (recvIdx st) 0x13 0⟩

section
variable {d e : Dev} {st : Nat}

/-- Objects of the receive streams that read the same, with the same records of what was received. -/
theorem streams_eq (hi : e.aud.ins = d.aud.ins)
    (ho : ∀ st s, st < 16 → s < 256 → e.rdf (recvIdx st) s 0 = d.rdf (recvIdx st) s 0) : streams e = streams d := by
  simp only [streams, Streams.mk.injEq]
  exact ⟨hi, funext fun st => funext fun s => ho st s st.2 s.2, funext fun st => ho st 0x13 st.2 (by decide)⟩

theorem audIn_of_streams (h : streams e = streams d) (st : Nat) : e.audIn st = d.audIn st :=
  congrArg (fun x : Streams => Tab.getD x.ins st ({} : AudIn)) h

theorem rd_of_streams (h : streams e = streams d) (hst : st < 16) {s : Nat} (hs : s < 256) :
    e.rd (recvIdx st) s = d.rd (recvIdx st) s :=
  congrFun (congrFun (congrArg Streams.obj h) ⟨st, hst⟩) ⟨s, hs⟩

theorem packets_of_streams (h : streams e = streams d) (hst : st < 16) :
    e.rdf (recvIdx st) 0x13 0 = d.rdf (recvIdx st) 0x13 0 :=
  congrFun (congrArg Streams.packets h) ⟨st, hst⟩

end

theorem streams_raise (d : Dev) (unit code p1 p2 sev : Nat) : streams (d.raise unit code p1 p2 sev) = streams d :=
  streams_eq (congrArg AudRt.ins (aud_of_rings (rings_raise d unit code p1 p2 sev))) fun st s _ hs =>
    raise_rdf _ _ _ _ _ _ (by simp only [recvIdx]; omega) hs (by decide)

theorem streams_audWrite (d : Dev) (ch pos v : Nat) : streams (d.audWrite ch pos v) = streams d := rfl

theorem streams_pairWritten (d : Dev) (f pos l r : Nat) : streams (pairWritten d f pos l r) = streams d := rfl

theorem streams_audPair (d : Dev) (ch l r : Nat) : streams (d.audPair ch l r) = streams d := by
  unfold Dev.audPair
  dsimp only
  split
  · split
    · exact streams_raise _ _ _ _ _ _
    · rfl
  · split
    · rfl
    · split
      · exact streams_raise _ _ _ _ _ _
      · rfl

theorem streams_audFrame (d : Dev) (f pos : Nat) (vs : List Nat) : streams (d.audFrame f pos vs) = streams d :=
  (EventInputs.foldNat_keeps streams _ (fun _ _ => streams_audPair _ _ _ _) _ _).trans
    (EventInputs.foldNat_keeps streams _ (fun _ _ => streams_audWrite _ _ _ _) _ _)

/-- The policed samples are counted in a field of their own. -/
theorem streams_policed (d : Dev) (st n : Nat) : streams (d.addf (recvIdx st) 0x13 2 n 8) = streams d :=
  streams_eq rfl fun _ _ _ hs => Dev.rdf_wrf_other d fun h => by
    have := (regKey_inj hs (by decide) (by decide) (by decide) h).2.2
    omega

theorem streams_audFrames (d : Dev) (st cur : Nat) (pos : Int) (fs : List (List Nat)) :
    streams (d.audFrames st cur pos fs) = streams d := by
  induction fs generalizing d pos with
  | nil => rfl
  | cons vs fs ih =>
    refine (ih _ _).trans ?_
    split
    · exact streams_policed _ _ _
    · exact streams_audFrame _ _ _ _

/-! ### A stream receives -/

section
variable (d : Dev) {n : Nat} (hn : n < 16)
include hn

/-- A receive stream that runs already tells nothing. -/
theorem setAudStream_running : d.setAudStream n 2 =
    if d.rd (recvIdx n) 0x12 = 2 then d else (d.wr (recvIdx n) 0x12 2).event uAudio 0x0C05 n 2 := by
  simp [Dev.setAudStream, hn]

theorem rdf_setAudStream_other {i s f : Nat} (h : regKey i s f ≠ regKey (recvIdx n) 0x12 0) :
    (d.setAudStream n 2).rdf i s f = d.rdf i s f := by
  rw [setAudStream_running d hn]
  split
  · rfl
  · exact (event_rdf _ _ _ _ _ _ _ _).trans (Dev.rdf_wrf_other d h)

theorem rd_setAudStream : (d.setAudStream n 2).rd (recvIdx n) 0x12 = 2 := by
  rw [setAudStream_running d hn]
  split
  · assumption
  · exact (event_rdf _ _ _ _ _ _ _ _).trans (Dev.rd_wr_same d _ _ _)

theorem rings_setAudStream : rings (d.setAudStream n 2) = rings d := by
  rw [setAudStream_running d hn]
  split
  · rfl
  · rw [rings_event, rings_wr]

end

/-- A receive stream counts a packet or a PES and keeps what it now holds. -/
def counted (d : Dev) (st : Nat) (x : AudIn) : Dev := (d.setAudIn st x).incf (recvIdx st) 0x13 0

/-- A receive stream runs with a packet that it has counted and `lost` more that are now known lost (R115). -/
def received (d : Dev) (st lost : Nat) (x : AudIn) : Dev :=
  ((counted d st x).addf (recvIdx st) 0x13 1 lost 8).setAudStream st 2

section
variable (d : Dev) (st : Nat) (x : AudIn)

theorem counted_audIn : (counted d st x).audIn st = x := Tab.getD_setD_same _ _ _ _

theorem counted_packets :
    (counted d st x).rdf (recvIdx st) 0x13 0 = (d.rdf (recvIdx st) 0x13 0 + 1) % 2 ^ 64 :=
  Dev.rdf_wrf_same _ _ _ _ _

theorem counted_rd {s : Nat} (hs : s < 256) (h : s ≠ 0x13) :
    (counted d st x).rd (recvIdx st) s = d.rd (recvIdx st) s :=
  Dev.rdf_wrf_other _ fun e => h (regKey_inj hs (by decide) (by decide) (by decide) e).2.1

variable {st} (hst : st < 16) (lost : Nat)
include hst

theorem rings_received : rings (received d st lost x) = rings (counted d st x) :=
  (rings_setAudStream _ hst).trans (rings_addf _ _ _ _ _ _)

theorem received_audIn : (received d st lost x).audIn st = x := by
  rw [audIn_of_rings (rings_received d x hst lost), counted_audIn]

theorem received_mute : (received d st lost x).aud.mute = d.aud.mute := by
  rw [aud_of_rings (rings_received d x hst lost)]
  rfl

theorem received_poisonedAt : (received d st lost x).poisonedAt = d.poisonedAt :=
  (poisonedAt_of_rings (rings_received d x hst lost)).trans rfl

theorem received_now : (received d st lost x).now = d.now :=
  (now_of_rings (rings_received d x hst lost)).trans rfl

theorem received_state : (received d st lost x).rd (recvIdx st) 0x12 = 2 := rd_setAudStream _ hst

theorem received_packets :
    (received d st lost x).rdf (recvIdx st) 0x13 0 = (d.rdf (recvIdx st) 0x13 0 + 1) % 2 ^ 64 := by
  rw [received, rdf_setAudStream_other _ hst (by simp only [regKey]; omega), ← counted_packets d st x]
  exact Dev.rdf_wrf_other _ (by simp only [regKey]; omega)

/-- The objects of a stream below its state and its counters stay as they are. -/
theorem received_rd {s : Nat} (h : s < 0x12) :
    (received d st lost x).rd (recvIdx st) s = d.rd (recvIdx st) s := by
  rw [← counted_rd d st x (by omega) (by omega)]
  exact (rdf_setAudStream_other _ hst (by simp only [regKey]; omega)).trans
    (Dev.rdf_wrf_other _ (by simp only [regKey]; omega))

end

/-! ### The first packet of an L24 stereo stream (R285) -/

/-- The sample of three network bytes (R277). -/
def sample24 (b0 b1 b2 : Byte) : Nat := leNat [b2, b1, b0]

theorem sample24_lt (b0 b1 b2 : Byte) : sample24 b0 b1 b2 < 2 ^ 24 := by
  simp only [sample24, leNat]
  omega

/-- A pair whose first two bytes are not the preamble's Pa carries no preamble (R284). -/
theorem burstPreamble_sample24 {b0 b1 : Byte} (b2 : Byte) (r : Nat) (h : [b0, b1] ≠ [0xF8, 0x72]) :
    burstPreamble (sample24 b0 b1 b2) r = false := by
  have high : sample24 b0 b1 b2 / 256 % 65536 = b1.toNat + 256 * b0.toNat := by
    simp only [sample24, leNat]
    omega
  have notPa : b1.toNat + 256 * b0.toNat ≠ 0xF872 := by
    intro e
    refine h ?_
    rw [show b0 = 0xF8 from BitVec.eq_of_toNat_eq (by simp; omega),
      show b1 = 0x72 from BitVec.eq_of_toNat_eq (by simp; omega)]
  simp [burstPreamble, high, notPa]

/-- The first packet of a one-leg stream is no copy, and nothing is lost before it (R115). -/
theorem take_first (seq : Nat) :
    ({} : AudIn).take false 0 seq = ({ hiA := some (seq + 65536) }, false, 0) := by
  simp [AudIn.take]

/-- What a one-leg stream holds after its first packet. -/
def firstTaken (t seq : Nat) : AudIn := { hiA := some (seq + 65536), last := t }

/-- A frame near the current position is written where it belongs. -/
theorem audFrames_near (d : Dev) (st cur : Nat) {pos : Int} (vs : List Nat) (h0 : 0 ≤ pos)
    (hn : (pos - cur).natAbs ≤ 32768) :
    d.audFrames st cur pos [vs] = d.audFrame (d.rd (recvIdx st) 0x0C) pos.toNat vs := by
  simp only [Dev.audFrames]
  rw [if_neg (by omega)]

/-- The frames of a packet are written from the position that its timestamp names (R285). -/
def writePayload (d : Dev) (st : Nat) (p : AudioPacket) : Dev :=
  d.audFrames st (audPos (audHz (d.rd (recvIdx st) 9)) d.now)
    (extendNear 32 (audPos (audHz (d.rd (recvIdx st) 9)) d.now) p.ts - d.rd (recvIdx st) 0x0D)
    ((chunks (d.rd (recvIdx st) 0x0A) ((chunks (audSampleBytes (d.rd (recvIdx st) 8)) p.payload).map audSample)).filter
      fun f => f.length == d.rd (recvIdx st) 0x0A)

section
variable {d : Dev} {st : Nat} {p : AudioPacket}

theorem audPacket_of_disabled (hoff : d.rdb (recvIdx st) 1 = false) : d.audPacket st p = d := by
  simp [Dev.audPacket, hoff]

/-- The port of the only leg of a stream. -/
theorem audLegs_port_of_one_leg (hkind : d.rd (recvIdx st) 2 = 0) (hlegs : d.rd (recvIdx st) 0x0E = 0xFF)
    (hleg : p.leg = 0) : ((d.audLegs st).map (·.port)).getD p.leg 8 = d.rd (recvIdx st) 3 := by
  unfold recvIdx at hkind hlegs
  rw [Dev.audLegs, if_neg (fun h => h hkind), if_pos hlegs, hleg]
  rfl

/-- A packet of a one-leg stream that is no copy is counted, and its frames are written. -/
theorem audPacket_of_one_leg (hon : d.rdb (recvIdx st) 1 = true) (hkind : d.rd (recvIdx st) 2 = 0)
    (hlegs : d.rd (recvIdx st) 0x0E = 0xFF) (hleg : p.leg = 0) (hlen : p.payload.length ≤ 1440)
    (hup : d.linkUp (d.rd (recvIdx st) 3) = true) {x : AudIn} {lost : Nat}
    (htake : (d.audIn st).take false 0 p.seq = (x, false, lost)) :
    d.audPacket st p = writePayload (received d st lost { x with last := d.now }) st p := by
  have one : (d.rd (recvIdx st) 0x0E != 0xFF) = false := by simp [hlegs]
  unfold Dev.audPacket
  simp only [audLegs_port_of_one_leg hkind hlegs hleg, one]
  rw [if_neg (by simp [hon, hkind, hleg, hup, Nat.not_lt.mpr hlen]), hleg, htake]
  rfl

end

theorem frames_of_pair (b0 b1 b2 b3 b4 b5 : Byte) :
    (chunks 2 ((chunks 3 [b0, b1, b2, b3, b4, b5]).map audSample)).filter (fun f => f.length == 2) =
      [[sample24 b0 b1 b2, sample24 b3 b4 b5]] := rfl

/-- One L24 frame of a pair, its position near the current one, is written where its timestamp says. -/
theorem writePayload_of_pair {d : Dev} {st : Nat} {p : AudioPacket} {b0 b1 b2 b3 b4 b5 : Byte} {cur : Nat} {pos : Int}
    (hbytes : p.payload = [b0, b1, b2, b3, b4, b5]) (henc : d.rd (recvIdx st) 8 ≠ 1)
    (hchs : d.rd (recvIdx st) 0x0A = 2)
    (hcur : audPos (audHz (d.rd (recvIdx st) 9)) d.now = cur)
    (hpos : extendNear 32 cur p.ts - d.rd (recvIdx st) 0x0D = pos) (h0 : 0 ≤ pos) (hnear : (pos - cur).natAbs ≤ 32768) :
    writePayload d st p =
      d.audFrame (d.rd (recvIdx st) 0x0C) pos.toNat [sample24 b0 b1 b2, sample24 b3 b4 b5] := by
  rw [writePayload, hcur, hpos, hchs, audSampleBytes, if_neg henc, hbytes, frames_of_pair,
    audFrames_near _ _ _ _ h0 hnear]

section
variable {d : Dev} {st : Nat} {p : AudioPacket} {b0 b1 b2 b3 b4 b5 : Byte} {cur : Nat} {pos : Int}

/-- The first packet of a one-leg L24 stereo stream, with one unmuted frame near the current position, is counted and
writes its two samples (R285). -/
theorem audPacket_of_first_pair (hst : st < 16) (hon : d.rdb (recvIdx st) 1 = true) (hkind : d.rd (recvIdx st) 2 = 0)
    (hlegs : d.rd (recvIdx st) 0x0E = 0xFF) (hleg : p.leg = 0) (hin : d.audIn st = {})
    (hbytes : p.payload = [b0, b1, b2, b3, b4, b5]) (henc : d.rd (recvIdx st) 8 ≠ 1)
    (hchs : d.rd (recvIdx st) 0x0A = 2) (hup : d.linkUp (d.rd (recvIdx st) 3) = true)
    (hcur : audPos (audHz (d.rd (recvIdx st) 9)) d.now = cur)
    (hpos : extendNear 32 cur p.ts - d.rd (recvIdx st) 0x0D = pos) (h0 : 0 ≤ pos) (hnear : (pos - cur).natAbs ≤ 32768)
    (hmute : Tab.getD d.aud.mute (d.rd (recvIdx st) 0x0C) 0 = 0) (hpa : [b0, b1] ≠ [0xF8, 0x72]) :
    d.audPacket st p = pairWritten (received d st 0 (firstTaken d.now p.seq)) (d.rd (recvIdx st) 0x0C) pos.toNat
      (sample24 b0 b1 b2) (sample24 b3 b4 b5) := by
  have taken : d.audPacket st p = writePayload (received d st 0 (firstTaken d.now p.seq)) st p :=
    audPacket_of_one_leg (x := { hiA := some (p.seq + 65536) }) (lost := 0) hon hkind hlegs hleg (by simp [hbytes]) hup
      (by rw [hin, take_first])
  have rd {s : Nat} (h : s < 0x12) := received_rd d (firstTaken d.now p.seq) hst 0 h
  have now := received_now d (firstTaken d.now p.seq) hst 0
  have mute := received_mute d (firstTaken d.now p.seq) hst 0
  rw [taken]
  generalize received d st 0 (firstTaken d.now p.seq) = e at rd now mute ⊢
  rw [writePayload_of_pair (cur := cur) (pos := pos) hbytes (by rwa [rd (by decide)]) (by rwa [rd (by decide)])
      (by rwa [rd (by decide), now]) (by rwa [rd (by decide)]) h0 hnear,
    rd (by decide), audFrame_of_clear_pair _ (by rwa [mute]) (burstPreamble_sample24 b2 _ hpa)]

end

/-! ### PES (R286) -/

/-- The anchor that the first PES sets: its position, the PTS it belongs to, and the PTS expected next (R286). -/
def firstAnchor (q : AudioPes) : Int × Int × Int :=
  (audPos 48000 q.arrival, q.pts, q.pts + freeRound (((chunks q.channels q.samples).length : Int) * 15) 8)

section
variable {d : Dev} {st : Nat} {q : AudioPes}

theorem audPes_of_disabled (hoff : d.rdb (recvIdx st) 1 = false) : d.audPes st q = d := by
  simp [Dev.audPes, hoff]

/-- A PES that is not 302M is discarded (R286). -/
theorem audPes_of_other_type (hon : d.rdb (recvIdx st) 1 = true) (hkind : d.rd (recvIdx st) 2 = 1)
    (hpid : d.pesOf st q = true) (h : q.is302m = false) : d.audPes st q = d.incf (recvIdx st) 0x13 3 := by
  simp [Dev.audPes, hon, hkind, hpid, h]

/-- The first good PES is counted and sets the anchor; its frames are then written (R286). -/
theorem audPes_of_first (hon : d.rdb (recvIdx st) 1 = true) (hkind : d.rd (recvIdx st) 2 = 1)
    (hpid : d.pesOf st q = true) (h : q.is302m = true) (hch : q.channels ∈ [2, 4, 6, 8])
    (ha : (d.audIn st).anchor = none) : ∃ cur pos frames, d.audPes st q =
      ((counted d st { d.audIn st with anchor := some (firstAnchor q), last := d.now }).setAudStream st 2).audFrames
        st cur pos frames := by
  have listed : ([2, 4, 6, 8] : List Nat).contains q.channels = true := List.contains_iff_mem.mpr hch
  have good : ¬ ((!q.is302m) = true ∨ (!([2, 4, 6, 8] : List Nat).contains q.channels) = true) := by
    rw [h, listed]
    decide
  unfold Dev.audPes
  rw [if_neg (by simp [hon, hkind, hpid]), if_neg good]
  simp only [ha]
  exact ⟨_, _, _, rfl⟩

end

/-! ### What a send stream gathers (R283, R287) -/

/-- The device with its zero samples counted otherwise. -/
def withZeros (d : Dev) (zeros zeroAt : Tab Nat) : Dev :=
  { d with aud := { d.aud with zeros := zeros, zeroAt := zeroAt } }

theorem audTake_dev (d : Dev) (ch pos : Nat) : ∃ z w, (d.audTake ch pos).2.2 = withZeros d z w := by
  unfold Dev.audTake
  split <;> exact ⟨_, _, rfl⟩

theorem audTakes_dev (d : Dev) (pos : Nat) (chs : List Nat) : ∃ z w, (d.audTakes pos chs).2.2 = withZeros d z w := by
  induction chs generalizing d with
  | nil => exact ⟨_, _, rfl⟩
  | cons ch chs ih =>
    obtain ⟨z, w, h⟩ := audTake_dev d ch pos
    obtain ⟨z', w', h'⟩ := ih (d.audTake ch pos).2.2
    exact ⟨z', w', by rw [Dev.audTakes, h', h]; rfl⟩

theorem audTakes_length (d : Dev) (pos : Nat) (chs : List Nat) : (d.audTakes pos chs).1.length = chs.length := by
  induction chs generalizing d with
  | nil => rfl
  | cons ch chs ih => simp [Dev.audTakes, ih]

/-- Gathering changes nothing but the count of zero samples. -/
theorem audGather_dev (d : Dev) (chs : List Nat) (p m : Nat) :
    ∃ z w, (d.audGather chs p m).2 = withZeros d z w := by
  induction m generalizing d p with
  | zero => exact ⟨_, _, rfl⟩
  | succ m ih =>
    obtain ⟨z, w, h⟩ := audTakes_dev d p chs
    obtain ⟨z', w', h'⟩ := ih (d.audTakes p chs).2.2 (p + 1)
    exact ⟨z', w', by rw [Dev.audGather, h', h]; rfl⟩

theorem audBytes_length (enc v : Nat) : (audBytes enc v).length = if enc = 1 then 2 else 3 := by
  unfold audBytes beBytes
  split <;> simp

/-- A packet carries `m` frames of all its channels. -/
theorem audGather_length (d : Dev) (chs : List Nat) (p m : Nat) :
    (d.audGather chs p m).1.flatten.length = m * chs.length := by
  induction m generalizing d p with
  | zero => simp [Dev.audGather]
  | succ m ih => simp [Dev.audGather, ih, audTakes_length, Nat.succ_mul, Nat.add_comm]

theorem flatMap_audBytes_length (enc : Nat) (vs : List Nat) :
    (vs.flatMap (audBytes enc)).length = vs.length * if enc = 1 then 2 else 3 := by
  induction vs with
  | nil => exact (Nat.zero_mul _).symm
  | cons v vs ih =>
    rw [List.flatMap_cons, List.length_append, ih, audBytes_length, List.length_cons, Nat.succ_mul, Nat.add_comm]

/-! ### What a send stream sends (R97, R287) -/

theorem setObj_aud (d : Dev) (x : AudRt) (i s : Nat) (data : List Byte) :
    ({ d with aud := x } : Dev).setObj i s data = { d.setObj i s data with aud := x } := by
  unfold Dev.setObj
  split
  · split <;> rfl
  · rfl

theorem setRecs_aud (d : Dev) (x : AudRt) (rs : List Rec) :
    ({ d with aud := x } : Dev).setRecs rs = { d.setRecs rs with aud := x } := by
  induction rs generalizing d with
  | nil => rfl
  | cons r rs ih => exact (congrArg (Dev.setRecs · rs) (setObj_aud d x r.idx r.sub r.data)).trans (ih _)

/-- The addresses of a media packet do not depend on the audio block. -/
theorem mediaHead_aud (d : Dev) (x : AudRt) (w k : Nat) (dst : List Byte) (dstPort srcPort marking : Nat) :
    (({ d with aud := x } : Dev).seenBy w).mediaHead k dst dstPort srcPort marking =
      (d.seenBy w).mediaHead k dst dstPort srcPort marking := by
  have seen : ({ d with aud := x } : Dev).seenBy w = { d.seenBy w with aud := x } := setRecs_aud d x _
  rw [seen]
  rfl

/-- The number of positions that a packet of a send stream carries (R285). -/
def sendSize (d : Dev) (st : Nat) : Nat := audPerPacket (audHz (d.rd (sendIdx st) 9)) (d.rd (sendIdx st) 0x0B)

/-- The end of the positions that the latest packet of a send stream carries: the last multiple of its size that ended
a link offset ago (R287). -/
def sendEnd (d : Dev) (st : Nat) : Nat :=
  audFramePos (audHz (d.rd (sendIdx st) 9)) (d.now - d.rd (sendIdx st) 0x0D * 1000) / sendSize d st * sendSize d st

theorem sendMedia_outbox {d : Dev} {k : Nat} (h : d.linkUp k = true) (dst : List Byte) (dstPort srcPort marking : Nat)
    (what : String) (bytes : List Byte) : (d.sendMedia k dst dstPort srcPort marking what bytes).outbox =
      d.outbox ++ [.media k ((d.seenBy (k / 2)).mediaHead k dst dstPort srcPort marking) what bytes] := by
  rw [Dev.sendMedia, if_pos h]
  rfl

theorem sendMedia_aud (d : Dev) (k : Nat) (dst : List Byte) (dstPort srcPort marking : Nat) (what : String)
    (bytes : List Byte) : (d.sendMedia k dst dstPort srcPort marking what bytes).aud = d.aud := by
  unfold Dev.sendMedia
  split <;> rfl

/-- The packets that a port has sent are counted in fields of their own. -/
theorem sendMedia_rd (d : Dev) (k : Nat) (dst : List Byte) (dstPort srcPort marking : Nat) (what : String)
    (bytes : List Byte) (i s : Nat) : (d.sendMedia k dst dstPort srcPort marking what bytes).rd i s = d.rd i s := by
  unfold Dev.sendMedia
  split
  · exact (Dev.rdf_wrf_other _ (by simp only [regKey]; omega)).trans
      (Dev.rdf_wrf_other _ (by simp only [regKey]; omega))
  · rfl

/-- The frames of a send stream's packet, and the device that has gathered them. -/
def gathered (d : Dev) (st : Nat) : List (List Nat) × Dev :=
  d.audGather ((List.range (d.rd (sendIdx st) 0x0A)).map (· + d.rd (sendIdx st) 0x0C)) (sendEnd d st - sendSize d st)
    (sendSize d st)

/-- Sends an RTP packet of a send stream on one leg. -/
def sendLeg (d : Dev) (st port : Nat) (dst msg : List Byte) : Dev :=
  d.sendMedia port dst (d.rd (sendIdx st) 6) (Config.audioSrcPort st % 2 ^ 16) (Config.audioMarking st % 256)
    "rtp-audio" msg

theorem sendLeg_rd (d : Dev) (st port : Nat) (dst msg : List Byte) (i s : Nat) :
    (sendLeg d st port dst msg).rd i s = d.rd i s :=
  sendMedia_rd _ _ _ _ _ _ _ _ _ _

/-- The sending of a packet in its steps: what it waits for, the gathering, the legs. -/
theorem audSend_eq (d : Dev) (st : Nat) : d.audSend st =
    if d.rd (sendIdx st) 0x12 ≠ 2 ∨ d.now < d.rd (sendIdx st) 0x0D * 1000 ∨ sendEnd d st < sendSize d st ∨
      sendEnd d st ≤ (d.audOut st).done then d
    else
      let g := gathered d st
      let msg := rtpHeader (g.2.rd (sendIdx st) 7) false ((d.audOut st).seq % 65536)
        ((sendEnd d st - sendSize d st) % 2 ^ 32) (Config.audioSsrc st % 2 ^ 32) ++
          g.1.flatten.flatMap (audBytes (g.2.rd (sendIdx st) 8))
      let e := g.2.setAudOut st { seq := (d.audOut st).seq + 1, done := sendEnd d st }
      let a := sendLeg e st (e.rd (sendIdx st) 3) (e.rdd (sendIdx st) 4) msg
      if a.rd (sendIdx st) 0x0E = 0xFF then a
      else sendLeg a st (a.rd (sendIdx st) 0x0E) (a.rdd (sendIdx st) 0x0F) msg := rfl

/-- The device with zero samples counted otherwise and a send stream past a packet that ends at `sendEnd`. -/
def packetSent (d : Dev) (st : Nat) (zeros zeroAt : Tab Nat) : Dev :=
  (withZeros d zeros zeroAt).setAudOut st { seq := (d.audOut st).seq + 1, done := sendEnd d st }

/-- The packet of a one-leg send stream whose launch time has come leaves on its port; besides, only the stream's own
record and the count of zero samples change (R287). -/
theorem audSend_of_due {d : Dev} {st : Nat} (hs : d.rd (sendIdx st) 0x12 = 2)
    (hl : d.rd (sendIdx st) 0x0D * 1000 ≤ d.now)
    (hm : sendSize d st ≤ sendEnd d st) (hd : (d.audOut st).done < sendEnd d st) (hb : d.rd (sendIdx st) 0x0E = 0xFF) :
    ∃ z w body, body.length = sendSize d st * d.rd (sendIdx st) 0x0A * (if d.rd (sendIdx st) 8 = 1 then 2 else 3) ∧
      d.audSend st = sendLeg (packetSent d st z w) st (d.rd (sendIdx st) 3) (d.rdd (sendIdx st) 4)
        (rtpHeader (d.rd (sendIdx st) 7) false ((d.audOut st).seq % 65536) ((sendEnd d st - sendSize d st) % 2 ^ 32)
          (Config.audioSsrc st % 2 ^ 32) ++ body) := by
  obtain ⟨z, w, hg⟩ : ∃ z w, (gathered d st).2 = withZeros d z w := audGather_dev _ _ _ _
  refine ⟨z, w, (gathered d st).1.flatten.flatMap (audBytes (d.rd (sendIdx st) 8)), ?_, ?_⟩
  · rw [flatMap_audBytes_length, gathered, audGather_length, List.length_map, List.length_range]
  · rw [audSend_eq, if_neg (by omega)]
    have oneLeg : ((withZeros d z w).setAudOut st { seq := (d.audOut st).seq + 1, done := sendEnd d st }).rd
        (sendIdx st) 0x0E = 0xFF := hb
    dsimp only
    rw [hg, sendLeg_rd, if_pos oneLeg]
    rfl

section
variable (d : Dev) (st : Nat) (z w : Tab Nat)

theorem sendLeg_packetSent_audOut (port : Nat) (dst msg : List Byte) :
    (sendLeg (packetSent d st z w) st port dst msg).audOut st =
      { seq := (d.audOut st).seq + 1, done := sendEnd d st } := by
  rw [Dev.audOut, sendLeg, sendMedia_aud]
  simp only [packetSent, Dev.setAudOut, Tab.getD_setD_same]

theorem sendLeg_packetSent_outbox {port : Nat} (h : d.linkUp port = true) (dst msg : List Byte) :
    (sendLeg (packetSent d st z w) st port dst msg).outbox = d.outbox ++
      [.media port ((d.seenBy (port / 2)).mediaHead port dst (d.rd (sendIdx st) 6) (Config.audioSrcPort st % 2 ^ 16)
        (Config.audioMarking st % 256)) "rtp-audio" msg] := by
  have up : (packetSent d st z w).linkUp port = true := h
  rw [sendLeg, sendMedia_outbox up, ← mediaHead_aud d (packetSent d st z w).aud]
  rfl

end

/-! ### Silence and counters -/

theorem setAudStream_silent {d : Dev} {n : Nat} (hn : n < 16) (h : d.rd (recvIdx n) 0x12 ≠ 3) :
    d.setAudStream n 3 = (d.wr (recvIdx n) 0x12 3).raise uAudio 0x0C05 n 3 sevInfo := by
  simp [Dev.setAudStream, hn, h]

/-- A fold over numbers makes true of each number what its own step makes true and the later ones keep. -/
theorem foldNat_reaches {σ : Type} {P : Nat → σ → Prop} {f : σ → Nat → σ} (own : ∀ x k, P k (f x k))
    (keeps : ∀ x k j, j < k → P j x → P j (f x k)) {n k : Nat} (hk : k < n) (x : σ) : P k (foldNat f n x) := by
  induction n with
  | zero => omega
  | succ n ih =>
    obtain hlt | rfl : k < n ∨ k = n := by omega
    · exact keeps _ _ _ hlt (ih hlt)
    · exact own _ _

theorem clearFields_rdf_same (d : Dev) (i s : Nat) {f n : Nat} (hf : f < n) : (d.clearFields i s n).rdf i s f = 0 :=
  foldNat_reaches (P := fun f (d : Dev) => d.rdf i s f = 0) (fun d f => Dev.rdf_wrf_same d i s f 0)
    (fun d _ _ h hz => (Dev.rdf_wrf_other d (by simp only [regKey]; omega)).trans hz) hf d

theorem clearFields_rdf_other (d : Dev) {i j s r f n : Nat} (hs : s < 256) (hr : r < 256) (hf : f < 65536)
    (hn : n ≤ 65536) (h : j ≠ i) : (d.clearFields i s n).rdf j r f = d.rdf j r f := by
  induction n with
  | zero => rfl
  | succ n ih =>
    exact (Dev.rdf_wrf_other _ fun e => h (regKey_inj hr hs hf (by omega) e).1).trans (ih (by omega))

/-- The framing errors of one port cleared. -/
def clearPort (d : Dev) (a : Nat) : Dev := d.setAudPort a { d.audPort a with framing := 0 }

/-- The counters of one receive stream cleared. -/
def clearStream (d : Dev) (st : Nat) : Dev := d.clearFields (recvIdx st) 0x13 4

theorem audCounters_eq (d : Dev) : d.audCounters =
    foldNat clearStream 16 (foldNat clearPort 16 (withZeros d [] d.aud.zeroAt)) := rfl

theorem audPort_of_aud {d e : Dev} (h : e.aud = d.aud) (a : Nat) : e.audPort a = d.audPort a := by
  rw [Dev.audPort, h, Dev.audPort]

theorem clearPorts_framing (d : Dev) {a : Nat} (ha : a < 16) : ((foldNat clearPort 16 d).audPort a).framing = 0 := by
  refine foldNat_reaches (P := fun a (d : Dev) => (d.audPort a).framing = 0) (fun d a => ?_)
    (fun d k a hlt hz => ?_) ha d
  · exact congrArg AudPort.framing (Tab.getD_setD_same d.aud.ports a _ _)
  · exact (congrArg AudPort.framing (Tab.getD_setD_other d.aud.ports _ _ _ (Nat.ne_of_lt hlt))).trans hz

/-- Clearing framing errors keeps what the storing of a port keeps. -/
theorem clearPorts_keeps {γ : Type} (g : Dev → γ) (h : ∀ (d : Dev) a x, g (d.setAudPort a x) = g d) (d : Dev) :
    g (foldNat clearPort 16 d) = g d :=
  EventInputs.foldNat_keeps g clearPort (fun d a => h d a _) _ _

theorem clearStreams_rdf (d : Dev) {st f : Nat} (hst : st < 16) (hf : f < 4) :
    (foldNat clearStream 16 d).rdf (recvIdx st) 0x13 f = 0 := by
  refine foldNat_reaches (P := fun st (d : Dev) => d.rdf (recvIdx st) 0x13 f = 0) (fun d st => ?_)
    (fun d k st hlt hz => ?_) hst d
  · exact clearFields_rdf_same d (recvIdx st) 0x13 hf
  · have hne : recvIdx st ≠ recvIdx k := by simp only [recvIdx]; omega
    exact (clearFields_rdf_other d (by decide) (by decide) (by omega) (by decide) hne).trans hz

/-- Clearing fields of numeric objects keeps what such a write keeps. -/
theorem clearStreams_keeps {γ : Type} (g : Dev → γ) (h : ∀ (d : Dev) i s f, g (d.wrf i s f 0) = g d) (d : Dev) :
    g (foldNat clearStream 16 d) = g d := by
  refine EventInputs.foldNat_keeps g clearStream (fun d st => ?_) _ _
  exact EventInputs.foldNat_keeps g (fun d f => d.wrf (recvIdx st) 0x13 f 0) (fun d f => h d _ _ f) _ _

section
variable (d : Dev)

theorem audCounters_aud :
    d.audCounters.aud = (foldNat clearPort 16 (withZeros d [] d.aud.zeroAt)).aud := by
  rw [audCounters_eq, clearStreams_keeps Dev.aud fun _ _ _ _ => rfl]

theorem audCounters_zeros : d.audCounters.aud.zeros = [] := by
  rw [audCounters_aud, clearPorts_keeps (fun d : Dev => d.aud.zeros) fun _ _ _ => rfl]
  rfl

theorem audCounters_rings : d.audCounters.aud.rings = d.aud.rings := by
  rw [audCounters_aud, clearPorts_keeps (fun d : Dev => d.aud.rings) fun _ _ _ => rfl]
  rfl

theorem audCounters_framing {a : Nat} (ha : a < 16) : (d.audCounters.audPort a).framing = 0 := by
  rw [audPort_of_aud (audCounters_aud d), clearPorts_framing _ ha]

theorem audCounters_fields {st f : Nat} (hst : st < 16) (hf : f < 4) :
    d.audCounters.rdf (recvIdx st) 0x13 f = 0 := by
  rw [audCounters_eq, clearStreams_rdf _ hst hf]

theorem audCounters_outbox : d.audCounters.outbox = d.outbox := by
  rw [audCounters_eq, clearStreams_keeps Dev.outbox fun _ _ _ _ => rfl, clearPorts_keeps Dev.outbox fun _ _ _ => rfl]
  rfl

end

/-! ### The commands -/

theorem exec_audioPacketReceived (t st : Nat) (p : AudioPacket) (s : State) :
    exec (.audioPacketReceived t st p) s = execAudioPacketReceived t st p s := by
  rfl

theorem exec_audioPesReceived (t st : Nat) (q : AudioPes) (s : State) :
    exec (.audioPesReceived t st q) s = execAudioPesReceived t st q s := by
  rfl

theorem exec_audioPacketSend (t st : Nat) (s : State) :
    exec (.audioPacketSend t st) s = execAudioPacketSend t st s := by
  rfl

theorem exec_audStreamSilent (t st : Nat) (s : State) :
    exec (.audStreamSilent t st) s = execAudStreamSilent t st s := by
  rfl

theorem exec_audioCounterReset (t : Nat) (by_ : Requester) (s : State) :
    exec (.audioCounterReset t by_) s = execAudioCounterReset t by_ s := by
  rfl

section
variable {s : State} {t : Nat} (st : Nat) (h : (s.found t).alive = true)
include h

theorem exec_audioPacketReceived_alive (p : AudioPacket) :
    exec (.audioPacketReceived t st p) s = .next { s with dev := (s.found t).audPacket st p } := by
  rw [exec_audioPacketReceived, execAudioPacketReceived, onDev_alive h]

theorem exec_audioPesReceived_alive (q : AudioPes) :
    exec (.audioPesReceived t st q) s = .next { s with dev := (s.found t).audPes st q } := by
  rw [exec_audioPesReceived, execAudioPesReceived, onDev_alive h]

theorem exec_audioPacketSend_alive :
    exec (.audioPacketSend t st) s = .next { s with dev := (s.found t).audSend st } := by
  rw [exec_audioPacketSend, execAudioPacketSend, onDev_alive h]

theorem exec_audStreamSilent_of_due (hon : (s.found t).rdb (recvIdx st) 1 = true)
    (hbank : (s.found t).bankHeld 4 = false) (hlast : ((s.found t).audIn st).last + 100000000 ≤ t) :
    exec (.audStreamSilent t st) s = .next { s with dev := (s.found t).setAudStream st 3 } := by
  have due : (s.found t).rdb (recvIdx st) 1 = true ∧ (!(s.found t).bankHeld 4) = true ∧
      ((s.found t).audIn st).last + 100000000 ≤ (s.found t).now := ⟨hon, by simp [hbank], hlast⟩
  rw [exec_audStreamSilent, execAudStreamSilent, onDev_alive h, if_pos due]

end

theorem grantedTo_aud (d : Dev) (by_ : Requester) : (d.grantedTo by_).aud = d.aud := rfl

theorem grantedTo_rdf (d : Dev) (by_ : Requester) (i s f : Nat) : (d.grantedTo by_).rdf i s f = d.rdf i s f := rfl

theorem grantedTo_outbox (d : Dev) (by_ : Requester) :
    (d.grantedTo by_).outbox = d.outbox ++ [.answer by_ stOk none] := rfl

theorem exec_audioCounterReset_granted {s : State} {t : Nat} {by_ : Requester}
    (h : (s.found t).grants by_ 0x3600 5 [1]) : exec (.audioCounterReset t by_) s =
      .next { s with dev := ((s.found t).audCounters).grantedTo by_ } := by
  rw [exec_audioCounterReset, execAudioCounterReset, onCommand_alive h.1, Dev.command_granted h]
  rfl

end Sys2Proof.Machine.AudioStreams

open Sys2Proof Sys2Proof.Machine Sys2Proof.Machine.AudioStreams in
/-- Settles O45: a packet and a PES are counted and enter the record of their stream before their frames are written,
which leaves that record alone; a packet that is due gathers and leaves; the reset clears field by field. -/
theorem audioStreamsComplete : Obligations.AudioStreamsComplete := by
  intro s t st p q b0 b1 b2 b3 b4 b5 by_ d i o f cur pos m end_ y holds
  refine ⟨fun halive hst hon hkind hlegs hleg hin hbytes henc hchs hup h0 hnear hmute hpa => ?packet,
    fun halive hoff => ⟨?packetOff, ?pesOff⟩, fun halive hon hkind hpid h302 => ?otherPes,
    fun halive hst hon hkind hpid h302 hch hanchor => ?firstPes,
    fun halive hs hl hm hd hb hup => ?send, fun halive hst hon hbank hlast hstate => ?silent, fun hg => ?reset⟩
  case packet =>
    have run := exec_audioPacketReceived_alive st halive p
    let x := firstTaken t p.seq
    have taken : d.audPacket st p =
        pairWritten (received d st 0 x) f pos.toNat (sample24 b0 b1 b2) (sample24 b3 b4 b5) :=
      audPacket_of_first_pair hst hon hkind hlegs hleg hin hbytes henc hchs hup rfl rfl h0 hnear hmute hpa
    have kept := streams_pairWritten (received d st 0 x) f pos.toNat (sample24 b0 b1 b2) (sample24 b3 b4 b5)
    have entry := (audIn_of_streams kept st).trans (received_audIn d x hst 0)
    obtain ⟨left, right⟩ := audRead_pairWritten (received d st 0 x) f pos.toNat (sample24 b0 b1 b2) (sample24 b3 b4 b5)
    rw [received_poisonedAt d x hst 0, Nat.mod_eq_of_lt (sample24_lt _ _ _)] at left right
    rw [taken] at run
    exact ⟨_, run, rfl, left, right, (packets_of_streams kept hst).trans (received_packets d x hst 0),
      (rd_of_streams kept hst (by decide)).trans (received_state d x hst 0), congrArg AudIn.last entry,
      congrArg AudIn.hiA entry⟩
  case packetOff =>
    rw [exec_audioPacketReceived_alive st halive, audPacket_of_disabled hoff]
  case pesOff =>
    rw [exec_audioPesReceived_alive st halive, audPes_of_disabled hoff]
  case otherPes =>
    rw [exec_audioPesReceived_alive st halive, audPes_of_other_type hon hkind hpid h302]
  case firstPes =>
    obtain ⟨now, pos, frames, pes⟩ := audPes_of_first hon hkind hpid h302 hch hanchor
    have run := exec_audioPesReceived_alive st halive q
    rw [pes] at run
    let x : AudIn := { d.audIn st with anchor := some (firstAnchor q), last := t }
    let e := (counted d st x).setAudStream st 2
    have kept : streams (e.audFrames st now pos frames) = streams e := streams_audFrames e st now pos frames
    have entry : (e.audFrames st now pos frames).audIn st = x := by
      rw [audIn_of_streams kept, audIn_of_rings (rings_setAudStream _ hst), counted_audIn]
    refine ⟨_, run, rfl, congrArg AudIn.anchor entry, ?_, ?_, congrArg AudIn.last entry⟩
    · refine (packets_of_streams kept hst).trans ?_
      rw [rdf_setAudStream_other _ hst (by simp only [regKey]; omega), counted_packets]
    · exact (rd_of_streams kept hst (by decide)).trans (rd_setAudStream _ hst)
  case send =>
    obtain ⟨z, w, body, hbody, sent⟩ := audSend_of_due (d := d) hs hl hm hd hb
    have run := exec_audioPacketSend_alive st halive
    rw [sent] at run
    exact ⟨_, body, run, rfl, sendLeg_packetSent_audOut _ _ _ _ _ _ _,
      sendLeg_packetSent_outbox _ _ _ _ hup _ _, hbody⟩
  case silent =>
    rw [exec_audStreamSilent_of_due st halive hon hbank hlast, setAudStream_silent hst hstate]
  case reset =>
    refine ⟨_, exec_audioCounterReset_granted hg, rfl, ?_, ?_, fun a ha => ?_, fun k f hk hf => ?_, ?_⟩
    · rw [grantedTo_aud, audCounters_zeros]
    · rw [grantedTo_aud, audCounters_rings]
      rfl
    · rw [audPort_of_aud (grantedTo_aud _ _), audCounters_framing _ ha]
    · rw [grantedTo_rdf, audCounters_fields _ hk hf]
    · rw [grantedTo_outbox, audCounters_outbox]
      rfl
end


section
/-! O46: what the start of a scan takes up, what its report writes and leaves alone, and what a node makes of a count
(R291 to R299). -/
namespace Sys2Proof.Machine.TouchScans

/-! ### What an event and its report leave alone -/

theorem mute_touch (d : Dev) : (EventInputs.mute d).touch = d.touch := rfl

theorem event_touch (d : Dev) (unit code p1 p2 : Nat) : (d.event unit code p1 p2).touch = d.touch := by
  rw [← mute_touch (d.event unit code p1 p2), AudioStreams.mute_event, mute_touch]

theorem report_touch (d : Dev) (r : Report) : (d.report r).touch = d.touch := by
  unfold Dev.report
  split
  · dsimp only
    split <;> rfl
  · dsimp only
    split <;> rfl

theorem raise_touch (d : Dev) (unit code p1 p2 sev : Nat) : (d.raise unit code p1 p2 sev).touch = d.touch :=
  (report_touch _ _).trans (event_touch _ _ _ _ _)

/-! ### The start of a scan (R292, R293, R299) -/

/-- What the start of a scan settles before its mode and times: the frequency, the waiting hop and the surfaces. -/
def course (x : TouchRt) : Nat × Nat × Tab Surf := (x.freq, x.hopTo, x.surfs)

/-- A waiting hop effective, and counted. -/
def hopped (d : Dev) : Dev :=
  if d.touch.hopTo = 0 then d
  else { d.wr 0x3700 0x0A ((d.rd 0x3700 0x0A + 1) % 2 ^ 32) with
    touch := { d.touch with freq := d.touch.hopTo - 1, hopTo := 0, beyond := 0, hopAt := d.rd 0x3700 9 + 1 } }

/-- A surface's waiting re-baseline taken up. -/
def takeUp (x : Surf) : Surf := { x with rebaseNow := x.rebase, rebase := false }

/-- A noise mode shown, and since when the head of quiet mode is lost. -/
def shown (d : Dev) (quiet : Bool) (lostAt : Nat) : Dev :=
  (({ d with touch := { d.touch with lostAt := lostAt } } : Dev).wr 0x3700 4 (if quiet then 0 else 1)).wr 0x3700 5
    (if quiet then 0xFF else d.touch.freq)

/-- The mode, the times and the trims of a scan. -/
def prepared (d : Dev) : Dev := (hopped d).touchMode.scanTimes.applyTrims

/-- The waiting re-baselines of the first `n` surfaces taken up. -/
def takenUp (n : Nat) (d : Dev) : Dev := foldNat (fun d k => d.setSurf k (takeUp (d.surf k))) n d

/-- The scan under way. -/
def begun (d : Dev) : Dev := { d with touch := { d.touch with scanning := true } }

theorem begun_scanning (d : Dev) : (begun d).touch.scanning = true := rfl
theorem begun_rd (d : Dev) (i s : Nat) : (begun d).rd i s = d.rd i s := rfl
theorem begun_freq (d : Dev) : (begun d).touch.freq = d.touch.freq := rfl
theorem begun_hopTo (d : Dev) : (begun d).touch.hopTo = d.touch.hopTo := rfl
theorem begun_surf (d : Dev) (j : Nat) : (begun d).surf j = d.surf j := rfl

theorem touchScan_of_due {d : Dev} (hr : d.touchRuns = true) (hd : d.scanDue = true) :
    d.touchScan = begun (takenUp 8 (prepared d)) := by
  have due : ¬ (!d.touchRuns ∨ !d.scanDue) := by
    simp only [hr, hd, Bool.not_true, Bool.false_eq_true, or_self, not_false_eq_true]
  rw [Dev.touchScan, if_neg due]
  rfl

theorem hopped_of_none {d : Dev} (h : d.touch.hopTo = 0) : hopped d = d := if_pos h

theorem hopped_hopTo (d : Dev) : (hopped d).touch.hopTo = 0 := by
  unfold hopped
  split
  · assumption
  · rfl

theorem hopped_surfs (d : Dev) : (hopped d).touch.surfs = d.touch.surfs := by
  unfold hopped
  split <;> rfl

theorem hopped_freq {d : Dev} (h : d.touch.hopTo ≠ 0) : (hopped d).touch.freq = d.touch.hopTo - 1 := by
  rw [hopped, if_neg h]

theorem hopped_count {d : Dev} (h : d.touch.hopTo ≠ 0) :
    (hopped d).rd 0x3700 0x0A = (d.rd 0x3700 0x0A + 1) % 2 ^ 32 := by
  rw [hopped, if_neg h]
  exact Dev.rd_wr_same d _ _ _

theorem hopped_rd (d : Dev) {i s : Nat} (hs : s < 256) (h : ¬ (i = 0x3700 ∧ s = 0x0A)) :
    (hopped d).rd i s = d.rd i s := by
  unfold hopped
  split
  · rfl
  · exact Dev.rd_wr_other d fun e =>
      have key := regKey_inj hs (by decide) (by decide) (by decide) e
      h ⟨key.1, key.2.1⟩

theorem wantsQuiet_hopped (d : Dev) : (hopped d).wantsQuiet = d.wantsQuiet := by
  have surface (k : Nat) {s : Nat} (hs : s < 256) : (hopped d).rd (surfIdx k) s = d.rd (surfIdx k) s :=
    hopped_rd d hs fun h => absurd h.1 (by simp only [surfIdx]; omega)
  have enabled (k : Nat) : (hopped d).rdb (surfIdx k) 1 = d.rdb (surfIdx k) 1 := by
    rw [Dev.rdb, surface k (by decide), Dev.rdb]
  have nodes : (hopped d).touchNodes = d.touchNodes := by
    simp only [Dev.touchNodes, enabled, surface _ (s := 4) (by decide), surface _ (s := 6) (by decide)]
  rw [Dev.wantsQuiet, nodes, hopped_rd d (by decide) (by decide), Dev.wantsQuiet]

theorem shown_course (d : Dev) (quiet : Bool) (lostAt : Nat) : course (shown d quiet lostAt).touch = course d.touch :=
  rfl

theorem shown_hops (d : Dev) (quiet : Bool) (lostAt : Nat) :
    (shown d quiet lostAt).rd 0x3700 0x0A = d.rd 0x3700 0x0A :=
  (Dev.rd_wr_other _ (by decide)).trans (Dev.rd_wr_other _ (by decide))

theorem shown_hopping_mode (d : Dev) (lostAt : Nat) : (shown d false lostAt).rd 0x3700 4 = 1 :=
  (Dev.rd_wr_other _ (by decide)).trans (Dev.rd_wr_same _ _ _ _)

theorem shown_hopping_freq (d : Dev) (lostAt : Nat) : (shown d false lostAt).rd 0x3700 5 = d.touch.freq :=
  Dev.rd_wr_same _ _ _ _

/-- Whatever the mode, it is shown; SYNC_LOST is raised where the head is lost, and its return is an event. -/
theorem touchMode_cases (d : Dev) : ∃ quiet lostAt, let e := shown d quiet lostAt
    d.touchMode = e ∨ (∃ p, d.touchMode = e.raise uTouch 0x0D06 p 1 sevDegraded) ∨
      ∃ p, d.touchMode = e.event uTouch 0x0D06 p 0 := by
  unfold Dev.touchMode
  extract_lets o x set
  split
  · exact ⟨false, 0, .inl rfl⟩
  · split
    · split
      · exact ⟨false, x.lostAt, .inl rfl⟩
      · exact ⟨false, d.now + 1, .inr (.inl ⟨o, rfl⟩)⟩
    · split
      · exact ⟨true, x.lostAt, .inl rfl⟩
      · split
        · exact ⟨true, 0, .inr (.inr ⟨o, rfl⟩)⟩
        · exact ⟨false, x.lostAt, .inl rfl⟩

theorem touchMode_of_hopping {d : Dev} (h : d.wantsQuiet = false) : d.touchMode = shown d false 0 := by
  rw [Dev.touchMode, if_pos (by rw [h]; rfl)]
  rfl

theorem touchMode_course (d : Dev) : course d.touchMode.touch = course d.touch := by
  obtain ⟨quiet, lostAt, h | ⟨p, h⟩ | ⟨p, h⟩⟩ := touchMode_cases d
  · rw [h, shown_course]
  · rw [h, raise_touch, shown_course]
  · rw [h, event_touch, shown_course]

theorem touchMode_hops (d : Dev) : d.touchMode.rd 0x3700 0x0A = d.rd 0x3700 0x0A := by
  obtain ⟨quiet, lostAt, h | ⟨p, h⟩ | ⟨p, h⟩⟩ := touchMode_cases d
  · rw [h, shown_hops]
  · rw [h, ← shown_hops d quiet lostAt]
    exact AudioStreams.raise_rdf _ _ _ _ _ _ (by decide) (by decide) (by decide)
  · rw [h, ← shown_hops d quiet lostAt]
    exact AudioStreams.event_rdf _ _ _ _ _ _ _ _

theorem scanTimes_keeps (d : Dev) : course d.scanTimes.touch = course d.touch ∧ d.scanTimes.regs = d.regs := by
  unfold Dev.scanTimes
  extract_lets x
  split <;> exact ⟨rfl, rfl⟩

theorem applyTrims_keeps (d : Dev) : course d.applyTrims.touch = course d.touch ∧ d.applyTrims.regs = d.regs := by
  refine Prod.mk.inj ((Is05.foldl_keeps (fun d : Dev => (course d.touch, d.regs)) _ (fun d c => ?_) _ _).trans rfl)
  refine Is05.foldl_keeps (fun d : Dev => (course d.touch, d.regs)) _ (fun d r => ?_) _ _
  extract_lets key x moved
  split <;> rfl

theorem setSurf_surf_other (d : Dev) {j k : Nat} (x : Surf) (h : j ≠ k) : (d.setSurf k x).surf j = d.surf j :=
  Tab.getD_setD_other _ _ _ _ h

theorem takenUp_keeps {γ : Type} (g : Dev → γ) (h : ∀ (d : Dev) k x, g (d.setSurf k x) = g d) (n : Nat) (d : Dev) :
    g (takenUp n d) = g d :=
  EventInputs.foldNat_keeps g _ (fun d k => h d k _) n d

theorem takenUp_rd (n : Nat) (d : Dev) (i s : Nat) : (takenUp n d).rd i s = d.rd i s :=
  takenUp_keeps (fun d => d.rd i s) (fun _ _ _ => rfl) n d

theorem takenUp_freq (n : Nat) (d : Dev) : (takenUp n d).touch.freq = d.touch.freq :=
  takenUp_keeps (fun d => d.touch.freq) (fun _ _ _ => rfl) n d

theorem takenUp_hopTo (n : Nat) (d : Dev) : (takenUp n d).touch.hopTo = d.touch.hopTo :=
  takenUp_keeps (fun d => d.touch.hopTo) (fun _ _ _ => rfl) n d

theorem takenUp_surf_later (d : Dev) {j n : Nat} (hj : n ≤ j) : (takenUp n d).surf j = d.surf j := by
  induction n with
  | zero => rfl
  | succ n ih => exact (setSurf_surf_other _ _ (by omega)).trans (ih (by omega))

theorem takenUp_surf (d : Dev) {j n : Nat} (hj : j < n) : (takenUp n d).surf j = takeUp (d.surf j) := by
  induction n with
  | zero => omega
  | succ n ih =>
    obtain hlt | rfl : j < n ∨ j = n := by omega
    · exact (setSurf_surf_other _ _ (by omega)).trans (ih hlt)
    · exact (Tab.getD_setD_same _ _ _ _).trans (congrArg takeUp (takenUp_surf_later d (Nat.le_refl j)))

theorem prepared_course (d : Dev) : course (prepared d).touch = course (hopped d).touch :=
  ((applyTrims_keeps _).1.trans (scanTimes_keeps _).1).trans (touchMode_course _)

theorem prepared_rd (d : Dev) (i s : Nat) : (prepared d).rd i s = (hopped d).touchMode.rd i s :=
  Dev.rd_congr ((applyTrims_keeps _).2.trans (scanTimes_keeps _).2) i s

section
variable {d : Dev} (hr : d.touchRuns = true) (hd : d.scanDue = true)
include hr hd

theorem touchScan_scanning : d.touchScan.touch.scanning = true := by
  rw [touchScan_of_due hr hd, begun_scanning]

theorem touchScan_rd (i s : Nat) : d.touchScan.rd i s = (hopped d).touchMode.rd i s := by
  rw [touchScan_of_due hr hd, begun_rd, takenUp_rd, prepared_rd]

theorem touchScan_freq : d.touchScan.touch.freq = (hopped d).touch.freq := by
  rw [touchScan_of_due hr hd, begun_freq, takenUp_freq]
  exact congrArg Prod.fst (prepared_course d)

theorem touchScan_hopTo : d.touchScan.touch.hopTo = 0 := by
  rw [touchScan_of_due hr hd, begun_hopTo, takenUp_hopTo, ← hopped_hopTo d]
  exact congrArg (fun c => c.2.1) (prepared_course d)

theorem touchScan_hops : d.touchScan.rd 0x3700 0x0A = (hopped d).rd 0x3700 0x0A := by
  rw [touchScan_rd hr hd, touchMode_hops]

theorem touchScan_hopping (hq : d.wantsQuiet = false) :
    d.touchScan.rd 0x3700 4 = 1 ∧ d.touchScan.rd 0x3700 5 = d.touchScan.touch.freq := by
  have mode := touchMode_of_hopping ((wantsQuiet_hopped d).trans hq)
  rw [touchScan_rd hr hd, touchScan_rd hr hd, mode, touchScan_freq hr hd]
  exact ⟨shown_hopping_mode _ _, shown_hopping_freq _ _⟩

theorem touchScan_surf {j : Nat} (hj : j < 8) : d.touchScan.surf j = takeUp (d.surf j) := by
  have surfs : (prepared d).touch.surfs = d.touch.surfs :=
    (congrArg (fun c => c.2.2) (prepared_course d)).trans (hopped_surfs d)
  have same : (prepared d).surf j = d.surf j := by rw [Dev.surf, surfs, Dev.surf]
  rw [touchScan_of_due hr hd, begun_surf, takenUp_surf _ hj, same]

end

/-! ### What the scan of a surface leaves alone -/

/-- What a report shows of the scan and of its listen slot beside the surfaces, with one field of the dictionary. -/
def watch (i s f : Nat) (d : Dev) : Bool × Nat × Nat := (d.touch.scanning, d.touch.listen, d.rdf i s f)

/-- Field `f` of object `s` of index `i` lies before the report of surface `k`, in no object of the guardian pair, and
before the counters of a surface. -/
structure Apart (k i s f : Nat) : Prop where
  guard : i ≠ 0x2400
  before : i < reportIdx k
  sub : s < 0x11
  field : f < 65536

theorem watch_wrf (d : Dev) {i s f j r g : Nat} (v : Nat) (h : regKey i s f ≠ regKey j r g) :
    watch i s f (d.wrf j r g v) = watch i s f d :=
  congrArg (fun x => (d.touch.scanning, d.touch.listen, x)) (Dev.rdf_wrf_other d h)

theorem watch_event (i s f : Nat) (d : Dev) (unit code p1 p2 : Nat) :
    watch i s f (d.event unit code p1 p2) = watch i s f d := by
  simp only [watch, event_touch, AudioStreams.event_rdf]

theorem watch_setSurf (i s f : Nat) (d : Dev) (k : Nat) (x : Surf) : watch i s f (d.setSurf k x) = watch i s f d := rfl

theorem watch_setNode (i s f : Nat) (d : Dev) (key : Nat) (x : TNode) :
    watch i s f (d.setNode key x) = watch i s f d := rfl

theorem rdf_of_watch {i s f : Nat} {d e : Dev} (h : watch i s f e = watch i s f d) : e.rdf i s f = d.rdf i s f :=
  congrArg (fun x => x.2.2) h

section
variable {k i s f : Nat} (h : Apart k i s f)
include h

theorem watch_raise (d : Dev) (unit code p1 p2 sev : Nat) :
    watch i s f (d.raise unit code p1 p2 sev) = watch i s f d := by
  have hs : s < 256 := Nat.lt_trans h.sub (by decide)
  simp only [watch, raise_touch, AudioStreams.raise_rdf d unit code p1 p2 sev h.guard hs h.field]

/-- The counters of a surface are object 11. -/
theorem watch_touchCount (d : Dev) {c : Nat} (n : Nat) (hc : c < 65536) :
    watch i s f (d.touchCount k c n) = watch i s f d := by
  obtain ⟨-, -, hs, hf⟩ := h
  exact watch_wrf d _ (by simp only [regKey]; omega)

/-- A surface's report, however many elements it holds, is written at and after its own index. -/
theorem watch_wr_report (d : Dev) (r v : Nat) : watch i s f (d.wr (reportIdx k) r v) = watch i s f d := by
  obtain ⟨-, hi, hs, hf⟩ := h
  exact watch_wrf d _ (by simp only [regKey]; omega)

theorem watch_wr_reports (v : Nat → Nat) (n : Nat) (d : Dev) :
    watch i s f (foldNat (fun d id => d.wr (reportIdx k) (3 + id) (v id)) n d) = watch i s f d :=
  EventInputs.foldNat_keeps (watch i s f) _ (fun d id => watch_wr_report h d (3 + id) (v id)) n d

theorem watch_setSurfState (d : Dev) (st : Nat) (hst : ¬ (i = surfIdx k ∧ s = 0x0F)) :
    watch i s f (d.setSurfState k st) = watch i s f d := by
  have hs : s < 256 := Nat.lt_trans h.sub (by decide)
  unfold Dev.setSurfState
  split
  · rfl
  · refine (watch_event _ _ _ _ _ _ _ _).trans (watch_wrf d _ fun e => ?_)
    obtain ⟨hi, hsub, -⟩ := regKey_inj hs (by decide) h.field (by decide) e
    exact hst ⟨hi, hsub⟩

omit h in
theorem watch_nodesLong (d : Dev) (ns : List (Nat × Nat)) : watch i s f (d.nodesLong k ns) = watch i s f d := by
  refine Is05.foldl_keeps (watch i s f) _ (fun d q => ?_) _ _
  extract_lets key x
  split <;> rfl

theorem watch_scanNodes (d : Dev) (sense : Nat → Nat) (rebase : Bool) :
    watch i s f (d.scanNodes k sense rebase) = watch i s f d := by
  refine Is05.foldl_keeps (watch i s f) _ (fun d q => ?_) _ _
  extract_lets key
  split
  extract_lets e
  split
  · exact (watch_raise h _ _ _ _ _ _).trans (watch_touchCount h e 1 (by decide))
  · exact watch_setNode i s f d key _

theorem watch_scanElement (d : Dev) (e : Nat) : watch i s f (d.scanElement k e) = watch i s f d := by
  unfold Dev.scanElement
  extract_lets o x el
  split
  extract_lets ds p v store
  have stored (d : Dev) (el : TElem) : watch i s f (store d el) = watch i s f d := watch_wr_report h _ _ _
  split
  · split
    · exact (stored _ _).trans (watch_touchCount h d 1 (by decide))
    · exact stored _ _
  · split
    · exact stored _ _
    · split
      · refine (stored _ _).trans ((watch_raise h _ _ _ _ _ _).trans ?_)
        exact (watch_touchCount h _ 1 (by decide)).trans (watch_nodesLong _ _)
      · exact stored _ _

theorem watch_scanPanel (d : Dev) : watch i s f (d.scanPanel k) = watch i s f d := by
  unfold Dev.scanPanel
  extract_lets o hot gs isLarge large new old rejected old' ms kept gone ended fresh used ids born counted due long kept'
    told cs x stored
  have hCounted : watch i s f counted = watch i s f d :=
    (watch_touchCount h _ _ (by decide)).trans (watch_touchCount h d _ (by decide))
  have hLong : watch i s f long = watch i s f counted := Is05.foldl_keeps (watch i s f) _ (fun e c =>
    (watch_raise h _ _ _ _ _ _).trans ((watch_touchCount h _ 1 (by decide)).trans (watch_nodesLong _ _))) _ _
  have hTold : watch i s f told = watch i s f long := Is05.foldl_keeps (watch i s f) _ (fun e g =>
    (watch_event _ _ _ _ _ _ _ _).trans (watch_touchCount h _ 1 (by decide))) _ _
  have hStored : watch i s f stored = watch i s f told := watch_setSurf i s f told k _
  exact (watch_wr_reports h _ 10 stored).trans (hStored.trans (hTold.trans (hLong.trans hCounted)))

end

/-! ### A surface at the end of a scan (R294 to R302) -/

/-- One scan of an acquisition (R296). -/
def acquisition (d : Dev) (k : Nat) (sense : Nat → Nat) : Dev :=
  if d.surfState k ≠ 1 then d
  else
    let e := (d.surfNodes k).foldl (fun d n =>
      let key := d.nodeKey k n
      let y := d.node key
      let raw := d.rawCount key (sense key)
      d.setNode key { y with raw := raw, sum := y.sum + raw, sense := sense key }) d
    let e := e.setSurf k { d.surf k with acq := (d.surf k).acq - 1 }
    if (d.surf k).acq ≤ 1 then e.acquired k else e

/-- The nodes of a running surface followed. -/
def followed (d : Dev) (k : Nat) (sense : Nat → Nat) (rebase : Bool) : Dev :=
  ((if rebase then d.touchCount k 5 1 else d).scanNodes k sense rebase).stuckNodes k

/-- The contacts or the elements of a running surface found. -/
def located (d : Dev) (k : Nat) : Dev :=
  if d.rd (surfIdx k) 2 = 1 then d.scanPanel k
  else foldNat (fun d e => d.scanElement k e) (d.elementCount k) d

/-- The count of scans and the flags `v` in a surface's report. -/
def reported (d : Dev) (k v : Nat) : Dev :=
  (d.wr (reportIdx k) 1 (d.rd 0x3700 9 % 2 ^ 32)).wr (reportIdx k) 2 v

/-- The scan of a running surface. -/
def tracked (d : Dev) (k : Nat) (sense : Nat → Nat) (rebase : Bool) : Dev :=
  let e := followed d k sense rebase
  located (e.setSurf k { e.surf k with rebaseNow := false }) k

theorem scanSurface_eq (d : Dev) (k : Nat) (sense : Nat → Nat) : ∃ v, d.scanSurface k sense =
    if (acquisition d k sense).surfState k ≠ 2 then acquisition d k sense
    else reported (tracked (acquisition d k sense) k sense (d.surf k).rebaseNow) k v :=
  ⟨_, rfl⟩

theorem acquisition_of_running {d : Dev} {k : Nat} (h : d.surfState k = 2) (sense : Nat → Nat) :
    acquisition d k sense = d :=
  if_pos (by rw [h]; decide)

theorem scanSurface_of_running {d : Dev} {k : Nat} (h : d.surfState k = 2) (sense : Nat → Nat) :
    ∃ v, d.scanSurface k sense = reported (tracked d k sense (d.surf k).rebaseNow) k v := by
  obtain ⟨v, hv⟩ := scanSurface_eq d k sense
  rw [acquisition_of_running h, if_neg (Classical.not_not.2 h)] at hv
  exact ⟨v, hv⟩

theorem reported_number (d : Dev) (k v : Nat) :
    (reported d k v).rd (reportIdx k) 1 = d.rd 0x3700 9 % 2 ^ 32 :=
  (Dev.rd_wr_other _ (by simp only [regKey]; omega)).trans (Dev.rd_wr_same _ _ _ _)

section
variable {k i s f : Nat} (h : Apart k i s f)
include h

theorem watch_acquired (d : Dev) (hst : ¬ (i = surfIdx k ∧ s = 0x0F)) :
    watch i s f (d.acquired k) = watch i s f d := by
  unfold Dev.acquired
  extract_lets thr e n run
  have hNodes : watch i s f e = watch i s f d :=
    Is05.foldl_keeps (watch i s f) _ (fun d q => watch_setNode i s f d _ _) _ _
  have hRun : watch i s f run = watch i s f e := watch_setSurfState h e 2 hst
  split
  · exact hRun.trans hNodes
  · exact (watch_raise h _ _ _ _ _ _).trans (hRun.trans hNodes)

theorem watch_acquisition {d : Dev} (sense : Nat → Nat)
    (hst : d.surfState k = 1 → ¬ (i = surfIdx k ∧ s = 0x0F)) :
    watch i s f (acquisition d k sense) = watch i s f d := by
  unfold acquisition
  extract_lets e x e'
  split
  · rfl
  next acquires =>
    have hNodes : watch i s f e = watch i s f d :=
      Is05.foldl_keeps (watch i s f) _ (fun d q => watch_setNode i s f d _ _) _ _
    have hCounted : watch i s f e' = watch i s f e := watch_setSurf i s f e k _
    split
    · exact (watch_acquired h _ (hst (Classical.not_not.1 acquires))).trans (hCounted.trans hNodes)
    · exact hCounted.trans hNodes

theorem watch_followed (d : Dev) (sense : Nat → Nat) (rebase : Bool) :
    watch i s f (followed d k sense rebase) = watch i s f d := by
  refine (watch_nodesLong _ _).trans ((watch_scanNodes h _ sense rebase).trans ?_)
  split
  · exact watch_touchCount h d 1 (by decide)
  · rfl

theorem watch_located (d : Dev) : watch i s f (located d k) = watch i s f d := by
  unfold located
  split
  · exact watch_scanPanel h d
  · exact EventInputs.foldNat_keeps (watch i s f) _ (fun d e => watch_scanElement h d e) _ _

theorem watch_tracked (d : Dev) (sense : Nat → Nat) (rebase : Bool) :
    watch i s f (tracked d k sense rebase) = watch i s f d :=
  (watch_located h _).trans ((watch_setSurf _ _ _ _ _ _).trans (watch_followed h d sense rebase))

/-- The scan of a surface leaves what lies before its report alone, but for the guardian pair, the surface's own
counters and, in its acquisition, its state. -/
theorem watch_scanSurface {d : Dev} (sense : Nat → Nat) (hst : d.surfState k = 1 → ¬ (i = surfIdx k ∧ s = 0x0F)) :
    watch i s f (d.scanSurface k sense) = watch i s f d := by
  obtain ⟨v, hv⟩ := scanSurface_eq d k sense
  rw [hv]
  split
  · exact watch_acquisition h sense hst
  · refine (watch_wr_report h _ _ _).trans ((watch_wr_report h _ _ _).trans ?_)
    exact (watch_tracked h _ _ _).trans (watch_acquisition h sense hst)

end

theorem apart_unit (k : Nat) {s f : Nat} (hs : s < 0x11) (hf : f < 65536) : Apart k 0x3700 s f :=
  ⟨by decide, by simp only [reportIdx]; omega, hs, hf⟩

theorem apart_surface (k : Nat) {j s : Nat} (hj : j < 8) (hs : s < 0x11) : Apart k (surfIdx j) s 0 :=
  ⟨by simp only [surfIdx]; omega, by simp only [surfIdx, reportIdx]; omega, hs, by decide⟩

theorem apart_report {j k s : Nat} (hjk : j < k) (hs : s < 0x11) : Apart k (reportIdx j) s 0 :=
  ⟨by simp only [reportIdx]; omega, by simp only [reportIdx]; omega, hs, by decide⟩

theorem scanSurface_number {d : Dev} {k : Nat} (h : d.surfState k = 2) (sense : Nat → Nat) :
    (d.scanSurface k sense).rd (reportIdx k) 1 = d.rd 0x3700 9 % 2 ^ 32 := by
  have count : (tracked d k sense (d.surf k).rebaseNow).rd 0x3700 9 = d.rd 0x3700 9 :=
    rdf_of_watch (watch_tracked (apart_unit k (by decide) (by decide)) d sense _)
  obtain ⟨v, hv⟩ := scanSurface_of_running h sense
  rw [hv, reported_number, count]

/-! ### All surfaces -/

/-- A surface scanned where it is enabled. -/
def scanEnabled (sense : Nat → Nat) (d : Dev) (k : Nat) : Dev :=
  if d.rdb (surfIdx k) 1 then d.scanSurface k sense else d

theorem watch_scanEnabled {k i s f : Nat} (h : Apart k i s f) {d : Dev} (sense : Nat → Nat)
    (hst : d.surfState k = 1 → ¬ (i = surfIdx k ∧ s = 0x0F)) :
    watch i s f (scanEnabled sense d k) = watch i s f d := by
  unfold scanEnabled
  split
  · exact watch_scanSurface h sense hst
  · rfl

theorem watch_scanAll {i s f : Nat} (h : ∀ k, Apart k i s f) (hs : s ≠ 0x0F) (sense : Nat → Nat) (n : Nat) (d : Dev) :
    watch i s f (foldNat (scanEnabled sense) n d) = watch i s f d :=
  EventInputs.foldNat_keeps (watch i s f) _ (fun _ k => watch_scanEnabled (h k) sense fun _ e => hs e.2) n d

section
variable {d : Dev} {j : Nat} (sense : Nat → Nat) (hj : j < 8) (hrun : d.surfState j = 2)
include hj hrun

theorem scanAll_running (n : Nat) : (foldNat (scanEnabled sense) n d).surfState j = 2 := by
  induction n with
  | zero => exact hrun
  | succ n ih =>
    refine (rdf_of_watch (watch_scanEnabled (apart_surface n hj (by decide)) sense fun acquires own => ?_)).trans ih
    obtain rfl : j = n := by simpa only [surfIdx, Nat.add_left_cancel_iff] using own.1
    exact absurd (ih.symm.trans acquires) (by decide)

/-- A surface that runs shows the count of scans, and the scans of later surfaces leave it alone. -/
theorem scanAll_number (hon : d.rdb (surfIdx j) 1 = true) {n : Nat} (hn : j < n) :
    (foldNat (scanEnabled sense) n d).rd (reportIdx j) 1 = d.rd 0x3700 9 % 2 ^ 32 := by
  induction n with
  | zero => omega
  | succ n ih =>
    obtain hlt | rfl : j < n ∨ j = n := by omega
    · exact (rdf_of_watch (watch_scanEnabled (apart_report hlt (by decide)) sense
        fun _ own => absurd own.2 (by decide))).trans (ih hlt)
    · let e := foldNat (scanEnabled sense) j d
      have enabled : e.rdb (surfIdx j) 1 = true := by
        rw [← hon, Dev.rdb, Dev.rdb]
        exact congrArg (· != 0)
          (rdf_of_watch (watch_scanAll (fun k => apart_surface k hj (by decide)) (by decide) sense j d))
      have count : e.rd 0x3700 9 = d.rd 0x3700 9 :=
        rdf_of_watch (watch_scanAll (fun k => apart_unit k (by decide) (by decide)) (by decide) sense j d)
      have own : scanEnabled sense e j = e.scanSurface j sense := if_pos enabled
      rw [← count]
      exact (congrArg (·.rd (reportIdx j) 1) own).trans (scanSurface_number (scanAll_running sense hj hrun j) sense)

end

/-! ### The report of a scan (R293, R294) -/

/-- The scan ended and counted. -/
def ended (d : Dev) : Dev :=
  ({ d with touch := { d.touch with scanning := false } } : Dev).wr 0x3700 9 ((d.rd 0x3700 9 + 1) % 2 ^ 64)

/-- The sense counts of a report by node key. -/
def senseOf (raw : List (Nat × Nat)) (key : Nat) : Nat := ((raw.find? fun e => e.1 == key).map (·.2 % 65536)).getD 0

theorem touchReport_of_ended {d : Dev} (hs : d.touch.scanning = true) (he : d.touch.endAt ≤ d.now)
    (raw : List (Nat × Nat)) (noise : Nat) :
    d.touchReport raw noise = foldNat (scanEnabled (senseOf raw)) 8 ((ended d).touchListen noise) := by
  have finished : ¬ (!d.touch.scanning ∨ d.now < d.touch.endAt) := by
    simp only [hs, Bool.not_true, Bool.false_eq_true, false_or]
    exact Nat.not_lt.2 he
  rw [Dev.touchReport, if_neg finished]
  rfl

theorem ended_count (d : Dev) : (ended d).rd 0x3700 9 = (d.rd 0x3700 9 + 1) % 2 ^ 64 := Dev.rd_wr_same _ _ _ _

theorem ended_rd (d : Dev) {i s : Nat} (hs : s < 256) (h : ¬ (i = 0x3700 ∧ s = 9)) :
    (ended d).rd i s = d.rd i s :=
  Dev.rd_wr_other _ fun e =>
    have key := regKey_inj hs (by decide) (by decide) (by decide) e
    h ⟨key.1, key.2.1⟩

theorem touchListen_of_quiet {d : Dev} (h : d.rd 0x3700 4 = 0) (noise : Nat) : d.touchListen noise = d := if_pos h

/-- Outside quiet mode the noise of the listened frequency is kept, and the next one is listened to. -/
theorem touchListen_of_hopping {d : Dev} (h : d.rd 0x3700 4 ≠ 0) (noise : Nat) : ∃ heard beyond hopTo,
    d.touchListen noise = { d.wrf 0x3700 6 (d.touch.listen % 8) (noise % 65536) with touch := { d.touch with
      listen := (d.touch.listen % 8 + 1) % 8, heard := heard, beyond := beyond, hopTo := hopTo } } := by
  rw [Dev.touchListen, if_neg h]
  exact ⟨_, _, _, rfl⟩

theorem touchListen_scanning (d : Dev) (noise : Nat) : (d.touchListen noise).touch.scanning = d.touch.scanning := by
  by_cases h : d.rd 0x3700 4 = 0
  · rw [touchListen_of_quiet h]
  · obtain ⟨heard, beyond, hopTo, listened⟩ := touchListen_of_hopping h noise
    rw [listened]

theorem touchListen_rd (d : Dev) (noise : Nat) {i s : Nat} (hs : s < 256) (h6 : ¬ (i = 0x3700 ∧ s = 6)) :
    (d.touchListen noise).rd i s = d.rd i s := by
  by_cases h : d.rd 0x3700 4 = 0
  · rw [touchListen_of_quiet h]
  · obtain ⟨heard, beyond, hopTo, listened⟩ := touchListen_of_hopping h noise
    rw [listened]
    refine Dev.rdf_wrf_other d fun e => ?_
    obtain ⟨hi, hsub, -⟩ := regKey_inj hs (by decide) (by decide) (by omega) e
    exact h6 ⟨hi, hsub⟩

section
variable {d : Dev} (hs : d.touch.scanning = true) (he : d.touch.endAt ≤ d.now) (raw : List (Nat × Nat)) (noise : Nat)
include hs he

/-- Beside the surfaces a report shows the ended scan and its listen slot. -/
theorem watch_touchReport {s f : Nat} (hsub : s < 0x11) (hst : s ≠ 0x0F) (hf : f < 65536) :
    watch 0x3700 s f (d.touchReport raw noise) = watch 0x3700 s f ((ended d).touchListen noise) := by
  rw [touchReport_of_ended hs he]
  exact watch_scanAll (fun k => apart_unit k hsub hf) hst _ 8 _

theorem touchReport_scanning : (d.touchReport raw noise).touch.scanning = false :=
  (congrArg Prod.fst (watch_touchReport hs he raw noise (s := 9) (f := 0) (by decide) (by decide) (by decide))).trans
    (touchListen_scanning _ _)

theorem touchReport_listen :
    (d.touchReport raw noise).touch.listen = ((ended d).touchListen noise).touch.listen :=
  congrArg (fun x => x.2.1)
    (watch_touchReport hs he raw noise (s := 9) (f := 0) (by decide) (by decide) (by decide))

theorem touchReport_count : (d.touchReport raw noise).rd 0x3700 9 = (d.rd 0x3700 9 + 1) % 2 ^ 64 := by
  have kept : (d.touchReport raw noise).rd 0x3700 9 = ((ended d).touchListen noise).rd 0x3700 9 :=
    rdf_of_watch (watch_touchReport hs he raw noise (by decide) (by decide) (by decide))
  rw [kept, touchListen_rd _ _ (by decide) (by decide), ended_count]

theorem touchReport_quiet (h : d.rd 0x3700 4 = 0) : (d.touchReport raw noise).touch.listen = d.touch.listen := by
  have quiet : (ended d).rd 0x3700 4 = 0 := (ended_rd d (by decide) (by decide)).trans h
  rw [touchReport_listen hs he, touchListen_of_quiet quiet]
  rfl

theorem touchReport_hopping (h : d.rd 0x3700 4 ≠ 0) :
    (d.touchReport raw noise).rdf 0x3700 6 (d.touch.listen % 8) = noise % 65536 ∧
      (d.touchReport raw noise).touch.listen = (d.touch.listen % 8 + 1) % 8 := by
  have hopping : (ended d).rd 0x3700 4 ≠ 0 := fun quiet => h ((ended_rd d (by decide) (by decide)).symm.trans quiet)
  obtain ⟨heard, beyond, hopTo, listened⟩ := touchListen_of_hopping hopping noise
  constructor
  · rw [rdf_of_watch (watch_touchReport hs he raw noise (by decide) (by decide) (by omega)), listened]
    exact Dev.rdf_wrf_same (ended d) _ _ _ _
  · rw [touchReport_listen hs he, listened]
    rfl

theorem touchReport_surface {j : Nat} (hj : j < 8) (hon : d.rdb (surfIdx j) 1 = true) (hrun : d.surfState j = 2) :
    (d.touchReport raw noise).surfState j = 2 ∧
      (d.touchReport raw noise).rd (reportIdx j) 1 = (d.rd 0x3700 9 + 1) % 2 ^ 64 % 2 ^ 32 := by
  let e := (ended d).touchListen noise
  have unit : surfIdx j ≠ 0x3700 := by simp only [surfIdx]; omega
  have surface {s : Nat} (hs : s < 256) : e.rd (surfIdx j) s = d.rd (surfIdx j) s :=
    (touchListen_rd _ _ hs fun h => unit h.1).trans (ended_rd d hs fun h => unit h.1)
  have running : e.surfState j = 2 := (surface (by decide)).trans hrun
  have enabled : e.rdb (surfIdx j) 1 = true := by rw [Dev.rdb, surface (by decide), ← Dev.rdb, hon]
  have count : e.rd 0x3700 9 = (d.rd 0x3700 9 + 1) % 2 ^ 64 :=
    (touchListen_rd _ _ (by decide) (by decide)).trans (ended_count d)
  rw [touchReport_of_ended hs he, ← count]
  exact ⟨scanAll_running _ hj running 8, scanAll_number _ hj running enabled hj⟩

end

/-! ### A node in a scan (R295, R297, R299) -/

/-- How far a count lies below a node's baseline. -/
def drop (x : TNode) (v : Nat) : Int := (x.base / 256 : Nat) - v

section
variable {x : TNode} {v thr rel neg : Nat} (t divisor : Nat)

theorem scan_rebase (x : TNode) (v thr rel neg : Nat) : x.scan v t thr rel neg divisor true =
    ({ x with raw := v, base := v * 256, st := 0, delta := 0 }, false) := rfl

/-- A touched or long node whose count falls is let go first; an idle node is judged by the other thresholds. -/
theorem scan_eq (x : TNode) (v thr rel neg : Nat) : x.scan v t thr rel neg divisor false =
    (let m : TNode := { x with raw := v, delta := drop x v }
     let n := if x.st ≠ 0 ∧ drop x v < rel then { m with st := 0 } else m
     if n.st ≠ 0 then (n, false)
     else if (thr : Int) ≤ drop x v then ({ n with st := 1, since := t }, false)
     else if drop x v ≤ -(neg : Int) then ({ n with base := v * 256, delta := 0, flagged := false }, true)
     else ({ n with base := ((n.base : Int) + freeRound ((v * 256 : Nat) - (n.base : Int)) divisor).toNat }, false)) :=
  rfl

theorem scan_of_touched (hst : x.st = 0) (hthr : (thr : Int) ≤ drop x v) : x.scan v t thr rel neg divisor false =
    ({ x with raw := v, delta := drop x v, st := 1, since := t }, false) := by
  simp only [scan_eq, hst, ne_eq, not_true_eq_false, false_and, ↓reduceIte, hthr]

theorem scan_of_held (hst : x.st ≠ 0) (hrel : (rel : Int) ≤ drop x v) : x.scan v t thr rel neg divisor false =
    ({ x with raw := v, delta := drop x v }, false) := by
  simp only [scan_eq, ne_eq, hst, not_false_eq_true, Int.not_lt.2 hrel, and_false, ↓reduceIte]

/-- Between the thresholds an idle node's baseline follows the count. -/
theorem scan_of_released (hst : x.st ≠ 0) (hrel : drop x v < rel) (hneg : -(neg : Int) < drop x v)
    (hthr : drop x v < thr) : x.scan v t thr rel neg divisor false =
    ({ x with raw := v, delta := drop x v, st := 0, base := ((x.base : Int) +
      freeRound ((v * 256 : Nat) - (x.base : Int)) divisor).toNat }, false) := by
  simp only [scan_eq, ne_eq, hst, not_false_eq_true, hrel, and_self, ↓reduceIte, not_true_eq_false, Int.not_le.2 hthr,
    Int.not_le.2 hneg]

theorem scan_of_antitouch (hst : x.st = 0) (hneg : drop x v ≤ -(neg : Int)) (hthr : drop x v < thr) :
    x.scan v t thr rel neg divisor false =
    ({ x with raw := v, base := v * 256, delta := 0, flagged := false }, true) := by
  simp only [scan_eq, hst, ne_eq, not_true_eq_false, false_and, ↓reduceIte, Int.not_le.2 hthr, hneg]

theorem scan_raw (x : TNode) (v thr rel neg : Nat) : (x.scan v t thr rel neg divisor false).1.raw = v := by
  rw [scan_eq]
  extract_lets m n
  have raw : n.raw = v := by
    unfold n
    split <;> rfl
  split
  · exact raw
  · split
    · exact raw
    · split <;> exact raw

end

/-! ### The commands -/

theorem exec_touchScan (t : Nat) (s : State) : exec (.touchScan t) s = execTouchScan t s := by
  rfl

theorem exec_touchReport (t : Nat) (raw : List (Nat × Nat)) (noise : Nat) (s : State) :
    exec (.touchReport t raw noise) s = execTouchReport t raw noise s := by
  rfl

theorem exec_touchRebaseline (t : Nat) (by_ : Requester) (k : Nat) (s : State) :
    exec (.touchRebaseline t by_ k) s = execTouchRebaseline t by_ k s := by
  rfl

section
variable {s : State} {t : Nat}

theorem exec_touchScan_alive (h : (s.found t).alive = true) :
    exec (.touchScan t) s = .next { s with dev := (s.found t).touchScan } := by
  rw [exec_touchScan, execTouchScan, onDev_alive h]

theorem exec_touchReport_alive (h : (s.found t).alive = true) (raw : List (Nat × Nat)) (noise : Nat) :
    exec (.touchReport t raw noise) s = .next { s with dev := (s.found t).touchReport raw noise } := by
  rw [exec_touchReport, execTouchReport, onDev_alive h]

variable {by_ : Requester} {k : Nat} (h : (s.found t).grants by_ (surfIdx k) 0x0E [1])
include h

theorem exec_touchRebaseline_waits (hst : (s.found t).surfState k ≠ 1) : exec (.touchRebaseline t by_ k) s =
    .next { s with dev :=
      ((s.found t).setSurf k { (s.found t).surf k with rebase := true }).grantedTo by_ } := by
  have ok : (s.found t).rebaseStatus k = stOk := if_neg hst
  rw [exec_touchRebaseline, execTouchRebaseline, onCommand_alive h.1, Dev.commandPre_granted h ok]
  rfl

theorem exec_touchRebaseline_refused (hst : (s.found t).surfState k = 1) : exec (.touchRebaseline t by_ k) s =
    .next { s with dev := (s.found t).send (.answer by_ stWrongState none) } := by
  have refused : (s.found t).rebaseStatus k = stWrongState := if_pos hst
  rw [exec_touchRebaseline, execTouchRebaseline, onCommand_alive h.1,
    Dev.commandPre_refused h (by rw [refused]; decide), refused]
  rfl

end

end Sys2Proof.Machine.TouchScans

open Sys2Proof Sys2Proof.Machine Sys2Proof.Machine.TouchScans in
/-- Settles O46: what the start of a scan settles outlives its mode, times and trims; a report's surfaces, scanned in
order, write before their reports only their own counters and acquisition; a node's branches are its thresholds. -/
theorem touchCommandsComplete : Obligations.TouchCommandsComplete := by
  intro s t k raw noise by_ x v thr rel neg divisor d
  refine ⟨fun halive hr hd => ?scan, fun halive hs he => ?report, ?node, exec_touchRebaseline_waits,
    exec_touchRebaseline_refused⟩
  case scan =>
    refine ⟨_, exec_touchScan_alive halive, rfl, touchScan_scanning hr hd, touchScan_hopTo hr hd, fun none => ?_,
      fun hop => ?_, touchScan_hopping hr hd, fun j hj => ?_⟩
    · rw [touchScan_freq hr hd, touchScan_hops hr hd, hopped_of_none none]
      exact ⟨rfl, rfl⟩
    · rw [touchScan_freq hr hd, touchScan_hops hr hd, hopped_freq hop, hopped_count hop]
      exact ⟨rfl, rfl⟩
    · rw [touchScan_surf hr hd hj]
      exact ⟨rfl, rfl⟩
  case report =>
    exact ⟨_, exec_touchReport_alive halive raw noise, rfl, touchReport_scanning hs he raw noise,
      touchReport_count hs he raw noise, touchReport_hopping hs he raw noise, touchReport_quiet hs he raw noise,
      fun j hj => touchReport_surface hs he raw noise hj⟩
  case node =>
    intro dl y
    refine ⟨fun hst hthr _ => ?touched, fun hst hrel => ?held, fun hst hrel hneg hthr => ?released,
      fun hst hneg hthr => ?antitouch, scan_raw t divisor x v thr rel neg, ?_, ?_⟩
    case touched =>
      have node : y = _ := scan_of_touched t divisor hst hthr
      rw [node]
      exact ⟨rfl, rfl, rfl, rfl⟩
    case held =>
      have node : y = _ := scan_of_held t divisor hst hrel
      rw [node]
      exact ⟨rfl, rfl, rfl⟩
    case released =>
      have node : y = _ := scan_of_released t divisor hst hrel hneg hthr
      rw [node]
      exact ⟨rfl, rfl⟩
    case antitouch =>
      have node : y = _ := scan_of_antitouch t divisor hst hneg hthr
      rw [node]
      exact ⟨rfl, hst, rfl, rfl⟩
    · rw [scan_rebase]
    · rw [scan_rebase]
end

section
/-! O38: what an accepted write makes of the bytes of its word, and why emptying the queues changes no read (R306,
R307). -/
namespace Sys2Proof.Machine.WriteQueues

/-! ### Bytes over bytes -/

theorem overwrite_getElem? {b : List Byte} {o : Nat} (ho : o ≤ b.length) (v : List Byte) (j : Nat) :
    (overwrite b o v)[j]? = if o ≤ j ∧ j < o + v.length then v[j - o]? else b[j]? := by
  have hlen : (b.take o).length = o := List.length_take_of_le ho
  unfold overwrite
  obtain before | inside | behind : j < o ∨ (o ≤ j ∧ j < o + v.length) ∨ o + v.length ≤ j := by omega
  · rw [if_neg (by omega), List.append_assoc, List.getElem?_append_left (by omega), List.getElem?_take_of_lt before]
  · rw [if_pos inside, List.append_assoc, List.getElem?_append_right (by omega), hlen,
      List.getElem?_append_left (by omega)]
  · have past : (b.take o ++ v).length = o + v.length := by rw [List.length_append, hlen]
    rw [if_neg (by omega), List.getElem?_append_right (by omega), past, List.getElem?_drop,
      Nat.add_sub_cancel' behind]

theorem overwrite_getD {b : List Byte} {o : Nat} (ho : o ≤ b.length) (v : List Byte) (j : Nat) :
    (overwrite b o v).getD j 0 = if o ≤ j ∧ j < o + v.length then v.getD (j - o) 0 else b.getD j 0 := by
  rw [List.getD_eq_getElem?_getD, overwrite_getElem? ho, List.getD_eq_getElem?_getD, List.getD_eq_getElem?_getD]
  split
  · rfl
  · rfl

/-- Bytes laid over a list never shorten it. -/
theorem le_overwrite_length (b : List Byte) (o : Nat) (v : List Byte) : b.length ≤ (overwrite b o v).length := by
  simp only [overwrite, List.length_append, List.length_take, List.length_drop]
  omega

theorem overwrite_length {b : List Byte} {o : Nat} {v : List Byte} (h : o + v.length ≤ b.length) :
    (overwrite b o v).length = b.length := by
  simp only [overwrite, List.length_append, List.length_take, List.length_drop]
  omega

/-! ### A word in the HBM -/

theorem read_writeBytes (bs : List Byte) (m : Mem) (a c : Nat) :
    (m.writeBytes a bs).read c = if a ≤ c ∧ c < a + bs.length then bs.getD (c - a) 0 else m.read c := by
  induction bs generalizing m a with
  | nil => rw [Mem.writeBytes, List.length_nil, if_neg (by omega)]
  | cons b bs ih =>
    rw [Mem.writeBytes, ih, List.length_cons]
    obtain outside | rfl | inside :
        (c < a ∨ a + (bs.length + 1) ≤ c) ∨ c = a ∨ (a + 1 ≤ c ∧ c < a + 1 + bs.length) := by omega
    · rw [if_neg (by omega), if_neg (by omega), Mem.read_write_other m b (by omega)]
    · rw [if_neg (by omega), if_pos (by omega), Mem.read_write_same, Nat.sub_self, List.getD_cons_zero]
    · rw [if_pos inside, if_pos (by omega), show c - a = c - (a + 1) + 1 by omega, List.getD_cons_succ]

@[simp] theorem readBytes_length (m : Mem) (a n : Nat) : (m.readBytes a n).length = n := by simp [Mem.readBytes]

theorem readBytes_getElem (m : Mem) {a n j : Nat} (h : j < (m.readBytes a n).length) :
    (m.readBytes a n)[j] = m.read (a + j) := by simp [Mem.readBytes]

/-- Bytes of a word written to the HBM lie over the word that was there. -/
theorem readBytes_writeBytes {m : Mem} {a n off : Nat} {v : List Byte} (h : off + v.length ≤ n) :
    (m.writeBytes (a + off) v).readBytes a n = overwrite (m.readBytes a n) off v := by
  have ho : off ≤ (m.readBytes a n).length := by rw [readBytes_length]; omega
  have hlen : (overwrite (m.readBytes a n) off v).length = n := by
    rw [overwrite_length (by rw [readBytes_length]; exact h), readBytes_length]
  refine List.ext_getElem (by rw [readBytes_length, hlen]) fun j hl hr => ?_
  have hj : j < (m.readBytes a n).length := by rwa [readBytes_length] at hl ⊢
  rw [readBytes_getElem, read_writeBytes, List.getElem_eq_getD 0, overwrite_getD ho,
    ← List.getElem_eq_getD (h := hj) 0, readBytes_getElem, Nat.add_sub_add_left]
  by_cases inside : off ≤ j ∧ j < off + v.length
  · rw [if_pos inside, if_pos (by omega)]
  · rw [if_neg inside, if_neg (by omega)]

/-- Bytes written elsewhere leave it alone. -/
theorem readBytes_writeBytes_outside {m : Mem} {a b n : Nat} {v : List Byte} (h : b + v.length ≤ a ∨ a + n ≤ b) :
    (m.writeBytes b v).readBytes a n = m.readBytes a n := by
  refine List.ext_getElem (by simp) fun j hl hr => ?_
  have hj : j < n := by simpa using hl
  rw [readBytes_getElem, readBytes_getElem, Mem.read_writeBytes_outside v m (by omega)]

/-! ### A word and the writes that wait -/

/-- What a queued write makes of the bytes of word `w` that a read finds (R307). -/
def laid (w : Nat) (b : List Byte) (q : QWrite) : List Byte := if q.word = w then overwrite b q.off q.data else b

theorem wordBytes_eq (d : Dev) (mem : Mem) (w : Nat) :
    d.wordBytes mem w = (d.pc (placeOf (w * 32)).pc).queue.foldl (laid w) (mem.readBytes (w * 32) 32) := rfl

theorem pc_congr {d e : Dev} (h : e.pcs = d.pcs) (p : Nat) : e.pc p = d.pc p := by simp only [Dev.pc, h]

theorem wordBytes_congr {d e : Dev} (h : e.pcs = d.pcs) (mem : Mem) (w : Nat) :
    e.wordBytes mem w = d.wordBytes mem w := by
  simp only [Dev.wordBytes, Dev.pc, h]

theorem le_foldl_laid_length (w : Nat) (qs : List QWrite) (b : List Byte) :
    b.length ≤ (qs.foldl (laid w) b).length := by
  induction qs generalizing b with
  | nil => exact Nat.le_refl _
  | cons q qs ih =>
    refine Nat.le_trans ?_ (ih _)
    unfold laid
    split
    · exact le_overwrite_length _ _ _
    · exact Nat.le_refl _

theorem le_wordBytes_length (d : Dev) (mem : Mem) (w : Nat) : 32 ≤ (d.wordBytes mem w).length := by
  have h := le_foldl_laid_length w (d.pc (placeOf (w * 32)).pc).queue (mem.readBytes (w * 32) 32)
  rwa [readBytes_length] at h

theorem foldl_laid_of_other_words {w : Nat} {qs : List QWrite} (h : ∀ q ∈ qs, q.word ≠ w) (b : List Byte) :
    qs.foldl (laid w) b = b := by
  induction qs with
  | nil => rfl
  | cons q qs ih =>
    rw [List.foldl_cons, laid, if_neg (h q List.mem_cons_self), ih fun q hq => h q (List.mem_cons_of_mem _ hq)]

@[simp] theorem pc_setPcRt_same (d : Dev) (p : Nat) (x : PcRt) : (d.setPcRt p x).pc p = x := Tab.getD_setD_same _ _ _ _

theorem pc_setPcRt_other (d : Dev) {p j : Nat} (x : PcRt) (h : j ≠ p) : (d.setPcRt p x).pc j = d.pc j :=
  Tab.getD_setD_other _ _ _ _ h

/-! ### A write is accepted -/

section
variable {d : Dev} {w : Nat} (hs : (d.pc (placeOf (w * 32)).pc).state = 0)
  (hq : (d.pc (placeOf (w * 32)).pc).queue.length < 47) (mem : Mem) (off : Nat) (data : List Byte)
include hs hq

/-- A pseudo-channel in service whose queue has room takes a write into its queue, and drains nothing. -/
theorem acceptWrite_queued : d.acceptWrite mem w off data =
    (d.setPcRt (placeOf (w * 32)).pc { d.pc (placeOf (w * 32)).pc with
      queue := (d.pc (placeOf (w * 32)).pc).queue ++ [⟨w, off, data, d.now⟩] }, mem) := by
  unfold Dev.acceptWrite
  dsimp only
  rw [if_neg (not_not_intro hs), if_neg (by omega)]

theorem wordBytes_acceptWrite : (d.acceptWrite mem w off data).1.wordBytes mem w =
    overwrite (d.wordBytes mem w) off data := by
  rw [acceptWrite_queued hs hq, wordBytes_eq, pc_setPcRt_same, List.foldl_append, List.foldl_cons, List.foldl_nil,
    ← wordBytes_eq, laid, if_pos rfl]

theorem wordBytes_acceptWrite_getD {off : Nat} {data : List Byte} (h : off + data.length ≤ 32) (j : Nat) :
    ((d.acceptWrite mem w off data).1.wordBytes mem w).getD j 0 =
      if off ≤ j ∧ j < off + data.length then data.getD (j - off) 0 else (d.wordBytes mem w).getD j 0 := by
  rw [wordBytes_acceptWrite hs hq, overwrite_getD (Nat.le_trans (by omega) (le_wordBytes_length d mem w))]

end

/-! ### Queues are emptied -/

/-- Nothing is known to be poisoned or in error, and each queue holds writes inside words of its own pseudo-channel. -/
structure Orderly (d : Dev) : Prop where
  words : d.words = []
  clean : ∀ p, (d.pc p).poison = false
  placed : ∀ p q, p < 64 → q ∈ (d.pc p).queue → p = (placeOf (q.word * 32)).pc ∧ q.off + q.data.length ≤ 32

/-- The HBM after queued writes, oldest first. -/
def stored (mem : Mem) (qs : List QWrite) : Mem := qs.foldl (fun m q => m.writeBytes (q.word * 32 + q.off) q.data) mem

/-- Every write of a queue that reaches the HBM lies in its word as a read saw it before. -/
theorem readBytes_stored {qs : List QWrite} (h : ∀ q ∈ qs, q.off + q.data.length ≤ 32) (mem : Mem) (w : Nat) :
    (stored mem qs).readBytes (w * 32) 32 = qs.foldl (laid w) (mem.readBytes (w * 32) 32) := by
  induction qs generalizing mem with
  | nil => rfl
  | cons q qs ih =>
    have hq : q.off + q.data.length ≤ 32 := h q List.mem_cons_self
    have first : (mem.writeBytes (q.word * 32 + q.off) q.data).readBytes (w * 32) 32 =
        laid w (mem.readBytes (w * 32) 32) q := by
      unfold laid
      split
      · subst w
        exact readBytes_writeBytes hq
      · exact readBytes_writeBytes_outside (by omega)
    rw [List.foldl_cons, ← first]
    exact ih (fun q hq => h q (List.mem_cons_of_mem _ hq)) _

theorem setWord_zero {d : Dev} (h : d.words = []) (w : Nat) : d.setWord w 0 = d := by
  unfold Dev.setWord
  rw [h, Tab.setD, if_pos rfl, Tab.erase, ← h]

section
variable {d : Dev} (hw : d.words = []) (hc : ∀ p, (d.pc p).poison = false)
include hw hc

/-- Where nothing is poisoned or in error, a queued write reaches the HBM and changes nothing else. -/
theorem applyWrite_clean (mem : Mem) {q : QWrite} (hq : q.off + q.data.length ≤ 32) :
    applyWrite (d, mem) q = (d, mem.writeBytes (q.word * 32 + q.off) q.data) := by
  unfold applyWrite
  dsimp only
  split
  case isTrue whole =>
    have aligned : q.off = 0 := by omega
    rw [hc, if_neg Bool.false_ne_true, setWord_zero hw, aligned, Nat.add_zero]
  case isFalse part =>
    have good : d.wordState q.word = 0 := by simp [Dev.wordState, hw, hc, Tab.getD]
    rw [if_neg (not_not_intro good)]

theorem foldl_applyWrite_clean {qs : List QWrite} (hq : ∀ q ∈ qs, q.off + q.data.length ≤ 32) (mem : Mem) :
    qs.foldl applyWrite (d, mem) = (d, stored mem qs) := by
  induction qs generalizing mem with
  | nil => rfl
  | cons q qs ih =>
    rw [List.foldl_cons, applyWrite_clean hw hc mem (hq q List.mem_cons_self),
      ih fun q h => hq q (List.mem_cons_of_mem _ h)]
    rfl

end

/-- One step of `Dev.drainAll`: the queue of a pseudo-channel is emptied. -/
def emptied (s : Dev × Mem) (p : Nat) : Dev × Mem :=
  (s.1.pc p).queue.foldl applyWrite (s.1.setPcRt p { s.1.pc p with queue := [] }, s.2)

theorem drainAll_eq (d : Dev) (mem : Mem) : d.drainAll mem = foldNat emptied 64 (d, mem) := rfl

section
variable {d : Dev} (ho : Orderly d) {p : Nat} (hp : p < 64)
include ho

theorem Orderly.emptyQueue (p : Nat) : Orderly (d.setPcRt p { d.pc p with queue := [] }) := by
  obtain ⟨hw, hc, hq⟩ := ho
  refine ⟨hw, fun j => ?_, fun j q hj h => ?_⟩
  · by_cases e : j = p
    · subst e
      rw [pc_setPcRt_same]
      exact hc j
    · rw [pc_setPcRt_other d _ e]
      exact hc j
  · by_cases e : j = p
    · subst e
      rw [pc_setPcRt_same] at h
      cases h
    · rw [pc_setPcRt_other d _ e] at h
      exact hq j q hj h

include hp

theorem emptied_eq (mem : Mem) : emptied (d, mem) p =
    (d.setPcRt p { d.pc p with queue := [] }, stored mem (d.pc p).queue) :=
  foldl_applyWrite_clean (ho.emptyQueue p).words (ho.emptyQueue p).clean (fun q h => (ho.placed p q hp h).2) mem

/-- The word's own queue is laid over it in the HBM; the writes of any other queue lie in other words. -/
theorem wordBytes_emptied (mem : Mem) (w : Nat) :
    (emptied (d, mem) p).1.wordBytes (emptied (d, mem) p).2 w = d.wordBytes mem w := by
  have inside : ∀ q ∈ (d.pc p).queue, q.off + q.data.length ≤ 32 := fun q h => (ho.placed p q hp h).2
  rw [emptied_eq ho hp, wordBytes_eq, wordBytes_eq, readBytes_stored inside]
  by_cases e : (placeOf (w * 32)).pc = p
  · rw [e, pc_setPcRt_same]
    rfl
  · have others : ∀ q ∈ (d.pc p).queue, q.word ≠ w := fun q h hw => e (hw ▸ (ho.placed p q hp h).1.symm)
    rw [pc_setPcRt_other d _ e, foldl_laid_of_other_words others]

end

theorem wordBytes_foldNat_emptied {d : Dev} (ho : Orderly d) (mem : Mem) (w : Nat) {n : Nat} (hn : n ≤ 64) :
    Orderly (foldNat emptied n (d, mem)).1 ∧
      (foldNat emptied n (d, mem)).1.wordBytes (foldNat emptied n (d, mem)).2 w = d.wordBytes mem w := by
  induction n with
  | zero => exact ⟨ho, rfl⟩
  | succ n ih =>
    obtain ⟨orderly, same⟩ := ih (by omega)
    refine ⟨?_, (wordBytes_emptied orderly hn _ w).trans same⟩
    have h := emptied_eq orderly hn (foldNat emptied n (d, mem)).2
    exact (congrArg (fun s => Orderly s.1) h).mpr (orderly.emptyQueue n)

theorem wordBytes_drainAll {d : Dev} (ho : Orderly d) (mem : Mem) (w : Nat) :
    (d.drainAll mem).1.wordBytes (d.drainAll mem).2 w = d.wordBytes mem w :=
  (wordBytes_foldNat_emptied ho mem w (Nat.le_refl 64)).2

end Sys2Proof.Machine.WriteQueues

open Sys2Proof Sys2Proof.Machine Sys2Proof.Machine.WriteQueues in
/-- Settles O38: an accepted write is laid over the word that a read finds, and a queue that is emptied lays its writes
over the words of the HBM in the same order. -/
theorem aReadSeesTheNewestAcceptedWrite : Obligations.AReadSeesTheNewestAcceptedWrite := by
  refine ⟨fun d mem w off data hs hq h => ⟨?_, fun j _ => wordBytes_acceptWrite_getD hs hq mem h j⟩,
    fun d mem w placed words clean => wordBytes_drainAll ⟨words, clean, placed⟩ mem w⟩
  rw [acceptWrite_queued hs hq]
end

section
/-! O37: what an allowed access comes to, in the HBM, in a word of it and through a PCIe window, and what its
retirement, a swap and a clear of violations leave (R89, R324, R335 to R338). -/
namespace Sys2Proof.Machine.FabricAccesses

/-- A command to the HBM, while it answers. -/
theorem onDevMem_up {s : State} {t : Nat} (h : (s.found t).memUp = true) (f : Mem → Dev → Dev × Mem) :
    onDevMem t f s = .next { s with dev := (f s.mem (s.found t)).1, mem := (f s.mem (s.found t)).2 } := by
  change Host.Outcome.next { s with
    dev := (if (s.found t).memUp then f s.mem (s.found t) else (s.found t, s.mem)).1
    mem := (if (s.found t).memUp then f s.mem (s.found t) else (s.found t, s.mem)).2 } = _
  rw [if_pos h]

/-! ### What reports leave alone -/

theorem parts_mute (d : Dev) : (EventInputs.mute d).parts = d.parts := rfl
theorem regs_mute (d : Dev) : (EventInputs.mute d).regs = d.regs := rfl

section
variable {d e : Dev}

theorem parts_of_mute (h : EventInputs.mute e = EventInputs.mute d) : e.parts = d.parts := by
  rw [← parts_mute e, h, parts_mute]

theorem regs_of_mute (h : EventInputs.mute e = EventInputs.mute d) : e.regs = d.regs := by
  rw [← regs_mute e, h, regs_mute]

theorem pcs_of_rings (h : AudioStreams.rings e = AudioStreams.rings d) : e.pcs = d.pcs :=
  congrArg AudioStreams.Rings.pcs h

theorem part_of_parts (h : e.parts = d.parts) (p : Nat) : e.part p = d.part p := by simp only [Dev.part, h]

end

theorem raise_pcs (d : Dev) (unit code p1 p2 sev : Nat) : (d.raise unit code p1 p2 sev).pcs = d.pcs :=
  pcs_of_rings (AudioStreams.rings_raise d unit code p1 p2 sev)

theorem freshRecord_pcs (d : Dev) (kind a : Nat) (pl : Place) (req symbols : Nat) :
    (d.freshRecord kind a pl req symbols).pcs = d.pcs := (Dev.wr_pcs _ _ _ _).trans (Dev.wrc_pcs _ _ _ _ _)

theorem errorRecord_pcs (d : Dev) (kind a : Nat) (pl : Place) (req symbols : Nat) :
    (d.errorRecord kind a pl req symbols).pcs = d.pcs := by
  unfold Dev.errorRecord
  split
  · exact Dev.wrc_pcs _ _ _ _ _
  · exact freshRecord_pcs _ _ _ _ _ _

theorem ite_pcs {c : Prop} [Decidable c] {d e f : Dev} (he : e.pcs = d.pcs) (hf : f.pcs = d.pcs) :
    (if c then e else f).pcs = d.pcs := by
  split
  · exact he
  · exact hf

theorem activate_pcs (d : Dev) (a req n : Nat) : (d.activate a req n).pcs = d.pcs := by
  unfold Dev.activate
  split
  · rfl
  · extract_lets pl m x x' thr seen hit sent counted th throttled
    have hsent : sent.pcs = d.pcs := ite_pcs rfl rfl
    have hcounted : counted.pcs = d.pcs := hsent
    have hthrottled : throttled.pcs = counted.pcs := ite_pcs rfl rfl
    clear_value throttled counted
    refine ite_pcs ?_ hcounted
    rw [raise_pcs, errorRecord_pcs, hthrottled, hcounted]

theorem activates_pcs (d : Dev) (a : Access) (acts : List Nat) : (d.activates a acts).pcs = d.pcs :=
  Is05.foldl_keeps Dev.pcs _ (fun d _ => activate_pcs d _ _ _) _ d

theorem inFlight_pcs (d : Dev) (a : Access) : (d.inFlight a).pcs = d.pcs := by
  unfold Dev.inFlight
  split <;> rfl

theorem inFlight_outbox (d : Dev) (a : Access) : (d.inFlight a).outbox = d.outbox := by
  unfold Dev.inFlight
  split <;> rfl

/-! ### An allowed access -/

section
variable {d : Dev} {a : Access} (hc : d.checkAccess a = none) (mem : Mem) (o : MemObs)
include hc

theorem access_outside_write (hop : a.op = 1) (ha : hbmOf a.addr = none) : d.access mem a o =
    (((d.inFlight a).outsideWrite a.addr (padTo a.len a.data)).send (.fabric (accReq a) "written" [] []), mem) := by
  simp only [Dev.access, hc, ha, if_pos hop]

theorem access_outside_read (hop : a.op ≠ 1) (ha : hbmOf a.addr = none) : d.access mem a o =
    (((d.inFlight a).outsideRead a.addr a.len).2.send
      (.fabric (accReq a) "read" ((d.inFlight a).outsideRead a.addr a.len).1 []), mem) := by
  simp only [Dev.access, hc, ha, if_neg hop]

theorem access_hbm_write (hop : a.op = 1) (ha : (hbmOf a.addr).isSome = true) :
    let r := ((d.inFlight a).activates a o.acts).memWrite mem a.addr (padTo a.len a.data)
    d.access mem a o = (r.1.send (.fabric (accReq a) "written" [] []), r.2) := by
  obtain ⟨m, hm⟩ := Option.isSome_iff_exists.mp ha
  simp only [Dev.access, hc, hm, if_pos hop]

theorem access_hbm_read (hop : a.op ≠ 1) (ha : (hbmOf a.addr).isSome = true) :
    let r := ((d.inFlight a).activates a o.acts).memRead mem a.addr a.len (accReq a) o.errs
    d.access mem a o =
      ((if r.2.1.isEmpty then r.2.2 else r.2.2.denied a).send (.fabric (accReq a) "read" r.1 r.2.1), mem) := by
  obtain ⟨m, hm⟩ := Option.isSome_iff_exists.mp ha
  simp only [Dev.access, hc, hm, if_neg hop]

end

theorem outsideRead_outbox (d : Dev) (a n : Nat) : (d.outsideRead a n).2.outbox = d.outbox := rfl

theorem one_le_len {a : Access} (h : accFits a = true) : 1 ≤ a.len := by
  obtain ⟨low, -⟩ := (Bool.and_eq_true _ _).mp h
  exact of_decide_eq_true low

theorem exec_fabricAccess {s : State} {t : Nat} {a : Access} (h : (s.found t).memUp = true) (hf : accFits a = true)
    (o : MemObs) : exec (.fabricAccess t a o) s = .next { s with
      dev := ((s.found t).access s.mem a o).1, mem := ((s.found t).access s.mem a o).2 } := by
  have run : exec (.fabricAccess t a o) s =
      onDevMem t (fun mem d => if accFits a then d.access mem a o else (d, mem)) s := by
    rfl
  rw [run, onDevMem_up h, if_pos hf]

/-! ### A write inside a word -/

theorem slice_whole (b : List Byte) : slice b 0 b.length = b := by simp [slice]

theorem memWrite_in_word (d : Dev) (mem : Mem) {a : Nat} {data : List Byte} (h0 : data ≠ [])
    (h : a % 32 + data.length ≤ 32) : d.memWrite mem a data = d.acceptWrite mem (a / 32) (a % 32) data := by
  have hlen : 0 < data.length := List.length_pos_iff.mpr h0
  have one : (a % 32 + data.length + 31) / 32 = 1 := by omega
  have last : min ((a / 32 + 0 + 1) * 32) (a + data.length) - a = data.length := by omega
  unfold Dev.memWrite
  rw [one, List.range_one, List.foldl_cons, List.foldl_nil]
  dsimp only
  rw [if_pos rfl, last, Nat.sub_self, slice_whole, Nat.add_zero]

/-- An allowed write inside a word whose pseudo-channel is in service, with room in its queue. -/
def InWord (d : Dev) (a : Access) : Prop :=
  d.checkAccess a = none ∧ (hbmOf a.addr).isSome = true ∧ a.addr % 32 + a.len ≤ 32 ∧
    (d.pc (placeOf (a.addr / 32 * 32)).pc).state = 0 ∧ (d.pc (placeOf (a.addr / 32 * 32)).pc).queue.length < 47

theorem access_in_word {d : Dev} {a : Access} (h : InWord d a) (hop : a.op = 1) (hlen : a.data.length = a.len)
    (h0 : a.data ≠ []) (mem : Mem) (o : MemObs) : (d.access mem a o).2 = mem ∧ ∀ j,
      ((d.access mem a o).1.wordBytes (d.access mem a o).2 (a.addr / 32)).getD j 0 =
        if a.addr % 32 ≤ j ∧ j < a.addr % 32 + a.len then a.data.getD (j - a.addr % 32) 0
        else (d.wordBytes mem (a.addr / 32)).getD j 0 := by
  obtain ⟨allowed, hbm, inside, serves, room⟩ := h
  have same : ((d.inFlight a).activates a o.acts).pcs = d.pcs := (activates_pcs _ _ _).trans (inFlight_pcs d a)
  have hin : a.addr % 32 + a.data.length ≤ 32 := hlen ▸ inside
  have data : padTo a.len a.data = a.data := hlen ▸ slice_whole a.data
  rw [access_hbm_write allowed mem o hop hbm]
  dsimp only
  generalize (d.inFlight a).activates a o.acts = e at same
  rw [← WriteQueues.pc_congr same] at serves room
  rw [data, memWrite_in_word e mem h0 hin, ← hlen, ← WriteQueues.wordBytes_congr same]
  have kept : (e.acceptWrite mem (a.addr / 32) (a.addr % 32) a.data).2 = mem := by
    rw [WriteQueues.acceptWrite_queued serves room]
  refine ⟨kept, fun j => ?_⟩
  rw [kept, WriteQueues.wordBytes_congr (Dev.send_pcs _ _)]
  exact WriteQueues.wordBytes_acceptWrite_getD serves room mem hin j

/-! ### PCIe windows -/

/-- The 16 bytes of a window's entry in 0x2044:02. -/
def windowRow (d : Dev) (w : Nat) : List Byte := slice (d.rdd 0x2044 2) (16 * w) 16

/-- The access that a write through a window makes of its first piece. -/
def windowAccess (d : Dev) (w off : Nat) (data : List Byte) : Access :=
  { cls := clsPcie, inst := w, mode := 0, op := 1, addr := fieldAt (windowRow d w) 0 8 + off, len := data.length,
    data := data }

theorem exec_pcieWindowWrite {s : State} {t : Nat} (h : (s.found t).memUp = true) (w off : Nat) (data : List Byte) :
    exec (.pcieWindowWrite t w off data) s = .next { s with
      dev := ((s.found t).windowWrite s.mem w off data).1, mem := ((s.found t).windowWrite s.mem w off data).2 } := by
  have run : exec (.pcieWindowWrite t w off data) s = onDevMem t (fun mem d => d.windowWrite mem w off data) s := by rfl
  rw [run, onDevMem_up h]

theorem chunks_single {n : Nat} {b : List Byte} (h0 : b ≠ []) (h : b.length ≤ n) : chunks n b = [b] := by
  obtain ⟨x, xs, rfl⟩ := List.exists_cons_of_ne_nil h0
  have rest : (x :: xs).drop n = [] := List.drop_of_length_le h
  have done : chunksFuel xs.length n ([] : List Byte) = [] := by cases xs.length <;> rfl
  rw [chunks, List.length_cons, chunksFuel, rest, done, List.take_of_length_le h]
  exact List.cons_ne_nil _ _

section
variable {d : Dev} {w off : Nat} {data : List Byte} (hb : d.bootRd 0x2044 1 ≠ 0)
include hb

theorem windowWrite_closed (mem : Mem)
    (h : (fieldAt (windowRow d w) 14 2).testBit 0 = false ∨ fieldAt (windowRow d w) 8 4 < off + data.length) :
    d.windowWrite mem w off data = (d.wr 0x2044 3 (satInc 32 (d.rd 0x2044 3)), mem) := by
  unfold Dev.windowWrite
  extract_lets r
  have closed : (!(fieldAt r 14 2).testBit 0) = true ∨ fieldAt r 8 4 < off + data.length :=
    h.imp (fun clear => (Bool.not_eq_true' _).mpr clear) id
  rw [if_neg hb, if_pos closed]

theorem windowWrite_open (mem : Mem) (hon : (fieldAt (windowRow d w) 14 2).testBit 0 = true)
    (hfit : off + data.length ≤ fieldAt (windowRow d w) 8 4) (h0 : data ≠ []) (hlen : data.length ≤ 256) :
    d.windowWrite mem w off data = d.access mem (windowAccess d w off data) { errs := [], acts := [] } := by
  unfold Dev.windowWrite
  extract_lets r a ps
  have opens : ¬ ((!(fieldAt r 14 2).testBit 0) = true ∨ fieldAt r 8 4 < off + data.length) :=
    not_or.mpr ⟨fun clear => Bool.false_ne_true (((Bool.not_eq_true' _).mp clear).symm.trans hon),
      Nat.not_lt.mpr hfit⟩
  have single : ps = [data] := chunks_single h0 hlen
  rw [if_neg hb, if_neg opens, single]
  rfl

end

/-! ### Retirement and swaps -/

@[simp] theorem part_setPart_same (d : Dev) (p : Nat) (x : PartRt) : (d.setPart p x).part p = x :=
  Tab.getD_setD_same _ _ _ _

/-- A drain marker writes no object, and of its own partition only the marker and its time. -/
theorem drained_keeps (d : Dev) (p : Nat) : (d.drained p).regs = d.regs ∧
    ((d.drained p).part p = d.part p ∨
      (d.drained p).part p = { d.part p with draining := false, drainAt := d.now }) := by
  unfold Dev.drained
  extract_lets x e g
  have marked : e.part p = { x with draining := false, drainAt := d.now } := part_setPart_same d p _
  split
  · exact ⟨rfl, .inl rfl⟩
  · split
    · have muted := AudioStreams.mute_event e uFabric 0x0F02 g x.set
      exact ⟨(regs_of_mute muted).trans (Dev.setPart_regs _ _ _),
        .inr ((part_of_parts (parts_of_mute muted) p).trans marked)⟩
    · exact ⟨rfl, .inr marked⟩

/-- The swap point of a partition: the set it waited for, and its accesses in flight as those of the old set. -/
theorem swapPart_keeps (d : Dev) (p set : Nat) :
    let x := d.part p
    let e := d.swapPart p set
    e.regs = d.regs ∧ (e.part p).set = set ∧ (e.part p).next = 0 ∧ (e.part p).old = x.old + x.flying ∧
      (e.part p).flying = 0 ∧ (e.part p).swapAt = d.now ∧ (e.part p).swaps = (x.swaps + 1) % 2 ^ 32 := by
  intro x e
  obtain ⟨regs, h | h⟩ := drained_keeps (d.setPart p { x with
    set := set, next := 0, old := x.old + x.flying, flying := 0, draining := true, swapAt := d.now,
    swaps := (x.swaps + 1) % 2 ^ 32 }) p
  all_goals
    rw [part_setPart_same] at h
    rw [show e.part p = _ from h]
    exact ⟨regs, rfl, rfl, rfl, rfl, rfl, rfl⟩

theorem exec_accessRetire {s : State} {t : Nat} (h : (s.found t).alive = true) (p : Nat) :
    exec (.accessRetire t p) s = .next { s with
      dev := if 0 < ((s.found t).part p).old
        then ((s.found t).setPart p { (s.found t).part p with old := ((s.found t).part p).old - 1 }).drained p
        else (s.found t).setPart p { (s.found t).part p with flying := ((s.found t).part p).flying - 1 } } := by
  have run : exec (.accessRetire t p) s = execAccessRetire t p s := by rfl
  rw [run, execAccessRetire, onDev_alive h]

theorem exec_curatorSwapPoint {s : State} {t p : Nat} (h : (s.found t).alive = true) (hp : p < 16)
    (hn : ((s.found t).part p).next ≠ 0) : exec (.curatorSwapPoint t p) s = .next { s with
      dev := (s.found t).swapPart p (((s.found t).part p).next - 1) } := by
  have run : exec (.curatorSwapPoint t p) s = execCuratorSwapPoint t p s := by rfl
  rw [run, execCuratorSwapPoint, onDev_alive h, Nat.mod_eq_of_lt hp, if_neg hn]

theorem exec_swapLate {s : State} {t p : Nat} (h : (s.found t).alive = true) (hp : p < 16)
    (hn : ((s.found t).part p).next ≠ 0) (ht : ((s.found t).part p).asked + 1000000 ≤ t) :
    exec (.swapLate t p) s = .next { s with
      dev := (s.found t).raise uFabric 0x0F03 p ((t - ((s.found t).part p).asked) / 1000000) sevDegraded } := by
  have run : exec (.swapLate t p) s = execSwapLate t p s := by rfl
  rw [run, execSwapLate, onDev_alive h, Nat.mod_eq_of_lt hp, if_pos ⟨hn, ht⟩]
  rfl

/-! ### Violations -/

/-- The record and the counter since clear of one partition cleared. -/
def clearOne (mask : Nat) (d : Dev) (p : Nat) : Dev :=
  if mask.testBit p then (d.wrc 0x2504 1 p []).wrf 0x2504 2 (2 * p) 0 else d

theorem clearViolations_eq (d : Dev) (mask : Nat) : d.clearViolations mask = foldNat (clearOne mask) 21 d := rfl

theorem clearOne_outbox (mask : Nat) (d : Dev) (p : Nat) : (clearOne mask d p).outbox = d.outbox := by
  unfold clearOne
  split <;> rfl

/-- The violation record of a partition, and its counter since clear. -/
def sinceClear (d : Dev) (q : Nat) : List Byte × Nat := (d.rdc 0x2504 1 q, d.rdf 0x2504 2 (2 * q))

section
variable (mask : Nat) (d : Dev) {p q : Nat}

theorem clearOne_sinceClear_same (h : mask.testBit p = true) : sinceClear (clearOne mask d p) p = ([], 0) := by
  rw [clearOne, if_pos h, sinceClear, Dev.rdf_wrf_same]
  exact congrArg (·, 0) (Dev.rdc_wrc_same d 0x2504 1 p [])

theorem clearOne_sinceClear_other (h : q ≠ p) : sinceClear (clearOne mask d p) q = sinceClear d q := by
  unfold clearOne
  split
  · rw [sinceClear, Dev.rdf_wrf_other _ (by simp only [regKey]; omega)]
    exact congrArg (·, _) (Dev.rdc_wrc_other d (by simp only [domKey]; omega))
  · rfl

/-- The other counter of a partition, of all its violations, stays. -/
theorem clearOne_total (p q : Nat) : (clearOne mask d p).rdf 0x2504 2 (2 * q + 1) = d.rdf 0x2504 2 (2 * q + 1) := by
  unfold clearOne
  split
  · exact Dev.rdf_wrf_other _ (by simp only [regKey]; omega)
  · rfl

theorem clearViolations_total (q : Nat) :
    (d.clearViolations mask).rdf 0x2504 2 (2 * q + 1) = d.rdf 0x2504 2 (2 * q + 1) :=
  EventInputs.foldNat_keeps (fun d : Dev => d.rdf 0x2504 2 (2 * q + 1)) _ (fun d p => clearOne_total mask d p q) 21 d

/-- A partition of the mask is cleared at its own step; no other step touches it. -/
theorem clearViolations_sinceClear_of_mask (h : mask.testBit q = true) (hq : q < 21) :
    sinceClear (d.clearViolations mask) q = ([], 0) :=
  AudioStreams.foldNat_reaches (P := fun q d => mask.testBit q = true → sinceClear d q = ([], 0))
    (fun d _ h => clearOne_sinceClear_same mask d h)
    (fun d _ _ hlt cleared h => (clearOne_sinceClear_other mask d (Nat.ne_of_lt hlt)).trans (cleared h)) hq d h

theorem clearViolations_sinceClear_of_not_mask (h : mask.testBit q = false) :
    sinceClear (d.clearViolations mask) q = sinceClear d q := by
  refine EventInputs.foldNat_keeps (sinceClear · q) _ (fun d p => ?_) 21 d
  by_cases e : q = p
  · subst e
    have stays : clearOne mask d q = d := if_neg (by rw [h]; exact Bool.false_ne_true)
    exact congrArg (sinceClear · q) stays
  · exact clearOne_sinceClear_other mask d e

end

theorem exec_violationClear {s : State} {t mask : Nat} {by_ : Requester}
    (h : (s.found t).grants by_ 0x2504 3 (leBytes 4 mask)) (hm : mask < 2 ^ 21) :
    exec (.violationClear t by_ mask) s = .next { s with
      dev := ((s.found t).clearViolations mask).send (.answer by_ stOk none) } := by
  have run : exec (.violationClear t by_ mask) s = execViolationClear t by_ mask s := by rfl
  rw [run, execViolationClear, onCommand_alive h.1, Dev.commandPre_granted h (if_pos hm)]
  rfl

end Sys2Proof.Machine.FabricAccesses

open Sys2Proof Sys2Proof.Machine Sys2Proof.Machine.FabricAccesses in
/-- Settles O37: the branches of an allowed access, a write inside one word as the queue of its controller takes it,
and the steps of retirement, swap and clear. -/
theorem allowedAccessesComplete : Obligations.AllowedAccessesComplete := by
  intro s t p w off a o by_ mask data d x row
  refine ⟨fun hup hfit hc => ?access, fun ha hx => ?retire, fun ha hx => ?retireOld, fun ha hp hn => ?swap,
    fun ha hp hn ht => exec_swapLate ha hp hn ht, fun hg hm => ?clear, fun hup hb h => ?closed,
    fun hup hb hon hfit h0 hlen => ?opened, fun hup => ?word⟩
  case access =>
    have run := exec_fabricAccess hup hfit o
    refine ⟨fun hop ha => ?_, fun hop ha => ?_, fun hop ha => ?_, fun hop ha => ⟨_, run, ?_, ?_⟩⟩
    · rw [run, access_outside_write hc _ _ hop ha]
    · rw [run, access_hbm_write hc _ _ hop ha]
    · rw [run, access_hbm_read hc _ _ hop ha]
    · rw [access_outside_read hc _ _ hop ha]
    · rw [access_outside_read hc _ _ hop ha]
      dsimp only
      rw [Dev.send_outbox, outsideRead_outbox, inFlight_outbox]
      rfl
  case retire => rw [exec_accessRetire ha, if_neg (Nat.not_lt.mpr (Nat.le_of_eq hx))]
  case retireOld => rw [exec_accessRetire ha, if_pos hx]
  case swap =>
    obtain ⟨regs, fields⟩ := swapPart_keeps d p (x.next - 1)
    exact ⟨_, exec_curatorSwapPoint ha hp hn, rfl, regs, fields⟩
  case clear =>
    refine ⟨_, exec_violationClear hg hm, rfl, ?_, fun q hq =>
      ⟨fun h => Prod.mk.inj (clearViolations_sinceClear_of_mask mask d h hq),
        fun h => Prod.mk.inj (clearViolations_sinceClear_of_not_mask mask d h), clearViolations_total mask d q⟩⟩
    have sent := EventInputs.foldNat_keeps Dev.outbox _ (clearOne_outbox mask) 21 d
    rw [Dev.send_outbox, clearViolations_eq, sent]
    rfl
  case closed => rw [exec_pcieWindowWrite hup, windowWrite_closed hb _ h]
  case opened => rw [exec_pcieWindowWrite hup, windowWrite_open hb _ hon hfit h0 hlen]; rfl
  case word =>
    intro b wrote inWord
    refine ⟨fun hfit hop hlen h => ?_, fun hb hon hfit h0 h => ?_⟩
    · have h0 : a.data ≠ [] := List.ne_nil_of_length_pos (hlen ▸ one_le_len hfit)
      obtain ⟨kept, bytes⟩ := access_in_word h hop hlen h0 s.mem o
      exact ⟨_, exec_fabricAccess hup hfit o, kept, fun j _ => bytes j⟩
    · obtain ⟨kept, bytes⟩ := access_in_word (a := windowAccess d w off data) h rfl rfl h0 s.mem
        { errs := [], acts := [] }
      have run := exec_pcieWindowWrite hup w off data
      have short : data.length ≤ 256 := by
        obtain ⟨-, -, inside, -⟩ := h
        exact Nat.le_trans (Nat.le_trans (Nat.le_add_left _ _) inside) (by decide)
      rw [windowWrite_open hb _ hon hfit h0 short] at run
      exact ⟨_, run, kept, fun j _ => bytes j⟩
end

section
/-! O39: what the controllers of the HBM do in draining, refresh, parity errors and recovery, and what a maintenance
window retrains or repairs (R49, R305 to R310, R317, R320). -/
namespace Sys2Proof.Machine.HbmEvents

open FabricAccesses WriteQueues

/-! ### Draining -/

theorem exec_writeQueueDrain {s : State} {t : Nat} (h : (s.found t).memUp = true) (p : Nat) :
    exec (.writeQueueDrain t p) s = .next { s with
      dev := ((s.found t).drain s.mem p).1, mem := ((s.found t).drain s.mem p).2 } := by
  have run : exec (.writeQueueDrain t p) s = onDevMem t (fun mem d => d.drain mem p) s := by rfl
  rw [run, onDevMem_up h]

theorem applyWrite_pcs (s : Dev × Mem) (q : QWrite) : (applyWrite s q).1.pcs = s.1.pcs := by
  unfold applyWrite
  dsimp only
  split
  · rfl
  · split <;> rfl

/-- How many writes a drain takes: all but 16, and all that have waited 2 µs (R306). -/
def drainCount (d : Dev) (p : Nat) : Nat :=
  max ((d.pc p).queue.length - 16) ((d.pc p).queue.takeWhile fun q => decide (q.at_ + 2000 ≤ d.now)).length

theorem drain_queue (d : Dev) (mem : Mem) (p : Nat) :
    ((d.drain mem p).1.pc p).queue = (d.pc p).queue.drop (drainCount d p) := by
  unfold Dev.drain
  extract_lets x n
  have applied (qs : List QWrite) (y : PcRt) : ((qs.foldl applyWrite (d.setPcRt p y, mem)).1.pc p) = y :=
    (pc_congr (Is05.foldl_keeps (fun s : Dev × Mem => s.1.pcs) applyWrite applyWrite_pcs qs _) p).trans
      (pc_setPcRt_same d p y)
  exact congrArg PcRt.queue (applied _ _)

theorem drain_queue_length (d : Dev) (mem : Mem) (p : Nat) : ((d.drain mem p).1.pc p).queue.length ≤ 16 := by
  rw [drain_queue, List.length_drop, drainCount]
  omega

/-! ### Refresh, parity errors and recovery -/

section
variable {s : State} {t : Nat} (h : (s.found t).alive = true) (p : Nat)
include h

theorem exec_refresh (bank : Nat) :
    exec (.refresh t p bank) s = .next { s with dev := (s.found t).refreshBank p bank } := by
  have run : exec (.refresh t p bank) s = execRefresh t p bank s := by rfl
  rw [run, execRefresh, onDev_alive h]

theorem exec_hbmParityError (cmd : Nat) :
    exec (.hbmParityError t p cmd) s = .next { s with dev := (s.found t).parityError p cmd } := by
  have run : exec (.hbmParityError t p cmd) s = execHbmParityError t p cmd s := by rfl
  rw [run, execHbmParityError, onDev_alive h]

theorem exec_pcRecovered (ok : Bool) :
    exec (.pcRecovered t p ok) s = .next { s with dev := (s.found t).pcRecovered p ok } := by
  have run : exec (.pcRecovered t p ok) s = execPcRecovered t p ok s := by rfl
  rw [run, execPcRecovered, onDev_alive h]

theorem exec_hbmTemperature (m : Nat) (c : Int) : exec (.hbmTemperature t m c) s = .next { s with
    dev := ((s.found t).wr (hbmIdx m) 2 (ofSigned 8 c)).wr (hbmIdx m) 3 (if 85 < c then 1 else 0) } := by
  have run : exec (.hbmTemperature t m c) s = execHbmTemperature t m c s := by rfl
  rw [run, execHbmTemperature, onDev_alive h]

theorem exec_rowDisturbanceWindow (bank : Nat) :
    exec (.rowDisturbanceWindow t p bank) s = .next { s with dev := (s.found t).rowWindow p bank } := by
  have run : exec (.rowDisturbanceWindow t p bank) s = execRowDisturbanceWindow t p bank s := by rfl
  rw [run, execRowDisturbanceWindow, onDev_alive h]

end

section
variable {d : Dev} {p : Nat}

theorem parityError_first {cmd : Nat} (hs : (d.pc p).state = 0) (hc : (d.pc p).cmd ≠ cmd + 1) :
    d.parityError p cmd = d.setPcRt p { d.pc p with
      cmd := cmd + 1, streak := 0, replays := satInc 32 (d.pc p).replays } := by
  unfold Dev.parityError
  extract_lets x streak
  have first : streak = 0 := if_neg hc
  rw [if_neg (not_not_intro hs), first, if_neg (by decide)]

theorem parityError_last {cmd : Nat} (hs : (d.pc p).state = 0) (hc : (d.pc p).cmd = cmd + 1)
    (hk : (d.pc p).streak = 2) :
    d.parityError p cmd = (d.setPcRt p { d.pc p with cmd := 0, streak := 0 }).pcFault p 3 := by
  unfold Dev.parityError
  extract_lets x streak
  have last : streak = 3 := (if_pos hc).trans (congrArg (· + 1) hk)
  rw [if_neg (not_not_intro hs), if_pos last]

theorem pcFault_state (d : Dev) (p n : Nat) : ((d.pcFault p n).pc p).state = 1 := by
  unfold Dev.pcFault
  extract_lets x m faulted held counted
  have pcs : counted.pcs = faulted.pcs := rfl
  have state : (faulted.pc p).state = 1 := congrArg PcRt.state (pc_setPcRt_same d p _)
  rw [pc_congr (raise_pcs _ _ _ _ _ _), pc_congr (errorRecord_pcs _ _ _ _ _ _)]
  exact (congrArg PcRt.state (pc_congr pcs p)).trans state

theorem pcRecovered_trained (hs : (d.pc p).state = 2) (ht : (d.pc p).trained = true) : d.pcRecovered p true =
    (d.setPcRt p { d.pc p with state := 0, trained := false }).raise (uHb (p / 32)) 0x0E04 p 0 sevInfo := by
  unfold Dev.pcRecovered
  rw [if_neg (not_not_intro hs), if_neg (by decide), if_pos ht]

theorem pcRecovered_trained_pc (hs : (d.pc p).state = 2) (ht : (d.pc p).trained = true) :
    (d.pcRecovered p true).pc p = { d.pc p with state := 0, trained := false } := by
  rw [pcRecovered_trained hs ht, pc_congr (raise_pcs _ _ _ _ _ _), pc_setPcRt_same]

theorem pcRecovered_failed (hs : (d.pc p).state = 2) : d.pcRecovered p false = d.pcFault p 3 := by
  unfold Dev.pcRecovered
  rw [if_neg (not_not_intro hs), if_pos Bool.not_false]

end

/-! ### Temperature and disturbance windows -/

theorem toSigned_ofSigned_byte {c : Int} (hlo : -128 ≤ c) (hhi : c < 128) : toSigned 8 (ofSigned 8 c) = c := by
  unfold toSigned ofSigned
  split <;> omega

theorem rowWindow_acts (d : Dev) (p bank : Nat) (e : Nat × RowAct) :
    e ∈ (d.rowWindow p bank).acts ↔ e ∈ d.acts ∧ e.1 / 2 ^ 14 ≠ p * 64 + bank := by
  simp [Dev.rowWindow]

/-- A throttle of the bank whose window ends has run a whole window, and one that stays is marked so. -/
theorem rowWindow_throttles (d : Dev) {p bank : Nat} {y : Throttle} (hy : y ∈ (d.rowWindow p bank).throttles)
    (hp : y.pc = p) (hb : y.bank = bank) : y.full = true := by
  obtain ⟨z, -, rfl⟩ := List.mem_map.mp hy
  split at hp
  · rename_i here
    rw [if_pos here]
  · rename_i elsewhere
    rw [if_neg elsewhere] at hb
    exact absurd (by simp [hp, hb]) elsewhere

/-! ### Maintenance windows -/

theorem exec_maintenanceWindow {s : State} {t : Nat} (h : (s.found t).memUp = true) (m : Nat) (ok : Bool) :
    exec (.maintenanceWindow t m ok) s = .next { s with
      dev := ((s.found t).drainAll s.mem).1.window (m % 2) ok, mem := ((s.found t).drainAll s.mem).2 } := by
  have run : exec (.maintenanceWindow t m ok) s = execMaintenanceWindow t m ok s := by rfl
  rw [run, execMaintenanceWindow, onDevMem_up h]

section
variable {d : Dev} {m : Nat}

theorem waits_iff (d : Dev) (j : Nat) :
    ((d.pc j).state == 2 && !(d.pc j).trained) = false ↔ (d.pc j).state ≠ 2 ∨ (d.pc j).trained = true := by
  cases (d.pc j).trained <;> simp

theorem toRetrain_nil (h : ∀ j, j / 32 = m → (d.pc j).state ≠ 2 ∨ (d.pc j).trained = true) :
    d.toRetrain m = [] := by
  refine List.filter_eq_nil_iff.mpr fun k hk => ?_
  have hk : k < 32 := List.mem_range.mp hk
  rw [(waits_iff d _).mpr (h (32 * m + k) (by omega))]
  exact Bool.false_ne_true

/-- The first of the pseudo-channels that wait stands at the head of those to retrain. -/
theorem toRetrain_cons {p : Nat} (hp : p / 32 = m) (hs : (d.pc p).state = 2) (ht : (d.pc p).trained = false)
    (h : ∀ j, j / 32 = m → j < p → (d.pc j).state ≠ 2 ∨ (d.pc j).trained = true) :
    ∃ rest, d.toRetrain m = p % 32 :: rest := by
  have place : 32 * m + p % 32 = p := by omega
  have first : (d.toRetrain m).head? = some (p % 32) := by
    rw [Dev.toRetrain, List.head?_filter, List.find?_range_eq_some, place]
    refine ⟨by simp [hs, ht], List.mem_range.mpr (by omega), fun k hk => ?_⟩
    rw [(waits_iff d _).mpr (h (32 * m + k) (by omega) (by omega))]
    rfl
  exact List.head?_eq_some_iff.mp first

theorem window_retrains {p e : Nat} {rest : List Nat} (hr : d.toRetrain m = p :: rest)
    (hg : d.groupWindow m (p / 4) 0 = some e) (ok : Bool) : d.window m ok =
      ((p :: rest).filter fun q => q / 4 == p / 4).foldl (fun d q => d.retrained ok (32 * m + q))
        (d.takeGroup m (p / 4) e) := by
  unfold Dev.window
  simp only [hr, hg]

section
variable {k e : Nat} (hr : d.toRetrain m = []) (hk : d.memSlot 8 m = some k) (he : d.maintenanceEnd m 0 = some e)
  (ha : (d.longOp k).abortAsked = false) (hrow : (d.hbm m).rowAt ≠ e) (ok : Bool)
include hr hk he ha hrow

theorem window_takes_row {row : Cand} (hn : d.nextRow m = some row)
    (hg : d.groupWindow m (row.pc % 32 / 4) 0 = some e) : d.window m ok =
      ((d.takeGroup m (row.pc % 32 / 4) e).setHbm m { d.hbm m with rowAt := e }).repairWindow m k := by
  unfold Dev.window
  simp only [hr, hk, he, ha, hrow, hn, hg, Bool.false_eq_true, or_self, if_false]

theorem window_without_row (hn : d.nextRow m = none) : d.window m ok = d.repairWindow m k := by
  unfold Dev.window
  simp only [hr, hk, he, ha, hrow, hn, Bool.false_eq_true, or_self, if_false]

end

/-! #### Retraining -/

theorem retrained_pc_same (d : Dev) (p : Nat) :
    (d.retrained true p).pc p = { d.pc p with trained := true, poison := true } := pc_setPcRt_same _ _ _

theorem retrained_pc_other (d : Dev) {p j : Nat} (h : j ≠ p) : (d.retrained true p).pc j = d.pc j :=
  pc_setPcRt_other _ _ h

/-- A pseudo-channel that waits, or has just been retrained, holds poison once each of a list that names it is. -/
theorem foldl_retrained {p : Nat} {qs : List Nat} (hs : (d.pc (32 * m + p)).state = 2)
    (h : p ∈ qs ∨ ((d.pc (32 * m + p)).trained = true ∧ (d.pc (32 * m + p)).poison = true)) :
    let x := (qs.foldl (fun d q => d.retrained true (32 * m + q)) d).pc (32 * m + p)
    x.trained = true ∧ x.poison = true ∧ x.state = 2 := by
  induction qs generalizing d with
  | nil =>
    obtain ⟨trained, poison⟩ := h.resolve_left List.not_mem_nil
    exact ⟨trained, poison, hs⟩
  | cons q qs ih =>
    rw [List.foldl_cons]
    by_cases e : p = q
    · subst e
      refine ih ?_ (.inr ?_) <;> rw [retrained_pc_same]
      · exact hs
      · exact ⟨rfl, rfl⟩
    · have other : (d.retrained true (32 * m + q)).pc (32 * m + p) = d.pc (32 * m + p) :=
        retrained_pc_other d (by omega)
      refine ih ?_ (h.imp (fun hmem => (List.mem_cons.mp hmem).resolve_left e) fun ht => ?_) <;> rw [other]
      · exact hs
      · exact ht

/-- In a window of its group, the first pseudo-channel that waits is retrained, and holds poison (R310). -/
theorem window_retrained {p e : Nat} (hp : p / 32 = m) (hs : (d.pc p).state = 2) (ht : (d.pc p).trained = false)
    (h : ∀ j, j / 32 = m → j < p → (d.pc j).state ≠ 2 ∨ (d.pc j).trained = true)
    (hg : d.groupWindow m (p % 32 / 4) 0 = some e) :
    ((d.window m true).pc p).trained = true ∧ ((d.window m true).pc p).poison = true ∧
      ((d.window m true).pc p).state = 2 := by
  have place : 32 * m + p % 32 = p := by omega
  obtain ⟨rest, hr⟩ := toRetrain_cons hp hs ht h
  have named : p % 32 ∈ (p % 32 :: rest).filter fun q => q / 4 == p % 32 / 4 := by simp
  have done := foldl_retrained (d := d.takeGroup m (p % 32 / 4) e) (m := m) (by rw [place]; exact hs) (.inl named)
  rwa [place, ← window_retrains hr hg true] at done

end

/-! #### A live repair that ends -/

theorem sendDev_regs (d : Dev) (n ty flags : Nat) (p : List Byte) : (d.sendDev n ty flags p).regs = d.regs :=
  regs_of_mute (EventInputs.mute_sendDev d n ty flags p)

theorem progress_regs (d : Dev) (k : Nat) : (d.progress k).regs = d.regs := by
  refine (Is05.foldl_keeps Dev.regs _ (fun e n => ?_) _ _).trans (Dev.setLongOp_regs _ _ _)
  split
  · split
    · exact sendDev_regs _ _ _ _ _
    · rfl
  · rfl

/-- An operation that ends with a result other than 0 has failed with it (Table 2.10). -/
theorem finishLong_failed (d : Dev) (k : Nat) {r : Nat} (hr : r ≠ 0) :
    (d.finishLong k r).slotState k = 3 ∧ (d.finishLong k r).rd (0x2080 + k) 0x0B = r := by
  have regs : (d.finishLong k r).regs =
      (((d.wr (0x2080 + k) 2 3).wr (0x2080 + k) 0x0B r).wr (0x2080 + k) 0x0A (time48 d.now)).regs := by
    unfold Dev.finishLong
    dsimp only
    rw [progress_regs, if_neg hr, if_neg hr]
  have apart {s r : Nat} (hs : s < 256) (hr : r < 256) (h : s ≠ r) :
      regKey (0x2080 + k) s 0 ≠ regKey (0x2080 + k) r 0 := fun e => h (regKey_inj hs hr (by decide) (by decide) e).2.1
  constructor
  · rw [Dev.slotState, Dev.rd_congr regs, Dev.rd_wr_other _ (apart (by decide) (by decide) (by decide)),
      Dev.rd_wr_other _ (apart (by decide) (by decide) (by decide)), Dev.rd_wr_same]
  · rw [Dev.rd_congr regs, Dev.rd_wr_other _ (apart (by decide) (by decide) (by decide)), Dev.rd_wr_same]

/-- A live repair ends in failed 4 on a device that is no standby (R320). -/
theorem repairWindow_of_active {d : Dev} (h : d.standby = false) (m k : Nat) :
    d.repairWindow m k = d.finishLong k 4 := by
  unfold Dev.repairWindow
  rw [h, if_pos Bool.not_false]

end Sys2Proof.Machine.HbmEvents

open Sys2Proof Sys2Proof.Machine Sys2Proof.Machine.HbmEvents in
/-- Settles O39: each event is one branch of its operation, and a maintenance window retrains the group of the first
pseudo-channel that waits before a live repair takes a row. -/
theorem hbmEventsComplete : Obligations.HbmEventsComplete := by
  intro s t p bank cmd m k e c ok row d x q
  have window (hup : d.memUp = true) (ok : Bool) : exec (.maintenanceWindow t m ok) s =
      .next { s with dev := q.1.window (m % 2) ok, mem := q.2 } := exec_maintenanceWindow hup m ok
  clear_value q
  refine ⟨fun hup => ?drain, fun ha hs hb => ?refresh, fun ha hs hc => ?replayed, fun ha hs hc hk => ?faulted,
    fun ha hs ht => ?recovered, fun ha hs => ?unrecovered, fun ha hlo hhi => ?temperature, fun ha => ?disturbance,
    fun hup hp hs ht h hg => ?retrains, fun hup h hk he habort hrow hn hg => ?repairs,
    fun hup h hk he habort hrow hstandby hn => ?fails, fun hup => ?drained, fun ha hs ht => ?inService⟩
  case drain => rw [exec_writeQueueDrain hup]; rfl
  case refresh => rw [exec_refresh ha, Dev.refreshBank, if_pos ⟨hs, hb⟩]
  case replayed => rw [exec_hbmParityError ha, parityError_first hs hc]
  case faulted => exact ⟨by rw [exec_hbmParityError ha, parityError_last hs hc hk], pcFault_state _ _ _⟩
  case recovered => rw [exec_pcRecovered ha, pcRecovered_trained hs ht]
  case unrecovered => rw [exec_pcRecovered ha, pcRecovered_failed hs]
  case temperature =>
    refine ⟨_, exec_hbmTemperature ha m c, rfl, ?_, Dev.rd_wr_same _ _ _ _⟩
    have shown := Dev.rd_wr_other (d.wr (hbmIdx m) 2 (ofSigned 8 c)) (i := hbmIdx m) (s := 3) (j := hbmIdx m) (r := 2)
      (v := if 85 < c then 1 else 0) (by simp only [regKey]; omega)
    rw [Dev.rdi, shown, Dev.rd_wr_same, toSigned_ofSigned_byte hlo hhi]
  case disturbance =>
    exact ⟨_, exec_rowDisturbanceWindow ha p bank, rfl, rfl, rowWindow_acts d p bank,
      fun y hy => rowWindow_throttles d hy⟩
  case retrains => exact ⟨_, window hup true, rfl, window_retrained hp hs ht h hg⟩
  case repairs => rw [window hup, window_takes_row (toRetrain_nil h) hk he habort hrow ok hn hg]
  case fails =>
    have run := window hup ok
    rw [window_without_row (toRetrain_nil h) hk he habort hrow ok hn, repairWindow_of_active hstandby] at run
    refine ⟨_, run, rfl, ?_⟩
    dsimp only
    exact finishLong_failed q.1 k (by decide)
  case drained => exact ⟨_, exec_writeQueueDrain hup p, drain_queue d s.mem p, drain_queue_length d s.mem p⟩
  case inService =>
    refine ⟨_, exec_pcRecovered ha p true, rfl, ?_⟩
    rw [pcRecovered_trained_pc hs ht]
    exact ⟨rfl, rfl, rfl⟩
end

section
/-! O36: where the first forbidden byte of a refused access lies, and what its violation and its requester leave alone
(R324, R329 to R331, R338, R339). -/
namespace Sys2Proof.Machine.RefusedAccesses

/-! ### The pages of an access and the first that is refused -/

/-- How many pages an access touches. -/
def pageCount (a : Access) : Nat := (a.addr % 4096 + a.len + 4095) / 4096

/-- Where page `k` of an access starts. -/
def pageAt (a : Access) (k : Nat) : Nat := (a.addr / 4096 + k) * 4096

/-- The refusal that page `k` gives: the first byte of the access in it, and its verdict. -/
def pageRefusal (d : Dev) (a : Access) (k : Nat) : Option (Nat × PageVerdict) :=
  if (d.checkPage a (pageAt a k)).kind = 0 then none
  else some (max a.addr (pageAt a k), d.checkPage a (pageAt a k))

section
variable {d : Dev} {a : Access} {k ffb : Nat} {v : PageVerdict}

theorem checkAccess_eq (d : Dev) (a : Access) :
    d.checkAccess a = (List.range (pageCount a)).findSome? (pageRefusal d a) := rfl

theorem pageRefusal_eq_none : pageRefusal d a k = none ↔ (d.checkPage a (pageAt a k)).kind = 0 := by
  simp [pageRefusal]

theorem pageRefusal_eq_some : pageRefusal d a k = some (ffb, v) ↔ (d.checkPage a (pageAt a k)).kind ≠ 0 ∧
    ffb = max a.addr (pageAt a k) ∧ v = d.checkPage a (pageAt a k) := by
  simp [pageRefusal, eq_comm]

theorem checkAccess_eq_none : d.checkAccess a = none ↔
    ∀ k, k < pageCount a → (d.checkPage a (pageAt a k)).kind = 0 := by
  simp only [checkAccess_eq, List.findSome?_eq_none_iff, List.mem_range, pageRefusal_eq_none]

/-- A refusal is that of one page, before which every page is allowed. -/
theorem exists_page_of_checkAccess (h : d.checkAccess a = some (ffb, v)) : ∃ k, k < pageCount a ∧
    pageRefusal d a k = some (ffb, v) ∧ ∀ j, j < k → (d.checkPage a (pageAt a j)).kind = 0 := by
  rw [checkAccess_eq, List.range_eq_range', List.findSome?_eq_some_iff] at h
  obtain ⟨before, k, after, split, refused, allowed⟩ := h
  obtain ⟨i, -, rfl, rest⟩ := List.range'_eq_append_iff.mp split
  obtain ⟨rfl, inside, -⟩ := List.range'_eq_cons_iff.mp rest.symm
  rw [Nat.zero_add, Nat.mul_one] at refused
  refine ⟨i, Nat.lt_of_sub_pos inside, refused, fun j hj => pageRefusal_eq_none.mp (allowed j ?_)⟩
  exact List.mem_range'_1.mpr ⟨Nat.zero_le j, (Nat.zero_add i).symm ▸ hj⟩

/-- The first byte of an access in a page of it lies in the access and in the page. -/
theorem firstByte_in_page (hl : 1 ≤ a.len) (hk : k < pageCount a) :
    max a.addr (pageAt a k) / 4096 * 4096 = pageAt a k ∧ a.addr ≤ max a.addr (pageAt a k) ∧
      max a.addr (pageAt a k) < a.addr + a.len := by
  unfold pageCount at hk
  unfold pageAt
  omega

/-- A byte of an access before its first byte in page `k`, in another page, lies in a page before that. -/
theorem pageAt_of_byte_before {b : Nat} (hb : a.addr ≤ b) (h : b < max a.addr (pageAt a k))
    (hp : b / 4096 ≠ max a.addr (pageAt a k) / 4096) :
    b / 4096 - a.addr / 4096 < k ∧ pageAt a (b / 4096 - a.addr / 4096) = b / 4096 * 4096 := by
  unfold pageAt at *
  omega

end

/-! ### What a violation and its requester leave alone -/

open AudioStreams

theorem rings_ite {c : Prop} [Decidable c] {d e f : Dev} (he : rings e = rings d) (hf : rings f = rings d) :
    rings (if c then e else f) = rings d := by
  split
  · exact he
  · exact hf

theorem rings_wrf (d : Dev) (i s f v : Nat) : rings (d.wrf i s f v) = rings d := rfl
theorem rings_wrc (d : Dev) (i s c : Nat) (v : List Byte) : rings (d.wrc i s c v) = rings d := rfl
theorem rings_setLayer (d : Dev) (l : Nat) (x : LayerRt) : rings (d.setLayer l x) = rings d := rfl

theorem rings_slotBlocked (d : Dev) (a : Access) (page : Nat) : rings (d.slotBlocked a page) = rings d := by
  unfold Dev.slotBlocked
  split
  · rfl
  · extract_lets told e
    have counted : rings e = rings d := rings_setLayer _ _ _
    clear_value e
    exact rings_ite counted ((rings_raise _ _ _ _ _ _).trans counted)

/-- A violation writes its record and its counters, and tells of itself. -/
theorem rings_violate (d : Dev) (a : Access) (ffb : Nat) (v : PageVerdict) : rings (d.violate a ffb v) = rings d := by
  unfold Dev.violate
  extract_lets e
  have blocked : rings e = rings d := rings_ite (rings_slotBlocked _ _ _) rfl
  clear_value e
  split
  · exact rings_ite blocked ((rings_raise _ _ _ _ _ _).trans blocked)
  · extract_lets since total filled
    have counted : rings total = rings d := (rings_addf _ _ _ _ _ _).trans ((rings_wrf _ _ _ _ _).trans blocked)
    have recorded : rings filled = rings d := (rings_wrc _ _ _ _ _).trans counted
    clear_value filled total
    exact rings_ite counted (rings_ite recorded ((rings_raise _ _ _ _ _ _).trans recorded))

theorem rings_intakeDenied (d : Dev) (w addr : Nat) : rings (d.intakeDenied w addr) = rings d := by
  unfold Dev.intakeDenied
  split <;> rfl

theorem rings_setDecState (d : Dev) (k st : Nat) : rings (d.setDecState k st) = rings d :=
  rings_ite rfl (rings_event _ _ _ _ _)

/-- Of a report of an error other than FORMAT, which alone may change the state of a source (R478). -/
theorem rings_decReport (d : Dev) (n k seq : Nat) {code : Nat} (h : code ≠ 6) :
    rings (d.decReport n k code seq) = rings d := by
  unfold Dev.decReport
  extract_lets counted told
  have kept : rings counted = rings d := (rings_addf _ _ _ _ _ _).trans (rings_wrc _ _ _ _ _)
  clear_value counted
  rw [if_neg h]
  exact (rings_raise _ _ _ _ _ _).trans kept

theorem rings_unitError (d : Dev) (n k : Nat) {code : Nat} (u : InUnit) (h : code ≠ 6) :
    rings (d.unitError n k code u) = rings d := by
  have reported := rings_decReport d n k (d.unitSeq n u) h
  unfold Dev.unitError Dev.decError
  generalize d.decReport n k code (d.unitSeq n u) = e at reported ⊢
  exact (rings_setDecState _ _ _).trans reported

theorem rings_decDenied (d : Dev) (w addr : Nat) : rings (d.decDenied w addr) = rings d := by
  unfold Dev.decDenied
  split
  · split
    · split
      · exact rings_ite (rings_unitError _ _ _ _ (by decide)) rfl
      · rfl
    · rfl
  · rfl

theorem rings_denied (d : Dev) (a : Access) : rings (d.denied a) = rings d :=
  rings_ite (rings_intakeDenied _ _ _) (rings_ite (rings_decDenied _ _ _) rfl)

/-! ### The refusal -/

/-- What the requester of a refused access is answered (R331). -/
def refusal (a : Access) : Out :=
  if a.op = 1 then .fabric (accReq a) "write refused" [] []
  else .fabric (accReq a) "read refused" [] (List.range ((a.addr % 32 + a.len + 31) / 32))

theorem access_refused {d : Dev} {a : Access} {ffb : Nat} {v : PageVerdict} (h : d.checkAccess a = some (ffb, v))
    (mem : Mem) (o : MemObs) :
    d.access mem a o = (((d.violate a ffb v).denied a).send (refusal a), mem) := by
  simp only [Dev.access, h, refusal]
  split <;> rfl

theorem rings_refused (d : Dev) (a : Access) (ffb : Nat) (v : PageVerdict) (o : Out) :
    rings (((d.violate a ffb v).denied a).send o) = rings d :=
  (rings_denied _ _).trans (rings_violate _ _ _ _)

end Sys2Proof.Machine.RefusedAccesses

open Sys2Proof Sys2Proof.Machine Sys2Proof.Machine.FabricAccesses Sys2Proof.Machine.RefusedAccesses in
/-- Settles O36: the refusal is that of the first page with a verdict other than allowed, and what it does beside its
answer touches neither the HBM nor a controller. -/
theorem anAccessIsRefusedWhole : Obligations.AnAccessIsRefusedWhole := by
  intro s t a o d hup hfit
  refine ⟨checkAccess_eq_none, fun ffb v hc => ?_⟩
  obtain ⟨k, hk, page, allowed⟩ := exists_page_of_checkAccess hc
  obtain ⟨kind, rfl, rfl⟩ := pageRefusal_eq_some.mp page
  obtain ⟨start, low, high⟩ := firstByte_in_page (one_le_len hfit) hk
  have kept := rings_refused d a (max a.addr (pageAt a k)) (d.checkPage a (pageAt a k)) (refusal a)
  have run := exec_fabricAccess hup hfit o
  rw [access_refused hc] at run
  refine ⟨kind, by rw [start], low, high, fun b hb hlt hp => ?before, _, run, rfl, (pcs_of_rings kept).trans rfl,
    (congrArg AudioStreams.Rings.words kept).trans rfl, ?answer⟩
  case before =>
    obtain ⟨earlier, same⟩ := pageAt_of_byte_before hb hlt hp
    rw [← same]
    exact allowed _ earlier
  case answer => rw [Dev.send_outbox, List.getLast?_concat, refusal]
end

section
/-! O1, O2, O3: what a step is, that every command answers, and what a reset leaves. -/

open Sys2Proof Sys2Proof.Machine in
/-- Settles O1: a step is defined by the front of the queue. -/
theorem stepRunsTheFrontCommand : Obligations.StepRunsTheFrontCommand := by
  constructor
  · intro c rest s front
    simp only [step, front]
  · intro s empty
    simp only [step, empty]

open Sys2Proof Sys2Proof.Machine in
/-- Settles O2: whatever the command, the runner that carries it out (on the AON domain, on the device, with the HBM or
as the write of a command object) answers the state with another device and HBM in it, and the same queue. -/
theorem everyCommandAnswersAndKeepsTheQueue : Obligations.EveryCommandAnswersAndKeepsTheQueue := by
  intro c s
  cases c <;> exact ⟨_, rfl, rfl⟩

open Sys2Proof Sys2Proof.Machine in
/-- Settles O3: the reset state lists no register, so each reads as the default of its row. -/
theorem resetLeavesTheStatedDefaults : Obligations.ResetLeavesTheStatedDefaults := by
  have wings : ∀ w < 4, State.reset.dev.rd (0x2010 + w) 1 = 8 ∧ State.reset.dev.rd (0x2010 + w) 2 = 0 := by decide
  have slots : ∀ k < 64, State.reset.dev.slotState k = 0 := by decide
  exact ⟨rfl, rfl, wings, rfl, rfl, rfl, slots, fun _ => rfl, rfl⟩
end

section
/-! O51: the core balls. -/
namespace Sys2Proof.Machine.CoreBalls

theorem ballNet_core {r c : Nat} (hr : 9 ≤ r) (hr' : r ≤ 54) (hc : 9 ≤ c) (hc' : c ≤ 54) :
    ballNet r c = if (r + c) % 2 = 0 then "VSS" else coreSupply r c := by
  rw [ballNet, if_pos ⟨hr, hr'⟩, if_neg (by omega)]

theorem coreSupply_upper {r : Nat} (h : r ≤ 26) (c : Nat) :
    coreSupply r c = if c ≤ 31 then "VDD_W0" else "VDD_W1" := if_pos h

theorem coreSupply_lower {r : Nat} (h : 37 ≤ r) (c : Nat) :
    coreSupply r c = if c ≤ 31 then "VDD_W2" else "VDD_W3" :=
  (if_neg (by omega)).trans (if_pos h)

theorem coreSupply_middle {r : Nat} (h : 27 ≤ r) (h' : r ≤ 36) (c : Nat) :
    coreSupply r c = if c ≤ 20 ∨ 43 ≤ c then
      (if r ≤ 30 then "HBM_VDDC" else if r ≤ 34 then "HBM_VDDQ" else "HBM_VPP") else "VDD_SOC" := by
  rw [coreSupply, if_neg (by omega), if_neg (by omega)]
  by_cases outer : c ≤ 20 ∨ 43 ≤ c <;> simp [outer]

end Sys2Proof.Machine.CoreBalls

open Sys2Proof Sys2Proof.Machine Sys2Proof.Machine.CoreBalls in
/-- Settles O51: a core ball of odd row plus column carries `coreSupply`, which has one equation for each of the three
row ranges of Table 22.6. -/
theorem coreBallsAreGroundOrTheirSupply : Obligations.CoreBallsAreGroundOrTheirSupply := by
  intro r c hr hr' hc hc'
  have net := ballNet_core hr hr' hc hc'
  refine ⟨fun even => by rw [net, if_pos even], fun odd => ?_⟩
  rw [net, if_neg (by omega)]
  refine ⟨fun h => coreSupply_upper h c, fun h h' _ _ => ?soc, fun h h' outer => ?vddc, fun h h' outer => ?vddq,
    fun h h' outer => ?vpp, fun h => coreSupply_lower h c⟩
  all_goals rw [coreSupply_middle (by omega) (by omega)]
  case soc => rw [if_neg (by omega)]
  case vddc => rw [if_pos outer, if_pos h']
  case vddq => rw [if_pos outer, if_neg (by omega), if_pos h']
  case vpp => rw [if_pos outer, if_neg (by omega), if_neg (by omega)]
end

section
/-! O5: the commands that leave the HBM alone. -/
namespace Sys2Proof.Machine.MemoryFrame

theorem onDevMem_mem {t : Nat} {f : Mem → Dev → Dev × Mem} {s u : State} (keeps : ∀ d, (f s.mem d).2 = s.mem)
    (h : onDevMem t f s = .next u) : u.mem = s.mem := by
  simp only [onDevMem, Host.Outcome.next.injEq] at h
  subst h
  dsimp only
  split
  · exact keeps _
  · rfl

theorem racingSelection_mem {t o : Nat} {s u : State} (h : exec (.racingSelection t o) s = .next u) :
    u.mem = s.mem :=
  onDevMem_mem (t := t) (f := fun mem d => (if d.alive then d.racingSelect mem o else d, mem)) (fun _ => rfl) h

theorem rasterFrameStart_mem {t o : Nat} {fault : Bool} {s u : State}
    (h : exec (.rasterFrameStart t o fault) s = .next u) : u.mem = s.mem :=
  onDevMem_mem (t := t) (f := fun mem d => (if d.alive then d.rasterFrameStart mem o fault else d, mem))
    (fun _ => rfl) h

theorem cvuDmaEnd_mem {t n : Nat} {o : MemObs} {s u : State} (h : exec (.cvuDmaEnd t n o) s = .next u) :
    u.mem = s.mem :=
  onDevMem_mem (t := t)
    (f := fun mem d => if d.alive && d.cvuState n == 2 then (d.cvuEnd mem n (d.rd (cvuIdx n) 8) 0 o, mem) else (d, mem))
    (fun _ => by split <;> rfl) h

/-- Beside the three commands that read it, a command that does not reach the HBM is run without the HBM. -/
theorem mem_of_not_reachesMemory {c : Instr} {s u : State} (hc : reachesMemory c = false)
    (h : exec c s = .next u) : u.mem = s.mem := by
  cases c
  case racingSelection => exact racingSelection_mem h
  case rasterFrameStart => exact rasterFrameStart_mem h
  case cvuDmaEnd => exact cvuDmaEnd_mem h
  all_goals simp only [reachesMemory, Bool.true_eq_false] at hc
  all_goals exact (Host.Outcome.next.inj h) ▸ rfl

/-! ### Resets -/

/-- Leaves the memory as it was, or leaves the empty memory of a reset device. -/
def KeptOrEmpty (before after : Mem) : Prop := after = before ∨ after = []

theorem keptOrEmpty_ite {p : Prop} [Decidable p] {m : Mem} {x y : Dev × Mem} (hx : KeptOrEmpty m x.2)
    (hy : KeptOrEmpty m y.2) : KeptOrEmpty m (if p then x else y).2 := by
  split <;> assumption

theorem keptOrEmpty_finishReset (d : Dev) (m : Mem) : KeptOrEmpty m (Dev.finishReset (d, m)).2 :=
  keptOrEmpty_ite (.inr rfl) (.inl rfl)

theorem keptOrEmpty_datagramIn (via : Transport) (g : Datagram) (ok : Nat → Bool) (d : Dev) (m : Mem) :
    KeptOrEmpty m (Dev.datagramIn via g ok d m).2 := by
  unfold Dev.datagramIn
  refine keptOrEmpty_ite (.inl rfl) ?_
  cases wdpHead g.bytes with
  | none => exact .inl rfl
  | some h => exact keptOrEmpty_ite (keptOrEmpty_finishReset _ m) (.inl rfl)

theorem keptOrEmpty_powerEntry (d : Dev) (m : Mem) : KeptOrEmpty m (d.powerEntry m).2 := by
  unfold Dev.powerEntry
  cases d.pwr.entry with
  | none => exact .inl rfl
  | some e =>
    refine keptOrEmpty_ite ?_ (.inl rfl)
    dsimp only
    split
    · exact .inr rfl
    · exact .inl rfl

theorem keptOrEmpty_wakeStep (d : Dev) (o : WakeObs) (m : Mem) : KeptOrEmpty m (d.wakeStep o m).2 := by
  unfold Dev.wakeStep
  cases d.pwr.wake with
  | none => exact .inl rfl
  | some w =>
    refine keptOrEmpty_ite (.inl rfl) (keptOrEmpty_ite (.inr rfl) (keptOrEmpty_ite ?_ (.inl rfl)))
    dsimp only
    split
    · exact .inr rfl
    · exact .inl rfl

theorem keptOrEmpty_wakeTimedOut (d : Dev) (m : Mem) : KeptOrEmpty m (d.wakeTimedOut m).2 := by
  unfold Dev.wakeTimedOut
  cases d.pwr.wake with
  | none => exact .inl rfl
  | some w => exact keptOrEmpty_ite (.inl rfl) (.inr rfl)

theorem keptOrEmpty_of_mayReset {c : Instr} {s u : State} (hc : mayReset c = true) (h : exec c s = .next u) :
    KeptOrEmpty s.mem u.mem := by
  cases c
  case hello | auth | close | echo | read | write | stage | commitAtTick | discard | cancel | subscribe | notifyAcknowledge | mailboxDoorbell => exact Host.Outcome.next.inj h ▸ keptOrEmpty_datagramIn _ _ _ _ _
  case powerEntryStep => exact Host.Outcome.next.inj h ▸ keptOrEmpty_powerEntry _ _
  case wakeStep => exact Host.Outcome.next.inj h ▸ keptOrEmpty_wakeStep _ _ _
  case wakeStepTimeout => exact Host.Outcome.next.inj h ▸ keptOrEmpty_wakeTimedOut _ _
  case vddAonPowerOn => exact Host.Outcome.next.inj h ▸ keptOrEmpty_ite (.inr rfl) (.inl rfl)
  case resetNLow => exact Host.Outcome.next.inj h ▸ keptOrEmpty_ite (.inl rfl) (.inr rfl)
  case firmwareReset => exact Host.Outcome.next.inj h ▸ keptOrEmpty_ite (keptOrEmpty_finishReset _ _) (.inl rfl)
  case vddAonLost => exact Host.Outcome.next.inj h ▸ .inr rfl
  all_goals exact absurd hc Bool.false_ne_true

end Sys2Proof.Machine.MemoryFrame

open Sys2Proof Sys2Proof.Machine Sys2Proof.Machine.MemoryFrame in
/-- Settles O5: of the commands outside `reachesMemory` three are given the HBM, and answer it as they got it; a command
that may reset the device answers the HBM that it got or the empty one. -/
theorem onlyMemoryCommandsTouchMemory : Obligations.OnlyMemoryCommandsTouchMemory :=
  ⟨fun _ _ _ hc h a => by rw [mem_of_not_reachesMemory hc h], fun _ _ _ hc h => keptOrEmpty_of_mayReset hc h⟩
end

section
/-! O55 and O58: the two statements of this family that fail, each with the state that refutes it. -/
namespace Sys2Proof.Machine.FailedLane

/-- A device in Run whose ring side 0 runs on all 4 lanes, while its record still counts lane 0 as reported out. -/
def laneReported : State :=
  { dev := (({ pwr := { state := 0, resetLow := false }, ring := { sides := [(0, { out := 1 })] } } : Dev).wr
      (sideIdx 0) 1 2).wr (sideIdx 0) 3 15 }

theorem laneReported_outbox {u : State} (h : exec (.ringLane 0 0 0) laneReported = .next u) : u.dev.outbox = [] := by
  have run : exec (.ringLane 0 0 0) laneReported =
    .next { laneReported with dev := (laneReported.found 0).laneLost 0 0 } := by rfl
  obtain rfl := Host.Outcome.next.inj (run.symm.trans h)
  decide

end Sys2Proof.Machine.FailedLane

open Sys2Proof Sys2Proof.Machine Sys2Proof.Machine.FailedLane in
/-- Refutes O55: a lane that the side's record counts as reported out already fails without a report, and the statement
has no premise that a running side with 4 lanes has none of them reported. -/
theorem not_theRingAlignsAndCarriesFrames : ¬ Obligations.TheRingAlignsAndCarriesFrames := by
  intro holds
  obtain ⟨-, -, runs, -⟩ := holds laneReported 0 0 0 0 []
    { sender := 0, hops := 0, cls := 0, version := 0, tick := 0, slot := 0, flow := 0, seq := 0, flags := 0,
      receiver := 0, payload := [], cut := true, checksOk := true, off := 0, msg := .other } (by decide) (by decide)
  obtain ⟨-, lane, -⟩ := runs (by decide)
  obtain ⟨u, run, -, -, -, reported⟩ := lane (by decide) (by decide)
  rw [laneReported_outbox run] at reported
  exact absurd reported List.not_mem_nil

namespace Sys2Proof.Machine.WakeInRun

/-- A device in Run, WAKE_N armed, with a CAN wake on record that began at instant 0. -/
def wakeOnRecord : State :=
  { dev := { pwr := { state := 0, resetLow := false, wakeArmed := true
                      wake := some { from_ := 1, step := 2, cause := 2, began := 0, stepAt := 0 } } } }

theorem wakeOnRecord_wake {u : State} (h : exec (.wakeNFall 0) wakeOnRecord = .next u) :
    u.dev.pwr.wake = some { from_ := 1, step := 2, cause := 1, began := 0, stepAt := 0 } := by
  obtain rfl := Host.Outcome.next.inj h
  decide

end Sys2Proof.Machine.WakeInRun

open Sys2Proof Sys2Proof.Machine Sys2Proof.Machine.WakeInRun in
/-- Refutes O58: the fall of an armed WAKE_N in state 0 changes the cause of a wake that is on record and began at that
instant, and the statement, which says that only the pin shows, has no premise that no wake is on record. -/
theorem not_powerCommandsComplete : ¬ Obligations.PowerCommandsComplete := by
  intro holds
  obtain ⟨-, -, -, falls, -⟩ := holds wakeOnRecord 0 0 0 ⟨0, 0⟩ (.wakeNFall 0) { target := 1, step := 1 } []
  have shown := wakeOnRecord_wake (falls (by decide) (by decide))
  exact absurd shown (by decide)
end

section
/-! Shared by the statements below: a granted write of a command object, and what the role of a device in a pair is. -/
namespace Sys2Proof.Machine.PairCommands

/-- A granted write of a command object acts, and its status is sent to the requester. -/
theorem onCommand_granted {t : Nat} {by_ : Requester} {i sub : Nat} {data : List Byte} {eff : Dev → Res} {s : State}
    (h : (s.found t).grants by_ i sub data) :
    onCommand t by_ (fun d => d.command by_ i sub data eff) s = .next { s with
      dev := (eff (s.found t)).dev.send (.answer by_ (eff (s.found t)).st (eff (s.found t)).slot) } := by
  rw [onCommand_alive h.1, Dev.command_granted h]

/-- The same, with the effect's result at hand. -/
theorem onCommand_result {t : Nat} {by_ : Requester} {i sub : Nat} {data : List Byte} {eff : Dev → Res} {s : State}
    {r : Res} (h : (s.found t).grants by_ i sub data) (effect : eff (s.found t) = r) :
    onCommand t by_ (fun d => d.command by_ i sub data eff) s =
      .next { s with dev := r.dev.send (.answer by_ r.st r.slot) } := by
  rw [onCommand_granted h, effect]

theorem active_of_role {d : Dev} (role : d.rd 0x2100 1 = 1) : d.active = true := by simp [Dev.active, role]

theorem inactive_of_role {d : Dev} (pair : d.duplex = true) (role : d.rd 0x2100 1 = 0) : d.active = false := by
  simp [Dev.active, role, pair]

theorem inactive_of_standby {d : Dev} (h : d.standby = true) : d.active = false := by
  simp only [Dev.standby, Bool.and_eq_true, beq_iff_eq] at h
  exact inactive_of_role h.1 h.2

theorem duplex_setDup (d : Dev) (x : DupRt) : (d.setDup x).duplex = d.duplex := by
  simp only [Dev.duplex, Dev.rd_congr (Dev.setDup_regs d x)]

theorem toPartner_setDup {d : Dev} {x : DupRt} (pair : d.duplex = true) (link : x.linkUp = true) (what : String)
    (b : List Byte) : (d.setDup x).toPartner what b = (d.setDup x).send (.partner what b) := by
  rw [Dev.toPartner, duplex_setDup, pair, show (d.setDup x).dup.linkUp = true from link]
  rfl

end Sys2Proof.Machine.PairCommands
end

section
/-! O53: what each command of a commanded swap does. -/
namespace Sys2Proof.Machine.Swaps

open PairCommands

variable {d : Dev}

/-! ### The swap command -/

/-- The premises of R353: an active device in a pair whose partner is READY, with the ring up and timed flows. -/
structure MaySwap (d : Dev) : Prop where
  pair : d.duplex = true
  role : d.rd 0x2100 1 = 1
  ready : d.dup.partner = 4
  link : d.dup.linkUp = true
  flows : d.timedFlows = true

theorem askSwap_of_maySwap (h : MaySwap d) :
    d.askSwap =
      if d.tickTime 0 (d.rd 0x2100 6) < d.now + 6000000 then d.res stTooLate
      else if d.now + 600000000000 < d.tickTime 0 (d.rd 0x2100 6) then d.res stTooFar
      else if d.dup.swap.isSome then d.res stBusy
      else (d.setDup { d.dup with
        swap := some { tick := d.rd 0x2100 6, at_ := d.tickTime 0 (d.rd 0x2100 6) } }).res stOk := by
  simp [Dev.askSwap, h.pair, active_of_role h.role, h.ready, h.link, h.flows]

theorem askSwap_pends (h : MaySwap d) (late : d.now + 6000000 ≤ d.tickTime 0 (d.rd 0x2100 6))
    (near : d.tickTime 0 (d.rd 0x2100 6) ≤ d.now + 600000000000) (none_ : d.dup.swap = none) :
    d.askSwap = (d.setDup { d.dup with
      swap := some { tick := d.rd 0x2100 6, at_ := d.tickTime 0 (d.rd 0x2100 6) } }).res stOk := by
  rw [askSwap_of_maySwap h, if_neg (by omega), if_neg (by omega), none_]
  rfl

theorem askSwap_tooLate (h : MaySwap d) (late : d.tickTime 0 (d.rd 0x2100 6) < d.now + 6000000) :
    d.askSwap = d.res stTooLate := by
  rw [askSwap_of_maySwap h, if_pos late]

theorem askSwap_tooFar (h : MaySwap d) (far : d.now + 600000000000 < d.tickTime 0 (d.rd 0x2100 6)) :
    d.askSwap = d.res stTooFar := by
  rw [askSwap_of_maySwap h, if_neg (by omega), if_pos far]

theorem askSwap_of_standby (h : d.standby = true) : d.askSwap = d.res stWrongState := by
  simp [Dev.askSwap, inactive_of_standby h]

theorem cancelSwap_of_pending {w : SwapRt} (h : d.dup.swap = some w) :
    d.cancelSwap = if d.now + 2000000 < w.at_ then (d.setDup { d.dup with swap := none }).res stOk
      else d.res stWrongState := by
  simp [Dev.cancelSwap, h]

/-! ### The exchange with the partner -/

theorem swapPrepare_sends {w : SwapRt} (m : SwapState) (pair : d.duplex = true) (link : d.dup.linkUp = true)
    (role : d.rd 0x2100 1 = 1) (swap : d.dup.swap = some w) (unsent : w.sent = false) (due : w.at_ ≤ d.now + 2000000) :
    d.swapPrepare m = (d.setDup { d.dup with swap := some { w with sent := true } }).send
      (.partner "swap-prepare" (leBytes 8 w.tick ++ leBytes 4 d.dup.applied ++
        (d.batches.map (·.num)).flatMap (leBytes 4))) := by
  have waits : ¬ d.now + 2000000 < w.at_ := by omega
  simp only [Dev.swapPrepare, pair, active_of_role role, swap, unsent, waits, decide_false, Bool.not_true,
    Bool.or_self, Bool.false_eq_true, if_false, if_true]
  exact toPartner_setDup pair (by exact link) _ _

/-- Two lists hold the same numbers as soon as each number is in both or in neither. -/
theorem all_contains_of_iff {a b : List Nat} (h : ∀ k, k ∈ a ↔ k ∈ b) :
    (a.all b.contains && b.all a.contains) = true := by
  simp only [Bool.and_eq_true, List.all_eq_true, List.contains_iff_mem]
  exact ⟨fun k => (h k).mp, fun k => (h k).mpr⟩

theorem swapPrepare_confirms (m : SwapState) (pair : d.duplex = true) (link : d.dup.linkUp = true)
    (role : d.rd 0x2100 1 = 0) (ready : d.pairState = 4) (applied : d.dup.applied = m.applied)
    (same : ∀ k, k ∈ d.batches.map (·.num) ↔ k ∈ m.pending) :
    d.swapPrepare m = (d.setDup { d.dup with asked := some m.tick }).send
      (.partner "swap-confirm" (leBytes 8 m.tick)) := by
  have agree : (d.dup.applied == m.applied && d.pendingNumbers.all m.pending.contains &&
      m.pending.all d.pendingNumbers.contains) = true := by
    rw [Bool.and_assoc, Dev.pendingNumbers, all_contains_of_iff same, applied, beq_self_eq_true, Bool.and_self]
  simp only [Dev.swapPrepare, pair, inactive_of_role pair role, ready, agree, Bool.not_true, Bool.false_eq_true,
    if_false, and_self, if_true]
  exact toPartner_setDup pair (by exact link) _ _

theorem swapAnswered_confirm {w : SwapRt} (pair : d.duplex = true) (role : d.rd 0x2100 1 = 1)
    (swap : d.dup.swap = some w) (inTime : d.now + 1000000 ≤ w.at_) :
    d.swapAnswered .confirm = d.setDup { d.dup with swap := some { w with confirmed := true } } := by
  unfold Dev.swapAnswered
  rw [pair, if_neg (by decide), active_of_role role, swap]
  dsimp only
  rw [if_pos inTime]

theorem dropSwap_linked (w : SwapRt) (reason : Nat) (pair : d.duplex = true) (link : d.dup.linkUp = true) :
    d.dropSwap w reason = ((d.setDup { d.dup with swap := none, gated := false }).send
      (.partner "swap-cancel" (leBytes 8 w.tick ++ leBytes 1 reason))).raise uRing 0x1003 reason (w.tick % 2 ^ 32)
        sevDegraded := by
  simp only [Dev.dropSwap, toPartner_setDup (x := { d.dup with swap := none, gated := false }) pair link, Dev.swapFailed]

end Sys2Proof.Machine.Swaps

open Sys2Proof Sys2Proof.Machine Sys2Proof.Machine.PairCommands Sys2Proof.Machine.Swaps in
/-- Settles O53: each command has one lemma above for each of its outcomes. -/
theorem swapsAreConfirmedOrDropped : Obligations.SwapsAreConfirmedOrDropped := by
  intro s t by_ w m d x n at_
  refine ⟨fun granted pair role ready link flows => ?asked, fun granted standby => ?refused,
    fun granted swap => ⟨fun early => ?cancelled, fun late => ?notCancelled⟩,
    fun up pair link => ⟨fun role swap => ⟨fun unsent due => ?sent, fun inTime => ?confirmed,
      fun unconfirmed due => ?dropped⟩, fun role ready applied same => ?confirms⟩⟩
  case asked =>
    have may : MaySwap d := ⟨pair, role, ready, link, flows⟩
    exact ⟨fun late near none_ => onCommand_result granted (askSwap_pends may late near none_),
      fun late => onCommand_result granted (askSwap_tooLate may late),
      fun far => onCommand_result granted (askSwap_tooFar may far)⟩
  case refused => exact onCommand_result granted (askSwap_of_standby standby)
  case cancelled => exact onCommand_result granted ((cancelSwap_of_pending swap).trans (if_pos early))
  case notCancelled => exact onCommand_result granted ((cancelSwap_of_pending swap).trans (if_neg (by exact Nat.not_lt.mpr late)))
  case sent =>
    have run : exec (.swapPrepare t m) s = onDev t (·.swapPrepare m) s := by rfl
    rw [run, onDev_alive up, swapPrepare_sends m pair link role swap unsent due]
    rfl
  case confirmed =>
    have run : exec (.swapConfirmation t .confirm) s = onDev t (·.swapAnswered .confirm) s := by rfl
    rw [run, onDev_alive up, swapAnswered_confirm pair role swap inTime]
    rfl
  case dropped =>
    have run : exec (.swapConfirmDeadline t) s = onDev t (fun d => match d.dup.swap with
      | some w => if !w.confirmed && decide (w.at_ ≤ d.now + 1000000) then d.dropSwap w 1 else d
      | none => d) s := by rfl
    have due' : w.at_ ≤ (s.found t).now + 1000000 := due
    have swap' : (s.found t).dup.swap = some w := swap
    rw [run, onDev_alive up]
    simp only [swap', unconfirmed, due', decide_true, Bool.not_false, Bool.and_self, if_true]
    rw [dropSwap_linked w 1 pair link]
    rfl
  case confirms =>
    have run : exec (.swapPrepare t m) s = onDev t (·.swapPrepare m) s := by rfl
    rw [run, onDev_alive up, swapPrepare_confirms m pair link role ready applied same]
    rfl
end

section
/-! O47: it fails in recovery. -/
namespace Sys2Proof.Machine.RunningValue

/-- A device in recovery, where the boot ROM serves the boot objects only (R453). -/
def recovering : Dev := { pwr := { state := 4, bootStep := 10 } }

theorem readObj_recovering : recovering.readObj (cvuIdx 0) 4 = [] := by decide

end Sys2Proof.Machine.RunningValue

open Sys2Proof Sys2Proof.Machine Sys2Proof.Machine.RunningValue in
/-- Refutes O47: in recovery sub 04 of a check-value unit is not implemented and reads as no byte at all, and the
statement asks for the 8 bytes of the running value on every device. -/
theorem not_aRunningValueCanBeSavedAndWrittenBack : ¬ Obligations.ARunningValueCanBeSavedAndWrittenBack := by
  rintro ⟨reads, -⟩
  have lengths := congrArg List.length (reads recovering 0 (by decide))
  rw [readObj_recovering, leBytes_length] at lengths
  exact absurd lengths (by decide)
end

section
/-! The fault journal: its entries as byte strings, and what each of its operations keeps. -/
namespace Sys2Proof.Machine.Journal

open FabricAccesses EventInputs

/-! ### Bytes -/

theorem padTo_of_length {n : Nat} {b : List Byte} (h : b.length = n) : padTo n b = b := by
  subst h
  exact slice_whole b

theorem byteAt_append_left {p : List Byte} (q : List Byte) {i : Nat} (h : i < p.length) :
    byteAt (p ++ q) i = byteAt p i := by
  rw [byteAt, byteAt, List.getD_append _ _ _ _ h]

theorem byteAt_append_right {p : List Byte} (q : List Byte) {i : Nat} (h : p.length ≤ i) :
    byteAt (p ++ q) i = byteAt q (i - p.length) := by
  rw [byteAt, byteAt, List.getD_append_right _ _ _ _ h]

theorem byteAt_slice (b : List Byte) (o : Nat) {n i : Nat} (h : i < n) : byteAt (slice b o n) i = byteAt b (o + i) := by
  simp only [byteAt, slice]
  congr 1
  by_cases inside : o + i < b.length
  · rw [List.getD_append _ _ _ _ (by simp; omega)]
    simp [List.getD_eq_getElem?_getD, h]
  · rw [List.getD_append_right _ _ _ _ (by simp; omega), List.getD_eq_default b 0 (by omega)]
    rw [List.getD_eq_getElem?_getD, List.getElem?_getD_replicate_default_eq]

theorem byteAt_lt (b : List Byte) (i : Nat) : byteAt b i < 256 := (b.getD i 0).isLt

/-- A byte string of three parts: the field that the middle one is. -/
theorem fieldAt_middle {b p q r : List Byte} {o n : Nat} (parts : b = p ++ (q ++ r)) (hp : p.length = o)
    (hq : q.length = n) : fieldAt b o n = leNat q := by
  subst parts hp hq
  exact fieldAt_append p q r

theorem byteAt_middle {b p r : List Byte} {o : Nat} {x : Nat} (parts : b = p ++ (leBytes 1 x ++ r))
    (hp : p.length = o) : byteAt b o = x % 256 := by
  subst parts hp
  exact (byteAt_append p r _).trans (BitVec.toNat_ofNat x 8)

theorem setBit_lt_of_bit {v i w : Nat} (h : v < 2 ^ w) (hi : i < w) (b : Bool) : setBit v i b < 2 ^ w := by
  refine Nat.lt_pow_two_of_testBit _ fun j hj => ?_
  rw [testBit_setBit, if_neg (by omega)]
  exact Nat.testBit_lt_two_pow (h.trans_le (Nat.pow_le_pow_right (by decide) hj))

/-! ### Entries -/

/-- What the journal is read from: the numbers, the byte strings and the waiting reports. -/
def ledger (d : Dev) : Tab Nat × Tab (List Byte) × List Report := (d.regs, d.doms, d.queue)

theorem rd_of_ledger {d e : Dev} (h : ledger d = ledger e) (i s : Nat) : d.rd i s = e.rd i s :=
  Dev.rd_congr (congrArg Prod.fst h) i s

theorem jEntry_of_doms {d e : Dev} (h : d.doms = e.doms) (k : Nat) : d.jEntry k = e.jEntry k := by
  simp only [Dev.jEntry, Dev.rdc, h]

theorem jEntry_of_ledger {d e : Dev} (h : ledger d = ledger e) (k : Nat) : d.jEntry k = e.jEntry k :=
  jEntry_of_doms (congrArg (fun l => l.2.1) h) k

theorem queue_of_ledger {d e : Dev} (h : ledger d = ledger e) : d.queue = e.queue := congrArg (fun l => l.2.2) h

theorem jEntry_wrc_same (d : Dev) (e : Nat) {b : List Byte} (h : b.length = 32) :
    (d.wrc 0x2401 1 e b).jEntry e = b := by
  rw [Dev.jEntry, Dev.rdc_wrc_same, padTo_of_length h]

theorem jEntry_wrc_other (d : Dev) {i s e k : Nat} (b : List Byte) (h : domKey 0x2401 1 k ≠ domKey i s e) :
    (d.wrc i s e b).jEntry k = d.jEntry k := by
  rw [Dev.jEntry, Dev.jEntry, Dev.rdc_wrc_other d h]

/-- A write of one entry leaves the others alone. -/
theorem jEntry_wrc_entry (d : Dev) {e k : Nat} (b : List Byte) (h : k ≠ e) :
    (d.wrc 0x2401 1 e b).jEntry k = d.jEntry k :=
  jEntry_wrc_other d b (by simp only [domKey]; omega)

@[simp] theorem jEntry_wrf (d : Dev) (i s f v k : Nat) : (d.wrf i s f v).jEntry k = d.jEntry k := rfl
@[simp] theorem jEntry_wr (d : Dev) (i s v k : Nat) : (d.wr i s v).jEntry k = d.jEntry k := rfl

theorem jEntries_congr {d e : Dev} (count : d.jCount = e.jCount) (entry : ∀ k < e.jCount, d.jEntry k = e.jEntry k) :
    d.jEntries = e.jEntries := by
  rw [Dev.jEntries, Dev.jEntries, count]
  exact List.map_congr_left fun k hk => entry k (List.mem_range.mp hk)

theorem jOpen_congr {d e : Dev} (count : d.jCount = e.jCount) (entry : ∀ k < e.jCount, d.jEntry k = e.jEntry k) :
    d.jOpen = e.jOpen := by
  rw [Dev.jOpen, Dev.jOpen, jEntries_congr count entry]

theorem lostAtLeast_congr {d e : Dev} (h : d.rd 0x2400 4 = e.rd 0x2400 4) (v : Nat) :
    d.lostAtLeast v = e.lostAtLeast v := by rw [Dev.lostAtLeast, Dev.lostAtLeast, h]

theorem errorBits_congr {d e : Dev} (open_ : d.jOpen = e.jOpen) (lost : d.rd 0x2400 4 = e.rd 0x2400 4) :
    d.errorBits = e.errorBits := by
  simp only [Dev.errorBits, open_, lostAtLeast_congr lost]

theorem errorBits_of_closed {d : Dev} (h : d.jOpen = []) : d.errorBits = if d.lostAtLeast 1 then 1 else 0 := by
  rw [Dev.errorBits, h]
  cases d.lostAtLeast 1 <;> rfl

/-! ### Sending -/

theorem ledger_mute (d : Dev) : ledger (mute d) = ledger d := rfl

theorem ledger_ite {p : Prop} [Decidable p] {d e x : Dev} (hd : ledger d = ledger x) (he : ledger e = ledger x) :
    ledger (if p then d else e) = ledger x := by
  split <;> assumption

theorem ledger_notify (d : Dev) (event time : Nat) (body : List Byte) : ledger (d.notify event time body) = ledger d := by
  rw [← ledger_mute, mute_notify, ledger_mute]

theorem ledger_emcy (d : Dev) (code : Nat) (body : List Byte) : ledger (d.emcy code body) = ledger d :=
  ledger_ite rfl rfl

/-! ### What hangs on the uncleared entries -/

/-- The counts of the uncleared entries and the error register, recomputed (R392, R399). -/
def counted (d : Dev) : Dev :=
  let cnt := fun v => (d.jOpen.filter fun b => jSev b == v).length
  let c := (((d.wr 0x2400 2 d.jOpen.length).wrf 0x2400 0x0B 1 (cnt 1)).wrf 0x2400 0x0B 2 (cnt 2)).wrf 0x2400 0x0B 3 (cnt 3)
  c.wr 0x1001 0 c.errorBits

theorem ledger_jRefresh (d : Dev) : ledger d.jRefresh = ledger (counted d) :=
  ledger_ite (ledger_emcy (counted d) _ _) rfl

theorem doms_counted (d : Dev) : (counted d).doms = d.doms := by simp [counted]
theorem queue_counted (d : Dev) : (counted d).queue = d.queue := by simp [counted]

/-- The objects that `counted` leaves alone. -/
theorem rd_counted (d : Dev) {i s : Nat} (hi : i ≠ 0x1001) (hs : s < 256) (h : i = 0x2400 → s ≠ 2) :
    (counted d).rd i s = d.rd i s := by
  have apart {j r f : Nat} (hr : r < 256) (hf : f < 65536) (ne : i = j → s = r → f ≠ 0) : regKey i s 0 ≠ regKey j r f :=
    fun eq => (regKey_inj hs hr (by decide) hf eq).elim fun e1 e2 => ne e1 e2.1 e2.2.symm
  rw [counted, Dev.rd_wr_other _ (apart (by decide) (by decide) fun e _ => absurd e hi)]
  iterate 3 refine (Dev.rdf_wrf_other _ (apart (by decide) (by decide) fun _ _ => by decide)).trans ?_
  exact Dev.rd_wr_other _ (apart (by decide) (by decide) fun e1 e2 => absurd e2 (h e1))

theorem jCount_counted (d : Dev) : (counted d).jCount = d.jCount :=
  rd_counted d (by decide) (by decide) fun _ => by decide

theorem jOpen_counted (d : Dev) : (counted d).jOpen = d.jOpen := jOpen_congr (jCount_counted d) fun k _ => jEntry_of_doms (doms_counted d) k

theorem rd_counted_open (d : Dev) : (counted d).rd 0x2400 2 = d.jOpen.length := by
  have apart {j r f : Nat} (hr : r < 256) (hf : f < 65536) (ne : r ≠ 2) : regKey 0x2400 2 0 ≠ regKey j r f :=
    fun eq => ne (regKey_inj (by decide) hr (by decide) hf eq).2.1.symm
  rw [counted, Dev.rd_wr_other _ (apart (by decide) (by decide) (by decide))]
  iterate 3 refine (Dev.rdf_wrf_other _ (apart (by decide) (by decide) (by decide))).trans ?_
  exact Dev.rd_wr_same _ _ _ _

theorem rd_counted_register (d : Dev) : (counted d).rd 0x1001 0 = (counted d).errorBits := by
  rw [counted, Dev.rd_wr_same]
  refine errorBits_congr (jOpen_congr (Eq.symm ?_) fun _ _ => rfl) (Eq.symm ?_)
  all_goals exact Dev.rd_wr_other _ (by decide)

/-- What the recount of an operation's result shows: the journal that the operation leaves, its number of uncleared
entries and its error register. -/
structure Shows (u e : Dev) : Prop where
  bound : e.jCount ≤ 1024
  count : u.jCount = e.jCount
  entry : ∀ k < 1024, u.jEntry k = e.jEntry k
  waiting : u.queue = e.queue
  lost : u.rd 0x2400 3 = e.rd 0x2400 3
  highest : u.rd 0x2400 4 = e.rd 0x2400 4
  open_ : u.rd 0x2400 2 = u.jOpen.length
  register : u.rd 0x1001 0 = u.errorBits

theorem Shows.jOpen {u e : Dev} (h : Shows u e) : u.jOpen = e.jOpen :=
  jOpen_congr h.count fun k hk => h.entry k (hk.trans_le h.bound)

/-- A device with the same numbers, entries and reports shows the same. -/
theorem Shows.of_same {u e x : Dev} (h : Shows u e) (num : ∀ i s, i < 0x2402 → s < 256 → x.rd i s = u.rd i s)
    (entry : ∀ k < 1024, x.jEntry k = u.jEntry k) (queue : x.queue = u.queue) : Shows x e := by
  have count : x.jCount = u.jCount := num _ _ (by decide) (by decide)
  have opened : x.jOpen = u.jOpen :=
    jOpen_congr count fun k hk => entry k (hk.trans_le (h.count.trans_le h.bound))
  exact {
    bound := h.bound
    count := count.trans h.count
    entry := fun k hk => (entry k hk).trans (h.entry k hk)
    waiting := queue.trans h.waiting
    lost := (num _ _ (by decide) (by decide)).trans h.lost
    highest := (num _ _ (by decide) (by decide)).trans h.highest
    open_ := by rw [num _ _ (by decide) (by decide), opened, h.open_]
    register := by
      rw [num _ _ (by decide) (by decide), h.register, errorBits_congr opened (num _ _ (by decide) (by decide))] }

theorem Shows.of_ledger {u e x : Dev} (h : Shows u e) (same : ledger x = ledger u) : Shows x e :=
  h.of_same (fun i s _ _ => rd_of_ledger same i s) (fun k _ => jEntry_of_ledger same k) (queue_of_ledger same)

theorem shows_counted {d : Dev} (bound : d.jCount ≤ 1024) : Shows (counted d) d where
  bound := bound
  count := jCount_counted d
  entry k _ := jEntry_of_doms (doms_counted d) k
  waiting := queue_counted d
  lost := rd_counted d (by decide) (by decide) fun _ => by decide
  highest := rd_counted d (by decide) (by decide) fun _ => by decide
  open_ := by rw [rd_counted_open, jOpen_counted]
  register := rd_counted_register d

theorem shows_jRefresh {d : Dev} (bound : d.jCount ≤ 1024) : Shows d.jRefresh d :=
  (shows_counted bound).of_ledger (ledger_jRefresh d)

end Sys2Proof.Machine.Journal
end

section
/-! O50: clearing entries, emptying the journal, erasing the AON records. -/
namespace Sys2Proof.Machine.Journal

open EventInputs AudioStreams

@[simp] theorem rdc_send (d : Dev) (o : Out) (i s c : Nat) : (d.send o).rdc i s c = d.rdc i s c := rfl
@[simp] theorem jEntry_send (d : Dev) (o : Out) (k : Nat) : (d.send o).jEntry k = d.jEntry k := rfl

/-! ### One entry -/

/-- An entry with its cleared bit set. -/
def cleared (b : List Byte) : List Byte := slice b 0 15 ++ leBytes 1 (setBit (jFlags b) 3 true) ++ slice b 16 16

theorem cleared_length (b : List Byte) : (cleared b).length = 32 := by simp [cleared, slice_length]

theorem jFlags_cleared (b : List Byte) : jFlags (cleared b) = setBit (jFlags b) 3 true := by
  have small : setBit (jFlags b) 3 true < 2 ^ 8 := setBit_lt_of_bit (byteAt_lt b 15) (by decide) true
  have parts : cleared b = slice b 0 15 ++ (leBytes 1 (setBit (jFlags b) 3 true) ++ slice b 16 16) :=
    List.append_assoc _ _ _
  rw [jFlags, byteAt_middle parts (slice_length b 0 15)]
  exact Nat.mod_eq_of_lt small

theorem testBit_jFlags_cleared (b : List Byte) : (jFlags (cleared b)).testBit 3 = true := by
  rw [jFlags_cleared, testBit_setBit, if_pos rfl]

theorem byteAt_cleared_other (b : List Byte) {i : Nat} (hi : i < 32) (h : i ≠ 15) :
    byteAt (cleared b) i = byteAt b i := by
  obtain low | high : i < 15 ∨ 16 ≤ i := by omega
  · rw [cleared, List.append_assoc, byteAt_append_left _ (by rwa [slice_length]), byteAt_slice _ _ low, Nat.zero_add]
  · have front : (slice b 0 15 ++ leBytes 1 (setBit (jFlags b) 3 true)).length = 16 := by simp [slice_length]
    rw [cleared, byteAt_append_right _ (by omega), front, byteAt_slice _ _ (by omega), Nat.add_sub_cancel' high]

theorem jEntry_jClear_same (d : Dev) (e : Nat) : (d.jClear e).jEntry e = cleared (d.jEntry e) :=
  jEntry_wrc_same d e (cleared_length _)

theorem jEntry_jClear_other (d : Dev) {e k : Nat} (h : k ≠ e) : (d.jClear e).jEntry k = d.jEntry k :=
  jEntry_wrc_entry d _ h

/-! ### Every entry -/

theorem regs_clearAll (d : Dev) (n : Nat) : (foldNat Dev.jClear n d).regs = d.regs :=
  foldNat_keeps Dev.regs Dev.jClear (fun _ _ => rfl) n d

theorem queue_clearAll (d : Dev) (n : Nat) : (foldNat Dev.jClear n d).queue = d.queue :=
  foldNat_keeps Dev.queue Dev.jClear (fun _ _ => rfl) n d

/-- Entry `k` has its cleared bit set. -/
def IsCleared (k : Nat) (d : Dev) : Prop := (jFlags (d.jEntry k)).testBit 3 = true

theorem isCleared_jClear (d : Dev) (k : Nat) : IsCleared k (d.jClear k) := by
  rw [IsCleared, jEntry_jClear_same, testBit_jFlags_cleared]

theorem IsCleared.jClear {d : Dev} {j : Nat} (set : IsCleared j d) {k : Nat} (less : j < k) : IsCleared j (d.jClear k) := by
  rw [IsCleared, jEntry_jClear_other d (Nat.ne_of_lt less)]
  exact set

theorem isCleared_clearAll (d : Dev) {k n : Nat} (h : k < n) : IsCleared k (foldNat Dev.jClear n d) :=
  foldNat_reaches isCleared_jClear (fun _ _ _ less set => set.jClear less) h d

theorem jOpen_clearAll (d : Dev) : (foldNat Dev.jClear d.jCount d).jOpen = [] := by
  have count : (foldNat Dev.jClear d.jCount d).jCount = d.jCount := Dev.rd_congr (regs_clearAll _ _) _ _
  rw [Dev.jOpen, List.filter_eq_nil_iff]
  intro b hb
  rw [Dev.jEntries, count] at hb
  obtain ⟨k, hk, rfl⟩ := List.mem_map.mp hb
  have set : (jFlags _).testBit 3 = true := isCleared_clearAll d (List.mem_range.mp hk)
  simp [jUncleared, set]

/-! ### The journal emptied, the AON records erased -/

/-- One byte string of a chunked object erased. -/
def erase (i s : Nat) (d : Dev) (e : Nat) : Dev := d.wrc i s e []

theorem queue_erase (i s n : Nat) (d : Dev) : (foldNat (erase i s) n d).queue = d.queue :=
  foldNat_keeps Dev.queue (erase i s) (fun _ _ => rfl) n d

theorem outbox_erase (i s n : Nat) (d : Dev) : (foldNat (erase i s) n d).outbox = d.outbox :=
  foldNat_keeps Dev.outbox (erase i s) (fun _ _ => rfl) n d

/-- The journal without entries, before its counts are made again. -/
def emptied (d : Dev) : Dev :=
  (((foldNat (erase 0x2401 1) d.jCount d).wr 0x2400 1 0).wr 0x2400 3 0).wr 0x2400 4 0xFF

theorem aonClear_eq (d : Dev) : d.aonClear = (foldNat (erase 0x2402 1) 8 d).wr 0x2402 2 0 := rfl

theorem jCount_emptied (d : Dev) : (emptied d).jCount = 0 := by
  rw [Dev.jCount, emptied, rd_wr_sub _ _ _ (by decide), rd_wr_sub _ _ _ (by decide), Dev.rd_wr_same]

theorem lost_emptied (d : Dev) : (emptied d).rd 0x2400 3 = 0 := by
  rw [emptied, rd_wr_sub _ _ _ (by decide), Dev.rd_wr_same]

theorem highest_emptied (d : Dev) : (emptied d).rd 0x2400 4 = 0xFF := Dev.rd_wr_same _ _ _ _

theorem queue_emptied (d : Dev) : (emptied d).queue = d.queue := by
  simp only [emptied, Dev.wr_queue, queue_erase]

theorem jEntries_of_jCount_zero {d : Dev} (h : d.jCount = 0) : d.jEntries = [] := by rw [Dev.jEntries, h]; rfl

theorem jOpen_of_jCount_zero {d : Dev} (h : d.jCount = 0) : d.jOpen = [] := by
  rw [Dev.jOpen, jEntries_of_jCount_zero h]; rfl

theorem rdc_aonClear (d : Dev) {k : Nat} (h : k < 8) : d.aonClear.rdc 0x2402 1 k = [] := by
  rw [aonClear_eq, rdc_wr]
  exact foldNat_reaches (P := fun k (d : Dev) => d.rdc 0x2402 1 k = []) (f := erase 0x2402 1)
    (fun d k => Dev.rdc_wrc_same d _ _ _ _)
    (fun d k j less erased => (Dev.rdc_wrc_other d (by simp only [domKey]; omega)).trans erased) h d

theorem jEntry_aonClear (d : Dev) {k : Nat} (h : k < 1024) : d.aonClear.jEntry k = d.jEntry k := by
  rw [aonClear_eq, jEntry_wr]
  exact foldNat_keeps (fun d => d.jEntry k) (erase 0x2402 1)
    (fun d e => jEntry_wrc_other d [] (by simp only [domKey]; omega)) 8 d

theorem outbox_aonClear (d : Dev) : d.aonClear.outbox = d.outbox := by
  rw [aonClear_eq, Dev.wr_outbox, outbox_erase]

/-! ### The command that clears one entry -/

theorem jClearEntry_recorded {d : Dev} {e : Nat} (h : e < d.jCount) :
    d.jClearEntry e = (d.jClear e).jRefresh.res stOk := if_pos h

theorem jClearEntry_unrecorded {d : Dev} {e : Nat} (h : d.jCount ≤ e) : d.jClearEntry e = d.res stRange :=
  if_neg (Nat.not_lt.mpr h)

end Sys2Proof.Machine.Journal

open Sys2Proof Sys2Proof.Machine Sys2Proof.Machine.PairCommands Sys2Proof.Machine.Journal in
/-- Settles O50: the counts made again after each command show the journal that it leaves, and no count or message
touches an entry. -/
theorem clearingAndEmptyingTheJournal : Obligations.ClearingAndEmptyingTheJournal := by
  intro s t e by_ d n ok bound
  have one (granted : d.grants by_ 0x2400 5 (leBytes 2 e)) {r : Res} (effect : d.jClearEntry e = r) :
      exec (.journalClearEntry t by_ e) s = .next { s with dev := r.dev.send (.answer by_ r.st r.slot) } :=
    onCommand_result granted effect
  refine ⟨fun granted recorded => ⟨_, one granted (jClearEntry_recorded recorded), rfl, ?one⟩,
    fun granted unrecorded => one granted (jClearEntry_unrecorded unrecorded),
    fun granted => ⟨_, onCommand_granted granted, rfl, ?all⟩,
    fun granted => ⟨_, onCommand_granted granted, rfl, ?emptied⟩,
    fun granted => ⟨_, onCommand_granted granted, rfl, ?erased⟩⟩
  all_goals dsimp only [Dev.res]
  case one =>
    have shown : Shows ((d.jClear e).jRefresh.send (.answer by_ stOk none)) (d.jClear e) :=
      (shows_jRefresh (by exact bound)).of_ledger rfl
    have own := (shown.entry e (recorded.trans_le bound)).trans (jEntry_jClear_same d e)
    refine ⟨shown.count, shown.waiting, ?_, fun k hk ne => ?_, fun b hb ne => ?_, shown.open_, shown.register,
      List.getLast?_concat⟩
    · rw [own, testBit_jFlags_cleared]
    · rw [shown.entry k hk, jEntry_jClear_other d ne]
    · rw [own, byteAt_cleared_other _ hb ne]
  case all =>
    have num (i r : Nat) : (foldNat Dev.jClear d.jCount d).rd i r = d.rd i r := Dev.rd_congr (regs_clearAll d _) i r
    have shown : Shows (d.jClearAll.send (.answer by_ stOk none)) (foldNat Dev.jClear d.jCount d) :=
      (shows_jRefresh ((num _ _).trans_le bound)).of_ledger rfl
    have closed := shown.jOpen.trans (jOpen_clearAll d)
    refine ⟨shown.count.trans (num _ _), shown.waiting.trans (queue_clearAll d _), closed, ?_, ?_, List.getLast?_concat⟩
    · exact shown.open_.trans (congrArg List.length closed)
    · refine shown.register.trans ?_
      rw [errorBits_of_closed closed, lostAtLeast_congr (shown.highest.trans (num _ _))]
  case emptied =>
    have shown : Shows (d.jEmpty.send (.answer by_ stOk none)) (emptied d) :=
      (shows_jRefresh ((jCount_emptied d).trans_le (by decide))).of_ledger rfl
    have none_ := shown.count.trans (jCount_emptied d)
    have highest := shown.highest.trans (highest_emptied d)
    refine ⟨none_, shown.waiting.trans (queue_emptied d), jEntries_of_jCount_zero none_, ?_,
      shown.lost.trans (lost_emptied d), highest, ?_, List.getLast?_concat⟩
    · exact shown.open_.trans (congrArg List.length (jOpen_of_jCount_zero none_))
    · refine shown.register.trans ?_
      rw [errorBits_of_closed (jOpen_of_jCount_zero none_), Dev.lostAtLeast, highest]
      rfl
  case erased =>
    refine ⟨fun k hk => ?_, ?_, fun k hk => ?_, ?_⟩
    · rw [rdc_send, rdc_aonClear d hk]
    · rw [Dev.send_rd, aonClear_eq, Dev.rd_wr_same]
    · rw [jEntry_send, jEntry_aonClear d hk]
    · rw [Dev.send_outbox, outbox_aonClear]
      rfl
end
section
/-! What a unit's operations leave alone beside what they are for: most of the device's records, every object outside
the units, and what has been sent before. -/
namespace Sys2Proof.Machine.Frames

open EventInputs AudioStreams

/-- From `d` to `e` what `C` shows of the device is unchanged, the objects of `K` read as before, and what had been sent
stays sent. -/
structure Kept {γ : Type} (C : Dev → γ) (K : Nat → Nat → Prop) (d e : Dev) : Prop where
  core : C e = C d
  num : ∀ i s f, K i s → s < 256 → f < 65536 → e.rdf i s f = d.rdf i s f
  sent : d.outbox <+: e.outbox

section
variable {γ δ : Type} {C : Dev → γ} {K L : Nat → Nat → Prop} {d e x : Dev}

theorem Kept.refl (d : Dev) : Kept C K d d := ⟨rfl, fun _ _ _ _ _ _ => rfl, List.prefix_refl _⟩

theorem Kept.trans (h : Kept C K d e) (h' : Kept C K e x) : Kept C K d x :=
  ⟨h'.core.trans h.core, fun i s f hk hs hf => (h'.num i s f hk hs hf).trans (h.num i s f hk hs hf),
    h.sent.trans h'.sent⟩

theorem Kept.mono (h : Kept C K d e) (less : ∀ i s, L i s → K i s) : Kept C L d e :=
  ⟨h.core, fun i s f hk => h.num i s f (less i s hk), h.sent⟩

/-- What is shown by less is kept as well. -/
theorem Kept.map (h : Kept C K d e) (φ : γ → δ) : Kept (fun d => φ (C d)) K d e :=
  ⟨congrArg φ h.core, h.num, h.sent⟩

theorem Kept.rd (h : Kept C K d e) {i s : Nat} (hk : K i s) (hs : s < 256) : e.rd i s = d.rd i s :=
  h.num i s 0 hk hs (by decide)

theorem Kept.ite {p : Prop} [Decidable p] (h : Kept C K d e) (h' : Kept C K d x) :
    Kept C K d (if p then e else x) := by
  split <;> assumption

theorem Kept.foldl {α : Type} {f : Dev → α → Dev} {l : List α} (each : ∀ d, ∀ a ∈ l, Kept C K d (f d a)) (d : Dev) :
    Kept C K d (l.foldl f d) := by
  induction l generalizing d with
  | nil => exact Kept.refl d
  | cons a l ih =>
    exact (each d a List.mem_cons_self).trans (ih (fun d b hb => each d b (List.mem_cons_of_mem a hb)) (f d a))

theorem Kept.foldNat {f : Dev → Nat → Dev} {n : Nat} (each : ∀ d, ∀ k < n, Kept C K d (f d k)) (d : Dev) :
    Kept C K d (foldNat f n d) := by
  induction n with
  | zero => exact Kept.refl d
  | succ n ih => exact (ih fun d k hk => each d k (Nat.lt_succ_of_lt hk)).trans (each _ n (Nat.lt_succ_self n))

/-- A change of fields that neither the objects nor what is sent are read from. -/
theorem Kept.of_eq (core : C e = C d) (regs : e.regs = d.regs) (outbox : e.outbox = d.outbox) : Kept C K d e :=
  ⟨core, fun i s f _ _ _ => Dev.rdf_congr regs i s f, outbox ▸ List.prefix_refl _⟩

theorem Kept.wrf {i s f v : Nat} (core : C (d.wrf i s f v) = C d) (hs : s < 256) (hf : f < 65536) (out : ¬ K i s) :
    Kept C K d (d.wrf i s f v) :=
  ⟨core, fun j r g hk hr hg => Dev.rdf_wrf_other d fun h => by
    obtain ⟨rfl, rfl, -⟩ := regKey_inj hr hs hg hf h
    exact out hk, List.prefix_refl _⟩

theorem Kept.send {o : Out} (core : C (d.send o) = C d) : Kept C K d (d.send o) :=
  ⟨core, fun _ _ _ _ _ _ => rfl, List.prefix_append _ _⟩

end

/-! ### What stays -/

/-- The records of a device that belong to no unit of the spine or of a wing. -/
structure Settled where
  now : Nat
  pwr : PwrRt
  dup : DupRt
  ring : RingRt
  cal : CalRt
  flash : Flash
  bootRegs : Tab Nat

def settled (d : Dev) : Settled := ⟨d.now, d.pwr, d.dup, d.ring, d.cal, d.flash, d.bootRegs⟩

/-- The objects outside the units: those of the wings, of long operations, of the pair, the ring, time, calibration,
power and boot, but not those of the NET ports and of the guardian pair. -/
def Quiet (i _ : Nat) : Prop := i < 0x2400 ∧ (i < 0x2038 ∨ 0x2040 ≤ i)

/-- An operation of a unit. -/
abbrev Local (d e : Dev) : Prop := Kept settled Quiet d e

theorem local_wr (d : Dev) {i s : Nat} (v : Nat) (hs : s < 256) (hi : 0x2400 ≤ i) : Local d (d.wr i s v) :=
  Kept.wrf rfl hs (by decide) fun h => absurd h.1 (Nat.not_lt.mpr hi)

theorem local_send (d : Dev) (o : Out) : Local d (d.send o) := Kept.send rfl

/-! ### Messages and reports -/

theorem settled_mute (d : Dev) : settled (mute d) = settled d := rfl

/-- What differs in the sessions, the mailboxes and by messages sent more only. -/
theorem local_of_mute {d e : Dev} (same : mute e = mute d) (sent : d.outbox <+: e.outbox) : Local d e := by
  refine ⟨?_, fun i s f _ _ _ => ?_, sent⟩
  · rw [← settled_mute e, same, settled_mute]
  · rw [← rdf_mute e, same, rdf_mute]

theorem sendVia_sent (d : Dev) (via : Transport) (msg : List Byte) : d.outbox <+: (d.sendVia via msg).outbox := by
  unfold Dev.sendVia
  split
  · split
    · exact List.prefix_append _ _
    · exact List.prefix_refl _
  · exact List.prefix_append _ _

theorem originate_sent (d : Dev) (n : Nat) (x : Session) (ty flags : Nat) (p : List Byte) :
    d.outbox <+: (d.originate n x ty flags p).outbox := by
  unfold Dev.originate
  extract_lets x' msg
  split
  · extract_lets b
    split
    · exact (List.prefix_append _ _).trans (List.prefix_append _ _)
    · split
      · split <;> exact List.prefix_refl _
      · exact List.prefix_refl _
  · exact sendVia_sent (d.setSession n (some x')) _ _

theorem local_sendDev (d : Dev) (n ty flags : Nat) (p : List Byte) : Local d (d.sendDev n ty flags p) := by
  refine local_of_mute (mute_sendDev d n ty flags p) ?_
  unfold Dev.sendDev
  split
  · split
    · exact originate_sent _ _ _ _ _ _
    · exact List.prefix_refl _
  · exact List.prefix_refl _

theorem local_notifyTo (d : Dev) (n event time : Nat) (body : List Byte) : Local d (d.notifyTo n event time body) := by
  unfold Dev.notifyTo
  split
  · extract_lets q p x'
    split
    · exact (Kept.of_eq rfl rfl rfl : Local d (d.setSession n (some x'))).trans (local_sendDev _ _ _ _ _)
    · exact Kept.refl d
  · exact Kept.refl d

theorem local_notify (d : Dev) (event time : Nat) (body : List Byte) : Local d (d.notify event time body) := by
  refine Kept.foldl (fun d n _ => ?_) d
  split
  · split
    · exact local_notifyTo _ _ _ _ _
    · exact Kept.refl d
  · exact Kept.refl d

theorem local_event (d : Dev) (unit code p1 p2 : Nat) : Local d (d.event unit code p1 p2) := local_notify _ _ _ _

theorem local_report (d : Dev) (r : Report) : Local d (d.report r) := by
  have guard (e : Dev) {s : Nat} (v : Nat) (hs : s < 256) : Local e (e.wr 0x2400 s v) := local_wr e v hs (by decide)
  have queued : Local d { d with queue := d.queue ++ [r] } := Kept.of_eq rfl rfl rfl
  unfold Dev.report
  split
  · dsimp only
    split
    · exact queued.trans (guard _ (s := 0x0A) _ (by decide))
    · exact queued
  · dsimp only
    split
    · exact (guard _ (s := 3) _ (by decide)).trans (guard _ (s := 4) _ (by decide))
    · exact guard _ (s := 3) _ (by decide)

theorem local_raise (d : Dev) (unit code p1 p2 sev : Nat) : Local d (d.raise unit code p1 p2 sev) :=
  (local_event _ _ _ _ _).trans (local_report _ _)

theorem local_toPartner (d : Dev) (what : String) (b : List Byte) : Local d (d.toPartner what b) :=
  Kept.ite (local_send _ _) (Kept.refl d)

/-! ### Outputs, channels, streams and ports -/

theorem local_setOut (d : Dev) (o : Nat) (x : OutputRt) : Local d (d.setOut o x) := Kept.of_eq rfl rfl rfl
theorem local_setDp (d : Dev) (p : Nat) (x : DpRt) : Local d (d.setDp p x) := Kept.of_eq rfl rfl rfl
theorem local_setEnc (d : Dev) (c : Nat) (x : EncRt) : Local d (d.setEnc c x) := Kept.of_eq rfl rfl rfl

theorem local_refreshOut (d : Dev) (o : Nat) : Local d (d.refreshOut o) := by
  have shown (e : Dev) (v : Nat) : Local e (e.wr (outIdx o) 0x10 v) :=
    local_wr e v (by decide) (by simp only [outIdx]; omega)
  unfold Dev.refreshOut
  extract_lets st d1 idle d2
  have paused : Local d1 d2 := Kept.ite (Kept.refl _) (local_setOut _ _ _)
  exact Kept.ite (Kept.refl d) (((shown d st).trans paused).trans (Kept.ite (local_raise _ _ _ _ _ _) (Kept.refl _)))

theorem local_refreshOuts (d : Dev) : Local d d.refreshOuts := Kept.foldNat (fun d o _ => local_refreshOut d o) d

theorem local_setEncState (d : Dev) (c st : Nat) : Local d (d.setEncState c st) :=
  Kept.ite (Kept.refl d) ((local_wr d st (by decide) (by simp only [encIdx]; omega)).trans (local_event _ _ _ _ _))

theorem local_refreshEncs (d : Dev) : Local d d.refreshEncs :=
  Kept.foldNat (fun d c _ => Kept.ite (Kept.refl d) (local_setEncState d c _)) d

theorem local_setAudStream (d : Dev) (n st : Nat) : Local d (d.setAudStream n st) := by
  unfold Dev.setAudStream
  extract_lets i d1
  have unit : 0x2400 ≤ i := by
    simp only [i, recvIdx, sendIdx]
    split <;> omega
  exact Kept.ite (Kept.refl d) ((local_wr d st (by decide) unit).trans
    (Kept.ite (local_raise _ _ _ _ _ _) (local_event _ _ _ _ _)))

theorem local_refreshSends (d : Dev) : Local d d.refreshSends :=
  Kept.foldNat (fun d n _ => local_setAudStream d (16 + n) _) d

theorem local_refreshSenders (d : Dev) : Local d d.refreshSenders :=
  ((local_refreshOuts d).trans (local_refreshEncs _)).trans (local_refreshSends _)

theorem local_setLink (d : Dev) (p st : Nat) : Local d (d.setLink p st) := by
  unfold Dev.setLink
  extract_lets busy x d1
  have linked : Local d d1 := Kept.ite (Kept.refl d) ((local_setDp _ _ _).trans (local_raise _ _ _ _ _ _))
  exact linked.trans (Kept.foldNat (fun d m _ => local_refreshOut d (4 * p + m)) d1)

theorem local_train (d : Dev) (p : Nat) : Local d (d.train p) :=
  Kept.ite (Kept.refl d) (Kept.ite (local_setLink d p 5) ((local_setLink d p 2).trans (local_send _ _)))

end Sys2Proof.Machine.Frames
end

section
/-! O49: the recording of the oldest report. -/
namespace Sys2Proof.Machine.Journal

open EventInputs

/-! ### A repeat -/

/-- An entry with one repeat more (R393, R394). -/
def repeated (b : List Byte) : List Byte :=
  slice b 0 15 ++ leBytes 1 (if satInc 16 (jRepeat b) = 0xFFFF then setBit (jFlags b) 4 true else jFlags b) ++
    slice b 16 2 ++ leBytes 2 (satInc 16 (jRepeat b)) ++ slice b 20 12

theorem repeated_length (b : List Byte) : (repeated b).length = 32 := by simp [repeated, slice_length]

theorem jRepeat_repeated (b : List Byte) : jRepeat (repeated b) = min (jRepeat b + 1) 0xFFFF := by
  have parts : repeated b = (slice b 0 15 ++
      leBytes 1 (if satInc 16 (jRepeat b) = 0xFFFF then setBit (jFlags b) 4 true else jFlags b) ++ slice b 16 2) ++
      (leBytes 2 (satInc 16 (jRepeat b)) ++ slice b 20 12) := List.append_assoc _ _ _
  have small : satInc 16 (jRepeat b) < 256 ^ 2 := by unfold satInc; omega
  rw [jRepeat, fieldAt_middle parts (by simp [slice_length]) (leBytes_length _ _), leNat_leBytes, Nat.mod_eq_of_lt small]
  rfl

theorem byteAt_repeated_other (b : List Byte) {i : Nat} (hi : i < 32) (h : i ∉ [15, 18, 19]) :
    byteAt (repeated b) i = byteAt b i := by
  simp only [List.mem_cons, List.not_mem_nil, or_false, not_or] at h
  generalize hf : (if satInc 16 (jRepeat b) = 0xFFFF then setBit (jFlags b) 4 true else jFlags b) = fl
  have parts : repeated b = slice b 0 15 ++ (leBytes 1 fl ++ (slice b 16 2 ++ (leBytes 2 (satInc 16 (jRepeat b)) ++
      slice b 20 12))) := by simp only [repeated, hf, List.append_assoc]
  rw [parts]
  obtain low | mid | high : i < 15 ∨ 16 ≤ i ∧ i < 18 ∨ 20 ≤ i := by omega
  · rw [byteAt_append_left _ (by rwa [slice_length]), byteAt_slice _ _ low, Nat.zero_add]
  · rw [byteAt_append_right _ (by rw [slice_length]; omega), byteAt_append_right _ (by simp [slice_length]; omega),
      byteAt_append_left _ (by simp [slice_length]; omega), byteAt_slice _ _ (by simp [slice_length]; omega)]
    simp only [slice_length, leBytes_length]
    congr 1
    omega
  · rw [byteAt_append_right _ (by rw [slice_length]; omega), byteAt_append_right _ (by simp [slice_length]; omega),
      byteAt_append_right _ (by simp [slice_length]; omega), byteAt_append_right _ (by simp [slice_length]; omega),
      byteAt_slice _ _ (by simp [slice_length]; omega)]
    simp only [slice_length, leBytes_length]
    congr 1
    omega

theorem jRepeatAt_eq (d : Dev) (e : Nat) : d.jRepeatAt e =
    (d.wrc 0x2401 1 e (repeated (d.jEntry e))).wr 0x2400 9 ((d.rd 0x2400 9 + 1) % 2 ^ 64) := rfl

/-! ### A new entry -/

theorem jBytes_length (r : Report) (flags nest rep e : Nat) : (jBytes r flags nest rep e).length = 32 := by
  simp [jBytes, time48Bytes]

theorem jFlags_jBytes (r : Report) {flags : Nat} (h : flags < 256) (nest rep e : Nat) :
    jFlags (jBytes r flags nest rep e) = flags := by
  have parts : jBytes r flags nest rep e = (time48Bytes r.time ++ leBytes 2 r.unit ++ leBytes 1 (r.code / 256) ++
      leBytes 2 r.code) ++ (leBytes 1 flags ++ (leBytes 2 nest ++ leBytes 2 rep ++ leBytes 4 r.p1 ++ leBytes 4 r.p2 ++
      leBytes 2 e ++ leBytes 2 0)) := by simp only [jBytes, List.append_assoc]
  rw [jFlags, byteAt_middle parts (by simp [time48Bytes]), Nat.mod_eq_of_lt h]

theorem jCode_jBytes (r : Report) (h : r.code < 2 ^ 16) (flags nest rep e : Nat) :
    jCode (jBytes r flags nest rep e) = r.code := by
  have parts : jBytes r flags nest rep e = (time48Bytes r.time ++ leBytes 2 r.unit ++ leBytes 1 (r.code / 256)) ++
      (leBytes 2 r.code ++ (leBytes 1 flags ++ leBytes 2 nest ++ leBytes 2 rep ++ leBytes 4 r.p1 ++ leBytes 4 r.p2 ++
      leBytes 2 e ++ leBytes 2 0)) := by simp only [jBytes, List.append_assoc]
  rw [jCode, fieldAt_middle parts (by simp [time48Bytes]) (leBytes_length _ _), leNat_leBytes]
  exact Nat.mod_eq_of_lt h

theorem jP1_jBytes (r : Report) (h : r.p1 < 2 ^ 32) (flags nest rep e : Nat) :
    jP1 (jBytes r flags nest rep e) = r.p1 := by
  have parts : jBytes r flags nest rep e = (time48Bytes r.time ++ leBytes 2 r.unit ++ leBytes 1 (r.code / 256) ++
      leBytes 2 r.code ++ leBytes 1 flags ++ leBytes 2 nest ++ leBytes 2 rep) ++ (leBytes 4 r.p1 ++ (leBytes 4 r.p2 ++
      leBytes 2 e ++ leBytes 2 0)) := by simp only [jBytes, List.append_assoc]
  rw [jP1, fieldAt_middle parts (by simp [time48Bytes]) (leBytes_length _ _), leNat_leBytes]
  exact Nat.mod_eq_of_lt h

/-- The flags of a new entry: its severity, bit 2 where it is the first of its class, and bit 3, cleared, where it is
of severity Info (Table 18.2). -/
def newFlags (sev : Nat) (first : Bool) : Nat := sev + (if first then 4 else 0) + (if sev = 0 then 8 else 0)

theorem newFlags_lt {sev : Nat} (h : sev < 4) (first : Bool) : newFlags sev first < 256 := by
  unfold newFlags
  split <;> split <;> omega

theorem newFlags_mod {sev : Nat} (h : sev < 4) (first : Bool) : newFlags sev first % 4 = sev := by
  unfold newFlags
  split <;> split <;> omega

/-- A new entry is uncleared unless it is of severity Info. -/
theorem jUncleared_jBytes (r : Report) (h : r.sev < 4) (first : Bool) (nest rep e : Nat) :
    jUncleared (jBytes r (newFlags r.sev first) nest rep e) = (r.sev != 0) := by
  rw [jUncleared, jSev, jFlags_jBytes r (newFlags_lt h first), newFlags_mod h]
  interval_cases r.sev <;> cases first <;> rfl

/-- Whether no recorded entry is of a class. -/
def firstOf (d : Dev) (cls : Nat) : Bool := (List.range d.jCount).all fun k => jClass (d.jEntry k) != cls

theorem firstOf_eq (d : Dev) (cls : Nat) : (!(d.jEntries.any fun b => jClass b == cls)) = firstOf d cls := by
  rw [firstOf, Dev.jEntries, List.any_map, List.not_any_eq_all_not]
  rfl

/-- The journal with a new entry in slot `e`, before its counts are made again. -/
def entered (d : Dev) (e : Nat) (r : Report) : Dev :=
  (d.wrc 0x2401 1 e (jBytes r (newFlags r.sev (firstOf d (r.code / 256))) d.jOpen.length 0 e)).wr 0x2400 1 (e + 1)

theorem jEntry_entered_same (d : Dev) (e : Nat) (r : Report) : (entered d e r).jEntry e =
    jBytes r (newFlags r.sev (firstOf d (r.code / 256))) d.jOpen.length 0 e := by
  rw [entered, jEntry_wr, jEntry_wrc_same d e (jBytes_length _ _ _ _ _)]

theorem jEntry_entered_other (d : Dev) {e k : Nat} (r : Report) (h : k ≠ e) : (entered d e r).jEntry k = d.jEntry k := by
  rw [entered, jEntry_wr, jEntry_wrc_entry d _ h]

theorem jCount_entered (d : Dev) (e : Nat) (r : Report) : (entered d e r).jCount = e + 1 := Dev.rd_wr_same _ _ _ _

theorem rd_entered (d : Dev) (e : Nat) (r : Report) {s : Nat} (h : s ≠ 1) : (entered d e r).rd 0x2400 s = d.rd 0x2400 s := by
  rw [entered, rd_wr_sub _ _ _ h, rd_wrc]

theorem queue_entered (d : Dev) (e : Nat) (r : Report) : (entered d e r).queue = d.queue := rfl

theorem jEntries_entered (d : Dev) (r : Report) : (entered d d.jCount r).jEntries =
    d.jEntries ++ [jBytes r (newFlags r.sev (firstOf d (r.code / 256))) d.jOpen.length 0 d.jCount] := by
  have earlier : (List.range d.jCount).map (entered d d.jCount r).jEntry = d.jEntries :=
    List.map_congr_left fun k hk => jEntry_entered_other d r (Nat.ne_of_lt (List.mem_range.mp hk))
  have listed : (entered d d.jCount r).jEntries = (List.range (d.jCount + 1)).map (entered d d.jCount r).jEntry := by
    rw [← jCount_entered d d.jCount r]
    rfl
  rw [listed, List.range_succ, List.map_append, earlier, List.map_singleton, jEntry_entered_same]

theorem jOpen_entered {d : Dev} (r : Report) (h : r.sev < 4) :
    (entered d d.jCount r).jOpen.length = d.jOpen.length + if r.sev = 0 then 0 else 1 := by
  have listed : (entered d d.jCount r).jOpen = d.jOpen ++ List.filter jUncleared [jBytes r
      (newFlags r.sev (firstOf d (r.code / 256))) d.jOpen.length 0 d.jCount] :=
    (congrArg (List.filter jUncleared) (jEntries_entered d r)).trans (List.filter_append ..)
  rw [listed, List.length_append, List.filter_singleton, jUncleared_jBytes r h]
  by_cases info : r.sev = 0
  · rw [if_pos info, bne_eq_false_iff_eq.mpr info]
    rfl
  · rw [if_neg info, bne_iff_ne.mpr info]
    rfl

theorem aonRecord_rd (d : Dev) (unit code sev time : Nat) {i s : Nat} (hi : i ≠ 0x2402) (hs : s < 256) :
    (d.aonRecord unit code sev time).rd i s = d.rd i s := by
  have apart : regKey i s 0 ≠ regKey 0x2402 2 0 := fun eq =>
    hi (regKey_inj hs (by decide) (by decide) (by decide) eq).1
  simp only [Dev.aonRecord, Dev.rd_wr_other _ apart, rd_wrc]

theorem jEntry_aonRecord (d : Dev) (unit code sev time : Nat) {k : Nat} (h : k < 1024) :
    (d.aonRecord unit code sev time).jEntry k = d.jEntry k := by
  have apart (c : Nat) : domKey 0x2401 1 k ≠ domKey 0x2402 1 c := by simp only [domKey]; omega
  simp only [Dev.aonRecord, jEntry_wr, jEntry_wrc_other d _ (apart _)]

theorem Shows.aonRecord {u e : Dev} (h : Shows u e) (unit code sev time : Nat) :
    Shows (u.aonRecord unit code sev time) e :=
  h.of_same (fun _ _ hi hs => aonRecord_rd u _ _ _ _ hi.ne hs) (fun _ hk => jEntry_aonRecord u _ _ _ _ hk) rfl

/-- The telling of a new entry that stands in `b`: NOTIFY FAULT, and EMCY above severity Info (R397). -/
def told (d : Dev) (e : Nat) (r : Report) (b : List Byte) : Dev :=
  if r.sev = 0 then d.notify 1 r.time b
  else (d.notify 1 r.time b).emcy (0xFF00 + r.sev) (leBytes 2 e ++ leBytes 1 (r.code / 256) ++ leBytes 2 r.code)

theorem ledger_told (d : Dev) (e : Nat) (r : Report) (b : List Byte) : ledger (told d e r b) = ledger d :=
  ledger_ite (ledger_notify ..) ((ledger_emcy ..).trans (ledger_notify ..))

theorem jRecordAt_eq (d : Dev) (e : Nat) (r : Report) : d.jRecordAt e r =
    (let x := told (entered d e r).jRefresh e r (jBytes r (newFlags r.sev (firstOf d (r.code / 256))) d.jOpen.length 0 e)
     if r.sev = 3 ∧ r.code ≠ 0x1202 then x.aonRecord r.unit r.code r.sev r.time else x) := by
  simp only [entered, ← firstOf_eq]
  rfl

theorem shows_jRecordAt (d : Dev) {e : Nat} (r : Report) (h : e < 1024) : Shows (d.jRecordAt e r) (entered d e r) := by
  have start : Shows ((entered d e r).jRefresh) (entered d e r) := shows_jRefresh ((jCount_entered d e r).trans_le h)
  rw [jRecordAt_eq]
  dsimp only
  split
  · exact (start.of_ledger (ledger_told ..)).aonRecord _ _ _ _
  · exact start.of_ledger (ledger_told ..)

/-! ### A lost report -/

theorem rd_jLost_count (d : Dev) (sev : Nat) : (d.jLost sev).rd 0x2400 3 = min (d.rd 0x2400 3 + 1) (2 ^ 32 - 1) := by
  unfold Dev.jLost
  dsimp only
  split
  · rw [rd_wr_sub _ _ _ (by decide), Dev.rd_wr_same, satInc]
  · rw [Dev.rd_wr_same, satInc]

/-- Losing a report changes two numbers, neither of them an entry or the number of entries. -/
theorem jLost_keeps {γ : Type} (g : Dev → γ) (d : Dev) (sev : Nat) (three : ∀ d v, g (d.wr 0x2400 3 v) = g d)
    (four : ∀ d v, g (d.wr 0x2400 4 v) = g d) : g (d.jLost sev) = g d := by
  unfold Dev.jLost
  dsimp only
  split
  · rw [four, three]
  · rw [three]

theorem jCount_jLost (d : Dev) (sev : Nat) : (d.jLost sev).jCount = d.jCount :=
  jLost_keeps Dev.jCount d sev (fun _ _ => rd_wr_sub _ _ _ (by decide)) (fun _ _ => rd_wr_sub _ _ _ (by decide))

theorem jEntry_jLost (d : Dev) (sev k : Nat) : (d.jLost sev).jEntry k = d.jEntry k :=
  jLost_keeps (·.jEntry k) d sev (fun _ _ => jEntry_wr ..) (fun _ _ => jEntry_wr ..)

theorem queue_jLost (d : Dev) (sev : Nat) : (d.jLost sev).queue = d.queue :=
  jLost_keeps Dev.queue d sev (fun _ _ => Dev.wr_queue ..) (fun _ _ => Dev.wr_queue ..)

/-- The report that the last slot holds: reports have been lost since the journal was full (R395). -/
def fullReport (d : Dev) (r : Report) : Report :=
  { unit := uJournal, code := 0x1201, p1 := r.code, p2 := 0, sev := 2, time := d.now }

theorem fullReport_code (d : Dev) (r : Report) : (fullReport d r).code = 0x1201 := rfl
theorem fullReport_code_lt {d : Dev} {r : Report} : (fullReport d r).code < 2 ^ 16 := by rw [fullReport_code]; decide
theorem fullReport_p1 (d : Dev) (r : Report) : (fullReport d r).p1 = r.code := rfl
theorem fullReport_sev (d : Dev) (r : Report) : (fullReport d r).sev = 2 := rfl
theorem fullReport_sev_lt {d : Dev} {r : Report} : (fullReport d r).sev < 4 := by rw [fullReport_sev]; decide

/-! ### The three outcomes of a report -/

variable {d : Dev} {r : Report}

/-- The entry that takes a report as its repeat. -/
def taker (d : Dev) (r : Report) : Option Nat := (List.range d.jCount).find? fun k => d.jTakes r (d.jEntry k)

theorem jRecord_repeat {e : Nat} (h : taker d r = some e) : d.jRecord r = d.jRepeatAt e := by
  unfold taker at h
  unfold Dev.jRecord
  rw [h]

theorem jRecord_new (h : taker d r = none) (room : d.jCount < 1023) : d.jRecord r = d.jRecordAt d.jCount r := by
  unfold taker at h
  unfold Dev.jRecord
  rw [h]
  exact if_pos room

theorem jRecord_lost (h : taker d r = none) (full : 1023 ≤ d.jCount) : d.jRecord r =
    if d.jCount = 1023 then (d.jLost r.sev).jRecordAt 1023 (fullReport d r) else d.jLost r.sev := by
  unfold taker at h
  unfold Dev.jRecord
  rw [h]
  exact if_neg (Nat.not_lt.mpr full)

theorem queue_jRecord (d : Dev) (r : Report) : (d.jRecord r).queue = d.queue := by
  cases h : taker d r with
  | some e => rw [jRecord_repeat h, jRepeatAt_eq, Dev.wr_queue, Dev.wrc_queue]
  | none =>
    obtain room | full := Nat.lt_or_ge d.jCount 1023
    · rw [jRecord_new h room, (shows_jRecordAt d r (room.trans (by decide))).waiting, queue_entered]
    · rw [jRecord_lost h full]
      split
      · rw [(shows_jRecordAt _ _ (by decide)).waiting, queue_entered, queue_jLost]
      · rw [queue_jLost]

/-! ### The device without its oldest report -/

/-- The device once a report has left its queue. -/
def dequeued (d : Dev) (rest : List Report) : Dev := { d with queue := rest }

theorem rd_dequeued (d : Dev) (rest : List Report) (i s : Nat) : (dequeued d rest).rd i s = d.rd i s := Dev.rd_congr rfl i s

theorem jEntry_dequeued (d : Dev) (rest : List Report) (k : Nat) : (dequeued d rest).jEntry k = d.jEntry k :=
  jEntry_of_doms rfl k

theorem jCount_dequeued (d : Dev) (rest : List Report) : (dequeued d rest).jCount = d.jCount := rd_dequeued d rest _ _

theorem jOpen_dequeued (d : Dev) (rest : List Report) : (dequeued d rest).jOpen = d.jOpen :=
  jOpen_congr (jCount_dequeued d rest) fun k _ => jEntry_dequeued d rest k

theorem firstOf_dequeued (d : Dev) (rest : List Report) (cls : Nat) : firstOf (dequeued d rest) cls = firstOf d cls := by
  simp only [firstOf, jCount_dequeued, jEntry_dequeued]

theorem jTakes_dequeued (d : Dev) (rest : List Report) (r : Report) (b : List Byte) :
    (dequeued d rest).jTakes r b = d.jTakes r b := by
  simp only [Dev.jTakes, Dev.tickOf, Dev.rate, Dev.phase, rd_dequeued]

theorem taker_dequeued (d : Dev) (rest : List Report) (r : Report) : taker (dequeued d rest) r = taker d r := by
  simp only [taker, jCount_dequeued, jEntry_dequeued, jTakes_dequeued]

theorem exec_journalRecord {s : State} {t : Nat} {rest : List Report} {r : Report} (up : (s.found t).guardAlive = true)
    (runs : (s.found t).guardianStopped = false) (queue : (s.found t).queue = r :: rest) :
    exec (.journalRecord t) s = .next { s with dev := (dequeued (s.found t) rest).jRecord r } := by
  have run : exec (.journalRecord t) s = onGuard t (fun d => match d.guardianStopped, d.queue with
    | false, r :: rest => (dequeued d rest).jRecord r
    | _, _ => d) s := by rfl
  rw [run, onGuard_eq, if_pos up, runs, queue]

end Sys2Proof.Machine.Journal

open Sys2Proof Sys2Proof.Machine Sys2Proof.Machine.EventInputs Sys2Proof.Machine.Journal in
/-- Settles O49: the report is recorded on the device without it, as a repeat, as a new entry or as lost, and each of
the three has its lemmas above. -/
theorem theJournalRecordsInOrder : Obligations.TheJournalRecordsInOrder := by
  intro s t e r rest d n first flags up runs queue bound sev code
  have run := exec_journalRecord up runs queue
  generalize hx : dequeued d rest = x at run
  have count : x.jCount = n := hx ▸ jCount_dequeued d rest
  have entry (k : Nat) : x.jEntry k = d.jEntry k := hx ▸ jEntry_dequeued d rest k
  have num (i sub : Nat) : x.rd i sub = d.rd i sub := hx ▸ rd_dequeued d rest i sub
  have open_ : x.jOpen = d.jOpen := hx ▸ jOpen_dequeued d rest
  have takes : taker x r = taker d r := hx ▸ taker_dequeued d rest r
  have left : x.queue = rest := hx ▸ rfl
  have quiet : x.outbox = [] := hx ▸ rfl
  have firsts : firstOf x (r.code / 256) = first := hx ▸ firstOf_dequeued d rest _
  refine ⟨_, run, rfl, ?waiting, fun taken => ?repeats, fun none_ room => ?new, fun none_ full => ?lost⟩
  case waiting => exact (queue_jRecord x r).trans left
  case repeats =>
    have taken' : e < 1024 := (List.mem_range.mp (List.mem_of_find?_eq_some taken)).trans_le bound
    rw [jRecord_repeat (takes.trans taken), jRepeatAt_eq]
    refine ⟨?_, ?_, ?_, ?_, fun k _ ne => ?_, fun b hb ne => ?_, quiet⟩
    · rw [Dev.jCount, rd_wr_sub _ _ _ (by decide), rd_wrc]
      exact count
    · rw [jEntry_wr, jEntry_wrc_same _ _ (repeated_length _), jRepeat_repeated, entry]
    · rw [Dev.rd_wr_same, num]
    · rw [rd_wr_sub _ _ _ (by decide), rd_wrc, num]
    · rw [jEntry_wr, jEntry_wrc_entry _ _ ne, entry]
    · rw [jEntry_wr, jEntry_wrc_same _ _ (repeated_length _), byteAt_repeated_other _ hb ne, entry]
  case new =>
    rw [jRecord_new (takes.trans none_) (count.trans_lt room), count]
    have shown := shows_jRecordAt x r (room.trans (by decide))
    refine ⟨shown.count.trans (jCount_entered ..), ?_, fun k hk ne => ?_, shown.open_, ?_, shown.register, ?_⟩
    · rw [shown.entry n (room.trans (by decide)), jEntry_entered_same, open_, firsts]
      rfl
    · rw [shown.entry k hk, jEntry_entered_other x r ne, entry]
    · rw [shown.jOpen, ← count, jOpen_entered r sev, open_]
    · rw [shown.lost, rd_entered x _ _ (by decide), num]
  case lost =>
    have lost : (x.jLost r.sev).rd 0x2400 3 = min (d.rd 0x2400 3 + 1) (2 ^ 32 - 1) := by rw [rd_jLost_count, num]
    have kept (k : Nat) : (x.jLost r.sev).jEntry k = d.jEntry k := (jEntry_jLost x _ k).trans (entry k)
    rw [jRecord_lost (takes.trans none_) (full.trans_eq count.symm), count]
    by_cases first_ : n = 1023
    · rw [if_pos first_]
      have shown := shows_jRecordAt (x.jLost r.sev) (fullReport x r) (e := 1023) (by decide)
      have all : (((x.jLost r.sev).jRecordAt 1023 (fullReport x r)).jCount) = 1024 :=
        shown.count.trans (jCount_entered (x.jLost r.sev) 1023 (fullReport x r))
      have last := (shown.entry 1023 (by decide)).trans (jEntry_entered_same ..)
      dsimp only
      refine ⟨all, ?_, fun k hk => ?_, fun _ => ⟨?_, ?_, ?_⟩, fun other => absurd (first_.symm.trans other) (by decide)⟩
      · rw [shown.lost, rd_entered _ _ _ (by decide), lost]
      · rw [shown.entry k (hk.trans (by decide)), jEntry_entered_other _ _ (Nat.ne_of_lt hk), kept]
      · rw [last, jCode_jBytes _ fullReport_code_lt, fullReport_code]
      · rw [last, jP1_jBytes _ (code.trans (by decide)), fullReport_p1]
      · rw [last, jSev, jFlags_jBytes _ (newFlags_lt fullReport_sev_lt _), newFlags_mod fullReport_sev_lt, fullReport_sev]
    · rw [if_neg first_]
      have all : n = 1024 := by omega
      exact ⟨(jCount_jLost x _).trans (count.trans all), lost, fun k _ => kept k, fun one => absurd one first_,
        fun _ => kept 1023⟩
end

section
/-! O48: what each command of a check-value unit does. -/
namespace Sys2Proof.Machine.CheckValues

open FabricAccesses RefusedAccesses EventInputs AudioStreams

/-! ### The commands before a DMA -/

theorem cvuReady_ready {d : Dev} {u : Nat} (h : d.cvuState u ∉ [0, 2]) : d.cvuReady u = stOk := by
  simp only [List.mem_cons, List.not_mem_nil, or_false] at h
  exact if_neg h

theorem cvuReady_busy {d : Dev} {u : Nat} (h : d.cvuState u ∈ [0, 2]) : d.cvuReady u = stWrongState := by
  simp only [List.mem_cons, List.not_mem_nil, or_false] at h
  exact if_pos h

theorem crossesMap_eq_true {a len : Nat} : crossesMap a len = true ↔ ∃ x ∈ mapBounds, a < x ∧ x < a + len := by
  simp [crossesMap]

theorem cvuStart_inside {d : Dev} {u : Nat} (len : d.rd (cvuIdx u) 8 ≠ 0)
    (inside : ∀ x ∈ mapBounds, x ≤ d.rd (cvuIdx u) 7 ∨ d.rd (cvuIdx u) 7 + d.rd (cvuIdx u) 8 ≤ x) :
    d.cvuStart u = ((d.wr (cvuIdx u) 0x0A 2).wr (cvuIdx u) 0x0B 0).res stOk := by
  have fits : ¬ crossesMap (d.rd (cvuIdx u) 7) (d.rd (cvuIdx u) 8) = true := by
    rw [crossesMap_eq_true]
    rintro ⟨x, hx, low, high⟩
    have := inside x hx
    omega
  exact if_neg (not_or.mpr ⟨len, fits⟩)

theorem cvuStart_crossing {d : Dev} {u : Nat}
    (crosses : ∃ x ∈ mapBounds, d.rd (cvuIdx u) 7 < x ∧ x < d.rd (cvuIdx u) 7 + d.rd (cvuIdx u) 8) :
    d.cvuStart u = d.res stRange :=
  if_pos (.inr (crossesMap_eq_true.mpr crosses))

/-! ### How far a DMA reads -/

theorem memRead_length (d : Dev) (mem : Mem) (a len req : Nat) (errs : List Nat) :
    (d.memRead mem a len req errs).1.length = len := slice_length _ _ _

theorem outsideRead_length (d : Dev) (a n : Nat) : (d.outsideRead a n).1.length = n := by simp [Dev.outsideRead]

/-- The bytes before a refused page lie in the range that is read. -/
theorem bytesBefore_le {d : Dev} {a : Access} {ffb : Nat} {v : PageVerdict} (h : d.checkAccess a = some (ffb, v)) :
    bytesBefore a.addr ffb ≤ a.len := by
  obtain ⟨k, hk, page, -⟩ := exists_page_of_checkAccess h
  obtain ⟨-, rfl, -⟩ := pageRefusal_eq_some.mp page
  unfold pageCount at hk
  unfold bytesBefore pageAt
  omega

/-- What a DMA reads is no longer than its range, and it is stopped by poison, by a refusal or not at all. -/
theorem cvuRead_length (d : Dev) (mem : Mem) (u len : Nat) (o : MemObs) :
    (d.cvuRead mem u len o).1.length ≤ len ∧ (d.cvuRead mem u len o).2.1 ≤ 2 := by
  unfold Dev.cvuRead
  extract_lets a refused n r
  have allowed : n ≤ len := by
    cases h : d.checkAccess a with
    | none => simp only [n, refused, h, le_refl]
    | some e =>
      simp only [n, refused, h]
      exact bytesBefore_le (a := a) h
  have read : r.1.length = n := by
    simp only [r]
    split
    · exact memRead_length _ _ _ _ _ _
    · exact outsideRead_length _ _ _
  split
  case h_1 k _ =>
    refine ⟨?_, show 1 ≤ 2 by decide⟩
    simp only [List.length_take, memRead_length]
    omega
  case h_2 =>
    clear_value refused
    split
    · exact ⟨read.trans_le allowed, le_rfl⟩
    · exact ⟨read.trans_le allowed, show 0 ≤ 2 by decide⟩

/-! ### The end of a DMA -/

/-- A unit whose DMA has fed bytes and ended with a status. -/
def ended (e : Dev) (u : Nat) (b : List Byte) (status : Nat) : Dev :=
  let x := ((e.cvuFeed u b).wr (cvuIdx u) 0x0B b.length).wr (cvuIdx u) 0x0C status
  if status = 0 then x.wr (cvuIdx u) 0x0A 3
  else (x.wr (cvuIdx u) 0x0A 4).raise (uCvu u) 0x1203 status (b.length % 2 ^ 32) sevInfo

theorem cvuEnd_eq (d : Dev) (mem : Mem) (u len stop : Nat) (o : MemObs) : d.cvuEnd mem u len stop o =
    ended (d.cvuRead mem u len o).2.2 u (d.cvuRead mem u len o).1
      (if (d.cvuRead mem u len o).2.1 = 0 then stop else (d.cvuRead mem u len o).2.1) := rfl

theorem rd_raise (d : Dev) (u code p1 p2 sev : Nat) {s : Nat} (hs : s < 256) (v : Nat) :
    (d.raise v code p1 p2 sev).rd (cvuIdx u) s = d.rd (cvuIdx u) s :=
  raise_rdf d _ _ _ _ _ (by simp only [cvuIdx]; omega) hs (by decide)

section
variable (e : Dev) (u : Nat) (b : List Byte) (status : Nat)

theorem ended_state : (ended e u b status).cvuState u = if status = 0 then 3 else 4 := by
  unfold ended Dev.cvuState
  by_cases h : status = 0
  · rw [if_pos h, if_pos h, Dev.rd_wr_same]
  · rw [if_neg h, if_neg h, rd_raise _ _ _ _ _ _ (by decide), Dev.rd_wr_same]

theorem ended_status : (ended e u b status).rd (cvuIdx u) 0x0C = status := by
  unfold ended
  by_cases h : status = 0
  · rw [if_pos h, rd_wr_sub _ _ _ (by decide), Dev.rd_wr_same]
  · rw [if_neg h, rd_raise _ _ _ _ _ _ (by decide), rd_wr_sub _ _ _ (by decide), Dev.rd_wr_same]

theorem ended_position : (ended e u b status).rd (cvuIdx u) 0x0B = b.length := by
  unfold ended
  by_cases h : status = 0
  · rw [if_pos h, rd_wr_sub _ _ _ (by decide), rd_wr_sub _ _ _ (by decide), Dev.rd_wr_same]
  · rw [if_neg h, rd_raise _ _ _ _ _ _ (by decide), rd_wr_sub _ _ _ (by decide), rd_wr_sub _ _ _ (by decide),
      Dev.rd_wr_same]

end

theorem exec_cvuDmaEnd {s : State} {t u : Nat} {o : MemObs} {b : List Byte} {why : Nat} {e : Dev}
    (mem : (s.found t).memUp = true) (up : (s.found t).alive = true) (busy : (s.found t).cvuState u = 2)
    (read : (s.found t).cvuRead s.mem u ((s.found t).rd (cvuIdx u) 8) o = (b, why, e)) :
    exec (.cvuDmaEnd t u o) s = .next { s with dev := ended e u b why } := by
  have run : exec (.cvuDmaEnd t u o) s = onDevMem t (fun mem d =>
    if d.alive && d.cvuState u == 2 then (d.cvuEnd mem u (d.rd (cvuIdx u) 8) 0 o, mem) else (d, mem)) s := by rfl
  have status : (if why = 0 then 0 else why) = why := by split <;> simp_all
  rw [run, onDevMem_up mem, up, busy, if_pos (by decide), cvuEnd_eq, read, status]

/-! ### The abort -/

/-- How many bytes an aborted DMA had come to: free, at a 64-byte boundary or the end of its range (R404). -/
def abortedAt (d : Dev) (u : Nat) : Nat :=
  min (d.rd (cvuIdx u) 8) (64 * (d.free.1 % (d.rd (cvuIdx u) 8 / 64 + 1)))

theorem cvuAbort_eq (d : Dev) (mem : Mem) (u : Nat) :
    d.cvuAbort mem u = d.free.2.cvuEnd mem u (abortedAt d u) 3 { errs := [], acts := [] } := rfl

theorem cvuAbort_ends (d : Dev) (mem : Mem) (u : Nat) : (d.cvuAbort mem u).cvuState u = 4 ∧
    (d.cvuAbort mem u).rd (cvuIdx u) 0x0C ∈ [1, 2, 3] ∧
    (d.cvuAbort mem u).rd (cvuIdx u) 0x0B ≤ d.rd (cvuIdx u) 8 := by
  obtain ⟨inRange, why⟩ := cvuRead_length d.free.2 mem u (abortedAt d u) { errs := [], acts := [] }
  rw [cvuAbort_eq, cvuEnd_eq, ended_state, ended_status, ended_position]
  generalize d.free.2.cvuRead mem u (abortedAt d u) { errs := [], acts := [] } = r at inRange why ⊢
  have within : abortedAt d u ≤ d.rd (cvuIdx u) 8 := min_le_left _ _
  by_cases h : r.2.1 = 0
  · rw [if_pos h]
    exact ⟨rfl, by decide, inRange.trans within⟩
  · rw [if_neg h, if_neg h]
    refine ⟨rfl, ?_, inRange.trans within⟩
    simp only [List.mem_cons, List.not_mem_nil, or_false]
    omega

section
variable {s : State} {t u : Nat} {by_ : Requester}

theorem exec_cvuAbort (t u : Nat) (by_ : Requester) (s : State) : exec (.cvuAbort t by_ u) s =
    onCommand t by_ (fun d => d.commandPre by_ (cvuIdx u) 9 [2] (if d.cvuState u = 2 then stOk else stWrongState)
      fun d => (d.cvuAbort s.mem u).res stOk) s := by rfl

theorem exec_cvuAbort_busy (h : (s.found t).grants by_ (cvuIdx u) 9 [2]) (busy : (s.found t).cvuState u = 2) :
    exec (.cvuAbort t by_ u) s =
      .next { s with dev := ((s.found t).cvuAbort s.mem u).send (.answer by_ stOk none) } := by
  rw [exec_cvuAbort, onCommand_alive h.1, if_pos busy, Dev.commandPre_granted h rfl]
  rfl

theorem exec_cvuAbort_idle (h : (s.found t).grants by_ (cvuIdx u) 9 [2]) (idle : (s.found t).cvuState u ≠ 2) :
    exec (.cvuAbort t by_ u) s = .next { s with dev := (s.found t).send (.answer by_ stWrongState none) } := by
  rw [exec_cvuAbort, onCommand_alive h.1, if_neg idle, Dev.commandPre_refused h (by decide)]
  rfl

end

/-! ### The writes that a BUSY or disabled unit refuses -/

section
variable {s : State} {t u sub : Nat} {by_ : Requester} {data : List Byte} {eff : Dev → Res}

/-- A granted write that a unit takes unless it is BUSY or disabled. -/
theorem onReady_idle (h : (s.found t).grants by_ (cvuIdx u) sub data) (idle : (s.found t).cvuState u ∉ [0, 2]) :
    onCommand t by_ (fun d => d.commandPre by_ (cvuIdx u) sub data (d.cvuReady u) eff) s = .next { s with
      dev := (eff (s.found t)).dev.send (.answer by_ (eff (s.found t)).st (eff (s.found t)).slot) } := by
  rw [onCommand_alive h.1, Dev.commandPre_granted h (cvuReady_ready idle)]

theorem exec_cvuStartDma (h : (s.found t).grants by_ (cvuIdx u) 9 [1]) (idle : (s.found t).cvuState u ∉ [0, 2])
    {r : Res} (effect : (s.found t).cvuStart u = r) :
    exec (.cvuStartDma t by_ u) s = .next { s with dev := r.dev.send (.answer by_ r.st r.slot) } := by
  subst effect
  exact onReady_idle h idle

theorem onReady_busy (h : (s.found t).grants by_ (cvuIdx u) sub data) (busy : (s.found t).cvuState u ∈ [0, 2]) :
    onCommand t by_ (fun d => d.commandPre by_ (cvuIdx u) sub data (d.cvuReady u) eff) s =
      .next { s with dev := (s.found t).send (.answer by_ stWrongState none) } := by
  rw [onCommand_alive h.1, cvuReady_busy busy, Dev.commandPre_refused h (by decide)]
  rfl

end

end Sys2Proof.Machine.CheckValues

open Sys2Proof Sys2Proof.Machine Sys2Proof.Machine.CheckValues in
/-- Settles O48: a DMA reads no more than its range, and each command has its lemmas above. -/
theorem cvuCommandsComplete : Obligations.CvuCommandsComplete := by
  intro s t u by_ data b o why e c sub val d i
  refine ⟨fun idle => ⟨?data, ?init, ?start, ?crossing⟩, fun busy mem_ granted => ?refused,
    fun mem up busy read => ?ends, fun granted busy => ?aborted, fun granted idle => exec_cvuAbort_idle granted idle⟩
  case data => exact fun granted => onReady_idle granted idle
  case init => exact fun granted => onReady_idle granted idle
  case start => exact fun granted len inside => exec_cvuStartDma granted idle (cvuStart_inside len inside)
  case crossing => exact fun granted crosses => exec_cvuStartDma granted idle (cvuStart_crossing crosses)
  case refused =>
    simp only [List.mem_cons, List.not_mem_nil, or_false, Prod.mk.injEq] at mem_
    obtain ⟨rfl, rfl, rfl⟩ | ⟨rfl, rfl, rfl⟩ | ⟨rfl, rfl, rfl⟩ := mem_
    all_goals exact onReady_busy granted busy
  case ends =>
    have run := exec_cvuDmaEnd mem up busy read
    refine ⟨fun h => ?_, fun h => ?_, _, run, rfl, ended_state e u b why, ended_position e u b why,
      ended_status e u b why⟩
    · subst h
      exact run
    · rw [run, ended, if_neg h]
  case aborted =>
    obtain ⟨state, status, position⟩ := cvuAbort_ends d s.mem u
    exact ⟨_, exec_cvuAbort_busy granted busy, rfl, state, status, position, List.getLast?_concat⟩
end

section
/-! Long operations: what the start, the progress and the end of one write and leave alone. -/
namespace Sys2Proof.Machine.LongOperations

open EventInputs HbmEvents Frames

/-- The objects outside the units and outside the slot of an operation. -/
def Beside (k : Nat) (i s : Nat) : Prop := Quiet i s ∧ i ≠ 0x2080 + k

theorem kept_slot_wr (d : Dev) (k v : Nat) {s : Nat} (hs : s < 256) : Kept settled (Beside k) d (d.wr (0x2080 + k) s v) :=
  Kept.wrf rfl hs (by decide) fun h => h.2 rfl

theorem local_progress (d : Dev) (k : Nat) : Local d (d.progress k) := by
  unfold Dev.progress
  extract_lets x e
  have stored : Local d e := Kept.of_eq rfl rfl rfl
  refine stored.trans (Kept.foldl (fun d n _ => ?_) e)
  split
  · exact Kept.ite (local_sendDev _ _ _ _ _) (Kept.refl _)
  · exact Kept.refl _

theorem rd_progress (d : Dev) (k i s : Nat) : (d.progress k).rd i s = d.rd i s := Dev.rd_congr (progress_regs d k) i s

/-! ### The start -/

/-- A slot with an operation that has just begun in it (Table 2.10). -/
def begun (d : Dev) (k : Nat) (by_ : Requester) (kind unit phases total : Nat) (target : String) (arg arg2 : Nat) : Dev :=
  let i := 0x2080 + k
  let d := (((((d.wr i 1 kind).wr i 2 1).wr i 3 0).wr i 4 0).wr i 5 total).wr i 6 unit
  let d := ((((d.wr i 7 1).wr i 8 phases).wr i 9 (time48 d.now)).wr i 0x0A 0).wr i 0x0B 0
  ((d.wr i 0x0C by_.sess).wrd i 0x0D (strBytes target)).setLongOp k { ownerLevel := by_.level, arg := arg, arg2 := arg2 }

section
variable {d : Dev} {k : Nat} {by_ : Requester} {kind unit phases total arg arg2 : Nat} {target : String}

theorem startLong_idle (h : d.idleSlot = some k) : d.startLong by_ kind unit phases total target arg arg2 =
    ⟨stOk, some k, (begun d k by_ kind unit phases total target arg arg2).progress k⟩ := by
  unfold Dev.startLong
  rw [h]
  rfl

theorem kept_begun : Kept settled (Beside k) d (begun d k by_ kind unit phases total target arg arg2) := by
  have stored (x : LongOp) (e : Dev) (b : List Byte) :
      Kept settled (Beside k) e ((e.wrd (0x2080 + k) 0x0D b).setLongOp k x) := Kept.of_eq rfl rfl rfl
  have slot (e : Dev) (v : Nat) {s : Nat} (hs : s < 256) : Kept settled (Beside k) e (e.wr (0x2080 + k) s v) :=
    kept_slot_wr e k v hs
  simp only [begun]
  refine Kept.trans ?_ (stored _ _ _)
  iterate 12 refine Kept.trans ?_ (slot _ _ (of_decide_eq_true rfl))
  exact Kept.refl d

theorem begun_state : (begun d k by_ kind unit phases total target arg arg2).rd (0x2080 + k) 2 = 1 := by
  have stored (x : LongOp) (e : Dev) (b : List Byte) :
      ((e.wrd (0x2080 + k) 0x0D b).setLongOp k x).rd (0x2080 + k) 2 = e.rd (0x2080 + k) 2 := Dev.rd_congr rfl _ _
  simp only [begun, stored]
  iterate 10 rw [rd_wr_sub _ _ _ (by decide)]
  exact Dev.rd_wr_same _ _ _ _

theorem begun_kind : (begun d k by_ kind unit phases total target arg arg2).rd (0x2080 + k) 1 = kind := by
  have stored (x : LongOp) (e : Dev) (b : List Byte) :
      ((e.wrd (0x2080 + k) 0x0D b).setLongOp k x).rd (0x2080 + k) 1 = e.rd (0x2080 + k) 1 := Dev.rd_congr rfl _ _
  simp only [begun, stored]
  iterate 11 rw [rd_wr_sub _ _ _ (by decide)]
  exact Dev.rd_wr_same _ _ _ _

/-- An operation of a kind has started in slot `k`, and beside the slot nothing has changed. -/
structure Starts (d : Dev) (k kind : Nat) (r : Res) : Prop where
  st : r.st = stOk
  slot : r.slot = some k
  running : r.dev.slotState k = 1
  kind : r.dev.rd (0x2080 + k) 1 = kind
  kept : Kept settled (Beside k) d r.dev

theorem startLong_starts (h : d.idleSlot = some k) :
    Starts d k kind (d.startLong by_ kind unit phases total target arg arg2) := by
  have kept : Kept settled (Beside k) d ((begun d k by_ kind unit phases total target arg arg2).progress k) :=
    kept_begun.trans ((local_progress _ _).mono fun _ _ h => h.1)
  have running : ((begun d k by_ kind unit phases total target arg arg2).progress k).slotState k = 1 := by
    rw [Dev.slotState, rd_progress, begun_state]
  have kinds : ((begun d k by_ kind unit phases total target arg arg2).progress k).rd (0x2080 + k) 1 = kind := by
    rw [rd_progress, begun_kind]
  rw [startLong_idle h]
  refine ⟨rfl, rfl, ?_, ?_, ?_⟩
  all_goals dsimp only
  · exact running
  · exact kinds
  · exact kept

end

/-! ### The position -/

theorem kept_setPosition (d : Dev) (k pos : Nat) : Kept settled (Beside k) d (d.setPosition k pos) := by
  have shown (v : Nat) : Kept settled (Beside k) d ((d.wr (0x2080 + k) 4 pos).wr (0x2080 + k) 3 v) :=
    (kept_slot_wr _ _ _ (by decide)).trans (kept_slot_wr _ _ _ (by decide))
  exact Kept.ite ((shown _).trans ((local_progress _ _).mono fun _ _ h => h.1)) (shown _)

theorem rd_setPosition (d : Dev) (k pos s : Nat) : (d.setPosition k pos).rd (0x2080 + k) s =
    if s = 3 then percentOf (d.rd (0x2080 + k) 6 == 4) pos (d.rd (0x2080 + k) 5)
    else if s = 4 then pos else d.rd (0x2080 + k) s := by
  have shown : (d.setPosition k pos).rd (0x2080 + k) s = ((d.wr (0x2080 + k) 4 pos).wr (0x2080 + k) 3
      (percentOf (d.rd (0x2080 + k) 6 == 4) pos (d.rd (0x2080 + k) 5))).rd (0x2080 + k) s := by
    unfold Dev.setPosition
    extract_lets i pct d1
    split
    · exact rd_progress _ _ _ _
    · rfl
  rw [shown]
  split
  · next h => rw [h, Dev.rd_wr_same]
  · next h =>
    rw [rd_wr_sub _ _ _ h]
    split
    · next h4 => rw [h4, Dev.rd_wr_same]
    · next h4 => rw [rd_wr_sub _ _ _ h4]

/-! ### The end -/

theorem kept_finishLong (d : Dev) (k result : Nat) : Kept settled (Beside k) d (d.finishLong k result) := by
  unfold Dev.finishLong
  extract_lets i d1 d2
  have slot (d : Dev) (v : Nat) {s : Nat} (hs : s < 256) : Kept settled (Beside k) d (d.wr i s v) := kept_slot_wr d k v hs
  have ended : Kept settled (Beside k) d d1 :=
    ((slot _ _ (by decide)).trans (slot _ _ (by decide))).trans (slot _ _ (by decide))
  have full : Kept settled (Beside k) d1 d2 :=
    Kept.ite ((slot _ _ (by decide)).trans (slot _ _ (by decide))) (Kept.refl _)
  exact (ended.trans full).trans ((local_progress d2 k).mono fun _ _ h => h.1)

theorem finishLong_done (d : Dev) (k : Nat) : (d.finishLong k 0).slotState k = 2 := by
  unfold Dev.finishLong
  simp only [if_true]
  rw [Dev.slotState, rd_progress]
  iterate 4 rw [rd_wr_sub _ _ _ (by decide)]
  exact Dev.rd_wr_same _ _ _ _

end Sys2Proof.Machine.LongOperations
end

section
/-! O60: staging, trials, the security counter, debug tokens and JTAG instructions. -/
namespace Sys2Proof.Machine.Firmware

open EventInputs HbmEvents Frames LongOperations

variable {d : Dev} {k : Nat} {by_ : Requester}

theorem flash_of_kept {K : Nat → Nat → Prop} {e : Dev} (h : Kept settled K d e) : e.flash = d.flash :=
  congrArg Settled.flash h.core

theorem pwr_of_kept {K : Nat → Nat → Prop} {e : Dev} (h : Kept settled K d e) : e.pwr = d.pwr :=
  congrArg Settled.pwr h.core

/-! ### Trials -/

/-- A trial command's write has started, and holds the selector and the trial state to come. -/
structure Writes (d : Dev) (k : Nat) (holds : List Nat) (r : Res) : Prop where
  st : r.st = stOk
  slot : r.slot = some k
  running : r.dev.slotState k = 1
  kind : r.dev.rd (0x2080 + k) 1 = 4
  holds : (r.dev.longOp k).held = holds
  flash : r.dev.flash = d.flash

theorem startTrial_writes (x : Selector) (state : Nat) (h : d.idleSlot = some k) :
    Writes d k [x.active, x.trial, x.attempts, state] (d.startTrial by_ x state) := by
  have started : Starts d k 4 (d.startLong by_ 4 1 2 16 (unitPath uXspi) (flashTrial * 16) 0) := startLong_starts h
  unfold Dev.startTrial
  extract_lets r
  change Starts d k 4 r at started
  rw [started.slot]
  exact {
    st := started.st
    slot := rfl
    running := started.running
    kind := started.kind
    holds := congrArg LongOp.held (Tab.getD_setD_same _ _ _ _)
    flash := flash_of_kept (e := r.dev) started.kept }

theorem armTrial_writes (free : d.anyRuns [4, 5, 9] = false) (slot : d.idleSlot = some k)
    (valid : d.slotValid d.targetSlot = true) (trial : d.rd 0x2360 8 = 0) :
    Writes d k [d.selector.active, d.targetSlot, 1, 1] (d.armTrial by_) := by
  unfold Dev.armTrial
  rw [free, valid, trial]
  exact startTrial_writes { d.selector with trial := d.targetSlot, attempts := 1 } 1 slot

theorem armTrial_refused (free : d.anyRuns [4, 5, 9] = false) (trial : d.rd 0x2360 8 ≠ 0) :
    d.armTrial by_ = d.res stWrongState := by
  have other : (d.rd 0x2360 8 != 0) = true := bne_iff_ne.mpr trial
  unfold Dev.armTrial
  rw [free, other, Bool.or_true]
  rfl

theorem confirmTrial_writes (free : d.anyRuns [4, 5, 9] = false) (slot : d.idleSlot = some k)
    (trial : d.rd 0x2360 8 = 2) : Writes d k [d.rd 0x2360 2, 0xFF, 0, 0] (d.confirmTrial by_) := by
  unfold Dev.confirmTrial
  rw [free, if_neg Bool.false_ne_true, if_neg (not_not_intro trial)]
  exact startTrial_writes { d.selector with active := d.rd 0x2360 2, trial := 0xFF, attempts := 0 } 0 slot

theorem confirmTrial_refused (free : d.anyRuns [4, 5, 9] = false) (trial : d.rd 0x2360 8 ≠ 2) :
    d.confirmTrial by_ = d.res stWrongState := by
  unfold Dev.confirmTrial
  rw [free, if_neg Bool.false_ne_true, if_pos trial]

theorem cancelTrial_writes (free : d.anyRuns [4, 5, 9] = false) (slot : d.idleSlot = some k)
    (trial : d.rd 0x2360 8 = 1) : Writes d k [d.selector.active, 0xFF, 0, 0] (d.cancelTrial by_) := by
  unfold Dev.cancelTrial
  rw [free, if_neg Bool.false_ne_true, if_neg (not_not_intro trial)]
  exact startTrial_writes { d.selector with trial := 0xFF, attempts := 0 } 0 slot

theorem cancelTrial_refused (free : d.anyRuns [4, 5, 9] = false) (trial : d.rd 0x2360 8 ≠ 1) :
    d.cancelTrial by_ = d.res stWrongState := by
  unfold Dev.cancelTrial
  rw [free, if_neg Bool.false_ne_true, if_pos trial]

/-! ### The selector's two copies -/

/-- The newest of two copies of the selector, where both are readable. -/
def newest (a b : Option Selector) : Option (Nat × Selector) :=
  match a, b with
  | some a, some b => if b.count ≤ a.count then some (0, a) else some (1, b)
  | some a, none => some (0, a)
  | none, some b => some (1, b)
  | none, none => none

theorem newestSel_eq (d : Dev) :
    d.newestSel [] = newest (Tab.getD d.flash.sels 0 none) (Tab.getD d.flash.sels 1 none) := rfl

/-- The copy that a write takes, and the count that it writes. -/
def nextCopy (newest : Option (Nat × Selector)) : Nat × Nat :=
  newest.elim (0, 1) fun s => (1 - s.1, s.2.count + 1)

theorem writeSel_sels (d : Dev) (x : Selector) : (d.writeSel [] x).flash.sels =
    Tab.setD d.flash.sels (nextCopy (d.newestSel [])).1
      (some { x with count := (nextCopy (d.newestSel [])).2 }) none := by
  unfold Dev.writeSel
  cases d.newestSel [] <;> rfl

theorem writeSel_images (d : Dev) (x : Selector) : (d.writeSel [] x).flash.images = d.flash.images := by
  unfold Dev.writeSel
  cases d.newestSel [] <;> rfl

/-- A selector that is written becomes the newest: it takes the other copy with a higher count (R446). -/
theorem newest_written (a b : Option Selector) (x : Selector) :
    let w := nextCopy (newest a b)
    newest (if w.1 = 0 then some { x with count := w.2 } else a) (if w.1 = 1 then some { x with count := w.2 } else b) =
      some (w.1, { x with count := w.2 }) := by
  cases a with
  | none =>
    cases b with
    | none => rfl
    | some b => simp [newest, nextCopy]
  | some a =>
    cases b with
    | none => simp [newest, nextCopy]
    | some b =>
      by_cases h : b.count ≤ a.count <;> simp [newest, nextCopy, h]

theorem selector_writeSel (d : Dev) (x : Selector) :
    (d.writeSel [] x).selector = { x with count := (nextCopy (d.newestSel [])).2 } := by
  have copy (j : Nat) : Tab.getD (d.writeSel [] x).flash.sels j none =
      if (nextCopy (d.newestSel [])).1 = j then some { x with count := (nextCopy (d.newestSel [])).2 }
      else Tab.getD d.flash.sels j none := by
    rw [writeSel_sels]
    split
    · next h => rw [h, Tab.getD_setD_same]
    · next h => rw [Tab.getD_setD_other _ _ _ _ (Ne.symm h)]
  rw [Dev.selector, newestSel_eq, copy, copy, newestSel_eq d, newest_written]
  rfl

theorem selector_of_flash {e : Dev} (h : e.flash = d.flash) : e.selector = d.selector := by
  rw [Dev.selector, Dev.selector, newestSel_eq, newestSel_eq, h]

/-- The trial state and the objects beside it are no long operation's. -/
theorem beside_boot (hk : k < 64) (s : Nat) : Beside k 0x2360 s :=
  ⟨⟨by decide, .inr (by decide)⟩, by omega⟩

theorem flashDone_trial (kind : d.runningKind k = 4) (what : (d.longOp k).arg / 16 = flashTrial) :
    d.flashDone k 0 = (d.trialDone k).finishLong k 0 := by
  unfold Dev.flashDone
  rw [if_neg (not_not_intro kind), what]
  rfl

/-- A selector that is written and verified is the newest, and its trial state shows (R447). -/
theorem flashDone_shows (hk : k < 64) (kind : d.runningKind k = 4) (what : (d.longOp k).arg / 16 = flashTrial) :
    let h := fun i => (d.longOp k).held.getD i 0
    (d.flashDone k 0).slotState k = 2 ∧ (d.flashDone k 0).rd 0x2360 8 = h 3 ∧
      ∃ n, (d.flashDone k 0).selector = { active := h 0, trial := h 1, attempts := h 2, count := n } := by
  have kept := kept_finishLong (d.trialDone k) k 0
  rw [flashDone_trial kind what]
  refine ⟨finishLong_done _ _, ?_, (nextCopy (d.newestSel [])).2, (selector_of_flash (flash_of_kept kept)).trans ?_⟩
  · rw [kept.rd (beside_boot hk 8) (by decide)]
    exact Dev.rd_wr_same _ _ _ _
  · exact (selector_of_flash rfl).trans (selector_writeSel d _)

/-! ### The security counter -/

theorem raiseCounter_raises (trial : d.rd 0x2360 8 ≠ 2) (running : d.rd 0x2360 2 < 2) :
    d.raiseCounter = (({ d with flash := { d.flash with
      counter := max d.flash.counter (imgSecurity (d.slotImage (d.rd 0x2360 2))) } } : Dev).wr 0x2360 6
        (max d.flash.counter (imgSecurity (d.slotImage (d.rd 0x2360 2))))).res stOk :=
  if_neg (not_or.mpr ⟨trial, Nat.not_le.mpr running⟩)

theorem raiseCounter_refused (trial : d.rd 0x2360 8 = 2) : d.raiseCounter = d.res stWrongState := if_pos (.inl trial)

/-! ### Staging -/

theorem cancelArmed_images (d : Dev) (k : Nat) : (d.cancelArmed k).flash.images = d.flash.images := by
  unfold Dev.cancelArmed
  split
  · split
    · exact writeSel_images _ _
    · rfl
  · rfl

/-- What the withdrawal of an armed trial leaves alone. -/
theorem kept_cancelArmed (d : Dev) (slot : Nat) : Kept Dev.pwr (fun i _ => i ≠ 0x2360) d (d.cancelArmed slot) := by
  have written (x : Selector) : Kept Dev.pwr (fun i _ => i ≠ 0x2360) d (d.writeSel [] x) := by
    unfold Dev.writeSel
    exact Kept.of_eq rfl rfl rfl
  unfold Dev.cancelArmed
  split
  · exact Kept.ite ((written _).trans (Kept.wrf rfl (by decide) (by decide) fun h => h rfl)) (Kept.refl d)
  · exact Kept.refl d

/-- The device once the first segment's operation has started: the target slot is erased, an armed trial of it is
withdrawn, and 0x2360:0C names the operation. -/
def prepared (d : Dev) (slot k : Nat) : Dev := ((d.eraseSlot slot).cancelArmed slot).wr 0x2360 0x0C k

theorem prepared_image (d : Dev) (slot k : Nat) : (prepared d slot k).slotImage slot = [] := by
  rw [Dev.slotImage, prepared, Dev.wr_flash, cancelArmed_images]
  exact Tab.getD_setD_same d.flash.images slot [] []

theorem kept_prepared (d : Dev) (slot k : Nat) : Kept Dev.pwr (fun i _ => i ≠ 0x2360) d (prepared d slot k) :=
  ((Kept.of_eq rfl rfl rfl : Kept Dev.pwr (fun i _ => i ≠ 0x2360) d (d.eraseSlot slot)).trans
    (kept_cancelArmed _ slot)).trans (Kept.wrf rfl (by decide) (by decide) fun h => h rfl)

theorem stageMore_waits {x : StageRt} {data : List Byte} (fits : (x.data ++ data).length ≤ x.total) :
    d.stageMore k x data false = ((d.setPwr { d.pwr with stage := some { x with data := x.data ++ data } }).setPosition k
      (x.data ++ data).length).res stOk := by
  have waits : ¬ (x.total < (x.data ++ data).length ∨
      (false = true ∧ (x.data ++ data).length < x.total)) := by
    rintro (h | ⟨h, -⟩)
    · omega
    · exact Bool.false_ne_true h
  exact if_neg waits

/-- The first segment's operation, and the segment stored. -/
def firstStaged (d : Dev) (k : Nat) (x : StageRt) : Dev :=
  ((prepared d x.slot k).setPwr { (prepared d x.slot k).pwr with stage := some x }).setPosition k x.data.length

theorem stageFirst_starts {data : List Byte} (free : d.anyRuns [4, 5, 9] = false) (header : d.headerOk data = true)
    (slot : d.idleSlot = some k) (fits : data.length ≤ imgField data 32 4) :
    d.stageFirst by_ data false = ⟨stOk, some k,
      firstStaged (d.startLong by_ 5 1 3 (imgField data 32 4) (unitPath uXspi) 0 0).dev k
        { slot := d.targetSlot, sess := by_.sess, data := data, total := imgField data 32 4 }⟩ := by
  have started : Starts d k 5 (d.startLong by_ 5 1 3 (imgField data 32 4) (unitPath uXspi) 0 0) := startLong_starts slot
  unfold Dev.stageFirst
  rw [free, header, if_neg Bool.false_ne_true, if_neg (by decide)]
  extract_lets total r
  change Starts d k 5 r at started
  rw [started.slot]
  dsimp only
  rw [stageMore_waits (by exact fits)]
  rfl

section
variable (d) (x : StageRt)

theorem rd_firstStaged (hk : k < 64) (s : Nat) (hs : s ≠ 3) (hs' : s < 256) : (firstStaged d k x).rd (0x2080 + k) s =
    if s = 4 then x.data.length else d.rd (0x2080 + k) s := by
  have slot : 0x2080 + k ≠ 0x2360 := by omega
  have stored (e : Dev) (p : PwrRt) (i s : Nat) : (e.setPwr p).rd i s = e.rd i s := Dev.rd_congr rfl _ _
  rw [firstStaged, rd_setPosition, if_neg hs, stored, (kept_prepared d x.slot k).rd slot hs']

theorem kept_position : Kept settled (Beside k) ((prepared d x.slot k).setPwr
    { (prepared d x.slot k).pwr with stage := some x }) (firstStaged d k x) := kept_setPosition _ _ _

theorem firstStaged_shown (hk : k < 64) : (firstStaged d k x).rd 0x2360 0x0C = k :=
  ((kept_position d x).rd (beside_boot hk 0x0C) (by decide)).trans
    ((Dev.rd_congr rfl _ _).trans (Dev.rd_wr_same ((d.eraseSlot x.slot).cancelArmed x.slot) 0x2360 0x0C k))

theorem firstStaged_image : (firstStaged d k x).slotImage x.slot = [] := by
  rw [Dev.slotImage, flash_of_kept (kept_position d x)]
  exact prepared_image d x.slot k

theorem firstStaged_stage : (firstStaged d k x).pwr.stage = some x := by
  rw [pwr_of_kept (kept_position d x)]
  rfl

end

/-- An image that staging stores when it is complete and verified (R454). -/
def stored (d : Dev) (x : StageRt) : Dev :=
  { d with flash := { d.flash with
    images := Tab.setD d.flash.images x.slot x.data []
    written := Tab.setD d.flash.written x.slot (d.now / 1000000000) 0 } }

theorem stagingDone_verified {x : StageRt} (stage : d.pwr.stage = some x) (slot : d.slotOfKind 5 = some k)
    (complete : x.total ≤ x.data.length) (signed : imgSigned x.data = true) (guardian : imgHash x.data 36 52 = true)
    (main : imgHash x.data 44 100 = true) : d.stagingDone 0 = (stored d x).endStage k 0 := by
  unfold Dev.stagingDone
  rw [stage, slot]
  dsimp only
  rw [if_neg (Nat.not_lt.mpr complete), signed, guardian, main]
  rfl

theorem endStage_shows (d : Dev) (x : StageRt) (k : Nat) : ((stored d x).endStage k 0).slotState k = 2 ∧
    ((stored d x).endStage k 0).slotImage x.slot = x.data ∧ ((stored d x).endStage k 0).pwr.stage = none := by
  have kept := kept_finishLong ((stored d x).setPwr { (stored d x).pwr with stage := none }) k 0
  refine ⟨finishLong_done _ _, ?_, ?_⟩
  · rw [Dev.slotImage, Dev.endStage, flash_of_kept kept]
    exact Tab.getD_setD_same d.flash.images x.slot x.data []
  · rw [Dev.endStage, pwr_of_kept kept]
    rfl

theorem stageImage_first {data : List Byte} (access : d.accessStatus by_.level 0x2360 0x0B = stOk)
    (size : data.length ≤ d.stageBuffer) (stage : d.pwr.stage = none) (last : Bool) :
    d.stageImage by_ 0 data last = d.stageFirst by_ data last := by
  unfold Dev.stageImage
  rw [access]
  dsimp only
  rw [if_neg (not_not_intro rfl), if_neg (Nat.not_lt.mpr size), stage]
  rfl

theorem stageImage_gap {data : List Byte} {x : StageRt} {off : Nat}
    (access : d.accessStatus by_.level 0x2360 0x0B = stOk) (size : data.length ≤ d.stageBuffer)
    (stage : d.pwr.stage = some x) (slot : d.slotOfKind 5 = some k) (own : x.sess = by_.sess)
    (gap : off ≠ x.data.length) (last : Bool) : d.stageImage by_ off data last = d.res stSegment := by
  unfold Dev.stageImage
  rw [access]
  dsimp only
  rw [if_neg (not_not_intro rfl), if_neg (Nat.not_lt.mpr size), stage, slot]
  dsimp only
  rw [if_neg (not_not_intro own), if_pos gap]

/-! ### Debug tokens and JTAG instructions -/

/-- A debug token that verifies: serial number, challenge and signature (R457). -/
def Verifies (d : Dev) (token : List Byte) : Prop :=
  token.length = 120 ∧ fieldAt token 0 4 = d.rd 0x1018 4 ∧ slice token 4 16 = d.rdd 0x2360 0x0D ∧
    Config.ecdsaVerify keyDebug (token.take 24) (slice token 24 96) = true

/-- The device once a new challenge is drawn. -/
def challenged (d : Dev) : Dev := (d.freeBytes 16).2.wrd 0x2360 0x0D (d.freeBytes 16).1

theorem debugToken_good {token : List Byte} (good : Verifies d token) : d.debugToken token =
    (((challenged d).wr 0x2360 0x0F (fieldAt token 20 4 % 4)).raise uGuard 0x1506 (fieldAt token 20 4) 0 sevService).res
      stOk := by
  obtain ⟨length, serial, challenge, signed⟩ := good
  have ok : (token.length == 120 && fieldAt token 0 4 == d.rd 0x1018 4 && slice token 4 16 == d.rdd 0x2360 0x0D &&
      Config.ecdsaVerify keyDebug (token.take 24) (slice token 24 96)) = true := by
    rw [length, serial, challenge, signed]
    simp
  exact if_pos ok

theorem debugToken_bad {token : List Byte} (bad : ¬ Verifies d token) :
    d.debugToken token = (challenged d).res stRange := by
  have fails : ¬ (token.length == 120 && fieldAt token 0 4 == d.rd 0x1018 4 && slice token 4 16 == d.rdd 0x2360 0x0D &&
      Config.ecdsaVerify keyDebug (token.take 24) (slice token 24 96)) = true := by
    simp only [Bool.and_eq_true, beq_iff_eq, and_assoc]
    exact bad
  exact if_neg fails

theorem jtag_idcode (data : List Byte) (powered : d.pwr.state ≠ 5) : d.jtag .idcode data =
    (d.setPwr { d.pwr with ir := .idcode }).send (.pin "tdo" [0x19600C7B]) := if_neg powered

theorem jtag_extest_in_run (data : List Byte) (powered : d.pwr.state ≠ 5) (run : d.pwr.resetLow = false) :
    d.jtag .extest data = d.setPwr { d.pwr with ir := .bypass } := by
  unfold Dev.jtag
  rw [if_neg powered, run]
  rfl

theorem report_doms (d : Dev) (r : Report) : (d.report r).doms = d.doms := by
  unfold Dev.report
  split
  · dsimp only
    split <;> rfl
  · dsimp only
    split <;> rfl

theorem doms_of_ledger {d e : Dev} (h : Journal.ledger d = Journal.ledger e) : d.doms = e.doms :=
  congrArg (fun l => l.2.1) h

theorem event_doms (d : Dev) (unit code p1 p2 : Nat) : (d.event unit code p1 p2).doms = d.doms := by
  rw [Dev.event, doms_of_ledger (Journal.ledger_notify d 3 d.now (unitEventBody unit code p1 p2))]

theorem raise_doms (d : Dev) (unit code p1 p2 sev : Nat) : (d.raise unit code p1 p2 sev).doms = d.doms := by
  rw [Dev.raise, report_doms, event_doms]

theorem rdd_challenged (d : Dev) : (challenged d).rdd 0x2360 0x0D = padTo 16 (Config.freeBytes 16 d.fresh) :=
  Dev.rdd_wrd_same (d.freeBytes 16).2 _ _ _

theorem rdd_of_doms {d e : Dev} (h : e.doms = d.doms) (i s : Nat) : e.rdd i s = d.rdd i s := by
  rw [Dev.rdd, Dev.rdd, Dev.rdc, Dev.rdc, h]

end Sys2Proof.Machine.Firmware

open Sys2Proof Sys2Proof.Machine Sys2Proof.Machine.PairCommands Sys2Proof.Machine.LongOperations
  Sys2Proof.Machine.AudioStreams Sys2Proof.Machine.Firmware in
/-- Settles O60: what each command starts or ends has its lemmas above; the rest is that a long operation's slot, the
boot objects and the flash do not overlap. -/
theorem firmwareAndDebugCommandsComplete : Obligations.FirmwareAndDebugCommandsComplete := by
  intro s t k by_ c v held data token x off last d trial running started hk
  refine ⟨fun free slot command granted => ?trials, fun up kind what => ?written, fun granted => ⟨fun calm image => ?raises,
    fun calm => ?refused⟩, fun up access size => ⟨fun stage free header slot fits => ?first,
    fun stage slot own gap => ?segment⟩, fun up stage slot complete signed guardian main => ?verified,
    fun granted => ?token, fun powered => ?idcode, fun powered run => ?extest⟩
  case trials =>
    have act (v : Nat) (granted : d.grants by_ 0x2360 7 [BitVec.ofNat 8 v]) : bootWrite t by_ v s = .next { s with
        dev := (d.bootCommand by_ v).dev.send (.answer by_ (d.bootCommand by_ v).st (d.bootCommand by_ v).slot) } :=
      onCommand_granted granted
    have refuse {v : Nat} (granted : d.grants by_ 0x2360 7 [BitVec.ofNat 8 v])
        (effect : d.bootCommand by_ v = d.res stWrongState) :
        bootWrite t by_ v s = .next { s with dev := d.send (.answer by_ stWrongState none) } :=
      onCommand_result granted (eff := (·.bootCommand by_ v)) effect
    have start {r : Res} (run : exec c s = .next { s with dev := r.dev.send (.answer by_ r.st r.slot) })
        (w : Writes d k held r) :
        ∃ u, exec c s = .next u ∧ started u 4 ∧ (u.dev.longOp k).held = held ∧ u.dev.flash = d.flash := by
      refine ⟨_, run, ⟨rfl, w.running, w.kind, ?_⟩, w.holds, w.flash⟩
      dsimp only
      rw [Dev.send_outbox, List.getLast?_concat, w.st, w.slot]
    simp only [List.mem_cons, List.not_mem_nil, or_false, Prod.mk.injEq] at command
    obtain ⟨rfl, rfl, rfl⟩ | ⟨rfl, rfl, rfl⟩ | ⟨rfl, rfl, rfl⟩ := command
    · exact ⟨fun trial valid => start (act 2 granted) (armTrial_writes free slot (valid rfl) trial),
        fun trial => refuse granted (armTrial_refused free trial)⟩
    · exact ⟨fun trial _ => start (act 3 granted) (confirmTrial_writes free slot trial),
        fun trial => refuse granted (confirmTrial_refused free trial)⟩
    · exact ⟨fun trial _ => start (act 5 granted) (cancelTrial_writes free slot trial),
        fun trial => refuse granted (cancelTrial_refused free trial)⟩
  case written =>
    have run : exec (.flashWriteDone t k 0) s = onAon t (fun d =>
      if d.alive || d.recovery then d.flashDone k 0 else d) s := by rfl
    have here : ((s.found t).alive || (s.found t).recovery) = true := by rw [up, Bool.true_or]
    rw [run, onAon_eq, if_pos here]
    obtain ⟨state, shown, n, selector⟩ := flashDone_shows hk kind what
    exact ⟨_, rfl, rfl, state, congrArg Selector.active selector, congrArg Selector.trial selector,
      congrArg Selector.attempts selector, shown⟩
  case raises =>
    have run := onCommand_result granted (eff := (·.bootCommand by_ 4)) (raiseCounter_raises calm image)
    refine ⟨_, run, rfl, rfl, ?_, rfl⟩
    exact Dev.rd_wr_same _ _ _ _
  case refused => exact onCommand_result granted (eff := (·.bootCommand by_ 4)) (raiseCounter_refused calm)
  case first =>
    have effect := (stageImage_first access size stage false).trans (stageFirst_starts (by_ := by_) free header slot fits)
    have run : exec (.stageImage t by_ 0 data false) s = onCommand t by_ (·.stageImage by_ 0 data false) s := by rfl
    rw [run, onCommand_alive up, effect]
    have begins : Starts d k 5 (d.startLong by_ 5 1 3 (imgField data 32 4) (unitPath uXspi) 0 0) := startLong_starts slot
    refine ⟨_, rfl, ⟨rfl, ?_, ?_, List.getLast?_concat⟩, firstStaged_shown _ _ hk, firstStaged_image _ _, ?_,
      firstStaged_stage _ _⟩
    all_goals dsimp only
    · rw [Dev.slotState, Dev.send_rd, rd_firstStaged _ _ hk 2 (by decide) (by decide), if_neg (by decide)]
      exact begins.running
    · rw [Dev.send_rd, rd_firstStaged _ _ hk 1 (by decide) (by decide), if_neg (by decide), begins.kind]
    · rw [Dev.send_rd, rd_firstStaged _ _ hk 4 (by decide) (by decide), if_pos rfl]
  case segment =>
    have run : exec (.stageImage t by_ off data last) s = onCommand t by_ (·.stageImage by_ off data last) s := by rfl
    rw [run, onCommand_alive up, stageImage_gap access size stage slot own gap]
    rfl
  case verified =>
    have run : exec (.stagingDone t 0) s = onAon t (fun d =>
      if d.alive || d.recovery then d.stagingDone 0 else d) s := by rfl
    have here : ((s.found t).alive || (s.found t).recovery) = true := by rw [up, Bool.true_or]
    rw [run, onAon_eq, if_pos here, stagingDone_verified stage slot complete signed guardian main]
    refine ⟨_, rfl, rfl, ?_⟩
    dsimp only
    exact endStage_shows d x k
  case token =>
    have run {r : Res} (effect : d.debugToken token = r) : exec (.debugToken t by_ token) s =
        .next { s with dev := r.dev.send (.answer by_ r.st r.slot) } := onCommand_result granted effect
    by_cases good : Verifies d token
    · refine ⟨_, run (debugToken_good good), rfl, ?_, fun _ => ⟨?_, List.getLast?_concat⟩, fun bad => absurd good bad⟩
      all_goals dsimp only [Dev.res]
      · rw [rdd_of_doms (Dev.send_doms ..), rdd_of_doms (raise_doms ..), rdd_of_doms (Dev.wr_doms ..), rdd_challenged]
      · rw [Dev.send_rd, Dev.rd, raise_rdf _ _ _ _ _ _ (by decide) (by decide) (by decide)]
        exact Dev.rd_wr_same _ _ _ _
    · refine ⟨_, run (debugToken_bad good), rfl, ?_, fun verifies => absurd verifies good, fun _ => ⟨rfl, rfl⟩⟩
      dsimp only [Dev.res]
      rw [rdd_of_doms (Dev.send_doms ..), rdd_challenged]
  case idcode =>
    have run : exec (.jtagInstruction t .idcode data) s = onAon t (·.jtag .idcode data) s := by rfl
    rw [run, onAon_eq, jtag_idcode data powered]
    rfl
  case extest =>
    have runs : exec (.jtagInstruction t .extest data) s = onAon t (·.jtag .extest data) s := by rfl
    rw [runs, onAon_eq, jtag_extest_in_run data powered run]
    rfl
end

section
/-! The pair: what a change of the pair state, of the role and of the ports leaves alone. -/
namespace Sys2Proof.Machine.PairRoles

open EventInputs HbmEvents Frames LongOperations

/-! ### Operations of units that follow the role -/

theorem local_standbyPort (d : Dev) (p : Nat) : Local d (d.standbyPort p) :=
  Kept.ite (local_setDp _ _ _) (Kept.refl d)

theorem local_activatePort (d : Dev) (p : Nat) : Local d (d.activatePort p) := by
  unfold Dev.activatePort
  extract_lets x
  split
  · exact local_setDp _ _ _
  · exact Kept.ite (local_train d p) (Kept.refl d)

theorem local_endFollow (d : Dev) (c : Nat) : Local d (d.endFollow c) :=
  Kept.ite (Kept.refl d) ((local_setEnc _ _ _).trans (local_wr _ _ (by decide) (by simp only [rcIdx]; omega)))

/-- A frame sent by a NET port counts in the port's own object. -/
theorem local_sendNet (d : Dev) {k : Nat} (hk : k < 8) (what : String) (b : List Byte) :
    Local d (d.sendNet k what b) := by
  have counts (e : Dev) (f v w : Nat) (hf : f < 65536) : Local e (e.addf (netIdx k) 0x0B f v w) :=
    Kept.wrf rfl (by decide) hf fun h => by
      have := h.2
      simp only [netIdx] at this
      omega
  exact Kept.ite (((counts _ _ _ _ (by decide)).trans (counts _ _ _ _ (by decide))).trans (local_send _ _)) (Kept.refl d)

theorem local_announce (d : Dev) : Local d d.announce := by
  refine Kept.foldNat (fun d k hk => ?_) d
  extract_lets v4 v6 e
  have four : Local d e := Kept.ite (Kept.refl d) (local_sendNet d hk _ _)
  exact four.trans (Kept.ite (Kept.refl e) (local_sendNet e hk _ _))

/-! ### The pair state -/

/-- The objects outside the units and outside the slots of long operations, but for the pair state. -/
def BesidePair (i s : Nat) : Prop := Quiet i s ∧ (i < 0x2080 ∨ 0x20C0 ≤ i) ∧ ¬ (i = 0x2100 ∧ s = 3)

theorem kept_setPair (d : Dev) (st : Nat) : Kept settled BesidePair d (d.setPair st) := by
  have shown : Kept settled BesidePair d (d.wr 0x2100 3 st) :=
    Kept.wrf rfl (by decide) (by decide) fun h => h.2.2 ⟨rfl, rfl⟩
  exact Kept.ite (Kept.refl d) ((shown.trans ((local_raise _ _ _ _ _ _).mono fun _ _ h => h.1)).trans
    ((local_toPartner _ _ _).mono fun _ _ h => h.1))

theorem quiet_pair (s : Nat) : Quiet 0x2100 s := ⟨by decide, .inr (by decide)⟩

theorem pairState_setPair (d : Dev) (st : Nat) : (d.setPair st).pairState = st := by
  unfold Dev.setPair
  extract_lets old e
  split
  · assumption
  · rw [Dev.pairState, (local_toPartner _ _ _).rd (quiet_pair 3) (by decide),
      (local_raise _ _ _ _ _ _).rd (quiet_pair 3) (by decide), Dev.rd_wr_same]

theorem slotOfKind_lt {d : Dev} {kind k : Nat} (h : d.slotOfKind kind = some k) : k < 64 :=
  List.mem_range.mp (List.mem_of_find?_eq_some h)

theorem besidePair_beside {k : Nat} (hk : k < 64) (i s : Nat) (h : BesidePair i s) : Beside k i s := by
  obtain ⟨quiet, outside, -⟩ := h
  exact ⟨quiet, by omega⟩

/-- A resynchronisation that fails changes its own slot and the pair state. -/
theorem kept_resyncFail (d : Dev) (code : Nat) : Kept settled BesidePair d (d.resyncFail code) := by
  unfold Dev.resyncFail
  split
  · exact Kept.refl d
  · next k h =>
    exact ((kept_finishLong d k code).mono (besidePair_beside (slotOfKind_lt h))).trans (kept_setPair _ _)

/-! ### The role -/

/-- A device whose role has changed shows the role, the instant, the cause and the count of changes (R355). -/
structure ShowsRole (d e : Dev) (new cause : Nat) : Prop where
  role : e.rd 0x2100 1 = new
  at_ : e.rd 0x2100 9 = time48 d.now
  cause : e.rd 0x2100 0x0A = cause
  count : e.rd 0x2100 0x0B = (d.rd 0x2100 0x0B + 1) % 2 ^ 32
  core : settled e = settled d
  sent : d.outbox <+: e.outbox

/-- What leaves the pair's object alone but for the pair state keeps what a role change shows. -/
theorem ShowsRole.trans {K : Nat → Nat → Prop} {d e x : Dev} {new cause : Nat} (h : ShowsRole d e new cause)
    (kept : Kept settled K e x) (all : ∀ s, s ∈ [1, 9, 0x0A, 0x0B] → K 0x2100 s) : ShowsRole d x new cause := by
  have num (s : Nat) (hs : s ∈ [1, 9, 0x0A, 0x0B]) : x.rd 0x2100 s = e.rd 0x2100 s := by
    refine kept.rd (all s hs) ?_
    simp only [List.mem_cons, List.not_mem_nil, or_false] at hs
    omega
  exact {
    role := (num 1 (by decide)).trans h.role
    at_ := (num 9 (by decide)).trans h.at_
    cause := (num 0x0A (by decide)).trans h.cause
    count := (num 0x0B (by decide)).trans h.count
    core := kept.core.trans h.core
    sent := h.sent.trans kept.sent }

theorem ShowsRole.local {d e x : Dev} {new cause : Nat} (h : ShowsRole d e new cause) (kept : Local e x) :
    ShowsRole d x new cause := h.trans kept fun s _ => quiet_pair s

theorem settled_wr (d : Dev) (i s v : Nat) : settled (d.wr i s v) = settled d := rfl

/-- The objects of the role, written. -/
def roleWritten (d : Dev) (new cause : Nat) : Dev :=
  (((d.wr 0x2100 1 new).wr 0x2100 9 (time48 d.now)).wr 0x2100 0x0A cause).wr 0x2100 0x0B
    ((d.rd 0x2100 0x0B + 1) % 2 ^ 32)

theorem showsRole_roleWritten (d : Dev) (new cause : Nat) : ShowsRole d (roleWritten d new cause) new cause where
  role := by
    unfold roleWritten
    iterate 3 rw [rd_wr_sub _ _ _ (by decide)]
    rw [Dev.rd_wr_same]
  at_ := by
    unfold roleWritten
    iterate 2 rw [rd_wr_sub _ _ _ (by decide)]
    rw [Dev.rd_wr_same]
  cause := by rw [roleWritten, rd_wr_sub _ _ _ (by decide), Dev.rd_wr_same]
  count := by rw [roleWritten, Dev.rd_wr_same]
  core := by rw [roleWritten, settled_wr, settled_wr, settled_wr, settled_wr]
  sent := by rw [roleWritten, Dev.wr_outbox, Dev.wr_outbox, Dev.wr_outbox, Dev.wr_outbox]

theorem showsRole_setRole (d : Dev) (new cause : Nat) : ShowsRole d (d.setRole new cause) new cause := by
  unfold Dev.setRole
  extract_lets old e f
  have written : ShowsRole d e new cause := showsRole_roleWritten d new cause
  exact (written.local (local_raise _ _ _ _ _ _)).local (local_notify _ _ _ _)

end Sys2Proof.Machine.PairRoles
end

section
/-! O52: the interlock of a pair. -/
namespace Sys2Proof.Machine.Interlock

open PairCommands Frames LongOperations PairRoles

variable {d : Dev}

/-! ### Heartbeat and detector -/

theorem heartbeat_beats (pair : d.duplex = true) (role : d.rd 0x2100 1 = 1) (runs : d.guardianStopped = false)
    (free : d.dup.gated = false) (due : d.dup.beatFrom ≤ d.now)
    (edge : d.now ≤ (d.now + 1000) / 500000 * 500000 + 1000) :
    d.heartbeat = (d.setDup { d.dup with holdOut := !d.dup.holdOut
                                         beatFrom := ((d.now + 1000) / 500000 + 1) * 500000 - 1000 }).send
      (.pin "ILK_HOLD_OUT" [if d.dup.holdOut then 0 else 1]) := by
  have beats : (d.duplex && d.active && !d.guardianStopped && !d.dup.gated && decide (d.dup.beatFrom ≤ d.now) &&
      decide (d.now ≤ (d.now + 1000) / 500000 * 500000 + 1000)) = true := by
    rw [pair, active_of_role role, runs, free, decide_eq_true due, decide_eq_true edge]
    rfl
  have line : (!d.dup.holdOut).toNat = if d.dup.holdOut then 0 else 1 := by cases d.dup.holdOut <;> rfl
  unfold Dev.heartbeat
  extract_lets m e
  rw [if_pos beats, ← line]
  rfl

theorem holdEdge_inWindow {e aon : Nat} (standby : d.standby = true) (last : d.dup.edge = some e)
    (low : e + 450000 ≤ aon) (high : aon ≤ e + 550000) :
    d.holdEdge aon = d.setDup { d.dup with
      edge := some aon, run := min (d.dup.run + 1) 20, edgeAt := d.now + 1
      armed := d.dup.armed || decide (19 ≤ d.dup.run) } := by
  have twentieth : decide (20 ≤ d.dup.run + 1) = decide (19 ≤ d.dup.run) := decide_eq_decide.mpr (by omega)
  simp only [Dev.holdEdge, standby, last, low, high, decide_true, Bool.and_self, Bool.not_true, Bool.false_eq_true,
    if_false, if_true, Bool.true_or, twentieth]

theorem holdEdge_outside {e aon : Nat} (standby : d.standby = true) (last : d.dup.edge = some e)
    (outside : aon < e + 450000 ∨ e + 550000 < aon) :
    d.holdEdge aon = d.setDup { d.dup with
      edge := some aon, run := 1, edgeAt := if d.dup.armed then d.dup.edgeAt else d.now + 1 } := by
  have window : (decide (e + 450000 ≤ aon) && decide (aon ≤ e + 550000)) = false := by
    simp only [Bool.and_eq_false_iff, decide_eq_false_iff_not]
    omega
  have first : (d.dup.armed || decide (20 ≤ 1)) = d.dup.armed := Bool.or_false _
  have kept : (if (false || !d.dup.armed) = true then d.now + 1 else d.dup.edgeAt) =
      if d.dup.armed then d.dup.edgeAt else d.now + 1 := by cases d.dup.armed <;> rfl
  simp only [Dev.holdEdge, standby, last, window, Bool.not_true, Bool.false_eq_true, if_false, first, kept]
  rfl

/-- The device once its detector has fired: it is disarmed. -/
def disarmed (d : Dev) : Dev := d.setDup { d.dup with armed := false, run := 0, edge := none, edgeAt := 0 }

theorem expire_eq (standby : d.standby = true) (armed : d.dup.armed = true) (edge : d.dup.edgeAt ≠ 0)
    (due : d.dup.edgeAt - 1 + 2970000 ≤ d.now) : d.expire =
      if d.rd 0x2100 4 = 2 ∨ (d.rd 0x2100 4 = 1 ∧ d.pairState = 4) then (disarmed d).claim 3
      else (disarmed d).raise uRing 0x1002 (d.rd 0x2100 4) d.pairState sevService := by
  have fires : ¬ (!d.standby || !d.dup.armed || d.dup.edgeAt == 0 ||
      decide (d.now < d.dup.edgeAt - 1 + 2970000)) = true := by
    simp only [standby, armed, Bool.not_true, Bool.false_or, Bool.or_eq_true, beq_iff_eq, decide_eq_true_eq, not_or]
    omega
  exact if_neg fires

/-! ### Claims -/

theorem dup_of_core {d e : Dev} (h : settled e = settled d) : e.dup = d.dup := congrArg Settled.dup h

theorem now_of_core {d e : Dev} (h : settled e = settled d) : e.now = d.now := congrArg Settled.now h

theorem refreshOuts_setDup (d : Dev) (x : DupRt) : (d.setDup x).refreshOuts.dup = x :=
  dup_of_core (local_refreshOuts _).core

/-- What the interlock holds once the device has claimed without a claim of the partner (R349). -/
def claimedDup (x : DupRt) (now : Nat) (swap : Bool) : DupRt :=
  { x with takeOut := true, claimAt := now + 1, beatFrom := now + 100000, armed := false, run := 0
           edge := none, edgeAt := 0, asked := none, gated := false, ignored := false
           partnerIn := swap, partner := if swap then 4 else 0 }

/-- ILK_TAKE_OUT rises. -/
def taking (d : Dev) (cause : Nat) : Dev :=
  ((d.resyncFail 2).setDup (claimedDup d.dup (d.resyncFail 2).now (cause == 2))).send (.pin "ILK_TAKE_OUT" [1])

/-- The units that follow the role take it up. -/
def activated (d : Dev) : Dev :=
  ((foldNat Dev.activatePort 16 (foldNat Dev.endFollow 16 d)).refreshSenders).announce

theorem local_activated (d : Dev) : Local d (activated d) :=
  (((Kept.foldNat (fun d c _ => local_endFollow d c) d).trans
    (Kept.foldNat (fun d p _ => local_activatePort d p) _)).trans (local_refreshSenders _)).trans (local_announce _)

theorem claim_eq (free : d.dup.takeIn = false) (cause : Nat) :
    d.claim cause = activated (((taking d cause).setRole 1 cause).setPair 1) := by
  unfold Dev.claim
  extract_lets x conflict e swap f g h i j
  have apart : conflict = false := by
    show (d.dup.takeIn && _) = false
    rw [free, Bool.false_and]
  have taken : g = taking d cause := by
    show (e.setDup { claimedDup d.dup e.now swap with ignored := conflict && !e.posS }).send _ = _
    rw [apart]
    rfl
  have ends : j = ((foldNat Dev.activatePort 16 (foldNat Dev.endFollow 16
      (((taking d cause).setRole 1 cause).setPair 1))).refreshSenders) := by
    rw [← taken]
  rw [apart, Bool.false_and, if_neg Bool.false_ne_true, ends]
  rfl

/-- Before ILK_TAKE_OUT rises, only a running resynchronisation has ended. -/
theorem taking_keeps (d : Dev) (cause : Nat) :
    Kept (fun _ => ()) BesidePair d (taking d cause) ∧ (taking d cause).now = d.now ∧
      (taking d cause).dup = claimedDup d.dup d.now (cause == 2) := by
  have ended := kept_resyncFail d 2
  have now := now_of_core ended.core
  refine ⟨⟨rfl, fun i s f hk hs hf => ?_, ?_⟩, now, ?_⟩
  · rw [← ended.num i s f hk hs hf]
    rfl
  · exact ended.sent.trans (List.prefix_append _ _)
  · rw [← now]
    rfl

/-- A device that has claimed shows its role with the cause, the instant and the count, is ACTIVE, and drives
ILK_TAKE_OUT (R349). -/
structure Claimed (d e : Dev) (cause : Nat) : Prop where
  role : e.rd 0x2100 1 = 1
  from_ : e.rd 0x2100 0x0A = cause
  at_ : e.rd 0x2100 9 = time48 d.now
  count : e.rd 0x2100 0x0B = (d.rd 0x2100 0x0B + 1) % 2 ^ 32
  pair : e.pairState = 1
  dup : e.dup = claimedDup d.dup d.now (cause == 2)
  pin : .pin "ILK_TAKE_OUT" [1] ∈ e.outbox

theorem besidePair_role (s : Nat) (h : s ∈ [1, 9, 0x0A, 0x0B]) : BesidePair 0x2100 s := by
  refine ⟨quiet_pair s, by decide, fun both => ?_⟩
  rw [both.2] at h
  exact absurd h (by decide)

theorem claim_claims (free : d.dup.takeIn = false) (cause : Nat) : Claimed d (d.claim cause) cause := by
  obtain ⟨kept, now, dup⟩ := taking_keeps d cause
  have role := (showsRole_setRole (taking d cause) 1 cause).trans (kept_setPair _ 1) besidePair_role
  have shows_ := role.local (local_activated _)
  have state := (local_activated (((taking d cause).setRole 1 cause).setPair 1)).rd (quiet_pair 3) (by decide)
  rw [← claim_eq free] at shows_ state
  exact {
    role := shows_.role
    from_ := shows_.cause
    at_ := by rw [shows_.at_, now]
    count := by rw [shows_.count, kept.rd (besidePair_role _ (by decide)) (by decide)]
    pair := state.trans (pairState_setPair _ 1)
    dup := (dup_of_core shows_.core).trans dup
    pin := shows_.sent.subset (List.mem_append_right _ (List.mem_singleton_self _)) }

theorem Claimed.send {e : Dev} {cause : Nat} (h : Claimed d e cause) (o : Out) : Claimed d (e.send o) cause where
  role := h.role
  from_ := h.from_
  at_ := h.at_
  count := h.count
  pair := h.pair
  dup := h.dup
  pin := List.mem_append_left _ h.pin

theorem askClaim_refused (h : d.standby = false ∨ d.dup.armed = true) : d.askClaim = d.res stWrongState := by
  have refused : (!d.standby || d.dup.armed) = true := by
    obtain h | h := h
    · rw [h]
      rfl
    · rw [h, Bool.or_true]
  exact if_pos refused

theorem askClaim_claims (standby : d.standby = true) (disarmed : d.dup.armed = false) :
    d.askClaim = (d.claim 1).res stOk := by
  refine if_neg ?_
  rw [standby, disarmed]
  decide

/-! ### Releases -/

/-- The partner's claim is seen. -/
def seen (d : Dev) (ignored : Bool) : Dev :=
  d.setDup { d.dup with takeIn := true, takeInAt := d.now + 1, ignored := ignored }

theorem takeInRise_releases (up : d.alive = true) (on : d.pwr.state = 0) (pair : d.duplex = true)
    (role : d.rd 0x2100 1 = 1) (later : d.justNow d.dup.claimAt = false) :
    d.takeInRise = (seen d false).release (seen d false).swapNow := by
  have acts : ¬ (!d.duplex || !d.active || !d.alive) = true := by
    rw [pair, active_of_role role, up]
    decide
  unfold Dev.takeInRise
  extract_lets x e
  have off : ¬ e.pwr.state = 5 := by
    show ¬ d.pwr.state = 5
    omega
  rw [if_neg off]
  refine (if_neg acts).trans (if_neg ?_)
  show ¬ d.justNow d.dup.claimAt = true
  rw [later]
  decide

theorem takeInRise_ignores (up : d.alive = true) (on : d.pwr.state = 0) (pair : d.duplex = true)
    (role : d.rd 0x2100 1 = 1) (soon : d.justNow d.dup.claimAt = true) (p : d.posS = false) :
    d.takeInRise = seen d true := by
  have acts : ¬ (!d.duplex || !d.active || !d.alive) = true := by
    rw [pair, active_of_role role, up]
    decide
  have other : ¬ d.posS = true := by
    rw [p]
    decide
  unfold Dev.takeInRise
  extract_lets x e
  have off : ¬ e.pwr.state = 5 := by
    show ¬ d.pwr.state = 5
    omega
  rw [if_neg off]
  exact (if_neg acts).trans ((if_pos soon).trans (if_neg other))

/-- What the interlock holds once the device has released. -/
def releasedDup (x : DupRt) (stopped swap : Bool) : DupRt :=
  { x with holdOut := x.holdOut && stopped, gated := false, swap := none, armed := false, run := 0
           edge := none, edgeAt := 0, inStep := swap, partnerIn := false, partner := 1 }

/-- A device that has released is standby, and its pair state is READY in a swap and otherwise NOT_READY (R349). -/
structure Released (d e : Dev) (swap : Bool) : Prop where
  role : e.rd 0x2100 1 = 0
  from_ : e.rd 0x2100 0x0A = if swap then 2 else 4
  pair : e.pairState = if swap then 4 else 2
  dup : e.dup = releasedDup d.dup d.guardianStopped swap

theorem release_releases (d : Dev) (swap : Bool) : Released d (d.release swap) swap := by
  unfold Dev.release
  extract_lets x e f g
  have role := (showsRole_setRole e 0 (if swap then 2 else 4)).trans (kept_setPair _ (if swap then 4 else 2))
    besidePair_role
  have ports : Local g (foldNat Dev.standbyPort 16 g).refreshSenders :=
    (Kept.foldNat (fun d p _ => local_standbyPort d p) g).trans (local_refreshSenders _)
  have shows_ := role.local ports
  exact {
    role := shows_.role
    from_ := shows_.cause
    pair := (ports.rd (quiet_pair 3) (by decide)).trans (pairState_setPair _ _)
    dup := dup_of_core shows_.core }

end Sys2Proof.Machine.Interlock

open Sys2Proof.Machine PairCommands Frames Interlock in
/-- Settles O52, by one lemma per event of the interlock; a claim and a release change the role and the pair state, and
then only units outside the pair. -/
theorem theInterlockDecidesTheRole : Obligations.TheInterlockDecidesTheRole := by
  unfold Obligations.TheInterlockDecidesTheRole
  intro s t aon e by_ d x claimed
  have shows_ {y r : Dev} {cause : Nat} (h : Claimed y r cause) (now : y.now = t)
      (count : y.rd 0x2100 0x0B = d.rd 0x2100 0x0B) : claimed { s with dev := r } cause :=
    ⟨rfl, h.role, h.from_, now ▸ h.at_, count ▸ h.count, h.pair, congrArg DupRt.takeOut h.dup,
      congrArg DupRt.armed h.dup, now ▸ congrArg DupRt.claimAt h.dup, now ▸ congrArg DupRt.beatFrom h.dup, h.pin⟩
  refine ⟨?beat, ?edge, ?expiry, ?claim, ?refused, ?takeIn, rfl, ?fall, ?pulse⟩
  case beat =>
    intro alive pair role runs free due edge
    have run : exec (.heartbeat t) s = onGuard t (·.heartbeat) s := by rfl
    rw [run, onGuard_eq, if_pos alive, heartbeat_beats pair role runs free due edge]
    rfl
  case edge =>
    intro alive standby last
    have run : exec (.ilkHoldEdge t aon) s = .next { s with dev := d.holdEdge aon } := by
      have unit : exec (.ilkHoldEdge t aon) s = onGuard t (·.holdEdge aon) s := by rfl
      rw [unit, onGuard_eq, if_pos alive]
    exact ⟨fun low high => by rw [run, holdEdge_inWindow standby last low high]; rfl,
      fun outside => by rw [run, holdEdge_outside standby last outside]; rfl⟩
  case expiry =>
    intro alive standby armed edge due
    have run : exec (.detectorExpiry t) s = .next { s with dev := d.expire } := by
      have unit : exec (.detectorExpiry t) s = onGuard t (·.expire) s := by rfl
      rw [unit, onGuard_eq, if_pos alive]
    refine ⟨fun arming free => ?_, fun arming => ?_⟩
    · rw [expire_eq standby armed edge due, if_pos (.inl arming)] at run
      exact ⟨_, run, shows_ (claim_claims (d := disarmed d) free 3) rfl rfl⟩
    · rw [run, expire_eq standby armed edge due, if_neg (by rw [arming]; omega), arming]
      rfl
  case claim =>
    intro granted standby disarmed free
    exact ⟨_, onCommand_result granted (askClaim_claims standby disarmed), shows_ ((claim_claims free 1).send _) rfl rfl,
      List.getLast?_concat⟩
  case refused =>
    intro granted why
    exact onCommand_result granted (askClaim_refused why)
  case takeIn =>
    intro up on pair role
    have run : exec (.ilkTakeIn t) s = .next { s with dev := d.takeInRise } := by rfl
    refine ⟨fun later => ?_, fun soon p => ?_⟩
    · have h := release_releases (seen d false) (seen d false).swapNow
      rw [← takeInRise_releases up on pair role later] at h
      exact ⟨_, run, rfl, congrArg DupRt.takeIn h.dup, h.role, h.from_, h.pair, congrArg DupRt.holdOut h.dup,
        congrArg DupRt.swap h.dup, congrArg DupRt.gated h.dup⟩
    · rw [run, takeInRise_ignores up on pair role soon p]
      rfl
  case fall =>
    have run : exec (.ilkTakeInFall t) s =
        .next { s with dev := (d.setDup { x with takeIn := false, ignored := false }).refreshOuts } := by rfl
    have dup := refreshOuts_setDup d { x with takeIn := false, ignored := false }
    refine ⟨_, run, rfl, ?_⟩
    dsimp only
    exact dup
  case pulse =>
    intro alive up due
    have run : exec (.claimPulseEnd t) s = onGuard t (fun d =>
        if d.dup.takeOut && decide (d.dup.claimAt - 1 + 1000000 ≤ d.now) then
          (d.setDup { d.dup with takeOut := false }).send (.pin "ILK_TAKE_OUT" [0])
        else d) s := by rfl
    rw [run, onGuard_eq, if_pos alive, if_pos (by rw [up, Bool.true_and]; exact decide_eq_true due)]
    rfl
end

section
/-! O57: calibration campaigns and the storing of the record. -/
namespace Sys2Proof.Machine.Calibration

open EventInputs Frames LongOperations

variable {d : Dev} {k : Nat} {by_ : Requester}

theorem cal_of_core {d e : Dev} (h : settled e = settled d) : e.cal = d.cal := congrArg Settled.cal h

/-! ### The start of a campaign -/

theorem calNext_zero {mask c : Nat} (low : 0 < c) (high : c < 9) (chosen : mask.testBit c = true)
    (first : ∀ j, 0 < j → j < c → mask.testBit j = false) : calNext mask 0 = some c := by
  refine List.find?_range_eq_some.mpr ⟨?_, List.mem_range.mpr high, fun j below => ?_⟩
  · rw [decide_eq_true low, chosen]
    rfl
  · obtain rfl | pos := Nat.eq_zero_or_pos j
    · rfl
    · rw [first j pos below, Bool.and_false]
      rfl

/-- A campaign has started in slot `k`, with its first item and no instance ended (R419). -/
structure Campaign (d : Dev) (k : Nat) (r : Res) : Prop where
  st : r.st = stOk
  slot : r.slot = some k
  running : r.dev.slotState k = 1
  kind : r.dev.rd (0x2080 + k) 1 = 2
  shown : r.dev.rd 0x2340 4 = k
  items : r.dev.cal.items = d.rd 0x2340 1
  done : r.dev.cal.done = []
  itemAt : r.dev.cal.itemAt = d.now
  item : r.dev.cal.item = (calNext (d.rd 0x2340 1) 0).getD 0

/-- The slot of an operation reads as before once another unit shows which one it has. -/
theorem rd_slot_wr {e : Dev} (hk : k < 64) {s j : Nat} (hs : s < 256) (hj : j < 256) (v : Nat) :
    (e.wr 0x2340 s v).rd (0x2080 + k) j = e.rd (0x2080 + k) j :=
  Dev.rd_wr_other e fun eq => by
    have := (regKey_inj hj hs (by decide) (by decide) eq).1
    omega

theorem calStart_starts (hk : k < 64) (free : d.calSlot = none) (some_ : d.rd 0x2340 1 ≠ 0)
    (even : d.rd 0x2340 1 % 2 = 0) (small : d.rd 0x2340 1 < 512) (slot : d.idleSlot = some k) :
    Campaign d k (d.calStart by_) := by
  unfold Dev.calStart
  extract_lets mask total r
  have started : Starts d k 2 r := startLong_starts slot
  have runs : ¬ d.calSlot.isSome = true := by
    rw [free]
    exact Bool.false_ne_true
  rw [if_neg runs, if_neg (by omega), started.slot]
  exact {
    st := started.st
    slot := rfl
    running := (rd_slot_wr hk (by decide) (by decide) _).trans started.running
    kind := (rd_slot_wr hk (by decide) (by decide) _).trans started.kind
    shown := Dev.rd_wr_same _ _ _ _
    items := rfl
    done := rfl
    itemAt := congrArg Settled.now started.kept.core
    item := rfl }

theorem calStart_empty (free : d.calSlot = none) (none_ : d.rd 0x2340 1 = 0) : d.calStart by_ = d.res stRange := by
  unfold Dev.calStart
  extract_lets mask total r
  rw [free]
  exact if_pos (Or.inl none_)

theorem calStart_busy (runs : d.calSlot = some k) : d.calStart by_ = d.res stBusy := by
  unfold Dev.calStart
  extract_lets mask total r
  rw [runs]
  rfl

/-! ### Instances -/

/-- Two runs that agree in every value disagree by nothing. -/
theorem calDisagree_self (l : List Int) : calDisagree l l = 0 := by
  have zeros (l : List Int) (m : Nat) :
      (List.zipWith (fun (a b : Int) => (b - a).natAbs) l l).foldl max m = m := by
    induction l generalizing m with
    | nil => rfl
    | cons a l ih =>
      rw [List.zipWith_cons_cons, List.foldl_cons, Int.sub_self, ih]
      exact Nat.max_eq_left (Nat.zero_le m)
  exact zeros l 0

/-- An instance is accepted as measured in the campaign, and neither the position nor the objects change. -/
structure Accepted (d e : Dev) (item inst : Nat) : Prop where
  outcome : (e.calInst item inst).outcome = 1
  source : (e.calInst item inst).source = 3
  time : (e.calInst item inst).time = d.now
  done : e.cal.done = d.cal.done
  item : e.cal.item = d.cal.item
  regs : e.regs = d.regs

theorem calInst_setCalInst (d : Dev) (item inst : Nat) (x : CalInst) :
    (d.setCalInst item inst x).calInst item inst = x := Tab.getD_setD_same _ _ _ _

/-- The device before an instance is taken over may hold one more trimmed group. -/
theorem accepted_of_trimmed {f : Dev} (kept : ∃ l, f = { d with cal := { d.cal with trimmed := l } }) (item inst : Nat)
    (drift : Int) (values : List Int) :
    Accepted d (f.setCalInst item inst { source := 3, outcome := 1, drift := drift, time := f.now, values := values })
      item inst := by
  obtain ⟨l, rfl⟩ := kept
  constructor
  case outcome => rw [calInst_setCalInst]
  case source => rw [calInst_setCalInst]
  case time => rw [calInst_setCalInst]
  all_goals rfl

theorem calMeasured_agreeing {item : Nat} (h : item < 8) (inst : Nat) (run : List Int) :
    ∃ e, d.calMeasured true ⟨item, inst, run, run⟩ false = (e, true) ∧
      Accepted d e item inst := by
  have other : item ≠ 8 := by omega
  unfold Dev.calMeasured
  extract_lets n pick at_ worst x new _ f _ g
  have agree : ¬ (false || decide (calTolerance item < worst)) = true := by
    rw [show worst = 0 from calDisagree_self _]
    simp
  rw [if_neg agree]
  have same : g = f := if_neg other
  have kept : ∃ l, f = { d with cal := { d.cal with trimmed := l } } := by
    by_cases trims : item = 7 ∧ new ≠ x.values ∧ true = true
    · exact ⟨_, (if_neg other).trans (if_pos trims)⟩
    · exact ⟨d.cal.trimmed, (if_neg other).trans (if_neg trims)⟩
  rw [same]
  exact ⟨_, rfl, accepted_of_trimmed kept item inst _ _⟩

/-- The campaign goes on with the same item after an instance that was not its last. -/
theorem calEnded_goesOn (d : Dev) (k inst : Nat) (more : d.cal.done.length + 1 < calCount d.cal.item) :
    d.calEnded k inst = { d.setPosition k (d.rd (0x2080 + k) 4 + 1) with
      cal := { d.cal with done := d.cal.done ++ [inst] } } := by
  refine if_pos ?_
  rw [List.length_append]
  exact more

/-- The end of an instance with record `x` in a campaign that goes on with the same item. -/
structure Ended (d e : Dev) (k item inst : Nat) (x : CalInst) : Prop where
  shown : e.calInst item inst = x
  done : e.cal.done = d.cal.done ++ [inst]
  item : e.cal.item = d.cal.item
  position : e.rd (0x2080 + k) 4 = d.rd (0x2080 + k) 4 + 1
  skipped : e.cal.skipped = d.cal.skipped

theorem calEnded_ends (d : Dev) (k item inst : Nat) (more : d.cal.done.length + 1 < calCount d.cal.item) :
    Ended d (d.calEnded k inst) k item inst (d.calInst item inst) := by
  rw [calEnded_goesOn d k inst more]
  exact {
    shown := rfl
    done := rfl
    item := rfl
    position := (rd_setPosition d k _ 4).trans (if_neg (by decide))
    skipped := rfl }

/-- The interruption of an instance is sent out, and may note the group of its window. -/
theorem calInterrupt_eq (d : Dev) (item inst : Nat) (idle : Bool) :
    ∃ o g, d.calInterrupt item inst idle = { d with outbox := o, cal := { d.cal with groups := g } } := by
  unfold Dev.calInterrupt
  extract_lets b
  split
  · exact ⟨_, _, rfl⟩
  · split
    · exact ⟨_, _, rfl⟩
    · split
      · exact ⟨_, _, rfl⟩
      · split
        · split
          · exact ⟨_, _, rfl⟩
          · exact ⟨_, _, rfl⟩
        · exact ⟨_, _, rfl⟩

theorem item_of_calWaits {item inst : Nat} (h : d.calWaits item inst = true) : d.cal.item = item := by
  simp only [Dev.calWaits, Bool.and_eq_true, beq_iff_eq] at h
  exact h.1.1

/-- An instance has ended, the campaign stays with its item, and the position has moved by one. -/
structure Passed (d e : Dev) (k item inst : Nat) : Prop where
  done : e.cal.done = d.cal.done ++ [inst]
  item : e.cal.item = item
  position : e.rd (0x2080 + k) 4 = d.rd (0x2080 + k) 4 + 1

theorem calRun_eq {item inst : Nat} {idle : Bool} (slot : d.calSlot = some k)
    (going : (d.longOp k).abortAsked = false) (waits : d.calWaits item inst = true) (held : d.bankHeld 7 = false)
    (window : d.calWindow item inst idle = true) (h : item < 8) {run : List Int} {e : Dev}
    (measured : (d.calInterrupt item inst idle).calMeasured true ⟨item, inst, run, run⟩ false = (e, true)) :
    d.calRun ⟨item, inst, run, run⟩ idle = e.calEnded k inst := by
  have calm : (item == 8 && !d.surfaceCalm inst) = false := by
    rw [beq_false_of_ne (by omega : item ≠ 8), Bool.false_and]
  unfold Dev.calRun
  rw [slot]
  dsimp only
  rw [held, going, waits, window, if_neg (by decide), calm, measured]
  rfl

theorem calRun_accepts {item inst : Nat} {idle : Bool} (slot : d.calSlot = some k)
    (going : (d.longOp k).abortAsked = false) (waits : d.calWaits item inst = true)
    (more : d.cal.done.length + 1 < calCount item) (held : d.bankHeld 7 = false)
    (window : d.calWindow item inst idle = true) (h : item < 8) (run : List Int) :
    Passed d (d.calRun ⟨item, inst, run, run⟩ idle) k item inst ∧
      ((d.calRun ⟨item, inst, run, run⟩ idle).calInst item inst).outcome = 1 ∧
      ((d.calRun ⟨item, inst, run, run⟩ idle).calInst item inst).source = 3 ∧
      ((d.calRun ⟨item, inst, run, run⟩ idle).calInst item inst).time = d.now := by
  obtain ⟨o, g, started⟩ := calInterrupt_eq d item inst idle
  obtain ⟨e, measured, accepted⟩ := calMeasured_agreeing (d := d.calInterrupt item inst idle) h inst run
  rw [calRun_eq slot going waits held window h measured]
  rw [started] at accepted
  have same : e.cal.item = item := accepted.item.trans (item_of_calWaits waits)
  have done : e.cal.done = d.cal.done := accepted.done
  have ended := calEnded_ends e k item inst (by rw [same, done]; exact more)
  have regs : e.rd (0x2080 + k) 4 = d.rd (0x2080 + k) 4 := Dev.rd_congr accepted.regs _ _
  rw [ended.shown]
  exact ⟨⟨by rw [ended.done, done], ended.item.trans same, by rw [ended.position, regs]⟩, accepted.outcome,
    accepted.source, accepted.time⟩

/-- An instance that is skipped. -/
def skipped (d : Dev) (item inst : Nat) : Dev :=
  (d.setCalInst item inst { d.calInst item inst with outcome := 3 }).raise uCal 0x1303
    (item * 256 + inst) (if item ≠ 3 ∧ d.calMay item inst then 1 else 2) sevInfo

/-- The campaign has skipped an instance. -/
def noteSkip (d : Dev) : Dev := { d with cal := { d.cal with skipped := true } }

theorem noteSkip_calInst (d : Dev) (item inst : Nat) : (noteSkip d).calInst item inst = d.calInst item inst := rfl

theorem noteSkip_done (d : Dev) : (noteSkip d).cal.done = d.cal.done := rfl

theorem noteSkip_item (d : Dev) : (noteSkip d).cal.item = d.cal.item := rfl

theorem noteSkip_rd (d : Dev) (i s : Nat) : (noteSkip d).rd i s = d.rd i s := rfl

theorem calSkip_eq {item inst : Nat} (slot : d.calSlot = some k) (going : (d.longOp k).abortAsked = false)
    (waits : d.calWaits item inst = true) (late : d.cal.itemAt + d.rd 0x2340 6 * 1000000000 ≤ d.now) :
    d.calSkip item inst = (noteSkip (skipped d item inst)).calEnded k inst := by
  unfold Dev.calSkip
  rw [slot]
  dsimp -zeta only
  rw [going, waits, if_neg (by simpa using late)]
  extract_lets x e
  have named : e = skipped d item inst := rfl
  clear_value e
  rw [← named]
  rfl

theorem skipped_keeps (d : Dev) (item inst : Nat) : (skipped d item inst).cal =
    (d.setCalInst item inst { d.calInst item inst with outcome := 3 }).cal := cal_of_core (local_raise _ _ _ _ _ _).core

theorem rd_skipped (d : Dev) (hk : k < 64) (item inst : Nat) {s : Nat} (hs : s < 256) :
    (skipped d item inst).rd (0x2080 + k) s = d.rd (0x2080 + k) s :=
  (local_raise _ _ _ _ _ _).rd ⟨by omega, .inr (by omega)⟩ hs

theorem calSkip_skips {item inst : Nat} (hk : k < 64) (slot : d.calSlot = some k)
    (going : (d.longOp k).abortAsked = false) (waits : d.calWaits item inst = true)
    (more : d.cal.done.length + 1 < calCount item) (late : d.cal.itemAt + d.rd 0x2340 6 * 1000000000 ≤ d.now) :
    Passed d (d.calSkip item inst) k item inst ∧ ((d.calSkip item inst).calInst item inst).outcome = 3 ∧
      (d.calSkip item inst).cal.skipped = true := by
  have cal := skipped_keeps d item inst
  have same : (skipped d item inst).cal.item = item := by
    rw [cal]
    exact item_of_calWaits waits
  have done : (skipped d item inst).cal.done = d.cal.done := by
    rw [cal]
    rfl
  have shown : (skipped d item inst).calInst item inst = { d.calInst item inst with outcome := 3 } := by
    rw [Dev.calInst, cal]
    exact Tab.getD_setD_same _ _ _ _
  rw [calSkip_eq slot going waits late]
  have ended := calEnded_ends (noteSkip (skipped d item inst)) k item inst
    (by rw [noteSkip_item, noteSkip_done, same, done]; exact more)
  refine ⟨⟨?_, ?_, ?_⟩, ?_, ended.skipped⟩
  · rw [ended.done, noteSkip_done, done]
  · rw [ended.item, noteSkip_item, same]
  · rw [ended.position, noteSkip_rd, rd_skipped d hk item inst (by decide)]
  · rw [ended.shown, noteSkip_calInst, shown]

/-! ### The storing of the record -/

/-- The writing of the record has started in slot `k` (R422). -/
structure Stores (d : Dev) (k : Nat) (r : Res) : Prop where
  st : r.st = stOk
  slot : r.slot = some k
  running : r.dev.slotState k = 1
  kind : r.dev.rd (0x2080 + k) 1 = 4
  shown : r.dev.rd 0x2340 5 = k
  flash : r.dev.flash = d.flash

theorem calStore_starts (hk : k < 64) (n4 : d.slotOfKind 4 = none) (n5 : d.slotOfKind 5 = none)
    (n9 : d.slotOfKind 9 = none) (slot : d.idleSlot = some k) : Stores d k (d.calStore by_) := by
  unfold Dev.calStore
  extract_lets count b r
  have started : Starts d k 4 r := startLong_starts slot
  rw [n4, n5, n9, if_neg (by decide), started.slot]
  exact {
    st := started.st
    slot := rfl
    running := (rd_slot_wr hk (by decide) (by decide) _).trans started.running
    kind := (rd_slot_wr hk (by decide) (by decide) _).trans started.kind
    shown := Dev.rd_wr_same _ _ _ _
    flash := congrArg Settled.flash started.kept.core }

theorem calStore_busy (h : d.slotOfKind 4 ≠ none ∨ d.slotOfKind 5 ≠ none ∨ d.slotOfKind 9 ≠ none) :
    d.calStore by_ = d.res stBusy := if_pos h

end Sys2Proof.Machine.Calibration

open Sys2Proof.Machine PairCommands Frames Calibration in
/-- Settles O57: the start and the store begin a long operation, and an instance that is taken or skipped moves the
position of the campaign by one. -/
theorem calibrationCommandsComplete : Obligations.CalibrationCommandsComplete := by
  unfold Obligations.CalibrationCommandsComplete
  intro s t k item inst by_ run idle d mask x hk
  refine ⟨fun granted => ⟨?starts, ?empty, ?busy⟩, fun up slot going waits more => ⟨?taken, ?skips⟩,
    fun granted => ⟨?stores, ?storeBusy⟩⟩
  case starts =>
    intro free some_ even small slot
    have h := calStart_starts (by_ := by_) hk free some_ even small slot
    have act : exec (.calStartCampaign t by_) s =
        .next { s with dev := (d.calStart by_).dev.send (.answer by_ (d.calStart by_).st (d.calStart by_).slot) } :=
      onCommand_granted (eff := (·.calStart by_)) granted
    rw [h.st, h.slot] at act
    refine ⟨_, act, rfl, h.running, h.kind, h.shown, h.items, h.done, h.itemAt, List.getLast?_concat, ?_⟩
    intro c low high chosen first
    exact h.item.trans (congrArg (·.getD 0) (calNext_zero low high chosen first))
  case empty =>
    intro free none_
    exact onCommand_result (eff := (·.calStart by_)) granted (calStart_empty free none_)
  case busy =>
    intro runs
    exact onCommand_result (eff := (·.calStart by_)) granted (calStart_busy runs)
  case taken =>
    intro held window low high
    have act : exec (.calInstance t item inst run run idle) s = onDev t (·.calRun ⟨item, inst, run, run⟩ idle) s := by rfl
    obtain ⟨passed, outcome, source, time⟩ := calRun_accepts slot going waits more held window high run
    rw [act, onDev_alive up]
    exact ⟨_, rfl, rfl, outcome, source, time, passed.done, passed.item, passed.position⟩
  case skips =>
    intro late
    have act : exec (.calSkipped t item inst) s = onDev t (·.calSkip item inst) s := by rfl
    obtain ⟨passed, outcome, skipped⟩ := calSkip_skips hk slot going waits more late
    rw [act, onDev_alive up]
    refine ⟨_, rfl, rfl, ?_⟩
    dsimp only
    exact ⟨outcome, skipped, passed.done, passed.item, passed.position⟩
  case stores =>
    intro n4 n5 n9 slot
    have h := calStore_starts (by_ := by_) hk n4 n5 n9 slot
    have act : exec (.calStoreRecord t by_) s =
        .next { s with dev := (d.calStore by_).dev.send (.answer by_ (d.calStore by_).st (d.calStore by_).slot) } :=
      onCommand_granted (eff := (·.calStore by_)) granted
    rw [h.st, h.slot] at act
    exact ⟨_, act, rfl, h.flash, h.running, h.kind, h.shown, List.getLast?_concat⟩
  case storeBusy =>
    intro runs
    exact onCommand_result (eff := (·.calStore by_)) granted (calStore_busy runs)
end

section
/-! The ring to the partner: what its loss or return, and the state of a ring side, leave alone. -/
namespace Sys2Proof.Machine.RingLinks

open EventInputs Frames LongOperations PairRoles

/-- The settled records but for the pair's own. -/
def apart (d : Dev) : Settled := { settled d with dup := {} }

/-- The objects outside the units, beside long operations and what the pair shows of its state and comparisons. -/
def BesideLink (i s : Nat) : Prop := BesidePair i s ∧ ¬ (i = 0x2100 ∧ s = 0x0E)

variable {d e : Dev}

theorem kept_of_local (h : Local d e) : Kept apart BesideLink d e :=
  (h.map fun x => { x with dup := {} }).mono fun _ _ h => h.1.1

theorem kept_of_pair (h : Kept settled BesidePair d e) : Kept apart BesideLink d e :=
  (h.map fun x => { x with dup := {} }).mono fun _ _ h => h.1

theorem kept_setDup (d : Dev) (x : DupRt) : Kept apart BesideLink d (d.setDup x) := Kept.of_eq rfl rfl rfl

theorem local_setByte56 (d : Dev) (i chunk at_ n v count : Nat) : Local d (d.setByte56 i chunk at_ n v count) := by
  unfold Dev.setByte56
  exact Kept.ite (Kept.of_eq rfl rfl rfl) (Kept.refl d)

theorem kept_notCompared (d : Dev) (r : CompareRec) : Kept apart BesideLink d (d.notCompared r) := by
  unfold Dev.notCompared
  split
  next kind n count h =>
  have result : Kept apart BesideLink d (d.setResult kind n count 4) :=
    kept_of_local (Kept.ite (local_setByte56 _ _ _ _ _ _ _) (local_setByte56 _ _ _ _ _ _ _))
  refine Kept.ite (Kept.refl d) (Kept.ite (result.trans ?_) result)
  exact Kept.wrf rfl (by decide) (by decide) fun h => h.2 ⟨rfl, rfl⟩

theorem kept_swapFailed (d : Dev) (reason tick : Nat) : Kept apart BesideLink d (d.swapFailed reason tick) :=
  kept_of_local (local_raise _ _ _ _ _ _)

theorem kept_pairLost (d : Dev) (side : Nat) : Kept apart BesideLink d (d.pairLost side) := by
  unfold Dev.pairLost
  extract_lets a own _ b _ c _ x _ y z
  have told : Kept apart BesideLink d a := kept_of_local (local_raise _ _ _ _ _ _)
  have records : Kept apart BesideLink a b :=
    (kept_setDup a _).trans (Kept.foldl (fun d e _ => kept_notCompared d e.1) _)
  have swap : Kept apart BesideLink b c := by
    unfold c
    split
    · exact ((kept_setDup _ _).trans (kept_of_local (local_refreshSenders _))).trans (kept_swapFailed _ _ _)
    · exact Kept.refl b
  have asked : Kept apart BesideLink c x := by
    unfold x
    split
    · exact (kept_setDup _ _).trans (kept_swapFailed _ _ _)
    · exact Kept.refl c
  have ends : Kept apart BesideLink x z := (kept_setDup x _).trans (kept_of_pair (kept_resyncFail _ _))
  exact (((told.trans records).trans swap).trans asked).trans
    (ends.trans (Kept.ite (kept_of_pair (kept_setPair _ _)) (Kept.refl z)))

theorem kept_refreshLink (d : Dev) (side : Nat) : Kept apart BesideLink d (d.refreshLink side) := by
  unfold Dev.refreshLink
  extract_lets up lost f
  exact Kept.ite (Kept.refl d) ((kept_setDup d _).trans
    (Kept.ite (kept_pairLost _ _) (kept_of_local (local_toPartner _ _ _))))

/-! ### Ring sides -/

/-- As `BesideLink`, and beside the object of a ring side. -/
def BesideSide (s i r : Nat) : Prop := BesideLink i r ∧ i ≠ sideIdx s

theorem kept_side_wr (d : Dev) (s v : Nat) {r : Nat} (hr : r < 256) : Kept apart (BesideSide s) d (d.wr (sideIdx s) r v) :=
  Kept.wrf rfl hr (by decide) fun h => h.2 rfl

theorem kept_sideTo (d : Dev) (s st : Nat) : Kept apart (BesideSide s) d (d.sideTo s st) := by
  have less : ∀ i r, BesideSide s i r → BesideLink i r := fun _ _ h => h.1
  exact Kept.ite (Kept.refl d) ((kept_side_wr d s st (by decide)).trans
    (Kept.ite ((kept_of_local (local_raise _ _ _ _ _ _)).mono less) ((kept_of_local (local_event _ _ _ _ _)).mono less)))

/-- The object of a ring side lies outside what a lost or found partner touches. -/
theorem besideLink_side {s : Nat} (hs : s < 2) (r : Nat) : BesideLink (sideIdx s) r := by
  simp only [BesideLink, BesidePair, Quiet, sideIdx]
  omega

theorem kept_searchSide (d : Dev) (s : Nat) : Kept apart (BesideSide s) d (d.searchSide s) :=
  ((kept_side_wr d s 0 (by decide)).trans (kept_sideTo _ _ _)).trans
    ((kept_refreshLink _ _).mono fun _ _ h => h.1)

theorem sideState_sideTo (d : Dev) {s : Nat} (hs : s < 2) (st : Nat) : (d.sideTo s st).sideState s = st := by
  have quiet : Quiet (sideIdx s) 1 := (besideLink_side hs 1).1.1
  unfold Dev.sideTo
  split
  · assumption
  · split
    · rw [Dev.sideState, (local_raise _ _ _ _ _ _).rd quiet (by decide), Dev.rd_wr_same]
    · rw [Dev.sideState, (local_event _ _ _ _ _).rd quiet (by decide), Dev.rd_wr_same]

theorem rd_sideTo_lanes (d : Dev) {s : Nat} (hs : s < 2) (st : Nat) :
    (d.sideTo s st).rd (sideIdx s) 3 = d.rd (sideIdx s) 3 := by
  have quiet : Quiet (sideIdx s) 3 := (besideLink_side hs 3).1.1
  unfold Dev.sideTo
  split
  · rfl
  · split
    · rw [(local_raise _ _ _ _ _ _).rd quiet (by decide), rd_wr_sub _ _ _ (by decide)]
    · rw [(local_event _ _ _ _ _).rd quiet (by decide), rd_wr_sub _ _ _ (by decide)]

/-- A side that searches is ALIGNING, with no lane in use (R373). -/
theorem searchSide_aligns (d : Dev) {s : Nat} (hs : s < 2) :
    (d.searchSide s).sideState s = 1 ∧ (d.searchSide s).rd (sideIdx s) 3 = 0 := by
  have kept := kept_refreshLink ((d.wr (sideIdx s) 3 0).sideTo s 1) s
  exact ⟨(kept.rd (besideLink_side hs 1) (by decide)).trans (sideState_sideTo _ hs 1),
    ((kept.rd (besideLink_side hs 3) (by decide)).trans (rd_sideTo_lanes _ hs 1)).trans (Dev.rd_wr_same _ _ _ _)⟩

end Sys2Proof.Machine.RingLinks
end

section
/-! O56: the commands of the ring, urgent broadcasts, table changes and snapshots. -/
namespace Sys2Proof.Machine.RingCommands

open EventInputs Frames LongOperations PairRoles RingLinks Firmware

variable {d : Dev}

/-- A granted write of a command object that answers with a status and shows no long operation. -/
theorem onCommand_res {t : Nat} {by_ : Requester} {i sub : Nat} {data : List Byte} {eff : Dev → Res} {s : State}
    {e : Dev} {st : Nat} (granted : (s.found t).grants by_ i sub data) (effect : eff (s.found t) = e.res st) :
    onCommand t by_ (fun d => d.command by_ i sub data eff) s =
      .next { s with dev := e.send (.answer by_ st none) } := PairCommands.onCommand_result granted effect

/-! ### Broadcasts and realignment -/

/-- Where the two realigned sides stand, and what is left alone. -/
structure Realigned (d e : Dev) : Prop where
  east : e.sideState 0 = 1
  west : e.sideState 1 = 1
  eastLanes : e.rd (sideIdx 0) 3 = 0
  westLanes : e.rd (sideIdx 1) 3 = 0
  ring : e.ring = d.ring
  sent : d.outbox <+: e.outbox

theorem ring_of_kept {K : Nat → Nat → Prop} {e : Dev} (h : Kept apart K d e) : e.ring = d.ring :=
  congrArg Settled.ring h.core

theorem realign_aligns (on : d.ringOn = true) : Realigned d d.realign := by
  have first := kept_searchSide d 0
  have second := kept_searchSide (d.searchSide 0) 1
  have other : BesideSide 1 (sideIdx 0) 1 ∧ BesideSide 1 (sideIdx 0) 3 :=
    ⟨⟨besideLink_side (by decide) 1, by decide⟩, besideLink_side (by decide) 3, by decide⟩
  rw [Dev.realign, if_pos on]
  exact {
    east := (second.rd other.1 (by decide)).trans (searchSide_aligns d (by decide)).1
    west := (searchSide_aligns _ (by decide)).1
    eastLanes := (second.rd other.2 (by decide)).trans (searchSide_aligns d (by decide)).2
    westLanes := (searchSide_aligns _ (by decide)).2
    ring := (ring_of_kept second).trans (ring_of_kept first)
    sent := first.sent.trans second.sent }

theorem broadcast_eq (on : d.ringOn = true) (kind : Nat) (body : List Byte) :
    d.broadcast kind body = (d.toRing "urgent-east" (urgentMessage kind d.node' body)).toRing "urgent-west"
      (urgentMessage kind d.node' body) := if_pos on

/-- A broadcast is what a device sends first. -/
theorem take_broadcast {e : Dev} (silent : d.outbox = []) (on : d.ringOn = true) {kind : Nat} {body : List Byte}
    (sent : (d.broadcast kind body).outbox <+: e.outbox) : e.outbox.take 2 =
      [.ring "urgent-east" (urgentMessage kind d.node' body), .ring "urgent-west" (urgentMessage kind d.node' body)] := by
  rw [broadcast_eq on] at sent
  have two : (d.outbox ++ [Out.ring "urgent-east" (urgentMessage kind d.node' body)]) ++
      [.ring "urgent-west" (urgentMessage kind d.node' body)] <+: e.outbox := sent
  rw [silent] at two
  exact (List.prefix_iff_eq_take.mp two).symm

theorem broadcast_ringOn (on : d.ringOn = true) (kind : Nat) (body : List Byte) :
    (d.broadcast kind body).ringOn = true := by
  rw [broadcast_eq on]
  exact on

theorem urgentEvent_regs (on : d.ringOn = true) (kind : Nat) (body : List Byte) (node : Nat) (b : List Byte) :
    ((d.broadcast kind body).urgentEvent node b).regs = d.regs := by
  have told : ((d.broadcast kind body).urgentEvent node b).regs = (d.broadcast kind body).regs :=
    FabricAccesses.regs_of_mute (AudioStreams.mute_event _ _ _ _ _)
  rw [told, broadcast_eq on]
  rfl

/-! ### Urgent blocks -/

theorem urgentAct_keeps (d : Dev) (m : List Byte) :
    Kept (fun d => d.ring.urgent) (fun _ _ => False) d (d.urgentAct m) := by
  have search (d : Dev) (s : Nat) : Kept (fun d => d.ring.urgent) (fun _ _ => False) d (d.searchSide s) :=
    ((kept_searchSide d s).map (·.ring.urgent)).mono fun _ _ h => h.elim
  have named (d : Dev) (s : Nat) (x : SideRt) :
      Kept (fun d => d.ring.urgent) (fun _ _ => False) d (d.setSide s x) := Kept.of_eq rfl rfl rfl
  unfold Dev.urgentAct
  split
  · exact Kept.ite ((search d 0).trans (search _ 1)) (Kept.refl d)
  · exact ((local_event _ _ _ _ _).map (·.ring.urgent)).mono fun _ _ h => h.elim
  · exact Kept.foldNat (fun d s _ => Kept.ite (named d s _) (Kept.refl d)) d
  · exact Kept.refl d

theorem urgentAct_notify (d : Dev) {m : List Byte} (kind : byteAt m 0 = 2) :
    d.urgentAct m = d.urgentEvent (byteAt m 1) (slice m 16 16) := by
  unfold Dev.urgentAct
  rw [kind]
  rfl

/-- A block is counted, sent on, and remembered as met now. -/
def sentOn (d : Dev) (s : Nat) (m : List Byte) : Dev :=
  let e := (d.incf (sideIdx s) 7 5).toRing (if s = 1 then "urgent-east" else "urgent-west") m
  { e with ring := { e.ring with urgent := (m, e.now + 1) } }

section
variable {s : Nat} {copies : List (List Byte)} {m : List Byte}

theorem urgentBlock_own (runs : 2 ≤ d.sideState s) (agree : agreed copies = some m) (own : byteAt m 1 = d.node') :
    d.urgentBlock s copies = d.incf (sideIdx s) 7 5 := by
  have up : ¬ (!d.sideRuns s) = true := by
    rw [Dev.sideRuns, decide_eq_true runs]
    decide
  unfold Dev.urgentBlock
  rw [if_neg up, agree]
  exact if_pos own

theorem urgentBlock_other (runs : 2 ≤ d.sideState s) (agree : agreed copies = some m) (other : byteAt m 1 ≠ d.node') :
    d.urgentBlock s copies = sentOn d s m ∨ d.urgentBlock s copies = (sentOn d s m).urgentAct m := by
  have up : ¬ (!d.sideRuns s) = true := by
    rw [Dev.sideRuns, decide_eq_true runs]
    decide
  unfold Dev.urgentBlock
  rw [if_neg up, agree]
  dsimp -zeta only
  extract_lets e f seen _ g
  have elsewhere : ¬ byteAt m 1 = e.node' := other
  rw [if_neg elsewhere]
  obtain again | first := Bool.eq_false_or_eq_true seen
  · exact .inl (if_pos again)
  · exact .inr (if_neg (by rw [first]; decide))

/-- A block of another node that has been met: it is sent on at once, and a notification leaves the count alone. -/
structure Met (d e : Dev) (s : Nat) (m : List Byte) : Prop where
  urgent : e.ring.urgent = (m, d.now + 1)
  sent : d.outbox ++ [.ring (if s = 1 then "urgent-east" else "urgent-west") m] <+: e.outbox
  count : byteAt m 0 = 2 → e.rdf (sideIdx s) 7 5 = (d.rdf (sideIdx s) 7 5 + 1) % 2 ^ 64

theorem met_sentOn (d : Dev) (s : Nat) (m : List Byte) : Met d (sentOn d s m) s m where
  urgent := rfl
  sent := List.prefix_refl _
  count _ := Dev.rdf_wrf_same d _ _ _ _

theorem urgentBlock_meets (hs : s < 2) (runs : 2 ≤ d.sideState s) (agree : agreed copies = some m)
    (other : byteAt m 1 ≠ d.node') : Met d (d.urgentBlock s copies) s m := by
  have before := met_sentOn d s m
  obtain h | h := urgentBlock_other runs agree other
  · rw [h]
    exact before
  · have kept := urgentAct_keeps (sentOn d s m) m
    rw [h]
    refine ⟨kept.core.trans before.urgent, before.sent.trans kept.sent, fun kind => ?_⟩
    rw [urgentAct_notify _ kind, ← before.count kind]
    exact (local_event _ _ _ _ _).num _ _ _ (besideLink_side hs 7).1.1 (by decide) (by decide)

end

/-! ### Table changes -/

section
variable {r k : Nat}

theorem ringTickStatus_inTime (near : d.now + 2000000 ≤ k * 1048576) (far : k * 1048576 ≤ d.now + 600000000000) :
    d.ringTickStatus k = stOk := by
  unfold Dev.ringTickStatus ringTickAt
  rw [if_neg (by omega), if_neg (by omega)]

theorem changeTable_length (short : (d.rdd (0x2120 + r) 2).length ≠ 1040) :
    d.changeTable r k = (d.tableStatus r stRange 0 0).res stRange := if_pos short

/-- The device that holds a changed table for its tick, and has distributed it. -/
def holding (d : Dev) (r k : Nat) (tab : List Byte) : Dev :=
  ({ d with ring := { d.ring with tables := Tab.setD d.ring.tables r (k + 1, tab) (0, []) } } : Dev).toRing
    "slot-table" (leBytes 1 r ++ leBytes 8 k ++ tab)

theorem changeTable_held (whole : (d.rdd (0x2120 + r) 2).length = 1040) (timed0 : d.timedIn (d.nextTable 0) = true)
    (timed1 : d.timedIn (d.nextTable 1) = true) (inTime : d.ringTickStatus k = stOk)
    (sound : d.tableFault r (d.rdd (0x2120 + r) 2) = none) :
    d.changeTable r k = ((holding d r k (d.rdd (0x2120 + r) 2)).tableStatus r stOk 0 0).res stOk := by
  unfold Dev.changeTable
  extract_lets tab late refuse _ e f
  have flows : ¬ (d.ringOn && decide (1 < d.rd 0x2110 4) &&
      !(d.timedIn (d.nextTable 0) && d.timedIn (d.nextTable 1))) = true := by
    rw [timed0, timed1, Bool.and_self, Bool.not_true, Bool.and_false]
    decide
  rw [if_neg (not_not_intro whole), if_neg flows, if_neg (not_not_intro inTime), sound]
  rfl

theorem held_tables (d : Dev) (r k : Nat) (tab : List Byte) : Tab.getD ((holding d r k tab).tableStatus r stOk 0 0).ring.tables
    r (0, []) = (k + 1, tab) := Tab.getD_setD_same d.ring.tables r (k + 1, tab) (0, [])

theorem held_outbox (d : Dev) (r k : Nat) (tab : List Byte) : ((holding d r k tab).tableStatus r stOk 0 0).outbox =
    d.outbox ++ [.ring "slot-table" (leBytes 1 r ++ leBytes 8 k ++ tab)] := rfl

theorem byteAt_tableStatus (d : Dev) (r : Nat) {st : Nat} (hst : st < 256) (node ls : Nat) :
    byteAt ((d.tableStatus r st node ls).rdd (0x2120 + r) 4) 0 = st := by
  rw [Dev.tableStatus, Dev.rdd_wrd_same]
  exact Nat.mod_eq_of_lt hst

theorem sharedEntries_nil : sharedEntries [] = [] := rfl

theorem changeShared_empty (flows : d.timedFlows = true) (none_ : d.rdd 0x2122 1 = [])
    (inTime : d.ringTickStatus k = stOk) : d.changeShared k =
      (({ d with fresh := d.fresh + 1, ring := { d.ring with shared := some (k, []) } } : Dev).send
        (.ring "shared-sources" (leBytes 8 k))).res stOk := by
  unfold Dev.changeShared
  rw [none_]
  unfold Dev.free
  have timed : ¬ (!d.timedFlows) = true := by
    rw [flows]
    decide
  have good : ¬ (64 < (sharedEntries []).length ∨ ([] : List Byte).length % 8 ≠ 0 ∨
      (sharedEntries []).any (d.badShared (Config.freeNat d.fresh)) = true) := by
    rw [sharedEntries_nil]
    simp
  refine (if_neg timed).trans ((if_neg (not_not_intro inTime)).trans ((if_neg good).trans ?_))
  rw [List.append_nil]
  rfl

end

/-! ### Snapshots -/

/-- A device but for the peaks it has kept. -/
def flat (d : Dev) : Dev := { d with peak := [] }

theorem flat_keepPeaks (d : Dev) : flat d.keepPeaks = flat d := by
  unfold Dev.keepPeaks
  extract_lets c ds
  refine Is05.foldl_keeps flat _ (fun e x => ?_) _ _
  dsimp only
  split <;> rfl

theorem regs_of_flat {d e : Dev} (h : flat d = flat e) : d.regs = e.regs := by
  have same := congrArg Dev.regs h
  exact same

theorem doms_of_flat {d e : Dev} (h : flat d = flat e) : d.doms = e.doms := by
  have same := congrArg Dev.doms h
  exact same

theorem ring_of_flat {d e : Dev} (h : flat d = flat e) : d.ring = e.ring := by
  have same := congrArg Dev.ring h
  exact same

/-- A snapshot is scheduled, with nothing exported yet (R388). -/
structure Scheduled (e : Dev) (at_ : Nat) : Prop where
  at_ : e.ring.snapAt = some at_
  state : e.rd 0x2130 3 = 1
  latch : e.rdd 0x2130 6 = []

theorem Scheduled.send {e : Dev} {at_ : Nat} (h : Scheduled e at_) (o : Out) : Scheduled (e.send o) at_ :=
  ⟨h.at_, h.state, h.latch⟩

theorem scheduleSnapshot_schedules (d : Dev) (by_ : Requester) (at_ : Nat) :
    Scheduled (d.scheduleSnapshot by_ at_) at_ := by
  unfold Dev.scheduleSnapshot
  extract_lets e _ f
  refine ⟨?_, ?_, ?_⟩
  · rw [ring_of_flat (flat_keepPeaks _)]
    rfl
  · rw [Dev.rd_congr (regs_of_flat (flat_keepPeaks _)), Dev.rd_congr (Dev.wrd_regs _ _ _ _)]
    exact Dev.rd_wr_same f _ _ _
  · rw [rdd_of_doms (doms_of_flat (flat_keepPeaks _))]
    exact Dev.rdd_wrd_same (f.wr 0x2130 3 1) _ _ _

theorem askSnapshot_schedules (by_ : Requester) (flows : d.timedFlows = true) (fits : d.snapshotFits = true)
    (inTime : d.now + 2000000 ≤ ofTime48 (d.rd 0x2130 1)) : d.askSnapshot by_ =
      ((d.scheduleSnapshot by_ (ofTime48 (d.rd 0x2130 1))).toRing "snapshot"
        (time48Bytes (ofTime48 (d.rd 0x2130 1)))).res stOk := by
  unfold Dev.askSnapshot
  extract_lets at_
  have late : ¬ at_ < d.now + 2000000 := Nat.not_lt.mpr inTime
  rw [flows, fits, if_neg (by decide), if_neg late, if_neg (by decide)]

/-! ### Exports -/

theorem doms_of_mute {d e : Dev} (h : mute d = mute e) : d.doms = e.doms := by
  have same := congrArg Dev.doms h
  exact same

theorem progress_doms (d : Dev) (k : Nat) : (d.progress k).doms = d.doms := by
  refine (Is05.foldl_keeps Dev.doms _ (fun e n => ?_) _ _).trans rfl
  split
  · split
    · exact doms_of_mute (mute_sendDev _ _ _ _ _)
    · rfl
  · rfl

theorem finishLong_doms (d : Dev) (k result : Nat) : (d.finishLong k result).doms = d.doms := by
  unfold Dev.finishLong
  extract_lets i e f
  rw [progress_doms]
  unfold f
  split
  · rw [Dev.wr_doms, Dev.wr_doms]
    unfold e
    rw [Dev.wr_doms, Dev.wr_doms, Dev.wr_doms]
  · unfold e
    rw [Dev.wr_doms, Dev.wr_doms, Dev.wr_doms]

/-- A snapshot that has been exported: its slot is done, and the latch holds the parts of the wings (R388). -/
structure Exported (d e : Dev) (k : Nat) : Prop where
  done : e.slotState k = 2
  state : e.rd 0x2130 3 = 4
  latch : e.rdd 0x2130 6 = (List.range 5).flatMap fun w => Tab.getD d.ring.snapParts w []

theorem exportDone_exports {k : Nat} (slot : d.slotOfKind 6 = some k) : Exported d d.exportDone k := by
  unfold Dev.exportDone
  rw [slot]
  dsimp -zeta only
  extract_lets b
  have kept := kept_finishLong ((d.wrd 0x2130 6 b).wr 0x2130 3 4) k 0
  have small := slotOfKind_lt slot
  refine ⟨finishLong_done _ _, ?_, ?_⟩
  · rw [kept.rd ⟨⟨by decide, .inr (by decide)⟩, by omega⟩ (by decide), Dev.rd_wr_same]
  · rw [rdd_of_doms (finishLong_doms _ _ _), rdd_of_doms (Dev.wr_doms _ _ _ _), Dev.rdd_wrd_same]

end Sys2Proof.Machine.RingCommands

open Sys2Proof.Machine PairCommands Frames RingLinks RingCommands in
/-- Settles O56, by one lemma per command of the ring. -/
theorem ringCommandsComplete : Obligations.RingCommandsComplete := by
  unfold Obligations.RingCommandsComplete
  intro s t x ring k by_ body m copies d block both
  refine ⟨fun on => ⟨?reset, ?realign, ?notify⟩, fun up hx runs agree => ⟨?own, ?other⟩, fun granted => ⟨?length, ?held⟩,
    fun flows => ⟨?shared, ?snapshot⟩, ?exported⟩
  case reset =>
    intro granted
    have act := onCommand_granted (eff := fun d => ((d.broadcast 1 []).realign).res stOk) granted
    have aligned := realign_aligns (broadcast_ringOn on 1 [])
    refine ⟨_, act, rfl, ?_, aligned.east, aligned.west, List.getLast?_concat⟩
    exact take_broadcast rfl on (aligned.sent.trans (List.prefix_append _ _))
  case realign =>
    intro granted
    have act := onCommand_granted (eff := fun d => d.realign.res stOk) granted
    have aligned := realign_aligns on
    exact ⟨_, act, rfl, aligned.east, aligned.west, aligned.eastLanes, aligned.westLanes, List.getLast?_concat⟩
  case notify =>
    intro granted
    have run : exec (.urgentNotify t by_ body) s = onCommand t by_ (fun d => d.command by_ 0x2110 8 body fun d =>
        ((d.broadcast 2 body).urgentEvent d.node' body).res stOk) s := by rfl
    have act : exec (.urgentNotify t by_ body) s = .next { s with
        dev := ((d.broadcast 2 body).urgentEvent d.node' body).send (.answer by_ stOk none) } := by
      rw [run, onCommand_granted granted]
      dsimp only [Dev.res]
    refine ⟨_, act, rfl, ?_, ?_, List.getLast?_concat⟩
    all_goals dsimp only
    · rw [Dev.send_regs, urgentEvent_regs on]
      rfl
    · exact take_broadcast rfl on ((local_event _ _ _ _ _).sent.trans (List.prefix_append _ _))
  case own =>
    intro own
    have act : exec (.urgentBlock t x copies) s = onDev t (·.urgentBlock (x % 2) copies) s := by rfl
    rw [act, onDev_alive up, Nat.mod_eq_of_lt hx, urgentBlock_own runs agree own]
  case other =>
    intro other
    have act : exec (.urgentBlock t x copies) s = onDev t (·.urgentBlock (x % 2) copies) s := by rfl
    have met := urgentBlock_meets hx runs agree other
    rw [act, onDev_alive up, Nat.mod_eq_of_lt hx]
    refine ⟨_, rfl, rfl, ?_, met.urgent, met.count⟩
    obtain ⟨rest, sent⟩ := met.sent
    dsimp only
    rw [← sent]
    rfl
  case length =>
    intro short
    have act := onCommand_res (eff := (·.changeTable (ring % 2) k)) granted (changeTable_length short)
    refine ⟨_, act, rfl, ?_⟩
    dsimp only
    exact ⟨rfl, byteAt_tableStatus _ _ (by decide) _ _, rfl⟩
  case held =>
    intro whole timed0 timed1 near far sound
    have act := onCommand_res (eff := (·.changeTable (ring % 2) k)) granted
      (changeTable_held whole timed0 timed1 (ringTickStatus_inTime near far) sound)
    refine ⟨_, act, rfl, ?_⟩
    dsimp only
    refine ⟨held_tables _ _ _ _, byteAt_tableStatus _ _ (by decide) _ _, ?_⟩
    rw [Dev.send_outbox, held_outbox]
    rfl
  case shared =>
    intro granted none_ near far
    exact onCommand_res (eff := (·.changeShared k)) granted
      (changeShared_empty flows none_ (ringTickStatus_inTime near far))
  case snapshot =>
    intro granted fits inTime
    have act := onCommand_res (eff := (·.askSnapshot by_)) granted (askSnapshot_schedules by_ flows fits inTime)
    have scheduled : Scheduled (((d.scheduleSnapshot by_ (ofTime48 (d.rd 0x2130 1))).toRing "snapshot"
        (time48Bytes (ofTime48 (d.rd 0x2130 1)))).send (.answer by_ stOk none)) (ofTime48 (d.rd 0x2130 1)) :=
      ((scheduleSnapshot_schedules _ _ _).send _).send _
    refine ⟨_, act, rfl, ?_⟩
    dsimp only
    exact ⟨scheduled.at_, scheduled.state, scheduled.latch,
      List.mem_append_left _ (List.mem_append_right _ (List.mem_singleton_self _)), List.getLast?_concat⟩
  case exported =>
    intro up slot
    have act : exec (.snapshotExportDone t) s = onDev t (·.exportDone) s := by rfl
    have exported := exportDone_exports slot
    rw [act, onDev_alive up]
    exact ⟨_, rfl, rfl, exported.done, exported.state, exported.latch⟩
end

section
/-! What the end of a wake and of boot leaves alone: the power record, the wake counts, the boot phase and the role. -/
namespace Sys2Proof.Machine.PowerAnchors

open EventInputs Frames PairRoles RingLinks

/-- The wake counts, the boot phase and the role. -/
def Anchor (i s : Nat) : Prop := (i = 0x2300 ∧ s = 0x0D) ∨ ((i = 0x2360 ∨ i = 0x2100) ∧ s = 1)

/-- The power record and the anchors stay. -/
def Held (d e : Dev) : Prop := Kept (fun d => d.pwr) Anchor d e

variable {d e : Dev}

theorem held_of_local (h : Local d e) : Held d e :=
  (h.map Settled.pwr).mono fun i s h => by
    simp only [Anchor] at h
    simp only [Quiet]
    omega

theorem held_of_eq (pwr : e.pwr = d.pwr) (regs : e.regs = d.regs) (outbox : e.outbox = d.outbox) : Held d e :=
  Kept.of_eq pwr regs outbox

theorem held_wr (d : Dev) {i s : Nat} (v : Nat) (hs : s < 256) (out : ¬ Anchor i s) : Held d (d.wr i s v) :=
  Kept.wrf rfl hs (by decide) out

/-! ### The ring -/

theorem held_searchSide (d : Dev) {s : Nat} (hs : s < 2) : Held d (d.searchSide s) :=
  ((kept_searchSide d s).map Settled.pwr).mono fun i r h => by
    simp only [Anchor] at h
    simp only [BesideSide, BesideLink, BesidePair, Quiet, sideIdx]
    omega

theorem held_startRing (d : Dev) : Held d d.startRing :=
  Kept.ite ((held_searchSide d (by decide)).trans (held_searchSide _ (by decide))) (Kept.refl d)

/-! ### Joins and streams -/

theorem held_sendNet (d : Dev) (k : Nat) (what : String) (b : List Byte) : Held d (d.sendNet k what b) := by
  have counts (e : Dev) (f v w : Nat) (hf : f < 65536) : Held e (e.addf (netIdx k) 0x0B f v w) :=
    Kept.wrf rfl (by decide) hf fun h => by
      simp only [Anchor] at h
      omega
  exact Kept.ite (((counts _ _ _ _ (by decide)).trans (counts _ _ _ _ (by decide))).trans (Kept.send rfl)) (Kept.refl d)

theorem held_sendJoin (d : Dev) (join : Bool) (l : Leg) : Held d (d.sendJoin join l) :=
  Kept.ite (Kept.refl d) ((held_sendNet d _ _ _).trans (held_of_eq rfl rfl rfl))

theorem held_rejoinLegs (d : Dev) (old new : List Leg) : Held d (d.rejoinLegs old new) :=
  (Kept.foldl (fun d l _ => held_sendJoin d false l) d).trans (Kept.foldl (fun d l _ => held_sendJoin d true l) _)

theorem held_setSrcState (d : Dev) (n st : Nat) : Held d (d.setSrcState n st) := by
  have shown : Held d (d.wr (srcIdx n) 0x20 st) := held_wr d st (by decide) fun h => by
    simp only [Anchor] at h
    omega
  exact Kept.ite (Kept.refl d) (shown.trans (Kept.ite (held_of_local (local_raise _ _ _ _ _ _))
    (held_of_local (local_event _ _ _ _ _))))

theorem held_audioJoins (d : Dev) : Held d (d.audioJoins true) :=
  Kept.foldNat (fun d _ _ => Kept.ite (Kept.refl d)
    ((held_rejoinLegs d _ _).trans (held_of_local (local_setAudStream _ _ _)))) d

/-! ### Outputs and channels -/

theorem held_returnLoan (d : Dev) (l : Loan) : Held d (d.returnLoan l) := by
  cases l with
  | source n b => exact held_of_eq rfl rfl rfl
  | slot l k g => exact held_of_eq rfl rfl rfl
  | frame o c b => exact held_of_eq rfl rfl rfl

theorem held_resumeOutput (d : Dev) (o : Nat) : Held d (d.resumeOutput o) := by
  have loans (l : List Loan) (d : Dev) : Held d (l.foldl Dev.returnLoan d) :=
    Kept.foldl (fun d x _ => held_returnLoan d x) d
  have out (d : Dev) (x : OutputRt) : Held d (d.setOut o x) := held_of_eq rfl rfl rfl
  exact (((loans _ d).trans (out _ _)).trans (out _ _)).trans (held_of_local (local_refreshOut _ _))

theorem held_resumeWing (d : Dev) (w : Nat) : Held d (d.resumeWing w) := by
  have sources (l : List Nat) (d : Dev) :
      Held d (l.foldl (fun d n => (d.rejoinLegs [] (d.openLegs n)).setSrcState n 1) d) :=
    Kept.foldl (fun d n _ => (held_rejoinLegs d _ _).trans (held_setSrcState _ _ _)) d
  have outputs (l : List Nat) (d : Dev) : Held d (l.foldl (fun d o => d.resumeOutput o) d) :=
    Kept.foldl (fun d o _ => held_resumeOutput d o) d
  refine ((sources _ d).trans (outputs _ _)).trans (Kept.foldNat (fun d i _ => ?_) _)
  extract_lets c
  exact Kept.ite (held_of_local ((local_setEnc d _ _).trans (local_setEncState _ _ _))) (Kept.refl d)

/-! ### Touch and time -/

theorem held_setNode (d : Dev) (key : Nat) (n : TNode) : Held d (d.setNode key n) := held_of_eq rfl rfl rfl

theorem held_setSurf (d : Dev) (k : Nat) (x : Surf) : Held d (d.setSurf k x) := held_of_eq rfl rfl rfl

theorem held_acquire (d : Dev) (k : Nat) : Held d (d.acquire k) := by
  have state (d : Dev) : Held d (d.setSurfState k 1) :=
    Kept.ite (Kept.refl d) ((held_wr d 1 (by decide) fun h => by simp only [Anchor] at h; omega).trans
      (held_of_local (local_event _ _ _ _ _)))
  unfold Dev.acquire
  extract_lets e _
  have nodes : Held d e := Kept.foldl (fun d n _ => held_setNode d _ _) d
  exact (nodes.trans (held_setSurf _ _ _)).trans (state _)

theorem held_time (d : Dev) (s v : Nat) (hs : s < 256) : Held d (d.wr 0x2200 s v) :=
  held_wr d v hs fun h => by
    simp only [Anchor] at h
    omega

theorem held_setTimeState (d : Dev) (st : Nat) : Held d (d.setTimeState st) := by
  unfold Dev.setTimeState
  extract_lets old _ _ e
  have shown : Held d e :=
    ((held_time d 1 _ (by decide)).trans (held_time _ 0x0C _ (by decide))).trans (held_of_eq rfl rfl rfl)
  exact Kept.ite (Kept.refl d) (shown.trans (held_of_local (local_event _ _ _ _ _)))

theorem held_loseParent (d : Dev) : Held d d.loseParent := by
  unfold Dev.loseParent
  extract_lets _ _ e
  have lost : Held d e := (held_time d 7 0xFF (by decide)).trans (held_of_eq rfl rfl rfl)
  refine lost.trans ?_
  split
  · refine Kept.trans ?_ (held_setTimeState _ _)
    exact held_of_eq rfl rfl rfl
  · exact held_setTimeState _ _
  · exact held_setTimeState _ _
  · exact Kept.refl e

theorem held_takeParent (d : Dev) (p : Nat) (a : Announce) : Held d (d.takeParent p a) := by
  unfold Dev.takeParent
  extract_lets _ e _ _ f
  have port : Held d e := held_of_eq rfl rfl rfl
  have taken : Held e f := (held_time e 7 _ (by decide)).trans (held_of_eq rfl rfl rfl)
  exact (port.trans taken).trans (Kept.ite (held_setTimeState _ _) (Kept.refl f))

theorem held_bmca (d : Dev) : Held d d.bmca := by
  unfold Dev.bmca
  extract_lets best slave e was
  have ports : Held d e := Kept.foldNat (fun d p _ => held_wr d _ (by decide) fun h => by
    simp only [Anchor] at h
    omega) d
  clear_value e slave
  refine ports.trans ?_
  match slave with
  | none => exact Kept.ite (Kept.refl _) (held_loseParent _)
  | some (p, a) => exact Kept.ite (held_of_eq rfl rfl rfl) (held_takeParent _ _ _)

theorem held_timeRestart (d : Dev) : Held d d.timeRestart :=
  ((held_of_eq rfl rfl rfl : Held d { d with time := { ports := d.time.ports } }).trans
    (held_setTimeState _ _)).trans (held_bmca _)

/-! ### The end of boot -/

theorem held_aonReport (d : Dev) : Held d d.aonReport := by
  unfold Dev.aonReport
  extract_lets n
  refine Kept.foldNat (fun d i _ => ?_) d
  extract_lets slot b sev e
  exact Kept.ite (Kept.refl d) ((held_of_local (local_report d _)).trans (held_of_eq rfl rfl rfl))

theorem held_startNode (d : Dev) : Held d d.startNode := by
  have sends (d : Dev) (x : NmosRt) (what : String) (data : List Nat) :
      Held d ({ d with nmos := x }.nmosSend what data) :=
    (held_of_eq rfl rfl rfl : Held d { d with nmos := x }).trans (Kept.send rfl)
  have register (d : Dev) (n : Nat) : Held d (d.registerReceiver n) := Kept.ite (Kept.refl d) (sends d _ _ _)
  have begins : Held d ({ d with nmos := { node := true } }.nmosSend "node" []) := sends d _ _ _
  exact Kept.ite (begins.trans (Kept.foldNat (fun d n _ => register d n) _)) (held_of_eq rfl rfl rfl)

end Sys2Proof.Machine.PowerAnchors
end

section
/-! O59: resets, the steps of a wake and the steps of boot. -/
namespace Sys2Proof.Machine.Bringup

open EventInputs Frames PairRoles RingLinks PowerAnchors Firmware

variable {d : Dev}

/-- What an AON event that may write memory does, from what it does to a device and a memory. -/
theorem onAonMem_of {t : Nat} {f : Mem → Dev → Dev × Mem} {s : State} {e : Dev} {m : Mem}
    (h : f s.mem (s.found t) = (e, m)) : onAonMem t f s = .next { s with dev := e, mem := m } := by
  have run : onAonMem t f s = .next { s with
      dev := (f s.mem (s.found t)).1, mem := (f s.mem (s.found t)).2 } := rfl
  rw [run, h]

/-! ### Resets -/

theorem getD_filterKeys {α : Type} (t : Tab α) (p : Nat → Bool) (k : Nat) (x : α) :
    Tab.getD (t.filterKeys p) k x = if p k then Tab.getD t k x else x := by
  induction t with
  | nil => exact (ite_self x).symm
  | cons e t ih =>
    obtain ⟨i, v⟩ := e
    rw [Tab.filterKeys, List.filter_cons]
    split
    · next kept =>
      rw [Tab.getD, Tab.getD]
      split
      · next same => rw [← same, if_pos kept]
      · exact ih
    · next dropped =>
      refine ih.trans ?_
      rw [Tab.getD]
      split
      · next kept =>
        have other : i ≠ k := fun same => dropped (same ▸ kept)
        rw [if_neg other]
      · rfl

/-- What a reset leaves: flash as it is, and of the numeric objects those of the AON domain and the boot count (R440). -/
structure Reset (d e : Dev) : Prop where
  flash : e.flash = d.flash
  sessions : e.sessions = []
  batches : e.batches = []
  queue : e.queue = []
  longOps : e.longOps = []
  num : ∀ i s f, e.rdf i s f = if keptObj (regKey i s f) then d.rdf i s f else regDefault (regKey i s f)

theorem reset_resetDev {e : Dev} (regs : e.regs = d.regs) (flash : e.flash = d.flash) (cause : Nat) :
    Reset d (e.resetDev cause) where
  flash := flash
  sessions := rfl
  batches := rfl
  queue := rfl
  longOps := rfl
  num i s f := by
    rw [Dev.rdf, Dev.rdf, ← regs]
    exact getD_filterKeys _ _ _ _

/-- The same for a reset by the pins, which also ends a fault of the AON domain. -/
theorem reset_fine (d : Dev) (cause : Nat) : Reset d ({ d with aonFault := false }.resetDev cause) :=
  reset_resetDev (d := d) (e := { d with aonFault := false }) rfl rfl cause

theorem Reset.setPwr {e : Dev} (h : Reset d e) (x : PwrRt) : Reset d (e.setPwr x) :=
  ⟨h.flash, h.sessions, h.batches, h.queue, h.longOps, h.num⟩

theorem Reset.fine {e : Dev} (h : Reset d e) : Reset d { e with aonFault := false } :=
  ⟨h.flash, h.sessions, h.batches, h.queue, h.longOps, h.num⟩

theorem Reset.wrd {e : Dev} (h : Reset d e) (i s : Nat) (b : List Byte) : Reset d (e.wrd i s b) :=
  ⟨h.flash, h.sessions, h.batches, h.queue, h.longOps, h.num⟩

/-- The device whose reset firmware has commanded, once its answer has left. -/
def leaving (d : Dev) (by_ : Requester) : Dev :=
  ((d.setPwr { d.pwr with resetAsked := true }).send (.answer by_ stOk none)).broadcast 3 []

theorem leaving_regs (d : Dev) (by_ : Requester) : (leaving d by_).regs = d.regs ∧ (leaving d by_).flash = d.flash ∧
    d.outbox ++ [.answer by_ stOk none] <+: (leaving d by_).outbox := by
  unfold leaving Dev.broadcast
  split
  · exact ⟨rfl, rfl, (List.prefix_append _ _).trans (List.prefix_append _ _)⟩
  · exact ⟨rfl, rfl, List.prefix_refl _⟩

/-! ### The release of RESET_N -/

/-- The straps are sampled, and the wake steps of Off begin (R439). -/
def released (d : Dev) (pos bootsel : Nat) : Dev :=
  ((d.setPwr { d.pwr with resetLow := false, straps := pos % 2 + 2 * (bootsel % 4) }).wr 0x2100 2 (pos % 2)).beginStep
    { from_ := 4, step := 0, cause := 4, began := d.now, stepAt := d.now } (if d.pwr.enables = 0x3F then 6 else 1)

/-! ### Boot steps -/

/-- B1 has ended: the boot is counted, and its cause, the straps, the position and the counter show (R443, R448). -/
structure Counted (d e : Dev) : Prop where
  step : e.pwr = d.pwr
  phase : e.rd 0x2360 1 = 1
  count : e.rd 0x2360 0x0A = (d.rd 0x2360 0x0A + 1) % 2 ^ 32
  cause : e.rd 0x2360 3 = d.pwr.cause
  straps : e.rd 0x2360 4 = d.pwr.straps
  pos : e.rd 0x2100 2 = d.pwr.straps % 2
  counter : e.rd 0x2360 6 = d.flash.counter

/-- What B1 writes, with the debug challenge `c`. -/
def romStarted (e : Dev) (c : List Byte) : Dev :=
  let d := (e.wr 0x2360 0x0A ((e.rd 0x2360 0x0A + 1) % 2 ^ 32)).wr 0x2360 3 e.pwr.cause
  let d := (d.wr 0x2360 4 d.pwr.straps).wr 0x2100 2 (d.pwr.straps % 2)
  (((d.wr 0x2360 6 d.flash.counter).wr 0x2360 2 0xFF).wrd 0x2360 0x0D c).wr 0x2360 1 1

/-- A write leaves every other number as it was. -/
theorem rd_wr_apart (d : Dev) {i s j r : Nat} (v : Nat) (hs : s < 256) (hr : r < 256) (h : j ≠ i ∨ r ≠ s) :
    (d.wr i s v).rd j r = d.rd j r := by
  refine Dev.rd_wr_other d fun same => ?_
  obtain ⟨hi, hr, -⟩ := regKey_inj hr hs (by decide) (by decide) same
  exact h.elim (· hi) (· hr)

theorem rd_wrd (d : Dev) (i s : Nat) (b : List Byte) (j r : Nat) : (d.wrd i s b).rd j r = d.rd j r :=
  Dev.rd_congr rfl j r

theorem counted_romStarted (e : Dev) (c : List Byte) : Counted e (romStarted e c) where
  step := by simp only [romStarted, Dev.wr_pwr, Dev.wrd_pwr]
  phase := Dev.rd_wr_same _ _ _ _
  count := by
    unfold romStarted
    rw [rd_wr_apart _ _ (by decide) (by decide) (by decide), rd_wrd]
    iterate 5 rw [rd_wr_apart _ _ (by decide) (by decide) (by decide)]
    rw [Dev.rd_wr_same]
  cause := by
    unfold romStarted
    rw [rd_wr_apart _ _ (by decide) (by decide) (by decide), rd_wrd]
    iterate 4 rw [rd_wr_apart _ _ (by decide) (by decide) (by decide)]
    rw [Dev.rd_wr_same]
  straps := by
    unfold romStarted
    rw [rd_wr_apart _ _ (by decide) (by decide) (by decide), rd_wrd]
    iterate 3 rw [rd_wr_apart _ _ (by decide) (by decide) (by decide)]
    rw [Dev.rd_wr_same, Dev.wr_pwr, Dev.wr_pwr]
  pos := by
    unfold romStarted
    rw [rd_wr_apart _ _ (by decide) (by decide) (by decide), rd_wrd]
    iterate 2 rw [rd_wr_apart _ _ (by decide) (by decide) (by decide)]
    rw [Dev.rd_wr_same, Dev.wr_pwr, Dev.wr_pwr]
  counter := by
    unfold romStarted
    rw [rd_wr_apart _ _ (by decide) (by decide) (by decide), rd_wrd]
    iterate 1 rw [rd_wr_apart _ _ (by decide) (by decide) (by decide)]
    rw [Dev.rd_wr_same, Dev.wr_flash, Dev.wr_flash, Dev.wr_flash, Dev.wr_flash]

theorem bootStep_counts (d : Dev) (o : BootObs) : Counted d (d.bootStep 1 o) := by
  have h := counted_romStarted (d.freeBytes 16).2 (d.freeBytes 16).1
  have step : d.bootStep 1 o = romStarted (d.freeBytes 16).2 (d.freeBytes 16).1 := by rfl
  rw [step]
  exact ⟨h.step, h.phase, h.count, h.cause, h.straps, h.pos, h.counter⟩

/-- B2 with BOOTSEL 3 ends in recovery (R443, R453). -/
theorem bootStep_recovers (o : BootObs) (strap : d.pwr.straps / 2 = 3) :
    (d.bootStep 2 o).pwr.bootStep = 10 ∧ (d.bootStep 2 o).rd 0x2360 1 = 7 := by
  have recovers : d.bootStep 2 o = (((((d.setPwr { d.pwr with bootStep := 10 }).wr 0x2360 1 7).wr 0x2360 2 0xFF).wr
      0x2360 8 0)).raise uGuard 0x1504 1 0 sevInfo := if_pos strap
  rw [recovers]
  have kept := local_raise ((((d.setPwr { d.pwr with bootStep := 10 }).wr 0x2360 1 7).wr 0x2360 2 0xFF).wr 0x2360 8 0)
    uGuard 0x1504 1 0 sevInfo
  refine ⟨?_, ?_⟩
  · rw [pwr_of_kept kept, Dev.wr_pwr, Dev.wr_pwr, Dev.wr_pwr]
    rfl
  · rw [kept.rd ⟨by decide, .inr (by decide)⟩ (by decide)]
    iterate 2 rw [rd_wr_sub _ _ _ (by decide)]
    rw [Dev.rd_wr_same]

theorem rd_bootTime (d : Dev) {f j r : Nat} (hf : f < 65536) (hr : r < 256) (other : r ≠ 9) :
    (d.bootTime f).rd j r = d.rd j r :=
  Dev.rdf_wrf_other d fun same => other (regKey_inj hr (by decide) (by decide) hf same).2.1

theorem bootStep_trained (d : Dev) (o : BootObs) :
    (d.bootStep 5 o).pwr = d.pwr ∧ (d.bootStep 5 o).rd 0x2360 1 = 4 ∧ (d.bootStep 5 o).mainSegment = d.mainSegment := by
  have step : d.bootStep 5 o = (d.wr 0x2360 1 4).bootTime 1 := by rfl
  rw [step]
  exact ⟨rfl, (rd_bootTime _ (by decide) (by decide) (by decide)).trans (Dev.rd_wr_same _ _ _ _), rfl⟩

/-- The device as boot ends, with phase 6 and the time of its end. -/
def booted (d : Dev) : Dev :=
  ((d.setPwr { d.pwr with state := 0, bootStep := 9, notes := [], failed := none }).wr 0x2360 1 6).bootTime 3

theorem booted_phase (d : Dev) : (booted d).rd 0x2360 1 = 6 :=
  (rd_bootTime _ (by decide) (by decide) (by decide)).trans (Dev.rd_wr_same _ _ _ _)

theorem booted_duplex (d : Dev) : (booted d).duplex = d.duplex := by
  rw [Dev.duplex, Dev.duplex, booted, rd_bootTime _ (by decide) (by decide) (by decide),
    rd_wr_apart _ _ (by decide) (by decide) (by decide)]
  rfl

/-- What the boot ROM found is journaled; it is only told. -/
theorem local_notes (l : List Report) (d : Dev) :
    Local d (l.foldl (fun d r => d.raise r.unit r.code r.p1 r.p2 r.sev) d) :=
  Kept.foldl (fun d _ _ => local_raise d _ _ _ _ _) d

theorem bootStep_last (d : Dev) (o : BootObs) : d.bootStep 9 o = d.bootEnds := by rfl

theorem bootEnds_runs (d : Dev) :
    d.bootEnds.pwr.state = 0 ∧ d.bootEnds.rd 0x2360 1 = 6 ∧ (d.duplex = false → d.bootEnds.rd 0x2100 1 = 1) := by
  unfold Dev.bootEnds
  extract_lets p _ b c e f g
  have failed : Local c e := by
    unfold e
    split
    · exact local_raise _ _ _ _ _ _
    · exact Kept.refl c
  have told : Local b f := ((local_notes p.notes b).trans failed).trans (local_raise _ _ _ _ _ _)
  have start : Held g (g.aonReport.startRing.startNode) :=
    ((held_aonReport g).trans (held_startRing _)).trans (held_startNode _)
  have begins : b = booted d := rfl
  have state : f.pwr.state = 0 := by
    rw [pwr_of_kept told, begins]
    rfl
  have phase : f.rd 0x2360 1 = 6 := by
    rw [told.rd ⟨by decide, .inr (by decide)⟩ (by decide), begins, booted_phase]
  have pair : f.duplex = d.duplex := by
    rw [Dev.duplex, told.rd ⟨by decide, .inl (by decide)⟩ (by decide), begins, ← Dev.duplex, booted_duplex]
  have power : (g.aonReport.startRing.startNode).pwr = g.pwr := start.core
  have shown : (g.aonReport.startRing.startNode).rd 0x2360 1 = g.rd 0x2360 1 :=
    start.rd (.inr ⟨.inl rfl, rfl⟩) (by decide)
  have role : (g.aonReport.startRing.startNode).rd 0x2100 1 = g.rd 0x2100 1 :=
    start.rd (.inr ⟨.inr rfl, rfl⟩) (by decide)
  rw [power, shown, role]
  unfold g
  clear_value f
  split
  · next duplex =>
    exact ⟨state, phase, fun single => absurd (duplex.symm.trans (pair.trans single)) (by decide)⟩
  · refine ⟨state, ?_, fun _ => Dev.rd_wr_same _ _ _ _⟩
    rw [rd_wr_apart _ _ (by decide) (by decide) (by decide), phase]

/-! ### Wake steps -/

theorem held_setWingState (d : Dev) (w st : Nat) : Held d (d.setWingState w st) := by
  unfold Dev.setWingState
  extract_lets b
  have shown : Held d (d.wrd 0x2300 8 b) := held_of_eq rfl rfl rfl
  exact Kept.ite (Kept.refl d) (shown.trans (held_of_local (local_event _ _ _ _ _)))

theorem held_setWing (d : Dev) (w : Nat) (x : Wing) : Held d (d.setWing w x) := held_of_eq rfl rfl rfl

/-- The power record of a device that is in Run again. -/
def awake (d : Dev) : Dev := { d.setPwr { d.pwr with state := 0, wake := none } with aonFault := false }

/-- A count of the power unit and a byte string leave the power record alone, and the byte string every number. -/
theorem pwr_told (d : Dev) (f i s : Nat) (b : List Byte) : ((d.powerCount f).wrd i s b).pwr = d.pwr := rfl

theorem rdf_wrd (d : Dev) (i s : Nat) (b : List Byte) (j r f : Nat) : (d.wrd i s b).rdf j r f = d.rdf j r f := rfl

/-- What the end of a wake starts again holds the power record and the wake counts. -/
theorem wakeEnds_held (d : Dev) (w : WakeRt) : ∃ e, Held (awake d) e ∧ (d.wakeEnds w).pwr = e.pwr ∧
    (d.wakeEnds w).rdf 0x2300 0x0D 1 = (e.powerCount 1).rdf 0x2300 0x0D 1 := by
  unfold Dev.wakeEnds
  extract_lets ms _ a b c e f g h i j
  have wings : Held b c := Kept.foldNat (fun d v _ => held_setWingState d _ _) b
  have quiet : Held c e := Kept.foldNat (fun d v _ => held_setWing d _ _) c
  have ports : Held e f := Kept.foldNat (fun d k _ => held_wr d _ (by decide) fun h => by
    simp only [Anchor] at h
    omega) e
  have links : Held f g := Kept.foldNat (fun d p _ => held_of_local (local_train d p)) f
  have units : Held g h := (Kept.foldNat (fun d w _ => held_resumeWing d w) g).trans (held_audioJoins _)
  have surfaces : Held h i := Kept.foldNat (fun d k _ => Kept.ite (held_acquire d k) (Kept.refl d)) h
  have ends : Held i (i.timeRestart.startRing.powerEvent 0) :=
    ((held_timeRestart i).trans (held_startRing _)).trans (held_of_local (local_event _ _ _ _ _))
  exact ⟨_, (((((wings.trans quiet).trans ports).trans links).trans units).trans surfaces).trans ends, pwr_told _ _ _ _ _,
    rdf_wrd j _ _ _ _ _ _⟩

theorem wakeEnds_runs (d : Dev) (w : WakeRt) : (d.wakeEnds w).pwr.state = 0 ∧ (d.wakeEnds w).pwr.wake = none ∧
    (d.wakeEnds w).rdf 0x2300 0x0D 1 = (d.rdf 0x2300 0x0D 1 + 1) % 2 ^ 32 := by
  obtain ⟨e, held, pwr, count⟩ := wakeEnds_held d w
  have power : e.pwr = (awake d).pwr := held.core
  have before : e.rdf 0x2300 0x0D 1 = d.rdf 0x2300 0x0D 1 := held.num _ _ _ (.inl ⟨rfl, rfl⟩) (by decide) (by decide)
  refine ⟨by rw [pwr, power]; rfl, by rw [pwr, power]; rfl, count.trans ?_⟩
  rw [← before]
  exact Dev.rdf_wrf_same e _ _ _ _

section
variable {w : WakeRt} (o : WakeObs) (mem : Mem)

theorem wakeStep_begins (wake : d.pwr.wake = some w) (step : w.step ∉ [9, 10, 11])
    (more : nextStep (wakeSteps w.from_) w.step ≠ 8) :
    d.wakeStep o mem = (d.beginStep w (nextStep (wakeSteps w.from_) w.step), mem) := by
  simp only [List.mem_cons, List.not_mem_nil, or_false, not_or] at step
  obtain ⟨h9, h10, h11⟩ := step
  unfold Dev.wakeStep
  rw [wake]
  dsimp only
  rw [if_neg h11, if_neg fun h => h10 h.1, if_neg h10, if_neg h9, if_neg more]

theorem wakeStep_ends (wake : d.pwr.wake = some w) (step : w.step = 11) :
    d.wakeStep o mem = (d.wakeEnds w, mem) := by
  unfold Dev.wakeStep
  rw [wake]
  exact if_pos step

theorem wakeStep_startsRom (wake : d.pwr.wake = some w) (off : w.from_ = 3) (step : w.step = 7) :
    d.wakeStep o mem = (d.startRom w, []) := by
  have next : nextStep (wakeSteps w.from_) w.step = 8 := by
    rw [off, step]
    decide
  unfold Dev.wakeStep
  rw [wake]
  dsimp only
  have h11 : w.step ≠ 11 := by omega
  have h10 : w.step ≠ 10 := by omega
  have h9 : w.step ≠ 9 := by omega
  rw [next, if_neg h11, if_neg fun h => h10 h.1, if_neg h10, if_neg h9, if_pos rfl, if_pos off]

/-- A wake from Off ends at the boot ROM, as after a reset (R431, R440). -/
structure AtRom (d e : Dev) : Prop where
  reset : Reset d e
  state : e.pwr.state = 4
  cause : e.pwr.cause = 4
  high : e.pwr.resetLow = false
  wake : e.pwr.wake = none
  at_ : e.pwr.releasedAt = d.now

theorem startRom_atRom (off : w.from_ = 3) : AtRom d (d.startRom w) := by
  unfold Dev.startRom
  extract_lets ms p e _ a b _ c
  have begins : Reset d e := reset_resetDev rfl rfl 4
  have resets : Reset d b ∧ b.pwr.state = 4 ∧ b.pwr.cause = 4 ∧ b.pwr.resetLow = false ∧ b.now = d.now := by
    unfold b
    rw [if_pos off]
    exact ⟨(begins.setPwr _).fine, rfl, rfl, rfl, rfl⟩
  clear_value b
  obtain ⟨reset, state, cause, high, now⟩ := resets
  exact ⟨(reset.setPwr _).wrd _ _ _, state, cause, high, rfl, now⟩

/-- A wake step that has run out: the device is in Off, with the failed step kept for the next boot (R433). -/
structure TimedOut (d e : Dev) (step input : Nat) : Prop where
  state : e.pwr.state = 3
  wake : e.pwr.wake = none
  enables : e.pwr.enables = 0
  enteredAt : e.pwr.enteredAt = d.now
  failed : e.pwr.failed = some (step, input)
  fault : e.aonFault = true

theorem dropSupplies_now (d : Dev) (keep : Nat) : (d.dropSupplies keep).now = d.now := by
  unfold Dev.dropSupplies
  split <;> rfl

theorem failedInput_now (d : Dev) (step : Nat) : ∃ input e, d.failedInput step = (input, e) ∧ e.now = d.now := by
  unfold Dev.failedInput
  split
  · exact ⟨_, _, rfl, rfl⟩
  · exact ⟨_, _, rfl, rfl⟩

theorem wakeTimedOut_off (wake : d.pwr.wake = some w) (low : 0 < w.step) (high : w.step < 8)
    (late : w.stepAt + wakeTimeout w.step * 990 ≤ d.now) :
    ∃ e input, d.wakeTimedOut mem = (e, []) ∧ TimedOut d e w.step input := by
  have timed : wakeTimeout w.step ≠ 0 := by
    have all : ∀ n < 8, 0 < n → wakeTimeout n ≠ 0 := by decide
    exact all _ high low
  have waited : ¬ (wakeTimeout w.step = 0 ∨ d.now < w.stepAt + wakeTimeout w.step * 990) := by
    rintro (zero | early)
    · exact timed zero
    · omega
  obtain ⟨input, e, found, now⟩ := failedInput_now d w.step
  unfold Dev.wakeTimedOut
  rw [wake]
  dsimp -zeta only
  rw [if_neg waited, found]
  dsimp -zeta only
  extract_lets _ a _
  have fell : a.now = d.now := (dropSupplies_now e 0).trans now
  exact ⟨_, input, rfl, rfl, rfl, rfl, fell, rfl, rfl⟩

end

/-! ### PERST_N -/

theorem pcieLink_retries (d : Dev) (state : d.pwr.state = 4) (early : d.pwr.bootStep < 7) :
    (d.setPwr { d.pwr with perst := true }).pcieLink =
      (d.setPwr { d.pwr with perst := true }).send (.pin "pcie-retry" []) :=
  (if_neg Bool.false_ne_true).trans (if_pos ⟨state, early⟩)

theorem pcieLink_trains (d : Dev) (state : d.pwr.state = 0) (enabled : d.bootRd 0x2044 1 = 1) :
    (d.setPwr { d.pwr with perst := true }).pcieLink =
      (d.setPwr { d.pwr with perst := true }).send (.pin "pcie-train" []) := by
  have pin : (if d.bootRd 0x2044 1 = 1 then "pcie-train" else "pcie-idle") = "pcie-train" := if_pos enabled
  have later : ¬ (d.pwr.state = 4 ∧ d.pwr.bootStep < 7) := by omega
  exact ((if_neg Bool.false_ne_true).trans (if_neg later)).trans
    (congrArg (fun x => (d.setPwr { d.pwr with perst := true }).send (.pin x [])) pin)

/-! ### One boot step -/

section
variable (o : BootObs) (mem : Mem)

/-- The device that goes on to boot step `n`. -/
def atStep (d : Dev) (n : Nat) : Dev := d.setPwr { d.pwr with bootStep := n }

section
variable {n : Nat} (state : d.pwr.state = 4) (high : d.pwr.resetLow = false) (wake : d.pwr.wake = none)
include state high wake

theorem boots (more : d.pwr.bootStep < 9) :
    ¬ (d.pwr.state ≠ 4 ∨ d.pwr.resetLow = true ∨ d.pwr.wake.isSome = true ∨ 9 ≤ d.pwr.bootStep) := by
  rw [state, high, wake]
  simp only [ne_eq, not_true_eq_false, Bool.false_eq_true, Option.isSome_none, false_or]
  omega

/-- A boot step but B5, which writes memory, and B7, after which the PCIe link may train. -/
theorem nextBoot_runs (step : d.pwr.bootStep + 1 = n) (more : n < 10) (h5 : n ≠ 5) (h7 : n ≠ 7) :
    d.nextBoot o mem = ((atStep d n).bootStep n o, mem) := by
  subst step
  unfold Dev.nextBoot
  extract_lets p m e f
  have same : f = (atStep d m).bootStep m o := if_neg h7
  rw [if_neg (boots state high wake (by omega)), if_neg h5, same]

theorem nextBoot_copies (step : d.pwr.bootStep = 4) : d.nextBoot o mem =
    ((atStep d 5).bootStep 5 o, mem.writeBytes firmwareBase d.mainSegment) := by
  have copied := (bootStep_trained (atStep d 5) o).2.2
  have five : d.pwr.bootStep + 1 = 5 := by omega
  unfold Dev.nextBoot
  extract_lets p m e f
  have m5 : m = 5 := five
  have h7 : m ≠ 7 := by omega
  have same : f = (atStep d m).bootStep m o := if_neg h7
  rw [if_neg (boots state high wake (by omega)), if_pos m5, same, m5, copied]
  rfl

end

end

end Sys2Proof.Machine.Bringup

open Sys2Proof.Machine PairCommands Frames PowerAnchors Bringup in
/-- Settles O59: what a reset leaves is read off once, and each step of a wake or of boot is one lemma. -/
theorem resetWakeAndBootComplete : Obligations.ResetWakeAndBootComplete := by
  unfold Obligations.ResetWakeAndBootComplete
  intro s t pos bootsel by_ o wo w d p next cleared
  have resets {e : Dev} (r : Reset d e) : cleared { s with dev := e, mem := [] } :=
    ⟨rfl, r.flash, r.sessions, r.batches, r.queue, r.longOps, rfl, r.num⟩
  refine ⟨?lost, ?powerOn, ?low, ?commanded, ?release, ?boot, ?wakes, ?retry, ?train⟩
  case lost =>
    have act : exec (.vddAonLost t) s = .next { s with
        dev := ({ d with aonFault := false }.resetDev 1).setPwr { state := 5, perst := d.pwr.perst }, mem := [] } := by rfl
    exact ⟨_, act, resets ((reset_fine d 1).setPwr _), rfl⟩
  case powerOn =>
    intro off
    have act : exec (.vddAonPowerOn t) s = onAonMem t (fun mem d => if d.pwr.state = 5 then
        let d := { d with aonFault := false }.resetDev 1
        (d.setPwr { d.pwr with enables := 0 }, [])
      else (d, mem)) s := by rfl
    have run := act.trans (onAonMem_of (if_pos off))
    exact ⟨_, run, resets ((reset_fine d 1).setPwr _), rfl, rfl, rfl, rfl⟩
  case low =>
    intro powered
    have act : exec (.resetNLow t) s = onAonMem t (fun mem d =>
      if d.pwr.state = 5 then (d, mem) else ({ d with aonFault := false }.resetDev 2, [])) s := by rfl
    have run := act.trans (onAonMem_of (if_neg powered))
    exact ⟨_, run, resets (reset_fine d 2), rfl, rfl, rfl, rfl⟩
  case commanded =>
    intro granted
    obtain ⟨regs, flash, rest, sent⟩ := leaving_regs d by_
    have up : (d.alive || d.recovery) = true := by rw [granted.1, Bool.true_or]
    have act : exec (.firmwareReset t by_) s = onAonMem t (fun mem d =>
      if d.alive || d.recovery then
        let r := d.command by_ 0x2360 7 [1] Dev.askReset
        Dev.finishReset (r.dev.send (.answer by_ r.st r.slot), mem)
      else (d, mem)) s := by rfl
    have finish : Dev.finishReset (((d.command by_ 0x2360 7 [1] Dev.askReset).dev.send (.answer by_
        (d.command by_ 0x2360 7 [1] Dev.askReset).st (d.command by_ 0x2360 7 [1] Dev.askReset).slot)), s.mem) =
        ({ leaving d by_ with aonFault := false }.resetDev 3, []) := by
      rw [Dev.command_granted granted]
      rfl
    have run := act.trans (onAonMem_of ((if_pos up).trans finish))
    refine ⟨_, run, resets (reset_resetDev (d := d) (e := { leaving d by_ with aonFault := false }) regs flash 3),
      rfl, rfl, ?_⟩
    have first : (leaving d by_).outbox.head? = some (.answer by_ stOk none) := by
      rw [← sent]
      rfl
    exact first
  case release =>
    intro state low
    have act : exec (.resetRelease t pos bootsel) s = .next { s with dev := released d pos bootsel } := by
      have unit : exec (.resetRelease t pos bootsel) s = .next { s with
          dev := if d.pwr.state = 4 ∧ d.pwr.resetLow then released d pos bootsel else d } := by rfl
      rw [unit, if_pos ⟨state, low⟩]
    refine ⟨_, act, rfl, rfl, rfl, Dev.rd_wr_same _ _ _ _, rfl⟩
  case boot =>
    intro state high wake
    have act : exec (.bootStep t o) s = onAonMem t (fun mem d => d.nextBoot o mem) s := by rfl
    have run {n : Nat} (step : p.bootStep + 1 = n) (more : n < 10) (h5 : n ≠ 5) (h7 : n ≠ 7) :
        exec (.bootStep t o) s = .next { s with dev := (atStep d n).bootStep n o } :=
      act.trans (onAonMem_of (nextBoot_runs o s.mem state high wake step more h5 h7))
    refine ⟨fun step => ?_, fun step strap => ?_, fun step => ?_, fun step => ?_, fun step => ?_⟩
    · have h := bootStep_counts (atStep d 1) o
      exact ⟨_, run (n := 1) (by omega) (by decide) (by decide) (by decide), rfl, congrArg PwrRt.bootStep h.step,
        h.phase, h.count, h.cause, h.straps, h.pos, h.counter⟩
    · obtain ⟨recovers, phase⟩ := bootStep_recovers (d := atStep d 2) o strap
      exact ⟨_, run (n := 2) (by omega) (by decide) (by decide) (by decide), rfl, recovers, phase⟩
    · exact run (n := 3) (by omega) (by decide) (by decide) (by decide)
    · obtain ⟨pwr, phase, -⟩ := bootStep_trained (atStep d 5) o
      exact ⟨_, act.trans (onAonMem_of (nextBoot_copies o s.mem state high wake step)), rfl,
        congrArg PwrRt.bootStep pwr, phase⟩
    · obtain ⟨runs, phase, role⟩ := bootEnds_runs (atStep d 9)
      have last := run (n := 9) (by omega) (by decide) (by decide) (by decide)
      rw [bootStep_last] at last
      refine ⟨_, last, rfl, ?_⟩
      dsimp only
      exact ⟨runs, phase, role⟩
  case wakes =>
    intro wake
    have act : exec (.wakeStep t wo) s = onAonMem t (fun mem d => d.wakeStep wo mem) s := by rfl
    refine ⟨fun step more => ?_, fun step => ?_, fun off step => ?_, fun low high late => ?_⟩
    · exact act.trans (onAonMem_of (wakeStep_begins wo s.mem wake step more))
    · obtain ⟨state, idle, count⟩ := wakeEnds_runs d w
      have run : exec (.wakeStep t wo) s = .next { s with dev := d.wakeEnds w } :=
        act.trans (onAonMem_of (wakeStep_ends wo s.mem wake step))
      refine ⟨_, run, rfl, ?_⟩
      dsimp only
      exact ⟨state, idle, count⟩
    · have h := startRom_atRom (d := d) off
      exact ⟨_, act.trans (onAonMem_of (wakeStep_startsRom wo s.mem wake off step)), resets h.reset, h.state, h.cause,
        h.high, h.wake, h.at_⟩
    · obtain ⟨e, input, out, h⟩ := wakeTimedOut_off s.mem wake low high late
      have run : exec (.wakeStepTimeout t) s = onAonMem t (fun mem d => d.wakeTimedOut mem) s := by rfl
      exact ⟨_, input, run.trans (onAonMem_of out), rfl, h.state, h.wake, h.enables, h.enteredAt, h.failed, h.fault⟩
  case retry =>
    intro state early
    have act : exec (.pciePerstHigh t) s = .next { s with dev := (d.setPwr { p with perst := true }).pcieLink } := by rfl
    rw [act, pcieLink_retries d state early]
    rfl
  case train =>
    intro state enabled
    have act : exec (.pciePerstHigh t) s = .next { s with dev := (d.setPwr { p with perst := true }).pcieLink } := by rfl
    rw [act, pcieLink_trains d state enabled]
    rfl
end
